-- ==== Sys2Proof/Word.lean ====
section
/-! DEFINITION. Words, register numbers and sparse tables. -/

namespace Sys2Proof

/-- A 64-bit scalar. -/
abbrev W64 := BitVec 64
/-- A 72-bit address (01_machine R24). -/
abbrev VAddr := BitVec 72
/-- A v-register (06_vector R112). -/
abbrev V512 := BitVec 512
/-- Register numbers (02_encoding R29). -/
abbrev SReg := BitVec 5
abbrev AReg := BitVec 4
abbrev VReg := BitVec 5
abbrev MReg := BitVec 3
/-- An extended immediate; 47 bits is the widest (02_encoding R32). -/
abbrev Imm := BitVec 47

/-- A sparse table: keys strictly rising, no entry equal to what an unlisted key reads as. -/
abbrev Tab (α : Type) := List (Nat × α)

end Sys2Proof
end

