-- ==== Sys2Proof/Syntax.lean ====
section
/-! DEFINITION. The syntax: one constructor for every row of spec/opcode_table.json, the bundles of
02_encoding R36-R41 and the device's own steps. A bundle's constructor holds the operands its fields name
(`d`, `a`, `b`), the width `w`, the mask `m`, the order or scope `x`, the FSEL slot `fs` and the extended
immediate `i`. A device step's constructor names the agent that moves, or holds what comes from outside. -/

namespace Sys2Proof

/-- The engines that can stall on a soft fault (11_engines R210, 23_link R370, 21_layer R344). -/
inductive Engine where
  | copy | transform | link | compositor
  deriving DecidableEq, Repr

/-- A TLB: of a core for data or fetch, or of a cluster (12_page R228). -/
inductive TlbId where
  | data (core : Nat)
  | fetch (core : Nat)
  | second (clu : Nat)
  deriving DecidableEq, Repr

/-- What BOOT finds in the fuses, the boot flash and its own layout (24_device R381, R382). -/
structure BootCfg where
  node : BitVec 12
  /-- defective physical cores, (cluster, physical core) -/
  defects : List (Nat × Nat)
  ctxTable : Nat
  queueTable : Nat
  cring : Nat
  ering : Nat
  formatImage : Nat
  multicast : Nat
  /-- level-4, level-3 and level-2 tables of context 0 -/
  table4 : Nat
  table3 : Nat
  table2 : Nat
  freeBase : Nat
  peer : BitVec 512
  security : BitVec 16
  /-- node table, (node, endpoint), and exported 4 KiB pages (23_link R376) -/
  nodes : List (Nat × Nat) := []
  exports : List Nat := []
  deriving DecidableEq, Repr

/-- A packet that arrives at an endpoint (23_link R372, R375). -/
structure Packet where
  /-- passes authentication under the endpoint's security association (R375) -/
  authentic : Bool
  /-- its place in the order in which the peer issued the packets of the endpoint (R372) -/
  seq : Nat
  /-- a retransmitted duplicate of a packet already placed (R372) -/
  duplicate : Bool
  /-- remote address in the endpoint's context -/
  va : BitVec 72
  /-- the bytes written or sent, lowest address first -/
  data : List (BitVec 8)
  /-- length of a read -/
  len : Nat
  /-- arrival word to credit, on this device: core, offset (R373) -/
  credit : Option (Nat × Nat)
  /-- atomic: 0 add, 1 swap, 2 compare-and-swap (R369) -/
  amo : BitVec 4
  operand : BitVec 64
  compare : BitVec 64
  deriving DecidableEq, Repr

/-- What the peer answers to a packet this device sent (23_link R367, R368, R371, R372). -/
inductive Reply where
  /-- placed or executed; the bytes a read or an atomic returns -/
  | done (data : List (BitVec 8))
  /-- refused with a reason of R368 -/
  | refused (reason : BitVec 4)
  /-- a soft fault at the peer: retransmit after the backoff -/
  | retry
  /-- an access to a page that the peer does not export, or has not got (23_link R376) -/
  | absent
  deriving DecidableEq, Repr

/-- The queues of engines whose entries a soft error can strike: of a core its copy, transfer and spawn queues, of a
cluster its transform port, of a die its compositor's; and of a core its special-function queue and, by their place among
the links, the chain queues (24_device R385). -/
inductive HitQueue where
  | copy | transfer | spawn | transform | compositor | special | chain
  deriving DecidableEq, Repr

/-- What a soft error strikes (24_device R385, R386). -/
inductive Hit where
  /-- a dword of device memory; whether the first read is corrected, and whether the retry is clean (R385) -/
  | memory (pa : Nat) (corrected clean : Bool)
  /-- a core's array by the number of R387, what is read there (`State.arrayTouch`), the syndrome, the context of the
  access, and the two reads -/
  | array (core : Nat) (array : BitVec 8) (key : Nat) (syndrome : BitVec 8) (ctx : Nat) (corrected clean : Bool)
  /-- an entry of a cluster's second-level TLB, by its place -/
  | second (clu k : Nat) (corrected clean : Bool)
  /-- an entry of the tag table, by its place -/
  | tag (k : Nat) (corrected clean : Bool)
  /-- an entry of an engine's queue: of which core, cluster or die, and its place -/
  | queue (q : HitQueue) (n k : Nat) (corrected clean : Bool)
  /-- a dword of a map line that a core's LOD unit caches: the line's place, and the dword's in it -/
  | map (core k dword : Nat) (corrected clean : Bool)
  deriving DecidableEq, Repr

/-- The steps of the device: the bundles a thread issues and the steps the device takes by itself. -/
inductive Instr where
  /-- DEVICE_RESET, R380. Power-on or management reset stops all activity and leaves every context, queue, endpoint, port and array in its reset state. -/
  | deviceReset
  /-- BOOT, R381. The management processor authenticates firmware, trains HBM, applies fuses, zeroes memory and creates context 0, queue 0 and endpoint 0 (with what the boot flash, the fuses and the firmware fix). -/
  | boot (c : BootCfg)
  /-- POWER_LIMIT_SET, R2. The management controller or interface sets the module power limit within 1,200–2,400 W, effective at the next grant. -/
  | powerLimitSet (watts : Nat)
  /-- REEF_GRANT, R383. Every 1 µs Reef divides the power limit into per-die current grants that set the idle tile steps (`idle` of every 8 tile steps of the die are idled under the new grant). -/
  | reefGrant (die idle : Nat)
  /-- WATCHDOG_EXPIRE, R389. A core's watchdog reaches 2^24 cycles without retirement and Shroud fences the core. -/
  | watchdogExpire (core : Nat)
  /-- MESSAGE_RETRY, R15. A sender retries a refused message to one target core in original order after a remap. -/
  | messageRetry (src tgt : Nat)
  /-- SLEEP_TIMEOUT, R53. The SLEEP timeout expires and the sleeping thread becomes RUNNABLE. -/
  | sleepTimeout (thr : Nat)
  /-- WAKE_ARRIVE, R53. A WAKE reaches its target slot, ending a sleep or setting the wake-pending bit. -/
  | wakeArrive (thr : Nat)
  /-- RESUME_ARRIVE, R53. A RESUME reaches its target, reissuing a dropped bundle or clearing a saved dropped mark. -/
  | resumeArrive (thr : Nat)
  /-- ABORT_ARRIVE, R53. An ABORT reaches its target, which ends at its next bundle boundary. -/
  | abortArrive (thr : Nat)
  /-- LONG_LATENCY_COMPLETE, R59. A committed long-latency bundle completes, writing its destination registers or receiving its reply (the `k`-th outstanding bundle of the thread, oldest 0). -/
  | longLatencyComplete (thr k : Nat)
  /-- SFU_COMPLETE, R123. An accepted special-function bundle completes 28 cycles after acceptance, writing v_d and ORing flags. -/
  | sfuComplete (core : Nat)
  /-- FAULT_RECORD_RETRY, R237. A fault record held for ring space is retried every 4,096 core cycles. -/
  | faultRecordRetry (clu : Nat)
  /-- HANDLER_LIMIT, R58. A handler's 65th bundle traps HANDLER before decode (the bundle being issued). -/
  | handlerLimit
  /-- WAITTL_COMPLETE, R204. A waiting WAITTL completes when done reaches its value, acquiring the class effects or trapping with an error. -/
  | waittlComplete (thr : Nat)
  /-- WAITGEN_COMPLETE, R165. A waiting WAITGEN completes when the generation moves past the value seen, acquiring the releasing credits. -/
  | waitgenComplete (thr : Nat)
  /-- TAGWAIT_COMPLETE, R281. A waiting TAGWAIT completes when the tile is READY at its generation or the buffer's done reaches it. -/
  | tagwaitComplete (thr : Nat)
  /-- QIN_POP_COMPLETE, R167. A bundle waiting on an empty upstream link pops a value once one arrives. -/
  | qinPopComplete (thr : Nat)
  /-- QOUT_PUSH_COMPLETE, R167. A bundle waiting on a full downstream link pushes once there is room. -/
  | qoutPushComplete (thr : Nat)
  /-- SPAWNW_COMPLETE, R57. A waiting SPAWNW starts its task when a slot of the target frees. -/
  | spawnwComplete (thr : Nat)
  /-- GANG_FORM, R63. The last member issues GANGn and all members complete it together, followers taking the leader's registers and PC. -/
  | gangForm (thr : Nat)
  /-- QCFG_DISCONNECT_COMPLETE, R57. A waiting QCFG disconnect removes the downstream link once it is empty. -/
  | qcfgDisconnectComplete (thr : Nat)
  /-- TRIPOP_COMPLETE, R360. A TRIPOP waiting for a record completes when a record of the set arrives. -/
  | tripopComplete (thr : Nat)
  /-- PXLOCK_GRANT, R350. A waiting PXLOCK is granted the quad once no ticket holds it and lower covering tickets have released it. -/
  | pxlockGrant (thr : Nat)
  /-- FMTSET_INSTALL, R98. An FMTSET waiting for a free codebook version slot installs its values and completes. -/
  | fmtsetInstall (thr : Nat)
  /-- HANDLER_START, R155. A queued MSG starts its handler on slot 7 with the payload, sender and context, or is refused. -/
  | handlerStart (src tgt : Nat)
  /-- BUILTIN_HANDLER_ACCESS, R152. Built-in handler 0 performs an arriving RLD, RST, RADD or RADDR at the target's local-store port. -/
  | builtinHandlerAccess (src tgt : Nat)
  /-- ARRIVAL_CREDIT, R161. A credit of n is applied to an arrival word in one port step, advancing generations and re-evaluating waiters. -/
  | arrivalCredit (src tgt : Nat)
  /-- L1_INVALIDATE, R139. An invalidation from a home slice removes a line from a core's L1. -/
  | l1Invalidate (core : Nat)
  /-- STORE_ACK, R139. A home slice acknowledges a write-through store, which then updates any L1 copy. -/
  | storeAck (core : Nat)
  /-- MATRIX_TILE_STEP, R181. The matrix unit executes one tile step of a core's queue head within the arbitration round. -/
  | matrixTileStep (clu : Nat)
  /-- MATRIX_ENTRY_COMPLETE, R173. A matrix queue entry completes, advancing the issuer's class 0 done counter and releasing codebook versions. -/
  | matrixEntryComplete (core : Nat)
  /-- DRAIN_WRITE_ACK, R173. The target port acknowledges a drain's writes, completing MDRAIN. -/
  | drainWriteAck (core : Nat)
  /-- DRAIN_WAKE, R187. An MDRAINW's wake starts a task on the target or takes its reserved spawn-queue entry. -/
  | drainWake (core : Nat)
  /-- SPAWN_QUEUE_SERVE, R187. A queued wake starts its task when a slot of the issuer's context frees. -/
  | spawnQueueServe (core : Nat)
  /-- MATRIX_FREEZE, R199. A requested freeze takes effect at the end of the core's current tile step. -/
  | matrixFreeze (core : Nat)
  /-- SPILL_REPLY, R199. An operand reply arriving after a freeze lands in the spill ring. -/
  | spillReply (core : Nat) (data : BitVec 1024)
  /-- MQCTL_STOP, R202. A CSRW of MQCTL stop requests a freeze, or with 0 lets an unsaved queue run. -/
  | mqctlStop (core : Nat) (stop : Bool)
  /-- MQCTL_MASKERR_CLEAR, R202. Writing 1 to MQCTL maskerr clears the sparsity mask-error bit. -/
  | mqctlMaskerrClear (core : Nat)
  /-- COPY_UNIT, R211. The copy engine moves one 64-byte unit of a request and credits its arrival word. -/
  | copyUnit (core : Nat)
  /-- COPY_COMPLETE, R207. A copy request completes its last write and ORs its flags, advancing the class 1 done counter. -/
  | copyComplete (core : Nat)
  /-- ENGINE_FAULT_RETRY, R210. A stalled engine request retries its translation every 4,096 core cycles. -/
  | engineFaultRetry (e : Engine) (n : Nat)
  /-- COMPRESS, R216. The transform coprocessor compresses 256-byte blocks into records and writes the byte count. -/
  | compress (clu : Nat)
  /-- DECOMPRESS, R216. The transform coprocessor decompresses records, flagging malformed input in the result. -/
  | decompress (clu : Nat)
  /-- FPRINT, R215. The transform coprocessor fingerprints the source dwords. -/
  | fprint (clu : Nat)
  /-- COMPARE, R215. The transform coprocessor writes the first differing offset of two areas, or all-ones. -/
  | compare (clu : Nat)
  /-- CRC32C, R215. The transform coprocessor writes the CRC-32C of the source bytes. -/
  | crc32c (clu : Nat)
  /-- PAGE_WALK, R226. A walker walks the page tables for a miss and fills the TLBs, or restarts on a shoot-down change. -/
  | pageWalk (clu : Nat)
  /-- AD_WRITEBACK, R231. Gathered A and D bits are ORed into the leaf while node and PPN still match. -/
  | adWriteback (t : TlbId) (k : Nat)
  /-- AD_WRITEBACK_TIMEOUT, R231. 2^20 core cycles after a bit was gathered, it is written back. -/
  | adWritebackTimeout (t : TlbId) (k : Nat)
  /-- FEEDBACK_RECORD_WRITE, R254. A sent LOD feedback record is written to the ring with a head release, or dropped when full. -/
  | feedbackRecordWrite (core : Nat)
  /-- KERNEL_END, R273. A kernel whose tasks and operations are done writes back A and D, updates done and writes its completion record. -/
  | kernelEnd (ser : Nat)
  /-- HELD_DONE_UPDATE, R266. A held done-generation update is applied once done reaches G − 1. -/
  | heldDoneUpdate (k : Nat)
  /-- HELD_PUBLICATION_APPLY, R277. A held publication is applied when the entry's pending count reaches 0. -/
  | heldPublicationApply (clu : Nat)
  /-- GROUP_ADMIT, R289. A dispatcher admits a group and registers its input tiles. -/
  | groupAdmit (die ser : Nat)
  /-- GROUP_PLACE, R291. Every 16 cycles a dispatcher places or restores the first eligible candidate on a qualifying cluster. -/
  | groupPlace (die : Nat)
  /-- GROUP_END, R294. A placed group whose slots are all free and unreferenced ends, releasing slots, links and region. -/
  | groupEnd (ser g : Nat)
  /-- PREEMPTION_TRIGGER, R295. A READY group unplaceable for 50 µs triggers pre-emption of the newest lowest-priority placed group. -/
  | preemptionTrigger (die : Nat)
  /-- GROUP_SAVE_COMPLETE, R295. A pre-empted group's threads, region, links and spawn entries are saved and its slots released. -/
  | groupSaveComplete (ser g : Nat)
  /-- TRIANGLE_DELIVER, R348. A triangle record is delivered once to each member owning a bin its box meets. -/
  | triangleDeliver (src tgt : Nat)
  /-- COMPOSITE, R340. The compositor executes a COMPOSE: updates or swaps layers, posts requests and writes the frame. -/
  | composite (die : Nat)
  /-- LAYSPLIT_COPY, R357. On class 4 the compositor copies the parent's rectangle into the child and clears it in the parent. -/
  | laysplitCopy (die : Nat)
  /-- LAYMERGE_FOLD, R358. On class 4 the compositor folds the source into the target, posts a request and retires the source. -/
  | laymergeFold (die : Nat)
  /-- COMMAND_ARRIVE, R320. A host command arrives by Halyard send and is placed, discarded as duplicate, or refused. -/
  | commandArrive (q : Nat) (cmd : BitVec 512)
  /-- NOP, R318. Queue command that executes at once. -/
  | nop (q : Nat)
  /-- LAUNCH, R265. Queue command that checks a kernel object, raises buffer generations and hands groups to the dispatchers. -/
  | launch (q : Nat)
  /-- WAIT, R318. Queue command that blocks the queue until a dword reaches a value. -/
  | wait (q : Nat)
  /-- WRITE, R318. Queue command that writes a dword. -/
  | write (q : Nat)
  /-- EVENT, R322. Queue command that writes a completion record with a user value. -/
  | event (q : Nat)
  /-- BLOCK_CLEAR, R321. A WAIT condition or drain hold clears and the blocked queue runs on. -/
  | blockClear (q : Nat)
  /-- QUEUE_STALL_RETRY, R320. A STALLED queue retries its command every 4,096 core cycles. -/
  | queueStallRetry (q : Nat)
  /-- COMPLETION_RECORD_RETRY, R323. A completion record waiting for ring space is retried every 4,096 core cycles. -/
  | completionRecordRetry (q : Nat)
  /-- NOTIFY_TIMER, R324. T µs after the first unnotified record, the queue sends a notification. -/
  | notifyTimer (q : Nat)
  /-- CONTEXT_CREATE, R300. MGMT subcode 1 fills a context record from an image and makes it LIVE. -/
  | contextCreate (q : Nat)
  /-- CONTEXT_SUSPEND, R300. MGMT subcode 2 stops the context's queues, pre-empts its groups and writes its format image. -/
  | contextSuspend (q : Nat)
  /-- SUSPEND_COMPLETE, R300. The suspend completes and the context becomes SUSPENDED when all groups are saved or ended. -/
  | suspendComplete (c : Nat)
  /-- CONTEXT_RESUME, R300. MGMT subcode 3 reloads the format table, restarts the queues and makes the context LIVE. -/
  | contextResume (q : Nat)
  /-- CONTEXT_KILL, R306. MGMT subcode 4 kills a context: queues halt, threads stop, operations and tags are discarded. -/
  | contextKill (q : Nat)
  /-- KILL_FINISH, R306. When every thread and discarded operation is gone, unended kernels write KILLED records. -/
  | killFinish (c : Nat)
  /-- CONTEXT_RELEASE, R300. MGMT subcode 5 returns a DEAD context to FREE once its kill has finished. -/
  | contextRelease (q : Nat)
  /-- QUEUE_CREATE, R325. MGMT subcode 6 creates a queue in RUNNING with empty rings. -/
  | queueCreate (q : Nat)
  /-- QUEUE_SET, R325. MGMT subcode 7 sets a queue's coalescing time, record count and endpoint. -/
  | queueSet (q : Nat)
  /-- QUEUE_DESTROY, R321. MGMT subcode 8 returns a stopped or halted queue to FREE. -/
  | queueDestroy (q : Nat)
  /-- VF_SET, R325. MGMT subcode 9 sets a VF's command, tag, queue quotas and placement weight. -/
  | vfSet (q : Nat)
  /-- VF_RESET, R327. MGMT subcode 10 starts a VF reset: the VF's queues stop and its kernels go STOPPING. -/
  | vfReset (q : Nat)
  /-- VFCTL_RESET, R328. A CSRW of VFCTL with reset set starts the reset of the named VF (`v` is the value written to VFCTL). -/
  | vfctlReset (v : BitVec 64)
  /-- VF_RESET_GRACE_EXPIRE, R327. The grace time expires and every context of the VF is killed. -/
  | vfResetGraceExpire
  /-- VF_RESET_DRAIN_DONE, R327. VFSTAT counts no request of the VF; cores are scrubbed, tags freed and contexts and queues freed. -/
  | vfResetDrainDone
  /-- ENDPOINT_OPEN, R366. MGMT subcode 11 opens a Halyard endpoint bound to a context, mode, kind and peer. -/
  | endpointOpen (q : Nat)
  /-- ENDPOINT_CLOSE, R366. MGMT subcode 12 closes an endpoint once its outstanding transfers complete. -/
  | endpointClose (q : Nat)
  /-- TRAINING_SUCCEEDS, R365. A DOWN port finishes training and its paths are added to every endpoint. -/
  | trainingSucceeds (port : Nat)
  /-- SIGNAL_LOST, R365. A port loses signal and its paths are withdrawn, with packets retransmitted elsewhere. -/
  | signalLost (port : Nat)
  /-- PORT_DISABLE, R365. Firmware disables a port. -/
  | portDisable (port : Nat)
  /-- PORT_ENABLE, R365. Firmware enables a disabled port, which starts training. -/
  | portEnable (port : Nat)
  /-- RETRANSMIT, R372. A sender retransmits an unacknowledged or retry-answered packet after its backoff (the `k`-th outstanding packet of the endpoint). -/
  | retransmit (ep k : Nat)
  /-- RETRANSMIT_LIMIT, R367. A packet retransmitted 64 times fails the endpoint and its outstanding transfers. -/
  | retransmitLimit (ep k : Nat)
  /-- PACKET_WRITE, R372. An arriving write packet is translated in the endpoint's context and placed, with any credit. -/
  | packetWrite (ep : Nat) (p : Packet)
  /-- PACKET_READ, R375. An arriving read packet reads the endpoint's memory and returns the data. -/
  | packetRead (ep : Nat) (p : Packet)
  /-- PACKET_ATOMIC, R375. An arriving atomic packet is performed at DOMAIN scope. -/
  | packetAtomic (ep : Nat) (p : Packet)
  /-- PACKET_SEND, R375. An arriving 64-byte send is placed as a command in the endpoint's queue. -/
  | packetSend (ep : Nat) (p : Packet)
  /-- PACKET_ACK, R371. Acknowledgements or returned data arrive and complete a transfer on the class 3 timeline (the peer answers the `k`-th outstanding packet of the endpoint). -/
  | packetAck (ep k : Nat) (r : Reply)
  /-- ELSEL_CLEAR, R387. Writing ELSEL with clear set empties the selected array's error log. -/
  | elselClear (core : Nat)
  /-- ADD, R71. 64-bit wrapping add. -/
  | add (d a b : SReg)
  /-- ADDW, R71. 32-bit add, sign-extended. -/
  | addw (d a b : SReg)
  /-- SUB, R71. 64-bit wrapping subtract. -/
  | sub (d a b : SReg)
  /-- SUBW, R71. 32-bit subtract, sign-extended. -/
  | subw (d a b : SReg)
  /-- AND, R71. Bitwise and. -/
  | and (d a b : SReg)
  /-- OR, R71. Bitwise or. -/
  | or (d a b : SReg)
  /-- XOR, R71. Bitwise exclusive or. -/
  | xor (d a b : SReg)
  /-- ANDN, R71. And with complement. -/
  | andn (d a b : SReg)
  /-- SLL, R71. Logical left shift by register. -/
  | sll (d a b : SReg)
  /-- SRL, R71. Logical right shift by register. -/
  | srl (d a b : SReg)
  /-- SRA, R71. Arithmetic right shift by register. -/
  | sra (d a b : SReg)
  /-- ROR, R71. Rotate right by register. -/
  | ror (d a b : SReg)
  /-- CEQ, R71. Compare equal. -/
  | ceq (d a b : SReg)
  /-- CNE, R71. Compare not equal. -/
  | cne (d a b : SReg)
  /-- CLT, R71. Signed compare less than. -/
  | clt (d a b : SReg)
  /-- CLTN, R71. Unsigned compare less than. -/
  | cltn (d a b : SReg)
  /-- ADDI, R72. Add sign-extended immediate. -/
  | addi (d a : SReg) (i : Imm)
  /-- ANDI, R72. And with sign-extended immediate. -/
  | andi (d a : SReg) (i : Imm)
  /-- ORI, R72. Or with zero-extended immediate. -/
  | ori (d a : SReg) (i : Imm)
  /-- XORI, R72. Exclusive or with zero-extended immediate. -/
  | xori (d a : SReg) (i : Imm)
  /-- SLLI, R72. Logical left shift by immediate. -/
  | slli (d a : SReg) (i : Imm)
  /-- SRLI, R72. Logical right shift by immediate. -/
  | srli (d a : SReg) (i : Imm)
  /-- SRAI, R72. Arithmetic right shift by immediate. -/
  | srai (d a : SReg) (i : Imm)
  /-- CLTI, R72. Signed compare with immediate. -/
  | clti (d a : SReg) (i : Imm)
  /-- LI, R73. Load sign-extended immediate. -/
  | li (d : SReg) (i : Imm)
  /-- MOV, R73. Copy an s-register. -/
  | mov (d a : SReg)
  /-- MOVAA, R73. Copy an a-register. -/
  | movaa (d a : AReg)
  /-- ADDA, R74. Add signed index to address register. -/
  | adda (d a : AReg) (b : SReg)
  /-- ADDA2, R74. Add index scaled by 2 to address register. -/
  | adda2 (d a : AReg) (b : SReg)
  /-- ADDA4, R74. Add index scaled by 4 to address register. -/
  | adda4 (d a : AReg) (b : SReg)
  /-- ADDA8, R74. Add index scaled by 8 to address register. -/
  | adda8 (d a : AReg) (b : SReg)
  /-- ADDAI, R74. Add immediate to address register. -/
  | addai (d a : AReg) (i : Imm)
  /-- BZ, R77. Branch if zero. -/
  | bz (a : SReg) (i : Imm)
  /-- BNZ, R77. Branch if nonzero. -/
  | bnz (a : SReg) (i : Imm)
  /-- BLTZ, R77. Branch if negative. -/
  | bltz (a : SReg) (i : Imm)
  /-- BGEZ, R77. Branch if not negative. -/
  | bgez (a : SReg) (i : Imm)
  /-- BGTZ, R77. Branch if positive. -/
  | bgtz (a : SReg) (i : Imm)
  /-- BLEZ, R77. Branch if not positive. -/
  | blez (a : SReg) (i : Imm)
  /-- BMANY, R77. Branch if any mask bit set. -/
  | bmany (a : MReg) (i : Imm)
  /-- BMNONE, R77. Branch if no mask bit set. -/
  | bmnone (a : MReg) (i : Imm)
  /-- J, R33. PC-relative jump. -/
  | j (i : Imm)
  /-- JAL, R33. PC-relative jump linking s28. -/
  | jal (i : Imm)
  /-- JR, R78. Jump to register. -/
  | jr (a : SReg)
  /-- JALR, R78. Jump to register with link. -/
  | jalr (d a : SReg)
  /-- MUL, R37. Low 64 bits of product. -/
  | mul (d a b : SReg)
  /-- MULW, R37. Low 32 bits of product, sign-extended. -/
  | mulw (d a b : SReg)
  /-- MULH, R37. High half of signed product. -/
  | mulh (d a b : SReg)
  /-- MULHN, R37. High half of unsigned product. -/
  | mulhn (d a b : SReg)
  /-- DIV, R79. Signed 64-bit divide, long-latency, DIVZ on zero. -/
  | div (d a b : SReg)
  /-- DIVN, R79. Unsigned 64-bit divide. -/
  | divn (d a b : SReg)
  /-- REM, R79. Signed 64-bit remainder. -/
  | rem (d a b : SReg)
  /-- REMN, R79. Unsigned 64-bit remainder. -/
  | remn (d a b : SReg)
  /-- DIVW, R79. Signed 32-bit divide. -/
  | divw (d a b : SReg)
  /-- DIVNW, R79. Unsigned 32-bit divide. -/
  | divnw (d a b : SReg)
  /-- REMW, R79. Signed 32-bit remainder. -/
  | remw (d a b : SReg)
  /-- REMNW, R79. Unsigned 32-bit remainder. -/
  | remnw (d a b : SReg)
  /-- MIN, R37. Signed minimum. -/
  | min (d a b : SReg)
  /-- MAX, R37. Signed maximum. -/
  | max (d a b : SReg)
  /-- MINN, R37. Unsigned minimum. -/
  | minn (d a b : SReg)
  /-- MAXN, R37. Unsigned maximum. -/
  | maxn (d a b : SReg)
  /-- CLZ, R37. Count leading zeros. -/
  | clz (d a : SReg)
  /-- CTZ, R37. Count trailing zeros. -/
  | ctz (d a : SReg)
  /-- POPC, R37. Population count. -/
  | popc (d a : SReg)
  /-- BREV, R37. Bit reverse. -/
  | brev (d a : SReg)
  /-- BEXT, R80. Extract unsigned bit field. -/
  | bext (d a b : SReg)
  /-- BEXTS, R80. Extract signed bit field. -/
  | bexts (d a b : SReg)
  /-- BINS, R80. Insert bit field. -/
  | bins (d a b : SReg)
  /-- BMSK, R80. Mask to bit field. -/
  | bmsk (d a b : SReg)
  /-- BEXTI, R80. Extract unsigned field given by immediate. -/
  | bexti (d a : SReg) (i : Imm)
  /-- BEXTSI, R80. Extract signed field given by immediate. -/
  | bextsi (d a : SReg) (i : Imm)
  /-- FSHL, R81. Funnel shift left. -/
  | fshl (d a b : SReg)
  /-- FSHR, R81. Funnel shift right. -/
  | fshr (d a b : SReg)
  /-- SEL, R37. Select by old s_d. -/
  | sel (d a b : SReg)
  /-- SEXTB, R37. Sign-extend byte. -/
  | sextb (d a : SReg)
  /-- SEXTH, R37. Sign-extend halfword. -/
  | sexth (d a : SReg)
  /-- SEXTW, R37. Sign-extend word. -/
  | sextw (d a : SReg)
  /-- ZEXTW, R37. Zero-extend word. -/
  | zextw (d a : SReg)
  /-- FADD, R108. Scalar float add in the FSEL slot format. -/
  | fadd (d a b : SReg) (fs : BitVec 2)
  /-- FSUB, R108. Scalar float subtract. -/
  | fsub (d a b : SReg) (fs : BitVec 2)
  /-- FMUL, R108. Scalar float multiply. -/
  | fmul (d a b : SReg) (fs : BitVec 2)
  /-- FFMA, R108. Scalar fused multiply-add. -/
  | ffma (d a b : SReg) (fs : BitVec 2)
  /-- FEQ, R109. Float compare equal. -/
  | feq (d a b : SReg) (fs : BitVec 2)
  /-- FLT, R109. Float compare less than. -/
  | flt (d a b : SReg) (fs : BitVec 2)
  /-- FLE, R109. Float compare less or equal. -/
  | fle (d a b : SReg) (fs : BitVec 2)
  /-- FUNORD, R109. Float unordered test. -/
  | funord (d a b : SReg) (fs : BitVec 2)
  /-- FTOI, R110. Float to signed integer toward zero. -/
  | ftoi (d a : SReg) (fs : BitVec 2)
  /-- ITOF, R110. Signed integer to float. -/
  | itof (d a : SReg) (fs : BitVec 2)
  /-- FTOIN, R110. Float to unsigned integer toward zero. -/
  | ftoin (d a : SReg) (fs : BitVec 2)
  /-- ITOFN, R110. Unsigned integer to float. -/
  | itofn (d a : SReg) (fs : BitVec 2)
  /-- ABS, R37. Integer absolute value. -/
  | abs (d a : SReg)
  /-- NEG, R37. Integer negation. -/
  | neg (d a : SReg)
  /-- FABS, R111. Clear float sign bit. -/
  | fabs (d a : SReg) (fs : BitVec 2)
  /-- FNEG, R111. Invert float sign bit. -/
  | fneg (d a : SReg) (fs : BitVec 2)
  /-- CRD, R21. Read a coordinate or identity selector. -/
  | crd (d : SReg) (i : Imm)
  /-- MOVA, R75. s-register to address register, high byte 0. -/
  | mova (d : AReg) (a : SReg)
  /-- MOVS, R75. Low 64 bits of address register to s-register. -/
  | movs (d : SReg) (a : AReg)
  /-- MOVAH, R75. Set address register high byte. -/
  | movah (d : AReg) (a : SReg)
  /-- MOVSH, R75. Read address register high byte. -/
  | movsh (d : SReg) (a : AReg)
  /-- LDB, R145. Load signed byte. -/
  | ldb (d : SReg) (a : AReg) (x : BitVec 3) (i : Imm)
  /-- LDBZ, R145. Load unsigned byte. -/
  | ldbz (d : SReg) (a : AReg) (x : BitVec 3) (i : Imm)
  /-- LDH, R145. Load signed halfword. -/
  | ldh (d : SReg) (a : AReg) (x : BitVec 3) (i : Imm)
  /-- LDHZ, R145. Load unsigned halfword. -/
  | ldhz (d : SReg) (a : AReg) (x : BitVec 3) (i : Imm)
  /-- LDW, R145. Load signed word. -/
  | ldw (d : SReg) (a : AReg) (x : BitVec 3) (i : Imm)
  /-- LDWZ, R145. Load unsigned word. -/
  | ldwz (d : SReg) (a : AReg) (x : BitVec 3) (i : Imm)
  /-- LDD, R145. Load dword. -/
  | ldd (d : SReg) (a : AReg) (x : BitVec 3) (i : Imm)
  /-- STB, R145. Store byte. -/
  | stb (d : SReg) (a : AReg) (x : BitVec 3) (i : Imm)
  /-- STH, R145. Store halfword. -/
  | sth (d : SReg) (a : AReg) (x : BitVec 3) (i : Imm)
  /-- STW, R145. Store word. -/
  | stw (d : SReg) (a : AReg) (x : BitVec 3) (i : Imm)
  /-- STD, R145. Store dword. -/
  | std (d : SReg) (a : AReg) (x : BitVec 3) (i : Imm)
  /-- LDL, R148. Load from own local store. -/
  | ldl (w : BitVec 2) (d a : SReg) (x : BitVec 3)
  /-- STL, R148. Store to own local store. -/
  | stl (w : BitVec 2) (d a : SReg) (x : BitVec 3)
  /-- LDA, R146. Load 72-bit pointer from 16-byte slot. -/
  | lda (d a : AReg) (x : BitVec 3) (i : Imm)
  /-- STA, R146. Store 72-bit pointer to 16-byte slot. -/
  | sta (d a : AReg) (x : BitVec 3) (i : Imm)
  /-- AMOADD, R149. Atomic add on a dword. -/
  | amoadd (d : SReg) (a : AReg) (b : SReg) (x : BitVec 3)
  /-- AMOSWAP, R149. Atomic swap. -/
  | amoswap (d : SReg) (a : AReg) (b : SReg) (x : BitVec 3)
  /-- AMOAND, R149. Atomic and. -/
  | amoand (d : SReg) (a : AReg) (b : SReg) (x : BitVec 3)
  /-- AMOOR, R149. Atomic or. -/
  | amoor (d : SReg) (a : AReg) (b : SReg) (x : BitVec 3)
  /-- AMOXOR, R149. Atomic exclusive or. -/
  | amoxor (d : SReg) (a : AReg) (b : SReg) (x : BitVec 3)
  /-- AMOMIN, R149. Atomic signed minimum. -/
  | amomin (d : SReg) (a : AReg) (b : SReg) (x : BitVec 3)
  /-- AMOMAX, R149. Atomic signed maximum. -/
  | amomax (d : SReg) (a : AReg) (b : SReg) (x : BitVec 3)
  /-- AMOMINN, R149. Atomic unsigned minimum. -/
  | amominn (d : SReg) (a : AReg) (b : SReg) (x : BitVec 3)
  /-- CAS, R149. Atomic compare-and-swap on device memory. -/
  | cas (d : SReg) (a : AReg) (b : SReg) (x : BitVec 3)
  /-- LADD, R150. Atomic add on own local-store dword. -/
  | ladd (d a b : SReg) (x : BitVec 3)
  /-- LSWAP, R150. Atomic swap on own local-store dword. -/
  | lswap (d a b : SReg) (x : BitVec 3)
  /-- LMIN, R150. Atomic signed minimum on local-store dword. -/
  | lmin (d a b : SReg) (x : BitVec 3)
  /-- LMAX, R150. Atomic signed maximum on local-store dword. -/
  | lmax (d a b : SReg) (x : BitVec 3)
  /-- CASL, R150. Compare-and-swap on local-store dword. -/
  | casl (d a b : SReg) (x : BitVec 3)
  /-- FENCE, R151. Orders selected access classes at a scope and raises pending remote refusals. -/
  | fence (i : Imm)
  /-- PREF, R147. Prefetch hint for a 64-byte line. -/
  | pref (a : AReg) (i : Imm)
  /-- RLD, R152. Load from another core's local store. -/
  | rld (w : BitVec 2) (d a b : SReg)
  /-- RST, R152. Store to another core's local store. -/
  | rst (w : BitVec 2) (d a b : SReg)
  /-- RADD, R152. Remote 32-bit add, crediting when aimed at an arrival count. -/
  | radd (d a b : SReg)
  /-- RADDR, R152. Remote 32-bit add returning the old word. -/
  | raddr (d a b : SReg)
  /-- MSG, R155. Queue an active-message handler run on a target core. -/
  | msg (d : BitVec 3) (a b : SReg)
  /-- REPLY, R157. Write an answer dword to the sender and wake it. -/
  | reply (a : SReg)
  /-- HSET, R158. Install a handler code address for the context. -/
  | hset (d : SReg) (i : Imm)
  /-- VADD, R117. Vector integer add. -/
  | vadd (w : BitVec 2) (d a b : VReg) (m : MReg)
  /-- VSUB, R117. Vector integer subtract. -/
  | vsub (w : BitVec 2) (d a b : VReg) (m : MReg)
  /-- VMUL, R117. Vector integer multiply low. -/
  | vmul (w : BitVec 2) (d a b : VReg) (m : MReg)
  /-- VMULH, R117. Vector signed multiply high. -/
  | vmulh (w : BitVec 2) (d a b : VReg) (m : MReg)
  /-- VAND, R118. Vector and. -/
  | vand (d a b : VReg) (m : MReg)
  /-- VOR, R118. Vector or. -/
  | vor (d a b : VReg) (m : MReg)
  /-- VXOR, R118. Vector exclusive or. -/
  | vxor (d a b : VReg) (m : MReg)
  /-- VANDN, R118. Vector and with complement. -/
  | vandn (d a b : VReg) (m : MReg)
  /-- VSLL, R117. Vector logical left shift. -/
  | vsll (w : BitVec 2) (d a b : VReg) (m : MReg)
  /-- VSRL, R117. Vector logical right shift. -/
  | vsrl (w : BitVec 2) (d a b : VReg) (m : MReg)
  /-- VSRA, R117. Vector arithmetic right shift. -/
  | vsra (w : BitVec 2) (d a b : VReg) (m : MReg)
  /-- VMIN, R117. Vector signed minimum. -/
  | vmin (w : BitVec 2) (d a b : VReg) (m : MReg)
  /-- VMAX, R117. Vector signed maximum. -/
  | vmax (w : BitVec 2) (d a b : VReg) (m : MReg)
  /-- VMINN, R117. Vector unsigned minimum. -/
  | vminn (w : BitVec 2) (d a b : VReg) (m : MReg)
  /-- VMAXN, R117. Vector unsigned maximum. -/
  | vmaxn (w : BitVec 2) (d a b : VReg) (m : MReg)
  /-- VCEQ_E32, R119. Vector compare equal at e32 into a mask. -/
  | vceqE32 (d : MReg) (a b : VReg) (m : MReg)
  /-- VCNE_E32, R119. Vector compare not equal at e32. -/
  | vcneE32 (d : MReg) (a b : VReg) (m : MReg)
  /-- VCLT_E32, R119. Vector signed less than at e32. -/
  | vcltE32 (d : MReg) (a b : VReg) (m : MReg)
  /-- VCLTN_E32, R119. Vector unsigned less than at e32. -/
  | vcltnE32 (d : MReg) (a b : VReg) (m : MReg)
  /-- VCEQ_E16, R119. Vector compare equal at e16. -/
  | vceqE16 (d : MReg) (a b : VReg) (m : MReg)
  /-- VCNE_E16, R119. Vector compare not equal at e16. -/
  | vcneE16 (d : MReg) (a b : VReg) (m : MReg)
  /-- VCLT_E16, R119. Vector signed less than at e16. -/
  | vcltE16 (d : MReg) (a b : VReg) (m : MReg)
  /-- VCLTN_E16, R119. Vector unsigned less than at e16. -/
  | vcltnE16 (d : MReg) (a b : VReg) (m : MReg)
  /-- VCEQ_E8, R119. Vector compare equal at e8. -/
  | vceqE8 (d : MReg) (a b : VReg) (m : MReg)
  /-- VCNE_E8, R119. Vector compare not equal at e8. -/
  | vcneE8 (d : MReg) (a b : VReg) (m : MReg)
  /-- VCLT_E8, R119. Vector signed less than at e8. -/
  | vcltE8 (d : MReg) (a b : VReg) (m : MReg)
  /-- VCLTN_E8, R119. Vector unsigned less than at e8. -/
  | vcltnE8 (d : MReg) (a b : VReg) (m : MReg)
  /-- VFADD, R120. Vector float add. -/
  | vfadd (w : BitVec 2) (d a b : VReg) (m : MReg)
  /-- VFSUB, R120. Vector float subtract. -/
  | vfsub (w : BitVec 2) (d a b : VReg) (m : MReg)
  /-- VFMUL, R120. Vector float multiply. -/
  | vfmul (w : BitVec 2) (d a b : VReg) (m : MReg)
  /-- VFFMA, R120. Vector fused multiply-add. -/
  | vffma (w : BitVec 2) (d a b : VReg) (m : MReg)
  /-- VFMIN, R120. Vector float minimum. -/
  | vfmin (w : BitVec 2) (d a b : VReg) (m : MReg)
  /-- VFMAX, R120. Vector float maximum. -/
  | vfmax (w : BitVec 2) (d a b : VReg) (m : MReg)
  /-- VFCEQ, R121. Vector float compare equal. -/
  | vfceq (d : MReg) (a b : VReg) (m : MReg)
  /-- VFCLT, R121. Vector float less than. -/
  | vfclt (d : MReg) (a b : VReg) (m : MReg)
  /-- VFCLE, R121. Vector float less or equal. -/
  | vfcle (d : MReg) (a b : VReg) (m : MReg)
  /-- VFCUN, R121. Vector float unordered. -/
  | vfcun (d : MReg) (a b : VReg) (m : MReg)
  /-- VRCP, R122. Vector reciprocal. -/
  | vrcp (d a : VReg) (m : MReg)
  /-- VRSQ, R122. Vector reciprocal square root. -/
  | vrsq (d a : VReg) (m : MReg)
  /-- VEXP2, R122. Vector base-2 exponential. -/
  | vexp2 (d a : VReg) (m : MReg)
  /-- VLOG2, R122. Vector base-2 logarithm. -/
  | vlog2 (d a : VReg) (m : MReg)
  /-- VSIN, R122. Vector sine of 2πx. -/
  | vsin (d a : VReg) (m : MReg)
  /-- VCOS, R122. Vector cosine of 2πx. -/
  | vcos (d a : VReg) (m : MReg)
  /-- VSQRT, R122. Vector square root. -/
  | vsqrt (d a : VReg) (m : MReg)
  /-- VTANH, R122. Vector hyperbolic tangent. -/
  | vtanh (d a : VReg) (m : MReg)
  /-- VSEL, R124. Per-word select by mask. -/
  | vsel (d a b : VReg) (m : MReg)
  /-- VBCAST, R125. Broadcast scalar to active elements. -/
  | vbcast (w : BitVec 2) (d : VReg) (a : SReg) (m : MReg)
  /-- VEXTR, R125. Extract one element to scalar. -/
  | vextr (w : BitVec 2) (d : SReg) (a : VReg) (b : SReg) (m : MReg)
  /-- VINS, R125. Insert scalar into one element. -/
  | vins (w : BitVec 2) (d : VReg) (a b : SReg) (m : MReg)
  /-- VIOTA, R125. Rank of each active element. -/
  | viota (w : BitVec 2) (d : VReg) (m : MReg)
  /-- VREDADD, R128. Integer sum reduction to scalar. -/
  | vredadd (d : SReg) (a : VReg) (m : MReg)
  /-- VREDFADD, R128. Float pairwise-tree sum reduction. -/
  | vredfadd (d : SReg) (a : VReg) (m : MReg)
  /-- VREDMIN, R128. Signed minimum reduction. -/
  | vredmin (d : SReg) (a : VReg) (m : MReg)
  /-- VREDMAX, R128. Signed maximum reduction. -/
  | vredmax (d : SReg) (a : VReg) (m : MReg)
  /-- VWIDEN8, R127. Zero-extend bytes to halfwords. -/
  | vwiden8 (d a : VReg) (m : MReg)
  /-- VWIDEN16, R127. Zero-extend halfwords to words. -/
  | vwiden16 (d a : VReg) (m : MReg)
  /-- VNARROW16, R127. Clamp words to unsigned halfwords. -/
  | vnarrow16 (d a : VReg) (m : MReg)
  /-- VNARROW8, R127. Clamp halfwords to unsigned bytes. -/
  | vnarrow8 (d a : VReg) (m : MReg)
  /-- VLD, R132. Load 64 bytes of device memory. -/
  | vld (d : VReg) (a : AReg) (m : MReg) (i : Imm)
  /-- VST, R132. Store 64 bytes to device memory. -/
  | vst (d : VReg) (a : AReg) (m : MReg) (i : Imm)
  /-- VLDS, R133. Strided vector load. -/
  | vlds (w : BitVec 2) (d : VReg) (a : AReg) (b : SReg) (m : MReg)
  /-- VSTS, R133. Strided vector store. -/
  | vsts (w : BitVec 2) (d : VReg) (a : AReg) (b : SReg) (m : MReg)
  /-- VGATH, R133. Indexed gather from device memory. -/
  | vgath (w : BitVec 2) (d : VReg) (a : AReg) (b : VReg) (m : MReg)
  /-- VSCAT, R133. Indexed scatter to device memory. -/
  | vscat (w : BitVec 2) (d : VReg) (a : AReg) (b : VReg) (m : MReg)
  /-- VLDL, R134. Load 64 bytes of own local store. -/
  | vldl (d : VReg) (a : SReg) (m : MReg)
  /-- VSTL, R134. Store 64 bytes to own local store. -/
  | vstl (d : VReg) (a : SReg) (m : MReg)
  /-- VGATHL, R134. Indexed gather from own local store. -/
  | vgathl (w : BitVec 2) (d : VReg) (a : SReg) (b : VReg) (m : MReg)
  /-- VSCATL, R134. Indexed scatter to own local store. -/
  | vscatl (w : BitVec 2) (d : VReg) (a : SReg) (b : VReg) (m : MReg)
  /-- VPERM, R135. Permute elements by index vector. -/
  | vperm (w : BitVec 2) (d a b : VReg) (m : MReg)
  /-- VSLDN, R135. Slide elements down. -/
  | vsldn (w : BitVec 2) (d a : VReg) (b : SReg) (m : MReg)
  /-- VSLUP, R135. Slide elements up. -/
  | vslup (w : BitVec 2) (d a : VReg) (b : SReg) (m : MReg)
  /-- VSCANADD, R129. Inclusive integer prefix sum. -/
  | vscanadd (d a : VReg) (m : MReg)
  /-- VSCANFADD, R129. Inclusive float prefix sum. -/
  | vscanfadd (d a : VReg) (m : MReg)
  /-- MAND, R136. Mask and. -/
  | mand (d a b : MReg)
  /-- MOR, R136. Mask or. -/
  | mor (d a b : MReg)
  /-- MXOR, R136. Mask exclusive or. -/
  | mxor (d a b : MReg)
  /-- MANDN, R136. Mask and with complement. -/
  | mandn (d a b : MReg)
  /-- MPOP, R137. Count mask bits. -/
  | mpop (d : SReg) (a : MReg)
  /-- MFIRST, R137. Index of lowest mask bit. -/
  | mfirst (d : SReg) (a : MReg)
  /-- MMOVS, R137. Mask to scalar. -/
  | mmovs (d : SReg) (a : MReg)
  /-- MMOVM, R137. Scalar to mask. -/
  | mmovm (d : MReg) (a : SReg)
  /-- GADD, R138. Gang sum reduction. -/
  | gadd (d a : SReg)
  /-- GFADD, R138. Gang float sum reduction. -/
  | gfadd (d a : SReg)
  /-- GMIN, R138. Gang signed minimum. -/
  | gmin (d a : SReg)
  /-- GMAX, R138. Gang signed maximum. -/
  | gmax (d a : SReg)
  /-- VMOV, R126. Masked vector copy. -/
  | vmov (d a : VReg) (m : MReg)
  /-- FMTSET, R102. Validate and install a format entry from memory. -/
  | fmtset (a : AReg) (b : SReg)
  /-- FMTGET, R103. Read a format entry, FSEL or FFLAGS, optionally clearing flags. -/
  | fmtget (d b : SReg)
  /-- FSET, R104. Set one FSEL slot. -/
  | fset (w : BitVec 2) (a : SReg)
  /-- CVT, R106. Convert vector elements between format entries. -/
  | cvt (d a : VReg) (b : SReg)
  /-- CVTEF, R107. Convert FP32 to codes keeping residuals and range mask. -/
  | cvtef (d a : VReg) (b : SReg)
  /-- FMTINV, R105. Invalidate a format entry. -/
  | fmtinv (b : SReg)
  /-- MMA, R192. Queue a dense matrix multiply-accumulate into a tile. -/
  | mma (d : BitVec 3) (a b : SReg)
  /-- MMAZ, R192. Queue a dense matrix multiply onto zero. -/
  | mmaz (d : BitVec 3) (a b : SReg)
  /-- MMAS, R192. Queue a sparse matrix multiply-accumulate. -/
  | mmas (d : BitVec 3) (a b : SReg)
  /-- MMASZ, R192. Queue a sparse matrix multiply onto zero. -/
  | mmasz (d : BitVec 3) (a b : SReg)
  /-- MZERO, R193. Queue a tile clear. -/
  | mzero (d : BitVec 3)
  /-- MDRAIN, R194. Queue a tile conversion and write to a local store. -/
  | mdrain (d : BitVec 3) (a : SReg)
  /-- MDRAINW, R194. Queue a drain that wakes a task on the target. -/
  | mdrainw (d : BitVec 3) (a : SReg)
  /-- ACCRD, R195. Queue a read of sixteen accumulators into a vector. -/
  | accrd (d : VReg) (a : SReg)
  /-- ACCWR, R195. Queue a write of a vector into sixteen accumulators. -/
  | accwr (d : VReg) (a : SReg)
  /-- NETEVAL, R197. Queue evaluation of a small network on 32 samples. -/
  | neteval (d a : VReg) (b : SReg)
  /-- MSAVE, R201. Freeze and save the core's matrix queue, spill ring and partition. -/
  | msave (a : AReg)
  /-- MRSTR, R201. Restore matrix state from a save area and resume. -/
  | mrstr (a : AReg)
  /-- MQSTAT, R198. Snapshot of the core's matrix queue. -/
  | mqstat (d : SReg)
  /-- COPY, R217. Check a copy descriptor and enter the copy queue. -/
  | copy (a : SReg)
  /-- TXREQ, R218. Offer a transform request to the cluster port. -/
  | txreq (d a : SReg)
  /-- WAITTL, R219. Wait for a timeline class to reach a value. -/
  | waittl (d : BitVec 3) (a : SReg)
  /-- TLRD, R220. Read a timeline counter. -/
  | tlrd (d : SReg) (i : Imm)
  /-- AWSET, R163. Arm or disarm an arrival word. -/
  | awset (a b : SReg)
  /-- WAITGEN, R165. Wait for an arrival word's generation to advance. -/
  | waitgen (d a b : SReg)
  /-- ARRIVE, R161. Credit an arrival word on one core, releasing at DEVICE scope. -/
  | arrive (d a b : SReg)
  /-- ARRIVEM, R161. Credit an arrival word on every member of a multicast set. -/
  | arrivem (d a b : SReg)
  /-- QCFG, R167. Connect or disconnect a chain link. -/
  | qcfg (a : SReg)
  /-- QSTAT, R167. Snapshot of a chain link. -/
  | qstat (d a : SReg)
  /-- SPAWN, R52. Start a task in a free slot of a group core. -/
  | spawn (d a b : SReg)
  /-- SPAWNW, R52. Start a task, waiting for a free slot. -/
  | spawnw (d a b : SReg)
  /-- QUIT, R53. End the thread and free its slot. -/
  | quit
  /-- YIELD, R55. Give up issue for eight cycles. -/
  | yield
  /-- SLEEP, R53. Sleep until woken or timed out, or consume a pending wake. -/
  | sleep (a : SReg)
  /-- WAKE, R53. Send a wake to a thread. -/
  | wake (a : SReg)
  /-- RESUME, R53. Send a resume to a dropped thread. -/
  | resume (a : SReg)
  /-- ABORT, R53. Send an abort to a thread. -/
  | abort (a : SReg)
  /-- GANG2, R63. Join a gang of two. -/
  | gang2
  /-- GANG4, R63. Join a gang of four. -/
  | gang4
  /-- GANG8, R63. Join a gang of eight. -/
  | gang8
  /-- SPLIT, R65. Dissolve the current gang. -/
  | split
  /-- TAGPUB, R280. Publish an output tile at the kernel's output generation. -/
  | tagpub (a b : SReg)
  /-- TAGWAIT, R281. Wait for a tile to be ready at a generation. -/
  | tagwait (a b : SReg)
  /-- TAGQRY, R282. Snapshot of a tag entry. -/
  | tagqry (d a b : SReg)
  /-- QPUSH, R329. Push a command onto a device-fed queue. -/
  | qpush (a b : SReg)
  /-- EVPOST, R330. Post a user-value completion record to a queue. -/
  | evpost (a b : SReg)
  /-- TEXLD_NEAREST, R259. Nearest-filtered texture sample with level fallback. -/
  | texldNearest (d a : VReg) (b : SReg) (m : MReg)
  /-- TEXLD_BILINEAR, R259. Bilinear texture sample with level fallback. -/
  | texldBilinear (d a : VReg) (b : SReg) (m : MReg)
  /-- TEXLD_TRILINEAR, R259. Trilinear texture sample with level fallback. -/
  | texldTrilinear (d a : VReg) (b : SReg) (m : MReg)
  /-- LDLOD, R260. Load 32 tensor codes of the finest resident level. -/
  | ldlod (d : VReg) (a b : SReg)
  /-- TEXFENCE, R261. Invalidate LOD map caches of the context and wait for earlier LOD loads. -/
  | texfence
  /-- FBFLUSH, R262. Wait for sent feedback records and clear the duplicate filter. -/
  | fbflush
  /-- TRIEMIT, R359. Number and deliver a triangle record to a render set. -/
  | triemit (a b : SReg)
  /-- TRIPOP, R360. Pop the oldest triangle record, waiting for one. -/
  | tripop (d a : SReg)
  /-- TRIPOPN, R360. Pop the oldest triangle record without waiting. -/
  | tripopn (d a : SReg)
  /-- TRIDONE, R361. End a ticket. -/
  | tridone (a : SReg)
  /-- PXLOCK, R361. Wait to lock a pixel quad for a ticket. -/
  | pxlock (a b : SReg)
  /-- PXUNLK, R361. Release a locked pixel quad. -/
  | pxunlk (a : SReg)
  /-- LAYNEW, R352. Allocate an EMPTY layer. -/
  | laynew (d : SReg)
  /-- LAYSET, R353. Write one layer field or load all RW fields. -/
  | layset (d a b : SReg)
  /-- LAYGET, R353. Read one layer field. -/
  | layget (d a b : SReg)
  /-- LAYSPLIT, R357. Create a child layer over a rectangle of the parent. -/
  | laysplit (d a b : SReg)
  /-- LAYMERGE, R358. Queue a merge of a source layer into a target. -/
  | laymerge (a b : SReg)
  /-- LAYRET, R356. Retire a layer. -/
  | layret (a : SReg)
  /-- COMPOSE, R354. Enter a composite into the die's compositor queue. -/
  | compose (a b : SReg)
  /-- REQPOP, R355. Pop the oldest re-render request of a queue. -/
  | reqpop (d a : SReg)
  /-- HPUT, R377. Write local bytes to a peer endpoint. -/
  | hput (a : SReg)
  /-- HGET, R377. Read peer bytes into local memory. -/
  | hget (a : SReg)
  /-- HAMO, R377. Atomic operation on a peer dword. -/
  | hamo (a : SReg)
  /-- HSEND, R377. Send a 64-byte command to a peer queue. -/
  | hsend (a : SReg)
  /-- CCRD, R378. Read an endpoint congestion value. -/
  | ccrd (d a b : SReg)
  /-- EPSTAT, R379. Read an endpoint's status. -/
  | epstat (d a : SReg)
  /-- CSRR, R312. Read a system register. -/
  | csrr (d : SReg) (i : Imm)
  /-- CSRW, R312. Write a system register. -/
  | csrw (d : SReg) (i : Imm)
  /-- TRAP, R313. Raise SYSCALL with a code. -/
  | trap (i : Imm)
  /-- RETT, R314. Return from the current trap level. -/
  | rett
  /-- TLBINV, R242. Broadcast a TLB shoot-down and wait for all acknowledgements. -/
  | tlbinv (a : AReg) (b : SReg)
  /-- HARVEST, R243. Write back all gathered A and D bits of the context. -/
  | harvest
  /-- CTXKILL, R315. Start the kill of a context. -/
  | ctxkill (a : SReg)
  /-- SHROUD, R393. Fence and remap a named core. -/
  | shroud (a : SReg)
  /-- ILLEGAL_ENCODING, R42. A thread issues a bundle whose words decode to no legal instruction, and it traps ILLEGAL with nothing of the bundle executed (the word at fault and the reason the decoder found). -/
  | illegalEncoding (idx : BitVec 3) (reason : BitVec 4)
  /-- TRANSFER_PACKET_SEND, R370. Halyard starts a queued transfer by translating its local side and sending its next packet, within the endpoint limit and congestion window. -/
  | transferPacketSend (core : Nat)
  /-- SOFT_ERROR, R385. A bit error strikes a row of an SRAM array or HBM, leaving data that the next read detects as correctable or uncorrectable. -/
  | softError (h : Hit)
  deriving DecidableEq, Repr

end Sys2Proof
end

