-- ==== Sys2Proof/WellFormed.lean ====
section
/-! DEFINITION. Which instructions can be written as a legal bundle: every operand in the range its field
allows (02_encoding R29, R32, R35, R38-R41) and the immediate small enough for the IMM prefixes that the
bundle has room for (R27, R32). -/

namespace Sys2Proof

/-- IMM prefixes that fit in a bundle beside the REG word, which a high register or a nonzero x needs, and
the PAGE word (R27, R49). -/
def room (page0 : Bool) (regs : List Nat) (x : Nat) : Nat :=
  (if page0 then 4 else 3) - (if regs.all (fun n => decide (n < 8)) && decide (x = 0) then 0 else 1)

/-- `i` is a signed number of `w + 9n` bits (R32). -/
def fitsSigned (w n : Nat) (i : Imm) : Bool :=
  decide (-(2 : Int) ^ (w + 9 * n - 1) ≤ i.toInt) && decide (i.toInt < (2 : Int) ^ (w + 9 * n - 1))

/-- `i` is an unsigned number of `w + 9n` bits (R32). -/
def fitsUnsigned (w n : Nat) (i : Imm) : Bool := decide (i.toNat < 2 ^ (w + 9 * n))

/-- An instruction some legal bundle stands for; the device's own steps have no encoding. -/
def Instr.wf : Instr → Bool
  | .addi d a i => fitsSigned 5 (room true [d.toNat, a.toNat] 0) i
  | .andi d a i => fitsSigned 5 (room true [d.toNat, a.toNat] 0) i
  | .ori d a i => fitsUnsigned 5 (room true [d.toNat, a.toNat] 0) i
  | .xori d a i => fitsUnsigned 5 (room true [d.toNat, a.toNat] 0) i
  | .slli _ _ i => decide (i.toNat < 64)
  | .srli _ _ i => decide (i.toNat < 64)
  | .srai _ _ i => decide (i.toNat < 64)
  | .clti d a i => fitsSigned 5 (room true [d.toNat, a.toNat] 0) i
  | .li d i => fitsSigned 8 (room true [d.toNat] 0) i
  | .addai d a i => fitsSigned 5 (room true [d.toNat, a.toNat] 0) i
  | .bz a i => fitsSigned 5 (room true [a.toNat] 0) i
  | .bnz a i => fitsSigned 5 (room true [a.toNat] 0) i
  | .bltz a i => fitsSigned 5 (room true [a.toNat] 0) i
  | .bgez a i => fitsSigned 5 (room true [a.toNat] 0) i
  | .bgtz a i => fitsSigned 5 (room true [a.toNat] 0) i
  | .blez a i => fitsSigned 5 (room true [a.toNat] 0) i
  | .bmany _ i => fitsSigned 5 (room true [] 0) i
  | .bmnone _ i => fitsSigned 5 (room true [] 0) i
  | .j i => fitsSigned 11 (room true [] 0) i
  | .jal i => fitsSigned 11 (room true [] 0) i
  | .bexti _ _ i => decide (1 ≤ i.toNat / 64) && decide (i.toNat / 64 ≤ 64)
  | .bextsi _ _ i => decide (1 ≤ i.toNat / 64) && decide (i.toNat / 64 ≤ 64)
  | .crd _ i => decide (i.toNat < 16)
  | .ldb d a x i => fitsSigned 5 (room false [d.toNat, a.toNat] x.toNat) i && decide (x.toNat ≤ 4)
  | .ldbz d a x i => fitsSigned 5 (room false [d.toNat, a.toNat] x.toNat) i && decide (x.toNat ≤ 4)
  | .ldh d a x i => fitsSigned 5 (room false [d.toNat, a.toNat] x.toNat) i && decide (x.toNat ≤ 4)
  | .ldhz d a x i => fitsSigned 5 (room false [d.toNat, a.toNat] x.toNat) i && decide (x.toNat ≤ 4)
  | .ldw d a x i => fitsSigned 5 (room false [d.toNat, a.toNat] x.toNat) i && decide (x.toNat ≤ 4)
  | .ldwz d a x i => fitsSigned 5 (room false [d.toNat, a.toNat] x.toNat) i && decide (x.toNat ≤ 4)
  | .ldd d a x i => fitsSigned 5 (room false [d.toNat, a.toNat] x.toNat) i && decide (x.toNat ≤ 4)
  | .stb d a x i => fitsSigned 5 (room false [d.toNat, a.toNat] x.toNat) i && decide (x.toNat ≤ 4)
  | .sth d a x i => fitsSigned 5 (room false [d.toNat, a.toNat] x.toNat) i && decide (x.toNat ≤ 4)
  | .stw d a x i => fitsSigned 5 (room false [d.toNat, a.toNat] x.toNat) i && decide (x.toNat ≤ 4)
  | .std d a x i => fitsSigned 5 (room false [d.toNat, a.toNat] x.toNat) i && decide (x.toNat ≤ 4)
  | .ldl _ _ _ x => decide (x.toNat ≤ 4)
  | .stl _ _ _ x => decide (x.toNat ≤ 4)
  | .lda d a x i => fitsSigned 5 (room false [d.toNat, a.toNat] x.toNat) i && decide (x.toNat ≤ 4)
  | .sta d a x i => fitsSigned 5 (room false [d.toNat, a.toNat] x.toNat) i && decide (x.toNat ≤ 4)
  | .amoadd _ _ _ x => decide (x.toNat ≤ 4)
  | .amoswap _ _ _ x => decide (x.toNat ≤ 4)
  | .amoand _ _ _ x => decide (x.toNat ≤ 4)
  | .amoor _ _ _ x => decide (x.toNat ≤ 4)
  | .amoxor _ _ _ x => decide (x.toNat ≤ 4)
  | .amomin _ _ _ x => decide (x.toNat ≤ 4)
  | .amomax _ _ _ x => decide (x.toNat ≤ 4)
  | .amominn _ _ _ x => decide (x.toNat ≤ 4)
  | .cas _ _ _ x => decide (x.toNat ≤ 4)
  | .ladd _ _ _ x => decide (x.toNat ≤ 4)
  | .lswap _ _ _ x => decide (x.toNat ≤ 4)
  | .lmin _ _ _ x => decide (x.toNat ≤ 4)
  | .lmax _ _ _ x => decide (x.toNat ≤ 4)
  | .casl _ _ _ x => decide (x.toNat ≤ 4)
  | .fence i => decide (i.toNat < 160)
  | .pref a i => fitsSigned 5 (room false [a.toNat] 0) i
  | .msg d _ b => decide (d ≠ 0) && decide (b.toNat ≤ 27)
  | .hset _ i => decide (1 ≤ i.toNat) && decide (i.toNat ≤ 7)
  | .vld d a m i => fitsSigned 5 (room false [d.toNat, a.toNat] m.toNat) i
  | .vst d a m i => fitsSigned 5 (room false [d.toNat, a.toNat] m.toNat) i
  | .cvtef d _ _ => decide (d.toNat % 2 = 0)
  | .waittl d _ => decide (d.toNat ≤ 4)
  | .tlrd _ i => decide (i.toNat < 16) && decide (i.toNat % 8 ≤ 4)
  | .texldNearest d a _ _ => decide (d.toNat ≤ 27) && decide (a.toNat ≤ 29)
  | .texldBilinear d a _ _ => decide (d.toNat ≤ 27) && decide (a.toNat ≤ 29)
  | .texldTrilinear d a _ _ => decide (d.toNat ≤ 27) && decide (a.toNat ≤ 29)
  | .ldlod d _ _ => decide (d.toNat ≤ 30)
  | .csrr _ i => decide (i.toNat < 4096)
  | .csrw _ i => decide (i.toNat < 4096)
  | .trap i => decide (i.toNat < 256)
  | .add _ _ _ | .addw _ _ _ | .sub _ _ _ | .subw _ _ _ | .and _ _ _ | .or _ _ _ | .xor _ _ _ | .andn _ _ _
  | .sll _ _ _ | .srl _ _ _ | .sra _ _ _ | .ror _ _ _ | .ceq _ _ _ | .cne _ _ _ | .clt _ _ _ | .cltn _ _ _
  | .mov _ _ | .movaa _ _ | .adda _ _ _ | .adda2 _ _ _ | .adda4 _ _ _ | .adda8 _ _ _ | .jr _ | .jalr _ _
  | .mul _ _ _ | .mulw _ _ _ | .mulh _ _ _ | .mulhn _ _ _ | .div _ _ _ | .divn _ _ _ | .rem _ _ _
  | .remn _ _ _ | .divw _ _ _ | .divnw _ _ _ | .remw _ _ _ | .remnw _ _ _ | .min _ _ _ | .max _ _ _
  | .minn _ _ _ | .maxn _ _ _ | .clz _ _ | .ctz _ _ | .popc _ _ | .brev _ _ | .bext _ _ _ | .bexts _ _ _
  | .bins _ _ _ | .bmsk _ _ _ | .fshl _ _ _ | .fshr _ _ _ | .sel _ _ _ | .sextb _ _ | .sexth _ _ | .sextw _ _
  | .zextw _ _ | .fadd _ _ _ _ | .fsub _ _ _ _ | .fmul _ _ _ _ | .ffma _ _ _ _ | .feq _ _ _ _ | .flt _ _ _ _
  | .fle _ _ _ _ | .funord _ _ _ _ | .ftoi _ _ _ | .itof _ _ _ | .ftoin _ _ _ | .itofn _ _ _ | .abs _ _
  | .neg _ _ | .fabs _ _ _ | .fneg _ _ _ | .mova _ _ | .movs _ _ | .movah _ _ | .movsh _ _ | .rld _ _ _ _
  | .rst _ _ _ _ | .radd _ _ _ | .raddr _ _ _ | .reply _ | .vadd _ _ _ _ _ | .vsub _ _ _ _ _ | .vmul _ _ _ _ _
  | .vmulh _ _ _ _ _ | .vand _ _ _ _ | .vor _ _ _ _ | .vxor _ _ _ _ | .vandn _ _ _ _ | .vsll _ _ _ _ _
  | .vsrl _ _ _ _ _ | .vsra _ _ _ _ _ | .vmin _ _ _ _ _ | .vmax _ _ _ _ _ | .vminn _ _ _ _ _
  | .vmaxn _ _ _ _ _ | .vceqE32 _ _ _ _ | .vcneE32 _ _ _ _ | .vcltE32 _ _ _ _ | .vcltnE32 _ _ _ _
  | .vceqE16 _ _ _ _ | .vcneE16 _ _ _ _ | .vcltE16 _ _ _ _ | .vcltnE16 _ _ _ _ | .vceqE8 _ _ _ _
  | .vcneE8 _ _ _ _ | .vcltE8 _ _ _ _ | .vcltnE8 _ _ _ _ | .vfadd _ _ _ _ _ | .vfsub _ _ _ _ _
  | .vfmul _ _ _ _ _ | .vffma _ _ _ _ _ | .vfmin _ _ _ _ _ | .vfmax _ _ _ _ _ | .vfceq _ _ _ _
  | .vfclt _ _ _ _ | .vfcle _ _ _ _ | .vfcun _ _ _ _ | .vrcp _ _ _ | .vrsq _ _ _ | .vexp2 _ _ _ | .vlog2 _ _ _
  | .vsin _ _ _ | .vcos _ _ _ | .vsqrt _ _ _ | .vtanh _ _ _ | .vsel _ _ _ _ | .vbcast _ _ _ _
  | .vextr _ _ _ _ _ | .vins _ _ _ _ _ | .viota _ _ _ | .vredadd _ _ _ | .vredfadd _ _ _ | .vredmin _ _ _
  | .vredmax _ _ _ | .vwiden8 _ _ _ | .vwiden16 _ _ _ | .vnarrow16 _ _ _ | .vnarrow8 _ _ _ | .vlds _ _ _ _ _
  | .vsts _ _ _ _ _ | .vgath _ _ _ _ _ | .vscat _ _ _ _ _ | .vldl _ _ _ | .vstl _ _ _ | .vgathl _ _ _ _ _
  | .vscatl _ _ _ _ _ | .vperm _ _ _ _ _ | .vsldn _ _ _ _ _ | .vslup _ _ _ _ _ | .vscanadd _ _ _
  | .vscanfadd _ _ _ | .mand _ _ _ | .mor _ _ _ | .mxor _ _ _ | .mandn _ _ _ | .mpop _ _ | .mfirst _ _
  | .mmovs _ _ | .mmovm _ _ | .gadd _ _ | .gfadd _ _ | .gmin _ _ | .gmax _ _ | .vmov _ _ _ | .fmtset _ _
  | .fmtget _ _ | .fset _ _ | .cvt _ _ _ | .fmtinv _ | .mma _ _ _ | .mmaz _ _ _ | .mmas _ _ _ | .mmasz _ _ _
  | .mzero _ | .mdrain _ _ | .mdrainw _ _ | .accrd _ _ | .accwr _ _ | .neteval _ _ _ | .msave _ | .mrstr _
  | .mqstat _ | .copy _ | .txreq _ _ | .awset _ _ | .waitgen _ _ _ | .arrive _ _ _ | .arrivem _ _ _ | .qcfg _
  | .qstat _ _ | .spawn _ _ _ | .spawnw _ _ _ | .quit | .yield | .sleep _ | .wake _ | .resume _ | .abort _
  | .gang2 | .gang4 | .gang8 | .split | .tagpub _ _ | .tagwait _ _ | .tagqry _ _ _ | .qpush _ _ | .evpost _ _
  | .texfence | .fbflush | .triemit _ _ | .tripop _ _ | .tripopn _ _ | .tridone _ | .pxlock _ _ | .pxunlk _
  | .laynew _ | .layset _ _ _ | .layget _ _ _ | .laysplit _ _ _ | .laymerge _ _ | .layret _ | .compose _ _
  | .reqpop _ _ | .hput _ | .hget _ | .hamo _ | .hsend _ | .ccrd _ _ _ | .epstat _ _ | .rett | .tlbinv _ _
  | .harvest | .ctxkill _ | .shroud _ | .deviceReset | .boot _ | .powerLimitSet _ | .reefGrant _ _
  | .watchdogExpire _ | .messageRetry _ _ | .sleepTimeout _ | .wakeArrive _ | .resumeArrive _ | .abortArrive _
  | .longLatencyComplete _ _ | .sfuComplete _ | .faultRecordRetry _ | .handlerLimit | .waittlComplete _
  | .waitgenComplete _ | .tagwaitComplete _ | .qinPopComplete _ | .qoutPushComplete _ | .spawnwComplete _
  | .gangForm _ | .qcfgDisconnectComplete _ | .tripopComplete _ | .pxlockGrant _ | .fmtsetInstall _
  | .handlerStart _ _ | .builtinHandlerAccess _ _ | .arrivalCredit _ _ | .l1Invalidate _ | .storeAck _
  | .matrixTileStep _ | .matrixEntryComplete _ | .drainWriteAck _ | .drainWake _ | .spawnQueueServe _
  | .matrixFreeze _ | .spillReply _ _ | .mqctlStop _ _ | .mqctlMaskerrClear _ | .copyUnit _ | .copyComplete _
  | .engineFaultRetry _ _ | .compress _ | .decompress _ | .fprint _ | .compare _ | .crc32c _ | .pageWalk _
  | .adWriteback _ _ | .adWritebackTimeout _ _ | .feedbackRecordWrite _ | .kernelEnd _ | .heldDoneUpdate _
  | .heldPublicationApply _ | .groupAdmit _ _ | .groupPlace _ | .groupEnd _ _ | .preemptionTrigger _
  | .groupSaveComplete _ _ | .triangleDeliver _ _ | .composite _ | .laysplitCopy _ | .laymergeFold _
  | .commandArrive _ _ | .nop _ | .launch _ | .wait _ | .write _ | .event _ | .blockClear _
  | .queueStallRetry _ | .completionRecordRetry _ | .notifyTimer _ | .contextCreate _ | .contextSuspend _
  | .suspendComplete _ | .contextResume _ | .contextKill _ | .killFinish _ | .contextRelease _
  | .queueCreate _ | .queueSet _ | .queueDestroy _ | .vfSet _ | .vfReset _ | .vfctlReset _
  | .vfResetGraceExpire | .vfResetDrainDone | .endpointOpen _ | .endpointClose _ | .trainingSucceeds _
  | .signalLost _ | .portDisable _ | .portEnable _ | .retransmit _ _ | .retransmitLimit _ _ | .packetWrite _ _
  | .packetRead _ _ | .packetAtomic _ _ | .packetSend _ _ | .packetAck _ _ _ | .elselClear _
  | .illegalEncoding _ _ | .transferPacketSend _ | .softError _ => true

end Sys2Proof
end

