-- ==== Sys2Proof/Decode.lean ====
section
/-! DEFINITION. The decoder of bundles (02_encoding R27-R42), total on any words and rejecting by the reasons
of R42, and the encoder of every bundle's canonical form (R49). -/

namespace Sys2Proof

/-- The base formats (R28). -/
inductive Fmt where
  | rr | ri | rk | br | jw
  deriving DecidableEq, Repr

/-- Operand classes of a register field (R29). -/
inductive Cls where
  | s | v | a | m | small | no
  deriving DecidableEq, Repr

/-- The legal values of the REG field x (R35). -/
inductive XRule where
  | zero | one | mask | order | slot
  deriving DecidableEq, Repr

/-- How the immediate is formed and limited (R32). -/
inductive ImmRule where
  | no | sx | zx | shift | field | csr
  | byte (ok : Nat → Bool)

/-- The fields of a bundle: the base word's f or c, x, the register numbers and the extended immediate. -/
structure Fields where
  f : BitVec 2
  x : BitVec 3
  d : BitVec 5
  a : BitVec 5
  b : BitVec 5
  i : Imm
  deriving DecidableEq, Repr

/-- One row of the opcode map. -/
structure Row where
  op : Nat
  fmt : Fmt := .rr
  /-- the f of RR or the c of BR that selects the row; `none`: any -/
  sel : Option Nat := none
  d : Cls := .no
  a : Cls := .no
  b : Cls := .no
  x : XRule := .zero
  imm : ImmRule := .no
  /-- long-latency (R34) -/
  ll : Bool := false
  /-- ranges of small-number fields, R42 reason 11 -/
  inRange : Fields → Bool := fun _ => true
  /-- register groups, R42 reason 12 -/
  group : Fields → Bool := fun _ => true
  build : Fields → Instr

/-- Page 0, part 1 (02_encoding R36). -/
noncomputable def page0a : List Row := [
  { op := 0x00, sel := some 0, d := .s, a := .s, b := .s, build := fun w => .add w.d w.a w.b },
  { op := 0x00, sel := some 1, d := .s, a := .s, b := .s, build := fun w => .addw w.d w.a w.b },
  { op := 0x00, sel := some 2, d := .s, a := .s, b := .s, build := fun w => .sub w.d w.a w.b },
  { op := 0x00, sel := some 3, d := .s, a := .s, b := .s, build := fun w => .subw w.d w.a w.b },
  { op := 0x01, sel := some 0, d := .s, a := .s, b := .s, build := fun w => .and w.d w.a w.b },
  { op := 0x01, sel := some 1, d := .s, a := .s, b := .s, build := fun w => .or w.d w.a w.b },
  { op := 0x01, sel := some 2, d := .s, a := .s, b := .s, build := fun w => .xor w.d w.a w.b },
  { op := 0x01, sel := some 3, d := .s, a := .s, b := .s, build := fun w => .andn w.d w.a w.b },
  { op := 0x02, sel := some 0, d := .s, a := .s, b := .s, build := fun w => .sll w.d w.a w.b },
  { op := 0x02, sel := some 1, d := .s, a := .s, b := .s, build := fun w => .srl w.d w.a w.b },
  { op := 0x02, sel := some 2, d := .s, a := .s, b := .s, build := fun w => .sra w.d w.a w.b },
  { op := 0x02, sel := some 3, d := .s, a := .s, b := .s, build := fun w => .ror w.d w.a w.b },
  { op := 0x03, sel := some 0, d := .s, a := .s, b := .s, build := fun w => .ceq w.d w.a w.b },
  { op := 0x03, sel := some 1, d := .s, a := .s, b := .s, build := fun w => .cne w.d w.a w.b },
  { op := 0x03, sel := some 2, d := .s, a := .s, b := .s, build := fun w => .clt w.d w.a w.b },
  { op := 0x03, sel := some 3, d := .s, a := .s, b := .s, build := fun w => .cltn w.d w.a w.b },
  { op := 0x04, fmt := .ri, d := .s, a := .s, imm := .sx, build := fun w => .addi w.d w.a w.i },
  { op := 0x05, fmt := .ri, d := .s, a := .s, imm := .sx, build := fun w => .andi w.d w.a w.i },
  { op := 0x06, fmt := .ri, d := .s, a := .s, imm := .zx, build := fun w => .ori w.d w.a w.i },
  { op := 0x07, fmt := .ri, d := .s, a := .s, imm := .zx, build := fun w => .xori w.d w.a w.i },
  { op := 0x08, fmt := .ri, d := .s, a := .s, imm := .shift, build := fun w => .slli w.d w.a w.i },
  { op := 0x09, fmt := .ri, d := .s, a := .s, imm := .shift, build := fun w => .srli w.d w.a w.i },
  { op := 0x0A, fmt := .ri, d := .s, a := .s, imm := .shift, build := fun w => .srai w.d w.a w.i },
  { op := 0x0B, fmt := .ri, d := .s, a := .s, imm := .sx, build := fun w => .clti w.d w.a w.i }]

/-- Page 0, part 2 (02_encoding R36). -/
noncomputable def page0b : List Row := [
  { op := 0x0C, fmt := .rk, d := .s, imm := .sx, build := fun w => .li w.d w.i },
  { op := 0x0D, sel := some 0, d := .s, a := .s, build := fun w => .mov w.d w.a },
  { op := 0x0D, sel := some 1, d := .a, a := .a, build := fun w => .movaa (w.d.setWidth 4) (w.a.setWidth 4) },
  { op := 0x0E, sel := some 0, d := .a, a := .a, b := .s, build := fun w => .adda (w.d.setWidth 4) (w.a.setWidth 4) w.b },
  { op := 0x0E, sel := some 1, d := .a, a := .a, b := .s, build := fun w => .adda2 (w.d.setWidth 4) (w.a.setWidth 4) w.b },
  { op := 0x0E, sel := some 2, d := .a, a := .a, b := .s, build := fun w => .adda4 (w.d.setWidth 4) (w.a.setWidth 4) w.b },
  { op := 0x0E, sel := some 3, d := .a, a := .a, b := .s, build := fun w => .adda8 (w.d.setWidth 4) (w.a.setWidth 4) w.b },
  { op := 0x0F, fmt := .ri, d := .a, a := .a, imm := .sx, build := fun w => .addai (w.d.setWidth 4) (w.a.setWidth 4) w.i },
  { op := 0x10, fmt := .br, sel := some 0, a := .s, imm := .sx, build := fun w => .bz w.a w.i },
  { op := 0x10, fmt := .br, sel := some 1, a := .s, imm := .sx, build := fun w => .bnz w.a w.i },
  { op := 0x10, fmt := .br, sel := some 2, a := .s, imm := .sx, build := fun w => .bltz w.a w.i },
  { op := 0x10, fmt := .br, sel := some 3, a := .s, imm := .sx, build := fun w => .bgez w.a w.i },
  { op := 0x10, fmt := .br, sel := some 4, a := .s, imm := .sx, build := fun w => .bgtz w.a w.i },
  { op := 0x10, fmt := .br, sel := some 5, a := .s, imm := .sx, build := fun w => .blez w.a w.i },
  { op := 0x10, fmt := .br, sel := some 6, a := .m, imm := .sx, build := fun w => .bmany (w.a.setWidth 3) w.i },
  { op := 0x10, fmt := .br, sel := some 7, a := .m, imm := .sx, build := fun w => .bmnone (w.a.setWidth 3) w.i },
  { op := 0x11, fmt := .jw, imm := .sx, build := fun w => .j w.i },
  { op := 0x12, fmt := .jw, imm := .sx, build := fun w => .jal w.i },
  { op := 0x13, sel := some 0, a := .s, build := fun w => .jr w.a },
  { op := 0x13, sel := some 1, d := .s, a := .s, build := fun w => .jalr w.d w.a }]

/-- Page 0 (02_encoding R36). -/
noncomputable def page0 : List Row := page0a ++ page0b

/-- Page 1, part 1 (02_encoding R37). -/
noncomputable def page1a : List Row := [
  { op := 0x00, sel := some 0, d := .s, a := .s, b := .s, build := fun w => .mul w.d w.a w.b },
  { op := 0x00, sel := some 1, d := .s, a := .s, b := .s, build := fun w => .mulw w.d w.a w.b },
  { op := 0x00, sel := some 2, d := .s, a := .s, b := .s, build := fun w => .mulh w.d w.a w.b },
  { op := 0x00, sel := some 3, d := .s, a := .s, b := .s, build := fun w => .mulhn w.d w.a w.b },
  { op := 0x01, sel := some 0, d := .s, a := .s, b := .s, ll := true, build := fun w => .div w.d w.a w.b },
  { op := 0x01, sel := some 1, d := .s, a := .s, b := .s, ll := true, build := fun w => .divn w.d w.a w.b },
  { op := 0x01, sel := some 2, d := .s, a := .s, b := .s, ll := true, build := fun w => .rem w.d w.a w.b },
  { op := 0x01, sel := some 3, d := .s, a := .s, b := .s, ll := true, build := fun w => .remn w.d w.a w.b },
  { op := 0x01, sel := some 0, d := .s, a := .s, b := .s, x := .one, ll := true, build := fun w => .divw w.d w.a w.b },
  { op := 0x01, sel := some 1, d := .s, a := .s, b := .s, x := .one, ll := true, build := fun w => .divnw w.d w.a w.b },
  { op := 0x01, sel := some 2, d := .s, a := .s, b := .s, x := .one, ll := true, build := fun w => .remw w.d w.a w.b },
  { op := 0x01, sel := some 3, d := .s, a := .s, b := .s, x := .one, ll := true, build := fun w => .remnw w.d w.a w.b },
  { op := 0x02, sel := some 0, d := .s, a := .s, b := .s, build := fun w => .min w.d w.a w.b },
  { op := 0x02, sel := some 1, d := .s, a := .s, b := .s, build := fun w => .max w.d w.a w.b },
  { op := 0x02, sel := some 2, d := .s, a := .s, b := .s, build := fun w => .minn w.d w.a w.b },
  { op := 0x02, sel := some 3, d := .s, a := .s, b := .s, build := fun w => .maxn w.d w.a w.b },
  { op := 0x03, sel := some 0, d := .s, a := .s, build := fun w => .clz w.d w.a },
  { op := 0x03, sel := some 1, d := .s, a := .s, build := fun w => .ctz w.d w.a },
  { op := 0x03, sel := some 2, d := .s, a := .s, build := fun w => .popc w.d w.a },
  { op := 0x03, sel := some 3, d := .s, a := .s, build := fun w => .brev w.d w.a },
  { op := 0x04, sel := some 0, d := .s, a := .s, b := .s, build := fun w => .bext w.d w.a w.b },
  { op := 0x04, sel := some 1, d := .s, a := .s, b := .s, build := fun w => .bexts w.d w.a w.b },
  { op := 0x04, sel := some 2, d := .s, a := .s, b := .s, build := fun w => .bins w.d w.a w.b },
  { op := 0x04, sel := some 3, d := .s, a := .s, b := .s, build := fun w => .bmsk w.d w.a w.b }]

/-- Page 1, part 2 (02_encoding R37). -/
noncomputable def page1b : List Row := [
  { op := 0x05, fmt := .ri, d := .s, a := .s, imm := .field, build := fun w => .bexti w.d w.a w.i },
  { op := 0x05, fmt := .ri, d := .s, a := .s, x := .one, imm := .field, build := fun w => .bextsi w.d w.a w.i },
  { op := 0x06, sel := some 0, d := .s, a := .s, b := .s, build := fun w => .fshl w.d w.a w.b },
  { op := 0x06, sel := some 1, d := .s, a := .s, b := .s, build := fun w => .fshr w.d w.a w.b },
  { op := 0x07, sel := some 0, d := .s, a := .s, b := .s, build := fun w => .sel w.d w.a w.b },
  { op := 0x08, sel := some 0, d := .s, a := .s, build := fun w => .sextb w.d w.a },
  { op := 0x08, sel := some 1, d := .s, a := .s, build := fun w => .sexth w.d w.a },
  { op := 0x08, sel := some 2, d := .s, a := .s, build := fun w => .sextw w.d w.a },
  { op := 0x08, sel := some 3, d := .s, a := .s, build := fun w => .zextw w.d w.a },
  { op := 0x09, sel := some 0, d := .s, a := .s, b := .s, x := .slot, build := fun w => .fadd w.d w.a w.b (w.x.setWidth 2) },
  { op := 0x09, sel := some 1, d := .s, a := .s, b := .s, x := .slot, build := fun w => .fsub w.d w.a w.b (w.x.setWidth 2) },
  { op := 0x09, sel := some 2, d := .s, a := .s, b := .s, x := .slot, build := fun w => .fmul w.d w.a w.b (w.x.setWidth 2) },
  { op := 0x09, sel := some 3, d := .s, a := .s, b := .s, x := .slot, build := fun w => .ffma w.d w.a w.b (w.x.setWidth 2) },
  { op := 0x0A, sel := some 0, d := .s, a := .s, b := .s, x := .slot, build := fun w => .feq w.d w.a w.b (w.x.setWidth 2) },
  { op := 0x0A, sel := some 1, d := .s, a := .s, b := .s, x := .slot, build := fun w => .flt w.d w.a w.b (w.x.setWidth 2) },
  { op := 0x0A, sel := some 2, d := .s, a := .s, b := .s, x := .slot, build := fun w => .fle w.d w.a w.b (w.x.setWidth 2) },
  { op := 0x0A, sel := some 3, d := .s, a := .s, b := .s, x := .slot, build := fun w => .funord w.d w.a w.b (w.x.setWidth 2) },
  { op := 0x0B, sel := some 0, d := .s, a := .s, x := .slot, build := fun w => .ftoi w.d w.a (w.x.setWidth 2) },
  { op := 0x0B, sel := some 1, d := .s, a := .s, x := .slot, build := fun w => .itof w.d w.a (w.x.setWidth 2) },
  { op := 0x0B, sel := some 2, d := .s, a := .s, x := .slot, build := fun w => .ftoin w.d w.a (w.x.setWidth 2) },
  { op := 0x0B, sel := some 3, d := .s, a := .s, x := .slot, build := fun w => .itofn w.d w.a (w.x.setWidth 2) },
  { op := 0x0C, sel := some 0, d := .s, a := .s, build := fun w => .abs w.d w.a },
  { op := 0x0C, sel := some 1, d := .s, a := .s, build := fun w => .neg w.d w.a },
  { op := 0x0C, sel := some 2, d := .s, a := .s, x := .slot, build := fun w => .fabs w.d w.a (w.x.setWidth 2) }]

/-- Page 1, part 3 (02_encoding R37). -/
noncomputable def page1c : List Row := [
  { op := 0x0C, sel := some 3, d := .s, a := .s, x := .slot, build := fun w => .fneg w.d w.a (w.x.setWidth 2) },
  { op := 0x0D, fmt := .rk, d := .s, imm := .byte fun n => decide (n < 16), build := fun w => .crd w.d w.i },
  { op := 0x0E, sel := some 0, d := .a, a := .s, build := fun w => .mova (w.d.setWidth 4) w.a },
  { op := 0x0E, sel := some 1, d := .s, a := .a, build := fun w => .movs w.d (w.a.setWidth 4) },
  { op := 0x0E, sel := some 2, d := .a, a := .s, build := fun w => .movah (w.d.setWidth 4) w.a },
  { op := 0x0E, sel := some 3, d := .s, a := .a, build := fun w => .movsh w.d (w.a.setWidth 4) }]

/-- Page 1 (02_encoding R37). -/
noncomputable def page1 : List Row := page1a ++ page1b ++ page1c

/-- Page 2, part 1 (02_encoding R38). -/
noncomputable def page2a : List Row := [
  { op := 0x00, fmt := .ri, d := .s, a := .a, x := .order, imm := .sx, ll := true, build := fun w => .ldb w.d (w.a.setWidth 4) w.x w.i },
  { op := 0x01, fmt := .ri, d := .s, a := .a, x := .order, imm := .sx, ll := true, build := fun w => .ldbz w.d (w.a.setWidth 4) w.x w.i },
  { op := 0x02, fmt := .ri, d := .s, a := .a, x := .order, imm := .sx, ll := true, build := fun w => .ldh w.d (w.a.setWidth 4) w.x w.i },
  { op := 0x03, fmt := .ri, d := .s, a := .a, x := .order, imm := .sx, ll := true, build := fun w => .ldhz w.d (w.a.setWidth 4) w.x w.i },
  { op := 0x04, fmt := .ri, d := .s, a := .a, x := .order, imm := .sx, ll := true, build := fun w => .ldw w.d (w.a.setWidth 4) w.x w.i },
  { op := 0x05, fmt := .ri, d := .s, a := .a, x := .order, imm := .sx, ll := true, build := fun w => .ldwz w.d (w.a.setWidth 4) w.x w.i },
  { op := 0x06, fmt := .ri, d := .s, a := .a, x := .order, imm := .sx, ll := true, build := fun w => .ldd w.d (w.a.setWidth 4) w.x w.i },
  { op := 0x07, fmt := .ri, d := .s, a := .a, x := .order, imm := .sx, build := fun w => .stb w.d (w.a.setWidth 4) w.x w.i },
  { op := 0x08, fmt := .ri, d := .s, a := .a, x := .order, imm := .sx, build := fun w => .sth w.d (w.a.setWidth 4) w.x w.i },
  { op := 0x09, fmt := .ri, d := .s, a := .a, x := .order, imm := .sx, build := fun w => .stw w.d (w.a.setWidth 4) w.x w.i },
  { op := 0x0A, fmt := .ri, d := .s, a := .a, x := .order, imm := .sx, build := fun w => .std w.d (w.a.setWidth 4) w.x w.i },
  { op := 0x0B, d := .s, a := .s, x := .order, ll := true, build := fun w => .ldl w.f w.d w.a w.x },
  { op := 0x0C, d := .s, a := .s, x := .order, build := fun w => .stl w.f w.d w.a w.x },
  { op := 0x0D, fmt := .ri, d := .a, a := .a, x := .order, imm := .sx, ll := true, build := fun w => .lda (w.d.setWidth 4) (w.a.setWidth 4) w.x w.i },
  { op := 0x0E, fmt := .ri, d := .a, a := .a, x := .order, imm := .sx, build := fun w => .sta (w.d.setWidth 4) (w.a.setWidth 4) w.x w.i },
  { op := 0x0F, sel := some 0, d := .s, a := .a, b := .s, x := .order, ll := true, build := fun w => .amoadd w.d (w.a.setWidth 4) w.b w.x },
  { op := 0x0F, sel := some 1, d := .s, a := .a, b := .s, x := .order, ll := true, build := fun w => .amoswap w.d (w.a.setWidth 4) w.b w.x },
  { op := 0x0F, sel := some 2, d := .s, a := .a, b := .s, x := .order, ll := true, build := fun w => .amoand w.d (w.a.setWidth 4) w.b w.x },
  { op := 0x0F, sel := some 3, d := .s, a := .a, b := .s, x := .order, ll := true, build := fun w => .amoor w.d (w.a.setWidth 4) w.b w.x },
  { op := 0x10, sel := some 0, d := .s, a := .a, b := .s, x := .order, ll := true, build := fun w => .amoxor w.d (w.a.setWidth 4) w.b w.x },
  { op := 0x10, sel := some 1, d := .s, a := .a, b := .s, x := .order, ll := true, build := fun w => .amomin w.d (w.a.setWidth 4) w.b w.x },
  { op := 0x10, sel := some 2, d := .s, a := .a, b := .s, x := .order, ll := true, build := fun w => .amomax w.d (w.a.setWidth 4) w.b w.x },
  { op := 0x10, sel := some 3, d := .s, a := .a, b := .s, x := .order, ll := true, build := fun w => .amominn w.d (w.a.setWidth 4) w.b w.x },
  { op := 0x11, sel := some 0, d := .s, a := .a, b := .s, x := .order, ll := true, build := fun w => .cas w.d (w.a.setWidth 4) w.b w.x }]

/-- Page 2, part 2 (02_encoding R38). DESIGN CHOICE (entry 43): the 3-bit fields of MSG's handler and WAITTL's class are tested
for reason 11 as they stand in the bundle's word, whatever high bits a REG prefix gives them (R42). -/
noncomputable def page2b : List Row := [
  { op := 0x12, sel := some 0, d := .s, a := .s, b := .s, x := .order, ll := true, build := fun w => .ladd w.d w.a w.b w.x },
  { op := 0x12, sel := some 1, d := .s, a := .s, b := .s, x := .order, ll := true, build := fun w => .lswap w.d w.a w.b w.x },
  { op := 0x12, sel := some 2, d := .s, a := .s, b := .s, x := .order, ll := true, build := fun w => .lmin w.d w.a w.b w.x },
  { op := 0x12, sel := some 3, d := .s, a := .s, b := .s, x := .order, ll := true, build := fun w => .lmax w.d w.a w.b w.x },
  { op := 0x13, sel := some 0, d := .s, a := .s, b := .s, x := .order, ll := true, build := fun w => .casl w.d w.a w.b w.x },
  { op := 0x14, fmt := .rk, imm := .byte fun n => decide (n / 32 ≤ 4), build := fun w => .fence w.i },
  { op := 0x15, fmt := .ri, a := .a, imm := .sx, build := fun w => .pref (w.a.setWidth 4) w.i },
  { op := 0x16, d := .s, a := .s, b := .s, ll := true, build := fun w => .rld w.f w.d w.a w.b },
  { op := 0x17, d := .s, a := .s, b := .s, build := fun w => .rst w.f w.d w.a w.b },
  { op := 0x18, sel := some 0, d := .s, a := .s, b := .s, build := fun w => .radd w.d w.a w.b },
  { op := 0x18, sel := some 1, d := .s, a := .s, b := .s, ll := true, build := fun w => .raddr w.d w.a w.b },
  { op := 0x19, sel := some 0, d := .small, a := .s, b := .s, inRange := fun w => w.d.toNat % 8 != 0, group := fun w => decide (w.b.toNat ≤ 27), build := fun w => .msg (w.d.setWidth 3) w.a w.b },
  { op := 0x1A, sel := some 0, a := .s, build := fun w => .reply w.a },
  { op := 0x1B, fmt := .rk, d := .s, imm := .byte fun n => decide (1 ≤ n) && decide (n ≤ 7), build := fun w => .hset w.d w.i }]

/-- Page 2 (02_encoding R38). -/
noncomputable def page2 : List Row := page2a ++ page2b

/-- Page 3, part 1 (02_encoding R39). -/
noncomputable def page3a : List Row := [
  { op := 0x00, d := .v, a := .v, b := .v, x := .mask, build := fun w => .vadd w.f w.d w.a w.b w.x },
  { op := 0x01, d := .v, a := .v, b := .v, x := .mask, build := fun w => .vsub w.f w.d w.a w.b w.x },
  { op := 0x02, d := .v, a := .v, b := .v, x := .mask, build := fun w => .vmul w.f w.d w.a w.b w.x },
  { op := 0x03, d := .v, a := .v, b := .v, x := .mask, build := fun w => .vmulh w.f w.d w.a w.b w.x },
  { op := 0x04, sel := some 0, d := .v, a := .v, b := .v, x := .mask, build := fun w => .vand w.d w.a w.b w.x },
  { op := 0x04, sel := some 1, d := .v, a := .v, b := .v, x := .mask, build := fun w => .vor w.d w.a w.b w.x },
  { op := 0x04, sel := some 2, d := .v, a := .v, b := .v, x := .mask, build := fun w => .vxor w.d w.a w.b w.x },
  { op := 0x04, sel := some 3, d := .v, a := .v, b := .v, x := .mask, build := fun w => .vandn w.d w.a w.b w.x },
  { op := 0x05, d := .v, a := .v, b := .v, x := .mask, build := fun w => .vsll w.f w.d w.a w.b w.x },
  { op := 0x06, d := .v, a := .v, b := .v, x := .mask, build := fun w => .vsrl w.f w.d w.a w.b w.x },
  { op := 0x07, d := .v, a := .v, b := .v, x := .mask, build := fun w => .vsra w.f w.d w.a w.b w.x },
  { op := 0x08, d := .v, a := .v, b := .v, x := .mask, build := fun w => .vmin w.f w.d w.a w.b w.x },
  { op := 0x09, d := .v, a := .v, b := .v, x := .mask, build := fun w => .vmax w.f w.d w.a w.b w.x },
  { op := 0x0A, d := .v, a := .v, b := .v, x := .mask, build := fun w => .vminn w.f w.d w.a w.b w.x },
  { op := 0x0B, d := .v, a := .v, b := .v, x := .mask, build := fun w => .vmaxn w.f w.d w.a w.b w.x },
  { op := 0x0C, sel := some 0, d := .m, a := .v, b := .v, x := .mask, build := fun w => .vceqE32 (w.d.setWidth 3) w.a w.b w.x },
  { op := 0x0C, sel := some 1, d := .m, a := .v, b := .v, x := .mask, build := fun w => .vcneE32 (w.d.setWidth 3) w.a w.b w.x },
  { op := 0x0C, sel := some 2, d := .m, a := .v, b := .v, x := .mask, build := fun w => .vcltE32 (w.d.setWidth 3) w.a w.b w.x },
  { op := 0x0C, sel := some 3, d := .m, a := .v, b := .v, x := .mask, build := fun w => .vcltnE32 (w.d.setWidth 3) w.a w.b w.x },
  { op := 0x0D, sel := some 0, d := .m, a := .v, b := .v, x := .mask, build := fun w => .vceqE16 (w.d.setWidth 3) w.a w.b w.x },
  { op := 0x0D, sel := some 1, d := .m, a := .v, b := .v, x := .mask, build := fun w => .vcneE16 (w.d.setWidth 3) w.a w.b w.x },
  { op := 0x0D, sel := some 2, d := .m, a := .v, b := .v, x := .mask, build := fun w => .vcltE16 (w.d.setWidth 3) w.a w.b w.x },
  { op := 0x0D, sel := some 3, d := .m, a := .v, b := .v, x := .mask, build := fun w => .vcltnE16 (w.d.setWidth 3) w.a w.b w.x },
  { op := 0x0E, sel := some 0, d := .m, a := .v, b := .v, x := .mask, build := fun w => .vceqE8 (w.d.setWidth 3) w.a w.b w.x }]

/-- Page 3, part 2 (02_encoding R39). -/
noncomputable def page3b : List Row := [
  { op := 0x0E, sel := some 1, d := .m, a := .v, b := .v, x := .mask, build := fun w => .vcneE8 (w.d.setWidth 3) w.a w.b w.x },
  { op := 0x0E, sel := some 2, d := .m, a := .v, b := .v, x := .mask, build := fun w => .vcltE8 (w.d.setWidth 3) w.a w.b w.x },
  { op := 0x0E, sel := some 3, d := .m, a := .v, b := .v, x := .mask, build := fun w => .vcltnE8 (w.d.setWidth 3) w.a w.b w.x },
  { op := 0x0F, d := .v, a := .v, b := .v, x := .mask, build := fun w => .vfadd w.f w.d w.a w.b w.x },
  { op := 0x10, d := .v, a := .v, b := .v, x := .mask, build := fun w => .vfsub w.f w.d w.a w.b w.x },
  { op := 0x11, d := .v, a := .v, b := .v, x := .mask, build := fun w => .vfmul w.f w.d w.a w.b w.x },
  { op := 0x12, d := .v, a := .v, b := .v, x := .mask, build := fun w => .vffma w.f w.d w.a w.b w.x },
  { op := 0x13, d := .v, a := .v, b := .v, x := .mask, build := fun w => .vfmin w.f w.d w.a w.b w.x },
  { op := 0x14, d := .v, a := .v, b := .v, x := .mask, build := fun w => .vfmax w.f w.d w.a w.b w.x },
  { op := 0x15, sel := some 0, d := .m, a := .v, b := .v, x := .mask, build := fun w => .vfceq (w.d.setWidth 3) w.a w.b w.x },
  { op := 0x15, sel := some 1, d := .m, a := .v, b := .v, x := .mask, build := fun w => .vfclt (w.d.setWidth 3) w.a w.b w.x },
  { op := 0x15, sel := some 2, d := .m, a := .v, b := .v, x := .mask, build := fun w => .vfcle (w.d.setWidth 3) w.a w.b w.x },
  { op := 0x15, sel := some 3, d := .m, a := .v, b := .v, x := .mask, build := fun w => .vfcun (w.d.setWidth 3) w.a w.b w.x },
  { op := 0x16, sel := some 0, d := .v, a := .v, x := .mask, ll := true, build := fun w => .vrcp w.d w.a w.x },
  { op := 0x16, sel := some 1, d := .v, a := .v, x := .mask, ll := true, build := fun w => .vrsq w.d w.a w.x },
  { op := 0x16, sel := some 2, d := .v, a := .v, x := .mask, ll := true, build := fun w => .vexp2 w.d w.a w.x },
  { op := 0x16, sel := some 3, d := .v, a := .v, x := .mask, ll := true, build := fun w => .vlog2 w.d w.a w.x },
  { op := 0x17, sel := some 0, d := .v, a := .v, x := .mask, ll := true, build := fun w => .vsin w.d w.a w.x },
  { op := 0x17, sel := some 1, d := .v, a := .v, x := .mask, ll := true, build := fun w => .vcos w.d w.a w.x },
  { op := 0x17, sel := some 2, d := .v, a := .v, x := .mask, ll := true, build := fun w => .vsqrt w.d w.a w.x },
  { op := 0x17, sel := some 3, d := .v, a := .v, x := .mask, ll := true, build := fun w => .vtanh w.d w.a w.x },
  { op := 0x18, sel := some 0, d := .v, a := .v, b := .v, x := .mask, build := fun w => .vsel w.d w.a w.b w.x },
  { op := 0x19, d := .v, a := .s, x := .mask, build := fun w => .vbcast w.f w.d w.a w.x },
  { op := 0x1A, d := .s, a := .v, b := .s, x := .mask, build := fun w => .vextr w.f w.d w.a w.b w.x }]

/-- Page 3, part 3 (02_encoding R39). -/
noncomputable def page3c : List Row := [
  { op := 0x1B, d := .v, a := .s, b := .s, x := .mask, build := fun w => .vins w.f w.d w.a w.b w.x },
  { op := 0x1C, d := .v, x := .mask, build := fun w => .viota w.f w.d w.x },
  { op := 0x1D, sel := some 0, d := .s, a := .v, x := .mask, build := fun w => .vredadd w.d w.a w.x },
  { op := 0x1D, sel := some 1, d := .s, a := .v, x := .mask, build := fun w => .vredfadd w.d w.a w.x },
  { op := 0x1D, sel := some 2, d := .s, a := .v, x := .mask, build := fun w => .vredmin w.d w.a w.x },
  { op := 0x1D, sel := some 3, d := .s, a := .v, x := .mask, build := fun w => .vredmax w.d w.a w.x },
  { op := 0x1E, sel := some 0, d := .v, a := .v, x := .mask, build := fun w => .vwiden8 w.d w.a w.x },
  { op := 0x1E, sel := some 1, d := .v, a := .v, x := .mask, build := fun w => .vwiden16 w.d w.a w.x },
  { op := 0x1E, sel := some 2, d := .v, a := .v, x := .mask, build := fun w => .vnarrow16 w.d w.a w.x },
  { op := 0x1E, sel := some 3, d := .v, a := .v, x := .mask, build := fun w => .vnarrow8 w.d w.a w.x }]

/-- Page 3 (02_encoding R39). -/
noncomputable def page3 : List Row := page3a ++ page3b ++ page3c

/-- Page 4, part 1 (02_encoding R40). -/
noncomputable def page4a : List Row := [
  { op := 0x00, fmt := .ri, d := .v, a := .a, x := .mask, imm := .sx, ll := true, build := fun w => .vld w.d (w.a.setWidth 4) w.x w.i },
  { op := 0x01, fmt := .ri, d := .v, a := .a, x := .mask, imm := .sx, build := fun w => .vst w.d (w.a.setWidth 4) w.x w.i },
  { op := 0x02, d := .v, a := .a, b := .s, x := .mask, ll := true, build := fun w => .vlds w.f w.d (w.a.setWidth 4) w.b w.x },
  { op := 0x03, d := .v, a := .a, b := .s, x := .mask, build := fun w => .vsts w.f w.d (w.a.setWidth 4) w.b w.x },
  { op := 0x04, d := .v, a := .a, b := .v, x := .mask, ll := true, build := fun w => .vgath w.f w.d (w.a.setWidth 4) w.b w.x },
  { op := 0x05, d := .v, a := .a, b := .v, x := .mask, build := fun w => .vscat w.f w.d (w.a.setWidth 4) w.b w.x },
  { op := 0x06, sel := some 0, d := .v, a := .s, x := .mask, ll := true, build := fun w => .vldl w.d w.a w.x },
  { op := 0x07, sel := some 0, d := .v, a := .s, x := .mask, build := fun w => .vstl w.d w.a w.x },
  { op := 0x08, d := .v, a := .s, b := .v, x := .mask, ll := true, build := fun w => .vgathl w.f w.d w.a w.b w.x },
  { op := 0x09, d := .v, a := .s, b := .v, x := .mask, build := fun w => .vscatl w.f w.d w.a w.b w.x },
  { op := 0x0A, d := .v, a := .v, b := .v, x := .mask, build := fun w => .vperm w.f w.d w.a w.b w.x },
  { op := 0x0B, d := .v, a := .v, b := .s, x := .mask, build := fun w => .vsldn w.f w.d w.a w.b w.x },
  { op := 0x0C, d := .v, a := .v, b := .s, x := .mask, build := fun w => .vslup w.f w.d w.a w.b w.x },
  { op := 0x0D, sel := some 0, d := .v, a := .v, x := .mask, build := fun w => .vscanadd w.d w.a w.x },
  { op := 0x0D, sel := some 1, d := .v, a := .v, x := .mask, build := fun w => .vscanfadd w.d w.a w.x },
  { op := 0x0E, sel := some 0, d := .m, a := .m, b := .m, build := fun w => .mand (w.d.setWidth 3) (w.a.setWidth 3) (w.b.setWidth 3) },
  { op := 0x0E, sel := some 1, d := .m, a := .m, b := .m, build := fun w => .mor (w.d.setWidth 3) (w.a.setWidth 3) (w.b.setWidth 3) },
  { op := 0x0E, sel := some 2, d := .m, a := .m, b := .m, build := fun w => .mxor (w.d.setWidth 3) (w.a.setWidth 3) (w.b.setWidth 3) },
  { op := 0x0E, sel := some 3, d := .m, a := .m, b := .m, build := fun w => .mandn (w.d.setWidth 3) (w.a.setWidth 3) (w.b.setWidth 3) },
  { op := 0x0F, sel := some 0, d := .s, a := .m, build := fun w => .mpop w.d (w.a.setWidth 3) },
  { op := 0x0F, sel := some 1, d := .s, a := .m, build := fun w => .mfirst w.d (w.a.setWidth 3) },
  { op := 0x0F, sel := some 2, d := .s, a := .m, build := fun w => .mmovs w.d (w.a.setWidth 3) },
  { op := 0x0F, sel := some 3, d := .m, a := .s, build := fun w => .mmovm (w.d.setWidth 3) w.a },
  { op := 0x10, sel := some 0, d := .s, a := .s, ll := true, build := fun w => .gadd w.d w.a }]

/-- Page 4, part 2 (02_encoding R40). -/
noncomputable def page4b : List Row := [
  { op := 0x10, sel := some 1, d := .s, a := .s, ll := true, build := fun w => .gfadd w.d w.a },
  { op := 0x10, sel := some 2, d := .s, a := .s, ll := true, build := fun w => .gmin w.d w.a },
  { op := 0x10, sel := some 3, d := .s, a := .s, ll := true, build := fun w => .gmax w.d w.a },
  { op := 0x11, sel := some 0, d := .v, a := .v, x := .mask, build := fun w => .vmov w.d w.a w.x }]

/-- Page 4 (02_encoding R40). -/
noncomputable def page4 : List Row := page4a ++ page4b

/-- Page 5 (02_encoding R41). -/
noncomputable def page5 : List Row := [
  { op := 0x00, sel := some 0, a := .a, b := .s, ll := true, build := fun w => .fmtset (w.a.setWidth 4) w.b },
  { op := 0x01, sel := some 0, d := .s, b := .s, ll := true, build := fun w => .fmtget w.d w.b },
  { op := 0x02, a := .s, build := fun w => .fset w.f w.a },
  { op := 0x03, sel := some 0, d := .v, a := .v, b := .s, build := fun w => .cvt w.d w.a w.b },
  { op := 0x04, sel := some 0, d := .v, a := .v, b := .s, group := fun w => w.d.toNat % 2 == 0, build := fun w => .cvtef w.d w.a w.b },
  { op := 0x05, sel := some 0, b := .s, build := fun w => .fmtinv w.b }]

/-- Page 6 (02_encoding R41). -/
noncomputable def page6 : List Row := [
  { op := 0x00, sel := some 0, d := .small, a := .s, b := .s, build := fun w => .mma (w.d.setWidth 3) w.a w.b },
  { op := 0x00, sel := some 1, d := .small, a := .s, b := .s, build := fun w => .mmaz (w.d.setWidth 3) w.a w.b },
  { op := 0x01, sel := some 0, d := .small, a := .s, b := .s, build := fun w => .mmas (w.d.setWidth 3) w.a w.b },
  { op := 0x01, sel := some 1, d := .small, a := .s, b := .s, build := fun w => .mmasz (w.d.setWidth 3) w.a w.b },
  { op := 0x02, sel := some 0, d := .small, build := fun w => .mzero (w.d.setWidth 3) },
  { op := 0x03, sel := some 0, d := .small, a := .s, build := fun w => .mdrain (w.d.setWidth 3) w.a },
  { op := 0x03, sel := some 1, d := .small, a := .s, build := fun w => .mdrainw (w.d.setWidth 3) w.a },
  { op := 0x04, sel := some 0, d := .v, a := .s, ll := true, build := fun w => .accrd w.d w.a },
  { op := 0x05, sel := some 0, d := .v, a := .s, build := fun w => .accwr w.d w.a },
  { op := 0x06, sel := some 0, d := .v, a := .v, b := .s, ll := true, build := fun w => .neteval w.d w.a w.b },
  { op := 0x07, sel := some 0, a := .a, ll := true, build := fun w => .msave (w.a.setWidth 4) },
  { op := 0x08, sel := some 0, a := .a, ll := true, build := fun w => .mrstr (w.a.setWidth 4) },
  { op := 0x09, sel := some 0, d := .s, build := fun w => .mqstat w.d }]

/-- Page 7 (02_encoding R41). -/
noncomputable def page7 : List Row := [
  { op := 0x00, sel := some 0, a := .s, build := fun w => .copy w.a },
  { op := 0x01, sel := some 0, d := .s, a := .s, ll := true, build := fun w => .txreq w.d w.a },
  { op := 0x02, sel := some 0, d := .small, a := .s, inRange := fun w => decide (w.d.toNat % 8 ≤ 4), build := fun w => .waittl (w.d.setWidth 3) w.a },
  { op := 0x03, fmt := .rk, d := .s, imm := .byte fun n => decide (n % 8 ≤ 4) && decide (n / 16 = 0), build := fun w => .tlrd w.d w.i },
  { op := 0x04, sel := some 0, a := .s, b := .s, build := fun w => .awset w.a w.b },
  { op := 0x05, sel := some 0, d := .s, a := .s, b := .s, build := fun w => .waitgen w.d w.a w.b },
  { op := 0x06, sel := some 0, d := .s, a := .s, b := .s, build := fun w => .arrive w.d w.a w.b },
  { op := 0x06, sel := some 1, d := .s, a := .s, b := .s, build := fun w => .arrivem w.d w.a w.b },
  { op := 0x07, sel := some 0, a := .s, build := fun w => .qcfg w.a },
  { op := 0x08, sel := some 0, d := .s, a := .s, build := fun w => .qstat w.d w.a }]

/-- Page 8 (02_encoding R41). -/
noncomputable def page8 : List Row := [
  { op := 0x00, sel := some 0, d := .s, a := .s, b := .s, build := fun w => .spawn w.d w.a w.b },
  { op := 0x00, sel := some 1, d := .s, a := .s, b := .s, build := fun w => .spawnw w.d w.a w.b },
  { op := 0x01, sel := some 0, build := fun _ => .quit },
  { op := 0x02, sel := some 0, build := fun _ => .yield },
  { op := 0x03, sel := some 0, a := .s, build := fun w => .sleep w.a },
  { op := 0x04, sel := some 0, a := .s, build := fun w => .wake w.a },
  { op := 0x04, sel := some 1, a := .s, build := fun w => .resume w.a },
  { op := 0x04, sel := some 2, a := .s, build := fun w => .abort w.a },
  { op := 0x05, sel := some 0, build := fun _ => .gang2 },
  { op := 0x05, sel := some 1, build := fun _ => .gang4 },
  { op := 0x05, sel := some 2, build := fun _ => .gang8 },
  { op := 0x06, sel := some 0, build := fun _ => .split },
  { op := 0x07, sel := some 0, a := .s, b := .s, build := fun w => .tagpub w.a w.b },
  { op := 0x08, sel := some 0, a := .s, b := .s, build := fun w => .tagwait w.a w.b },
  { op := 0x09, sel := some 0, d := .s, a := .s, b := .s, ll := true, build := fun w => .tagqry w.d w.a w.b },
  { op := 0x0A, sel := some 0, a := .s, b := .s, build := fun w => .qpush w.a w.b },
  { op := 0x0B, sel := some 0, a := .s, b := .s, build := fun w => .evpost w.a w.b }]

/-- Page 9 (02_encoding R41). -/
noncomputable def page9 : List Row := [
  { op := 0x00, sel := some 0, d := .v, a := .v, b := .s, x := .mask, ll := true, group := fun w => decide (w.d.toNat ≤ 27) && decide (w.a.toNat ≤ 29), build := fun w => .texldNearest w.d w.a w.b w.x },
  { op := 0x00, sel := some 1, d := .v, a := .v, b := .s, x := .mask, ll := true, group := fun w => decide (w.d.toNat ≤ 27) && decide (w.a.toNat ≤ 29), build := fun w => .texldBilinear w.d w.a w.b w.x },
  { op := 0x00, sel := some 2, d := .v, a := .v, b := .s, x := .mask, ll := true, group := fun w => decide (w.d.toNat ≤ 27) && decide (w.a.toNat ≤ 29), build := fun w => .texldTrilinear w.d w.a w.b w.x },
  { op := 0x01, sel := some 0, d := .v, a := .s, b := .s, ll := true, group := fun w => decide (w.d.toNat ≤ 30), build := fun w => .ldlod w.d w.a w.b },
  { op := 0x02, sel := some 0, build := fun _ => .texfence },
  { op := 0x03, sel := some 0, build := fun _ => .fbflush },
  { op := 0x04, sel := some 0, a := .s, b := .s, build := fun w => .triemit w.a w.b },
  { op := 0x05, sel := some 0, d := .s, a := .s, ll := true, build := fun w => .tripop w.d w.a },
  { op := 0x05, sel := some 1, d := .s, a := .s, ll := true, build := fun w => .tripopn w.d w.a },
  { op := 0x06, sel := some 0, a := .s, build := fun w => .tridone w.a },
  { op := 0x07, sel := some 0, a := .s, b := .s, build := fun w => .pxlock w.a w.b },
  { op := 0x08, sel := some 0, a := .s, build := fun w => .pxunlk w.a },
  { op := 0x09, sel := some 0, d := .s, ll := true, build := fun w => .laynew w.d },
  { op := 0x0A, sel := some 0, d := .s, a := .s, b := .s, build := fun w => .layset w.d w.a w.b },
  { op := 0x0B, sel := some 0, d := .s, a := .s, b := .s, ll := true, build := fun w => .layget w.d w.a w.b },
  { op := 0x0C, sel := some 0, d := .s, a := .s, b := .s, ll := true, build := fun w => .laysplit w.d w.a w.b },
  { op := 0x0D, sel := some 0, a := .s, b := .s, build := fun w => .laymerge w.a w.b },
  { op := 0x0E, sel := some 0, a := .s, build := fun w => .layret w.a },
  { op := 0x0F, sel := some 0, a := .s, b := .s, build := fun w => .compose w.a w.b },
  { op := 0x10, sel := some 0, d := .s, a := .s, ll := true, build := fun w => .reqpop w.d w.a }]

/-- Page 10 (02_encoding R41). -/
noncomputable def page10 : List Row := [
  { op := 0x00, sel := some 0, a := .s, build := fun w => .hput w.a },
  { op := 0x01, sel := some 0, a := .s, build := fun w => .hget w.a },
  { op := 0x02, sel := some 0, a := .s, build := fun w => .hamo w.a },
  { op := 0x03, sel := some 0, a := .s, build := fun w => .hsend w.a },
  { op := 0x04, sel := some 0, d := .s, a := .s, b := .s, ll := true, build := fun w => .ccrd w.d w.a w.b },
  { op := 0x05, sel := some 0, d := .s, a := .s, ll := true, build := fun w => .epstat w.d w.a }]

/-- Page 15 (02_encoding R41). -/
noncomputable def page15 : List Row := [
  { op := 0x00, fmt := .rk, d := .s, imm := .csr, build := fun w => .csrr w.d w.i },
  { op := 0x01, fmt := .rk, d := .s, imm := .csr, build := fun w => .csrw w.d w.i },
  { op := 0x02, fmt := .rk, imm := .byte fun _ => true, build := fun w => .trap w.i },
  { op := 0x03, sel := some 0, build := fun _ => .rett },
  { op := 0x04, sel := some 0, a := .a, b := .s, ll := true, build := fun w => .tlbinv (w.a.setWidth 4) w.b },
  { op := 0x05, sel := some 0, ll := true, build := fun _ => .harvest },
  { op := 0x06, sel := some 0, a := .s, build := fun w => .ctxkill w.a },
  { op := 0x07, sel := some 0, a := .s, build := fun w => .shroud w.a }]

/-- The rows of a page; a page not named here is reserved (R42 reason 7). -/
noncomputable def pageRows : Nat → List Row
  | 0 => page0
  | 1 => page1
  | 2 => page2
  | 3 => page3
  | 4 => page4
  | 5 => page5
  | 6 => page6
  | 7 => page7
  | 8 => page8
  | 9 => page9
  | 10 => page10
  | 15 => page15
  | _ => []

/-- What the decoder finds: an instruction with its lookahead, or the word at fault and the reason (R42). -/
inductive Decoded where
  | ok (i : Instr) (la : Nat)
  | bad (idx reason : Nat)
  deriving DecidableEq, Repr

/-- The prefixes read so far (R31). -/
structure Pre where
  seen : Nat := 0
  imm : Nat := 0
  nimm : Nat := 0
  x : Nat := 0
  hd : Nat := 0
  ha : Nat := 0
  hb : Nat := 0
  page : Nat := 0
  la : Nat := 0
  deriving DecidableEq, Repr

def XRule.ok : XRule → Nat → Bool
  | .zero, x => decide (x = 0)
  | .one, x => decide (x = 1)
  | .mask, _ => true
  | .order, x => decide (x ≤ 4)
  | .slot, x => decide (x ≤ 3)

/-- Width of the immediate's field in the base word (R28). -/
def Fmt.immWidth : Fmt → Nat
  | .rr => 0 | .ri => 5 | .rk => 8 | .br => 5 | .jw => 11

/-- The high bits R29 allows for a class. -/
def Cls.highOk : Cls → Nat → Bool
  | .s, _ => true
  | .v, _ => true
  | .a, h => decide (h < 2)
  | .m, h => decide (h = 0)
  | .small, h => decide (h = 0)
  | .no, h => decide (h = 0)

/-- The unextended immediate and its number of bits (R32). -/
def immRaw (r : Row) (p : Pre) (w : Nat) : Nat := p.imm * 2 ^ r.fmt.immWidth + w % 2 ^ r.fmt.immWidth

def immBits (r : Row) (p : Pre) : Nat := 9 * p.nimm + r.fmt.immWidth

/-- Two's complement value of the low `n` bits. -/
def signExt (n raw : Nat) : Imm :=
  if 2 ^ (n - 1) ≤ raw then BitVec.ofInt 47 ((raw : Int) - (2 : Int) ^ n) else BitVec.ofNat 47 raw

def ImmRule.value : ImmRule → Nat → Nat → Imm
  | .sx, bits, raw => signExt bits raw
  | _, _, raw => BitVec.ofNat 47 raw

/-- R42 reason 11 for the immediate. -/
def ImmRule.ok : ImmRule → Nat → Nat → Bool
  | .no, _, _ => true
  | .sx, _, _ => true
  | .zx, _, _ => true
  | .shift, _, raw => decide (raw < 64)
  | .field, nimm, raw => decide (nimm = 1) && decide (raw < 8192) && decide (1 ≤ raw / 64) && decide (raw / 64 ≤ 64)
  | .csr, nimm, raw => decide (nimm ≤ 1) && decide (raw < 4096)
  | .byte ok, nimm, raw => decide (nimm = 0) && ok raw

def Row.selects (r : Row) (w x : Nat) : Bool :=
  decide (r.op = w / 2048) && r.x.ok x &&
  match r.sel with
  | none => true
  | some k => decide (k = (if r.fmt = .br then w / 256 % 8 else w % 4))

/-- The fields of base word `w` under row `r`. -/
def Row.fields (r : Row) (p : Pre) (w : Nat) : Fields :=
  { f := BitVec.ofNat 2 w, x := BitVec.ofNat 3 p.x,
    d := BitVec.ofNat 5 (p.hd * 8 + w / 256 % 8), a := BitVec.ofNat 5 (p.ha * 8 + w / 32 % 8),
    b := BitVec.ofNat 5 (p.hb * 8 + w / 4 % 8),
    i := r.imm.value (immBits r p) (immRaw r p w) }

/-- Unused fields of the base word that must be 0 (R42 reason 8). -/
def Row.unusedOk (r : Row) (w : Nat) : Bool :=
  match r.fmt with
  | .rr => (decide (r.d ≠ .no) || decide (w / 256 % 8 = 0)) && (decide (r.a ≠ .no) || decide (w / 32 % 8 = 0)) &&
      (decide (r.b ≠ .no) || decide (w / 4 % 8 = 0))
  | .ri => decide (r.d ≠ .no) || decide (w / 256 % 8 = 0)
  | .rk => decide (r.d ≠ .no) || decide (w / 256 % 8 = 0)
  | .br => true
  | .jw => true

/-- The checks on the base word, in the order 7, 4, 11, 6, 8, 12, 5 (R42). -/
noncomputable def decodeBase (p : Pre) (idx : Nat) (word : BitVec 16) : Decoded :=
  let w := word.toNat
  match (pageRows p.page).find? (fun r => r.selects w p.x) with
  | none => .bad idx 7
  | some r =>
    let flds := r.fields p w
    if r.fmt = .rr ∧ p.nimm ≠ 0 then .bad idx 4
    else if ¬(r.imm.ok p.nimm (immRaw r p w) ∧ r.inRange flds) then .bad idx 11
    else if ¬(r.d.highOk p.hd ∧ r.a.highOk p.ha ∧ r.b.highOk p.hb) then .bad idx 6
    else if ¬r.unusedOk w then .bad idx 8
    else if ¬r.group flds then .bad idx 12
    else if p.la ≠ 0 ∧ ¬r.ll then .bad idx 5
    else .ok (r.build flds) p.la

/-- The loop of R31, reading word `i` with `fetch`; it also gives the words it has read, last first. -/
noncomputable def decodeLoop {ε : Type} (fetch : Nat → Except ε (BitVec 16)) :
    Nat → Nat → Pre → List (BitVec 16) → Except ε (Decoded × List (BitVec 16))
  | 0, i, _, ws => .ok (.bad i 1, ws)
  | fuel + 1, i, p, ws =>
    match fetch i with
    | .error e => .error e
    | .ok word =>
      let w := word.toNat
      let ws := word :: ws
      if w / 2048 ≠ 31 then .ok (decodeBase p i word, ws)
      else if i = 4 then .ok (.bad 4 1, ws)
      else if w / 512 % 4 = 3 then .ok (.bad i 10, ws)
      else if w / 512 % 4 = 0 then
        if 1 < p.seen then .ok (.bad i 3, ws)
        else decodeLoop fetch fuel (i + 1) { p with imm := p.imm * 512 + w % 512, nimm := p.nimm + 1, seen := 1 } ws
      else if w / 512 % 4 = 1 then
        if p.seen = 2 then .ok (.bad i 2, ws)
        else if p.seen = 3 then .ok (.bad i 3, ws)
        else decodeLoop fetch fuel (i + 1)
          { p with x := w / 64 % 8, hd := w / 16 % 4, ha := w / 4 % 4, hb := w % 4, seen := 2 } ws
      else
        if p.seen = 3 then .ok (.bad i 2, ws)
        else if w % 32 = 0 then .ok (.bad i 9, ws)
        else decodeLoop fetch fuel (i + 1) { p with la := w / 32 % 16, page := w % 32, seen := 3 } ws

/-- Decode a bundle whose words `fetch` reads: what it is, and the words read in order (R31, R43). -/
noncomputable def decodeWith {ε : Type} (fetch : Nat → Except ε (BitVec 16)) : Except ε (Decoded × List (BitVec 16)) :=
  match decodeLoop fetch 5 0 {} [] with
  | .ok (r, ws) => .ok (r, ws.reverse)
  | .error e => .error e

/-- Decode words that stand one after the other; `none` where they end inside the bundle. -/
noncomputable def decodeWords (ws : List (BitVec 16)) : Option (Decoded × List (BitVec 16)) :=
  match decodeWith (fun i => match ws[i]? with | some w => .ok w | none => .error ()) with
  | .ok r => some r
  | .error _ => none

/-- Decode bytes, each word least significant byte first (00_scope R7); with the bytes left over. -/
noncomputable def decodeBytes (bs : List (BitVec 8)) : Option (Decoded × List (BitVec 8)) :=
  match decodeWith (fun i => match bs[2 * i]?, bs[2 * i + 1]? with
      | some lo, some hi => .ok (BitVec.ofNat 16 (lo.toNat + 256 * hi.toNat))
      | _, _ => .error ()) with
  | .ok (r, ws) => some (r, bs.drop (2 * ws.length))
  | .error _ => none

/-- How an immediate is written: sign- or zero-extended with the fewest IMM words, or with exactly one. -/
inductive ImmEnc where
  | sx | zx | one
  deriving DecidableEq, Repr

/-- A canonical encoding before it is laid out in words. -/
inductive Enc where
  | rr (page op f x d a b : Nat)
  | ri (page op x d a : Nat) (k : ImmEnc) (i : Imm)
  | rk (page op d : Nat) (k : ImmEnc) (i : Imm)
  | br (op c a : Nat) (i : Imm)
  | jw (op : Nat) (i : Imm)
  deriving DecidableEq, Repr

/-- The fields of each bundle's canonical encoding (R36-R41); the device's own steps have none. -/
def encFields : Instr → Option Enc
  | .add d a b => some (.rr 0 0x00 0 0 d.toNat a.toNat b.toNat)
  | .addw d a b => some (.rr 0 0x00 1 0 d.toNat a.toNat b.toNat)
  | .sub d a b => some (.rr 0 0x00 2 0 d.toNat a.toNat b.toNat)
  | .subw d a b => some (.rr 0 0x00 3 0 d.toNat a.toNat b.toNat)
  | .and d a b => some (.rr 0 0x01 0 0 d.toNat a.toNat b.toNat)
  | .or d a b => some (.rr 0 0x01 1 0 d.toNat a.toNat b.toNat)
  | .xor d a b => some (.rr 0 0x01 2 0 d.toNat a.toNat b.toNat)
  | .andn d a b => some (.rr 0 0x01 3 0 d.toNat a.toNat b.toNat)
  | .sll d a b => some (.rr 0 0x02 0 0 d.toNat a.toNat b.toNat)
  | .srl d a b => some (.rr 0 0x02 1 0 d.toNat a.toNat b.toNat)
  | .sra d a b => some (.rr 0 0x02 2 0 d.toNat a.toNat b.toNat)
  | .ror d a b => some (.rr 0 0x02 3 0 d.toNat a.toNat b.toNat)
  | .ceq d a b => some (.rr 0 0x03 0 0 d.toNat a.toNat b.toNat)
  | .cne d a b => some (.rr 0 0x03 1 0 d.toNat a.toNat b.toNat)
  | .clt d a b => some (.rr 0 0x03 2 0 d.toNat a.toNat b.toNat)
  | .cltn d a b => some (.rr 0 0x03 3 0 d.toNat a.toNat b.toNat)
  | .addi d a i => some (.ri 0 0x04 0 d.toNat a.toNat .sx i)
  | .andi d a i => some (.ri 0 0x05 0 d.toNat a.toNat .sx i)
  | .ori d a i => some (.ri 0 0x06 0 d.toNat a.toNat .zx i)
  | .xori d a i => some (.ri 0 0x07 0 d.toNat a.toNat .zx i)
  | .slli d a i => some (.ri 0 0x08 0 d.toNat a.toNat .zx i)
  | .srli d a i => some (.ri 0 0x09 0 d.toNat a.toNat .zx i)
  | .srai d a i => some (.ri 0 0x0A 0 d.toNat a.toNat .zx i)
  | .clti d a i => some (.ri 0 0x0B 0 d.toNat a.toNat .sx i)
  | .li d i => some (.rk 0 0x0C d.toNat .sx i)
  | .mov d a => some (.rr 0 0x0D 0 0 d.toNat a.toNat 0)
  | .movaa d a => some (.rr 0 0x0D 1 0 d.toNat a.toNat 0)
  | .adda d a b => some (.rr 0 0x0E 0 0 d.toNat a.toNat b.toNat)
  | .adda2 d a b => some (.rr 0 0x0E 1 0 d.toNat a.toNat b.toNat)
  | .adda4 d a b => some (.rr 0 0x0E 2 0 d.toNat a.toNat b.toNat)
  | .adda8 d a b => some (.rr 0 0x0E 3 0 d.toNat a.toNat b.toNat)
  | .addai d a i => some (.ri 0 0x0F 0 d.toNat a.toNat .sx i)
  | .bz a i => some (.br 0x10 0 a.toNat i)
  | .bnz a i => some (.br 0x10 1 a.toNat i)
  | .bltz a i => some (.br 0x10 2 a.toNat i)
  | .bgez a i => some (.br 0x10 3 a.toNat i)
  | .bgtz a i => some (.br 0x10 4 a.toNat i)
  | .blez a i => some (.br 0x10 5 a.toNat i)
  | .bmany a i => some (.br 0x10 6 a.toNat i)
  | .bmnone a i => some (.br 0x10 7 a.toNat i)
  | .j i => some (.jw 0x11 i)
  | .jal i => some (.jw 0x12 i)
  | .jr a => some (.rr 0 0x13 0 0 0 a.toNat 0)
  | .jalr d a => some (.rr 0 0x13 1 0 d.toNat a.toNat 0)
  | .mul d a b => some (.rr 1 0x00 0 0 d.toNat a.toNat b.toNat)
  | .mulw d a b => some (.rr 1 0x00 1 0 d.toNat a.toNat b.toNat)
  | .mulh d a b => some (.rr 1 0x00 2 0 d.toNat a.toNat b.toNat)
  | .mulhn d a b => some (.rr 1 0x00 3 0 d.toNat a.toNat b.toNat)
  | .div d a b => some (.rr 1 0x01 0 0 d.toNat a.toNat b.toNat)
  | .divn d a b => some (.rr 1 0x01 1 0 d.toNat a.toNat b.toNat)
  | .rem d a b => some (.rr 1 0x01 2 0 d.toNat a.toNat b.toNat)
  | .remn d a b => some (.rr 1 0x01 3 0 d.toNat a.toNat b.toNat)
  | .divw d a b => some (.rr 1 0x01 0 1 d.toNat a.toNat b.toNat)
  | .divnw d a b => some (.rr 1 0x01 1 1 d.toNat a.toNat b.toNat)
  | .remw d a b => some (.rr 1 0x01 2 1 d.toNat a.toNat b.toNat)
  | .remnw d a b => some (.rr 1 0x01 3 1 d.toNat a.toNat b.toNat)
  | .min d a b => some (.rr 1 0x02 0 0 d.toNat a.toNat b.toNat)
  | .max d a b => some (.rr 1 0x02 1 0 d.toNat a.toNat b.toNat)
  | .minn d a b => some (.rr 1 0x02 2 0 d.toNat a.toNat b.toNat)
  | .maxn d a b => some (.rr 1 0x02 3 0 d.toNat a.toNat b.toNat)
  | .clz d a => some (.rr 1 0x03 0 0 d.toNat a.toNat 0)
  | .ctz d a => some (.rr 1 0x03 1 0 d.toNat a.toNat 0)
  | .popc d a => some (.rr 1 0x03 2 0 d.toNat a.toNat 0)
  | .brev d a => some (.rr 1 0x03 3 0 d.toNat a.toNat 0)
  | .bext d a b => some (.rr 1 0x04 0 0 d.toNat a.toNat b.toNat)
  | .bexts d a b => some (.rr 1 0x04 1 0 d.toNat a.toNat b.toNat)
  | .bins d a b => some (.rr 1 0x04 2 0 d.toNat a.toNat b.toNat)
  | .bmsk d a b => some (.rr 1 0x04 3 0 d.toNat a.toNat b.toNat)
  | .bexti d a i => some (.ri 1 0x05 0 d.toNat a.toNat .one i)
  | .bextsi d a i => some (.ri 1 0x05 1 d.toNat a.toNat .one i)
  | .fshl d a b => some (.rr 1 0x06 0 0 d.toNat a.toNat b.toNat)
  | .fshr d a b => some (.rr 1 0x06 1 0 d.toNat a.toNat b.toNat)
  | .sel d a b => some (.rr 1 0x07 0 0 d.toNat a.toNat b.toNat)
  | .sextb d a => some (.rr 1 0x08 0 0 d.toNat a.toNat 0)
  | .sexth d a => some (.rr 1 0x08 1 0 d.toNat a.toNat 0)
  | .sextw d a => some (.rr 1 0x08 2 0 d.toNat a.toNat 0)
  | .zextw d a => some (.rr 1 0x08 3 0 d.toNat a.toNat 0)
  | .fadd d a b fs => some (.rr 1 0x09 0 fs.toNat d.toNat a.toNat b.toNat)
  | .fsub d a b fs => some (.rr 1 0x09 1 fs.toNat d.toNat a.toNat b.toNat)
  | .fmul d a b fs => some (.rr 1 0x09 2 fs.toNat d.toNat a.toNat b.toNat)
  | .ffma d a b fs => some (.rr 1 0x09 3 fs.toNat d.toNat a.toNat b.toNat)
  | .feq d a b fs => some (.rr 1 0x0A 0 fs.toNat d.toNat a.toNat b.toNat)
  | .flt d a b fs => some (.rr 1 0x0A 1 fs.toNat d.toNat a.toNat b.toNat)
  | .fle d a b fs => some (.rr 1 0x0A 2 fs.toNat d.toNat a.toNat b.toNat)
  | .funord d a b fs => some (.rr 1 0x0A 3 fs.toNat d.toNat a.toNat b.toNat)
  | .ftoi d a fs => some (.rr 1 0x0B 0 fs.toNat d.toNat a.toNat 0)
  | .itof d a fs => some (.rr 1 0x0B 1 fs.toNat d.toNat a.toNat 0)
  | .ftoin d a fs => some (.rr 1 0x0B 2 fs.toNat d.toNat a.toNat 0)
  | .itofn d a fs => some (.rr 1 0x0B 3 fs.toNat d.toNat a.toNat 0)
  | .abs d a => some (.rr 1 0x0C 0 0 d.toNat a.toNat 0)
  | .neg d a => some (.rr 1 0x0C 1 0 d.toNat a.toNat 0)
  | .fabs d a fs => some (.rr 1 0x0C 2 fs.toNat d.toNat a.toNat 0)
  | .fneg d a fs => some (.rr 1 0x0C 3 fs.toNat d.toNat a.toNat 0)
  | .crd d i => some (.rk 1 0x0D d.toNat .zx i)
  | .mova d a => some (.rr 1 0x0E 0 0 d.toNat a.toNat 0)
  | .movs d a => some (.rr 1 0x0E 1 0 d.toNat a.toNat 0)
  | .movah d a => some (.rr 1 0x0E 2 0 d.toNat a.toNat 0)
  | .movsh d a => some (.rr 1 0x0E 3 0 d.toNat a.toNat 0)
  | .ldb d a x i => some (.ri 2 0x00 x.toNat d.toNat a.toNat .sx i)
  | .ldbz d a x i => some (.ri 2 0x01 x.toNat d.toNat a.toNat .sx i)
  | .ldh d a x i => some (.ri 2 0x02 x.toNat d.toNat a.toNat .sx i)
  | .ldhz d a x i => some (.ri 2 0x03 x.toNat d.toNat a.toNat .sx i)
  | .ldw d a x i => some (.ri 2 0x04 x.toNat d.toNat a.toNat .sx i)
  | .ldwz d a x i => some (.ri 2 0x05 x.toNat d.toNat a.toNat .sx i)
  | .ldd d a x i => some (.ri 2 0x06 x.toNat d.toNat a.toNat .sx i)
  | .stb d a x i => some (.ri 2 0x07 x.toNat d.toNat a.toNat .sx i)
  | .sth d a x i => some (.ri 2 0x08 x.toNat d.toNat a.toNat .sx i)
  | .stw d a x i => some (.ri 2 0x09 x.toNat d.toNat a.toNat .sx i)
  | .std d a x i => some (.ri 2 0x0A x.toNat d.toNat a.toNat .sx i)
  | .ldl w d a x => some (.rr 2 0x0B w.toNat x.toNat d.toNat a.toNat 0)
  | .stl w d a x => some (.rr 2 0x0C w.toNat x.toNat d.toNat a.toNat 0)
  | .lda d a x i => some (.ri 2 0x0D x.toNat d.toNat a.toNat .sx i)
  | .sta d a x i => some (.ri 2 0x0E x.toNat d.toNat a.toNat .sx i)
  | .amoadd d a b x => some (.rr 2 0x0F 0 x.toNat d.toNat a.toNat b.toNat)
  | .amoswap d a b x => some (.rr 2 0x0F 1 x.toNat d.toNat a.toNat b.toNat)
  | .amoand d a b x => some (.rr 2 0x0F 2 x.toNat d.toNat a.toNat b.toNat)
  | .amoor d a b x => some (.rr 2 0x0F 3 x.toNat d.toNat a.toNat b.toNat)
  | .amoxor d a b x => some (.rr 2 0x10 0 x.toNat d.toNat a.toNat b.toNat)
  | .amomin d a b x => some (.rr 2 0x10 1 x.toNat d.toNat a.toNat b.toNat)
  | .amomax d a b x => some (.rr 2 0x10 2 x.toNat d.toNat a.toNat b.toNat)
  | .amominn d a b x => some (.rr 2 0x10 3 x.toNat d.toNat a.toNat b.toNat)
  | .cas d a b x => some (.rr 2 0x11 0 x.toNat d.toNat a.toNat b.toNat)
  | .ladd d a b x => some (.rr 2 0x12 0 x.toNat d.toNat a.toNat b.toNat)
  | .lswap d a b x => some (.rr 2 0x12 1 x.toNat d.toNat a.toNat b.toNat)
  | .lmin d a b x => some (.rr 2 0x12 2 x.toNat d.toNat a.toNat b.toNat)
  | .lmax d a b x => some (.rr 2 0x12 3 x.toNat d.toNat a.toNat b.toNat)
  | .casl d a b x => some (.rr 2 0x13 0 x.toNat d.toNat a.toNat b.toNat)
  | .fence i => some (.rk 2 0x14 0 .zx i)
  | .pref a i => some (.ri 2 0x15 0 0 a.toNat .sx i)
  | .rld w d a b => some (.rr 2 0x16 w.toNat 0 d.toNat a.toNat b.toNat)
  | .rst w d a b => some (.rr 2 0x17 w.toNat 0 d.toNat a.toNat b.toNat)
  | .radd d a b => some (.rr 2 0x18 0 0 d.toNat a.toNat b.toNat)
  | .raddr d a b => some (.rr 2 0x18 1 0 d.toNat a.toNat b.toNat)
  | .msg d a b => some (.rr 2 0x19 0 0 d.toNat a.toNat b.toNat)
  | .reply a => some (.rr 2 0x1A 0 0 0 a.toNat 0)
  | .hset d i => some (.rk 2 0x1B d.toNat .zx i)
  | .vadd w d a b m => some (.rr 3 0x00 w.toNat m.toNat d.toNat a.toNat b.toNat)
  | .vsub w d a b m => some (.rr 3 0x01 w.toNat m.toNat d.toNat a.toNat b.toNat)
  | .vmul w d a b m => some (.rr 3 0x02 w.toNat m.toNat d.toNat a.toNat b.toNat)
  | .vmulh w d a b m => some (.rr 3 0x03 w.toNat m.toNat d.toNat a.toNat b.toNat)
  | .vand d a b m => some (.rr 3 0x04 0 m.toNat d.toNat a.toNat b.toNat)
  | .vor d a b m => some (.rr 3 0x04 1 m.toNat d.toNat a.toNat b.toNat)
  | .vxor d a b m => some (.rr 3 0x04 2 m.toNat d.toNat a.toNat b.toNat)
  | .vandn d a b m => some (.rr 3 0x04 3 m.toNat d.toNat a.toNat b.toNat)
  | .vsll w d a b m => some (.rr 3 0x05 w.toNat m.toNat d.toNat a.toNat b.toNat)
  | .vsrl w d a b m => some (.rr 3 0x06 w.toNat m.toNat d.toNat a.toNat b.toNat)
  | .vsra w d a b m => some (.rr 3 0x07 w.toNat m.toNat d.toNat a.toNat b.toNat)
  | .vmin w d a b m => some (.rr 3 0x08 w.toNat m.toNat d.toNat a.toNat b.toNat)
  | .vmax w d a b m => some (.rr 3 0x09 w.toNat m.toNat d.toNat a.toNat b.toNat)
  | .vminn w d a b m => some (.rr 3 0x0A w.toNat m.toNat d.toNat a.toNat b.toNat)
  | .vmaxn w d a b m => some (.rr 3 0x0B w.toNat m.toNat d.toNat a.toNat b.toNat)
  | .vceqE32 d a b m => some (.rr 3 0x0C 0 m.toNat d.toNat a.toNat b.toNat)
  | .vcneE32 d a b m => some (.rr 3 0x0C 1 m.toNat d.toNat a.toNat b.toNat)
  | .vcltE32 d a b m => some (.rr 3 0x0C 2 m.toNat d.toNat a.toNat b.toNat)
  | .vcltnE32 d a b m => some (.rr 3 0x0C 3 m.toNat d.toNat a.toNat b.toNat)
  | .vceqE16 d a b m => some (.rr 3 0x0D 0 m.toNat d.toNat a.toNat b.toNat)
  | .vcneE16 d a b m => some (.rr 3 0x0D 1 m.toNat d.toNat a.toNat b.toNat)
  | .vcltE16 d a b m => some (.rr 3 0x0D 2 m.toNat d.toNat a.toNat b.toNat)
  | .vcltnE16 d a b m => some (.rr 3 0x0D 3 m.toNat d.toNat a.toNat b.toNat)
  | .vceqE8 d a b m => some (.rr 3 0x0E 0 m.toNat d.toNat a.toNat b.toNat)
  | .vcneE8 d a b m => some (.rr 3 0x0E 1 m.toNat d.toNat a.toNat b.toNat)
  | .vcltE8 d a b m => some (.rr 3 0x0E 2 m.toNat d.toNat a.toNat b.toNat)
  | .vcltnE8 d a b m => some (.rr 3 0x0E 3 m.toNat d.toNat a.toNat b.toNat)
  | .vfadd w d a b m => some (.rr 3 0x0F w.toNat m.toNat d.toNat a.toNat b.toNat)
  | .vfsub w d a b m => some (.rr 3 0x10 w.toNat m.toNat d.toNat a.toNat b.toNat)
  | .vfmul w d a b m => some (.rr 3 0x11 w.toNat m.toNat d.toNat a.toNat b.toNat)
  | .vffma w d a b m => some (.rr 3 0x12 w.toNat m.toNat d.toNat a.toNat b.toNat)
  | .vfmin w d a b m => some (.rr 3 0x13 w.toNat m.toNat d.toNat a.toNat b.toNat)
  | .vfmax w d a b m => some (.rr 3 0x14 w.toNat m.toNat d.toNat a.toNat b.toNat)
  | .vfceq d a b m => some (.rr 3 0x15 0 m.toNat d.toNat a.toNat b.toNat)
  | .vfclt d a b m => some (.rr 3 0x15 1 m.toNat d.toNat a.toNat b.toNat)
  | .vfcle d a b m => some (.rr 3 0x15 2 m.toNat d.toNat a.toNat b.toNat)
  | .vfcun d a b m => some (.rr 3 0x15 3 m.toNat d.toNat a.toNat b.toNat)
  | .vrcp d a m => some (.rr 3 0x16 0 m.toNat d.toNat a.toNat 0)
  | .vrsq d a m => some (.rr 3 0x16 1 m.toNat d.toNat a.toNat 0)
  | .vexp2 d a m => some (.rr 3 0x16 2 m.toNat d.toNat a.toNat 0)
  | .vlog2 d a m => some (.rr 3 0x16 3 m.toNat d.toNat a.toNat 0)
  | .vsin d a m => some (.rr 3 0x17 0 m.toNat d.toNat a.toNat 0)
  | .vcos d a m => some (.rr 3 0x17 1 m.toNat d.toNat a.toNat 0)
  | .vsqrt d a m => some (.rr 3 0x17 2 m.toNat d.toNat a.toNat 0)
  | .vtanh d a m => some (.rr 3 0x17 3 m.toNat d.toNat a.toNat 0)
  | .vsel d a b m => some (.rr 3 0x18 0 m.toNat d.toNat a.toNat b.toNat)
  | .vbcast w d a m => some (.rr 3 0x19 w.toNat m.toNat d.toNat a.toNat 0)
  | .vextr w d a b m => some (.rr 3 0x1A w.toNat m.toNat d.toNat a.toNat b.toNat)
  | .vins w d a b m => some (.rr 3 0x1B w.toNat m.toNat d.toNat a.toNat b.toNat)
  | .viota w d m => some (.rr 3 0x1C w.toNat m.toNat d.toNat 0 0)
  | .vredadd d a m => some (.rr 3 0x1D 0 m.toNat d.toNat a.toNat 0)
  | .vredfadd d a m => some (.rr 3 0x1D 1 m.toNat d.toNat a.toNat 0)
  | .vredmin d a m => some (.rr 3 0x1D 2 m.toNat d.toNat a.toNat 0)
  | .vredmax d a m => some (.rr 3 0x1D 3 m.toNat d.toNat a.toNat 0)
  | .vwiden8 d a m => some (.rr 3 0x1E 0 m.toNat d.toNat a.toNat 0)
  | .vwiden16 d a m => some (.rr 3 0x1E 1 m.toNat d.toNat a.toNat 0)
  | .vnarrow16 d a m => some (.rr 3 0x1E 2 m.toNat d.toNat a.toNat 0)
  | .vnarrow8 d a m => some (.rr 3 0x1E 3 m.toNat d.toNat a.toNat 0)
  | .vld d a m i => some (.ri 4 0x00 m.toNat d.toNat a.toNat .sx i)
  | .vst d a m i => some (.ri 4 0x01 m.toNat d.toNat a.toNat .sx i)
  | .vlds w d a b m => some (.rr 4 0x02 w.toNat m.toNat d.toNat a.toNat b.toNat)
  | .vsts w d a b m => some (.rr 4 0x03 w.toNat m.toNat d.toNat a.toNat b.toNat)
  | .vgath w d a b m => some (.rr 4 0x04 w.toNat m.toNat d.toNat a.toNat b.toNat)
  | .vscat w d a b m => some (.rr 4 0x05 w.toNat m.toNat d.toNat a.toNat b.toNat)
  | .vldl d a m => some (.rr 4 0x06 0 m.toNat d.toNat a.toNat 0)
  | .vstl d a m => some (.rr 4 0x07 0 m.toNat d.toNat a.toNat 0)
  | .vgathl w d a b m => some (.rr 4 0x08 w.toNat m.toNat d.toNat a.toNat b.toNat)
  | .vscatl w d a b m => some (.rr 4 0x09 w.toNat m.toNat d.toNat a.toNat b.toNat)
  | .vperm w d a b m => some (.rr 4 0x0A w.toNat m.toNat d.toNat a.toNat b.toNat)
  | .vsldn w d a b m => some (.rr 4 0x0B w.toNat m.toNat d.toNat a.toNat b.toNat)
  | .vslup w d a b m => some (.rr 4 0x0C w.toNat m.toNat d.toNat a.toNat b.toNat)
  | .vscanadd d a m => some (.rr 4 0x0D 0 m.toNat d.toNat a.toNat 0)
  | .vscanfadd d a m => some (.rr 4 0x0D 1 m.toNat d.toNat a.toNat 0)
  | .mand d a b => some (.rr 4 0x0E 0 0 d.toNat a.toNat b.toNat)
  | .mor d a b => some (.rr 4 0x0E 1 0 d.toNat a.toNat b.toNat)
  | .mxor d a b => some (.rr 4 0x0E 2 0 d.toNat a.toNat b.toNat)
  | .mandn d a b => some (.rr 4 0x0E 3 0 d.toNat a.toNat b.toNat)
  | .mpop d a => some (.rr 4 0x0F 0 0 d.toNat a.toNat 0)
  | .mfirst d a => some (.rr 4 0x0F 1 0 d.toNat a.toNat 0)
  | .mmovs d a => some (.rr 4 0x0F 2 0 d.toNat a.toNat 0)
  | .mmovm d a => some (.rr 4 0x0F 3 0 d.toNat a.toNat 0)
  | .gadd d a => some (.rr 4 0x10 0 0 d.toNat a.toNat 0)
  | .gfadd d a => some (.rr 4 0x10 1 0 d.toNat a.toNat 0)
  | .gmin d a => some (.rr 4 0x10 2 0 d.toNat a.toNat 0)
  | .gmax d a => some (.rr 4 0x10 3 0 d.toNat a.toNat 0)
  | .vmov d a m => some (.rr 4 0x11 0 m.toNat d.toNat a.toNat 0)
  | .fmtset a b => some (.rr 5 0x00 0 0 0 a.toNat b.toNat)
  | .fmtget d b => some (.rr 5 0x01 0 0 d.toNat 0 b.toNat)
  | .fset w a => some (.rr 5 0x02 w.toNat 0 0 a.toNat 0)
  | .cvt d a b => some (.rr 5 0x03 0 0 d.toNat a.toNat b.toNat)
  | .cvtef d a b => some (.rr 5 0x04 0 0 d.toNat a.toNat b.toNat)
  | .fmtinv b => some (.rr 5 0x05 0 0 0 0 b.toNat)
  | .mma d a b => some (.rr 6 0x00 0 0 d.toNat a.toNat b.toNat)
  | .mmaz d a b => some (.rr 6 0x00 1 0 d.toNat a.toNat b.toNat)
  | .mmas d a b => some (.rr 6 0x01 0 0 d.toNat a.toNat b.toNat)
  | .mmasz d a b => some (.rr 6 0x01 1 0 d.toNat a.toNat b.toNat)
  | .mzero d => some (.rr 6 0x02 0 0 d.toNat 0 0)
  | .mdrain d a => some (.rr 6 0x03 0 0 d.toNat a.toNat 0)
  | .mdrainw d a => some (.rr 6 0x03 1 0 d.toNat a.toNat 0)
  | .accrd d a => some (.rr 6 0x04 0 0 d.toNat a.toNat 0)
  | .accwr d a => some (.rr 6 0x05 0 0 d.toNat a.toNat 0)
  | .neteval d a b => some (.rr 6 0x06 0 0 d.toNat a.toNat b.toNat)
  | .msave a => some (.rr 6 0x07 0 0 0 a.toNat 0)
  | .mrstr a => some (.rr 6 0x08 0 0 0 a.toNat 0)
  | .mqstat d => some (.rr 6 0x09 0 0 d.toNat 0 0)
  | .copy a => some (.rr 7 0x00 0 0 0 a.toNat 0)
  | .txreq d a => some (.rr 7 0x01 0 0 d.toNat a.toNat 0)
  | .waittl d a => some (.rr 7 0x02 0 0 d.toNat a.toNat 0)
  | .tlrd d i => some (.rk 7 0x03 d.toNat .zx i)
  | .awset a b => some (.rr 7 0x04 0 0 0 a.toNat b.toNat)
  | .waitgen d a b => some (.rr 7 0x05 0 0 d.toNat a.toNat b.toNat)
  | .arrive d a b => some (.rr 7 0x06 0 0 d.toNat a.toNat b.toNat)
  | .arrivem d a b => some (.rr 7 0x06 1 0 d.toNat a.toNat b.toNat)
  | .qcfg a => some (.rr 7 0x07 0 0 0 a.toNat 0)
  | .qstat d a => some (.rr 7 0x08 0 0 d.toNat a.toNat 0)
  | .spawn d a b => some (.rr 8 0x00 0 0 d.toNat a.toNat b.toNat)
  | .spawnw d a b => some (.rr 8 0x00 1 0 d.toNat a.toNat b.toNat)
  | .quit => some (.rr 8 0x01 0 0 0 0 0)
  | .yield => some (.rr 8 0x02 0 0 0 0 0)
  | .sleep a => some (.rr 8 0x03 0 0 0 a.toNat 0)
  | .wake a => some (.rr 8 0x04 0 0 0 a.toNat 0)
  | .resume a => some (.rr 8 0x04 1 0 0 a.toNat 0)
  | .abort a => some (.rr 8 0x04 2 0 0 a.toNat 0)
  | .gang2 => some (.rr 8 0x05 0 0 0 0 0)
  | .gang4 => some (.rr 8 0x05 1 0 0 0 0)
  | .gang8 => some (.rr 8 0x05 2 0 0 0 0)
  | .split => some (.rr 8 0x06 0 0 0 0 0)
  | .tagpub a b => some (.rr 8 0x07 0 0 0 a.toNat b.toNat)
  | .tagwait a b => some (.rr 8 0x08 0 0 0 a.toNat b.toNat)
  | .tagqry d a b => some (.rr 8 0x09 0 0 d.toNat a.toNat b.toNat)
  | .qpush a b => some (.rr 8 0x0A 0 0 0 a.toNat b.toNat)
  | .evpost a b => some (.rr 8 0x0B 0 0 0 a.toNat b.toNat)
  | .texldNearest d a b m => some (.rr 9 0x00 0 m.toNat d.toNat a.toNat b.toNat)
  | .texldBilinear d a b m => some (.rr 9 0x00 1 m.toNat d.toNat a.toNat b.toNat)
  | .texldTrilinear d a b m => some (.rr 9 0x00 2 m.toNat d.toNat a.toNat b.toNat)
  | .ldlod d a b => some (.rr 9 0x01 0 0 d.toNat a.toNat b.toNat)
  | .texfence => some (.rr 9 0x02 0 0 0 0 0)
  | .fbflush => some (.rr 9 0x03 0 0 0 0 0)
  | .triemit a b => some (.rr 9 0x04 0 0 0 a.toNat b.toNat)
  | .tripop d a => some (.rr 9 0x05 0 0 d.toNat a.toNat 0)
  | .tripopn d a => some (.rr 9 0x05 1 0 d.toNat a.toNat 0)
  | .tridone a => some (.rr 9 0x06 0 0 0 a.toNat 0)
  | .pxlock a b => some (.rr 9 0x07 0 0 0 a.toNat b.toNat)
  | .pxunlk a => some (.rr 9 0x08 0 0 0 a.toNat 0)
  | .laynew d => some (.rr 9 0x09 0 0 d.toNat 0 0)
  | .layset d a b => some (.rr 9 0x0A 0 0 d.toNat a.toNat b.toNat)
  | .layget d a b => some (.rr 9 0x0B 0 0 d.toNat a.toNat b.toNat)
  | .laysplit d a b => some (.rr 9 0x0C 0 0 d.toNat a.toNat b.toNat)
  | .laymerge a b => some (.rr 9 0x0D 0 0 0 a.toNat b.toNat)
  | .layret a => some (.rr 9 0x0E 0 0 0 a.toNat 0)
  | .compose a b => some (.rr 9 0x0F 0 0 0 a.toNat b.toNat)
  | .reqpop d a => some (.rr 9 0x10 0 0 d.toNat a.toNat 0)
  | .hput a => some (.rr 10 0x00 0 0 0 a.toNat 0)
  | .hget a => some (.rr 10 0x01 0 0 0 a.toNat 0)
  | .hamo a => some (.rr 10 0x02 0 0 0 a.toNat 0)
  | .hsend a => some (.rr 10 0x03 0 0 0 a.toNat 0)
  | .ccrd d a b => some (.rr 10 0x04 0 0 d.toNat a.toNat b.toNat)
  | .epstat d a => some (.rr 10 0x05 0 0 d.toNat a.toNat 0)
  | .csrr d i => some (.rk 15 0x00 d.toNat .zx i)
  | .csrw d i => some (.rk 15 0x01 d.toNat .zx i)
  | .trap i => some (.rk 15 0x02 0 .zx i)
  | .rett => some (.rr 15 0x03 0 0 0 0 0)
  | .tlbinv a b => some (.rr 15 0x04 0 0 0 a.toNat b.toNat)
  | .harvest => some (.rr 15 0x05 0 0 0 0 0)
  | .ctxkill a => some (.rr 15 0x06 0 0 0 a.toNat 0)
  | .shroud a => some (.rr 15 0x07 0 0 0 a.toNat 0)
  | .deviceReset | .boot _ | .powerLimitSet _ | .reefGrant _ _ | .watchdogExpire _ | .messageRetry _ _
  | .sleepTimeout _ | .wakeArrive _ | .resumeArrive _ | .abortArrive _ | .longLatencyComplete _ _
  | .sfuComplete _ | .faultRecordRetry _ | .handlerLimit | .waittlComplete _ | .waitgenComplete _
  | .tagwaitComplete _ | .qinPopComplete _ | .qoutPushComplete _ | .spawnwComplete _ | .gangForm _
  | .qcfgDisconnectComplete _ | .tripopComplete _ | .pxlockGrant _ | .fmtsetInstall _ | .handlerStart _ _
  | .builtinHandlerAccess _ _ | .arrivalCredit _ _ | .l1Invalidate _ | .storeAck _ | .matrixTileStep _
  | .matrixEntryComplete _ | .drainWriteAck _ | .drainWake _ | .spawnQueueServe _ | .matrixFreeze _
  | .spillReply _ _ | .mqctlStop _ _ | .mqctlMaskerrClear _ | .copyUnit _ | .copyComplete _
  | .engineFaultRetry _ _ | .compress _ | .decompress _ | .fprint _ | .compare _ | .crc32c _ | .pageWalk _
  | .adWriteback _ _ | .adWritebackTimeout _ _ | .feedbackRecordWrite _ | .kernelEnd _ | .heldDoneUpdate _
  | .heldPublicationApply _ | .groupAdmit _ _ | .groupPlace _ | .groupEnd _ _ | .preemptionTrigger _
  | .groupSaveComplete _ _ | .triangleDeliver _ _ | .composite _ | .laysplitCopy _ | .laymergeFold _
  | .commandArrive _ _ | .nop _ | .launch _ | .wait _ | .write _ | .event _ | .blockClear _
  | .queueStallRetry _ | .completionRecordRetry _ | .notifyTimer _ | .contextCreate _ | .contextSuspend _
  | .suspendComplete _ | .contextResume _ | .contextKill _ | .killFinish _ | .contextRelease _
  | .queueCreate _ | .queueSet _ | .queueDestroy _ | .vfSet _ | .vfReset _ | .vfctlReset _
  | .vfResetGraceExpire | .vfResetDrainDone | .endpointOpen _ | .endpointClose _ | .trainingSucceeds _
  | .signalLost _ | .portDisable _ | .portEnable _ | .retransmit _ _ | .retransmitLimit _ _
  | .packetWrite _ _ | .packetRead _ _ | .packetAtomic _ _ | .packetSend _ _ | .packetAck _ _ _
  | .elselClear _ | .illegalEncoding _ _ | .transferPacketSend _ | .softError _ => none

/-- The fewest IMM words that represent `i` beside a field of `w` bits (R49); 4 if none does. -/
def immCount (k : ImmEnc) (w : Nat) (i : Imm) : Nat :=
  match k with
  | .one => 1
  | .sx => ([0, 1, 2, 3].find? (fun n => fitsSigned w n i)).getD 4
  | .zx => ([0, 1, 2, 3].find? (fun n => fitsUnsigned w n i)).getD 4

/-- The IMM words, most significant first (R32). -/
def immWords (n w : Nat) (i : Imm) : List (BitVec 16) :=
  (List.range n).map (fun k => BitVec.ofNat 16 (0xF800 + i.toNat / 2 ^ (w + 9 * (n - 1 - k)) % 512))

/-- The REG word, where a high register number or a nonzero x needs it (R30, R49). -/
def regWords (x d a b : Nat) : List (BitVec 16) :=
  if x = 0 ∧ d < 8 ∧ a < 8 ∧ b < 8 then []
  else [BitVec.ofNat 16 (0xFA00 + x * 64 + d / 8 * 16 + a / 8 * 4 + b / 8)]

/-- The PAGE word, where the page or the lookahead needs it (R30, R49). -/
def pageWords (page la : Nat) : List (BitVec 16) :=
  if page = 0 ∧ la = 0 then [] else [BitVec.ofNat 16 (0xFC00 + la * 32 + page)]

/-- The words of an encoding, prefixes first (R28, R30). -/
def Enc.words (la : Nat) : Enc → List (BitVec 16)
  | .rr page op f x d a b =>
    regWords x d a b ++ pageWords page la ++ [BitVec.ofNat 16 (op * 2048 + d % 8 * 256 + a % 8 * 32 + b % 8 * 4 + f)]
  | .ri page op x d a k i =>
    immWords (immCount k 5 i) 5 i ++ regWords x d a 0 ++ pageWords page la ++
      [BitVec.ofNat 16 (op * 2048 + d % 8 * 256 + a % 8 * 32 + i.toNat % 32)]
  | .rk page op d k i =>
    immWords (immCount k 8 i) 8 i ++ regWords 0 d 0 0 ++ pageWords page la ++
      [BitVec.ofNat 16 (op * 2048 + d % 8 * 256 + i.toNat % 256)]
  | .br op c a i =>
    immWords (immCount .sx 5 i) 5 i ++ regWords 0 0 a 0 ++ pageWords 0 la ++
      [BitVec.ofNat 16 (op * 2048 + c * 256 + a % 8 * 32 + i.toNat % 32)]
  | .jw op i =>
    immWords (immCount .sx 11 i) 11 i ++ pageWords 0 la ++ [BitVec.ofNat 16 (op * 2048 + i.toNat % 2048)]

/-- The canonical words of a well-formed bundle with lookahead `la`; none for the device's own steps. -/
def encode (i : Instr) (la : Nat := 0) : List (BitVec 16) :=
  match encFields i with
  | some e => e.words la
  | none => []

/-- The 16-bit words of a number, the word at its top first. -/
def topWords : Nat → Nat → List (BitVec 16)
  | 0, _ => []
  | n + 1, w => BitVec.ofNat 16 (w / 65536 ^ n) :: topWords n w

/-- The words of a table number, first word first: spec/opcode_table.json writes a bundle's first word in the highest
bits of its number. A number with a prefix word in its lowest bits is read from there (entry 1). -/
def tableWords (n w : Nat) : List (BitVec 16) :=
  if w / 2048 % 32 = 31 then (topWords n w).reverse else topWords n w

/-- What the decoder reads from a row's word as the table numbers it. -/
noncomputable def decodeTableWord (nbits w : Nat) : Option Instr :=
  match decodeWords (tableWords (nbits / 16) w) with
  | some (.ok i _, _) => some i
  | _ => none

end Sys2Proof
end

