-- ==== Sys2Proof/Config.lean ====
section
/-! DEFINITION. What an implementation fixes and the values the spec leaves open. An opaque constant has no body:
no proof can see its value. -/

namespace Sys2Proof.Config

/-- Global core ids run below this (01_machine R13). -/
def cores : Nat := 1536
/-- Thread numbers run below this (03_thread R51). -/
def threads : Nat := 12288
/-- Bytes of a local store (01_machine R16). -/
def localBytes : Nat := 0x60000
/-- Bytes of HBM (01_machine R23). -/
def memBytes : Nat := 0x6000000000

/-- A value the spec leaves open, fresh for every number (entry 10). -/
opaque freeValue : Nat → BitVec 512

/-- The buffer record that another device holds at a place in a core cycle (15_kernel R263; entry 24). -/
opaque farRecord : Nat → Nat → BitVec 256

/-- Spare rows of an array of a core (24_device R385; entry 30). -/
opaque spareRows : Nat → Nat

/-- Row of a core's array that holds what is kept there under a key (24_device R387; entry 30). -/
opaque rowOf : Nat → Nat → BitVec 32

end Sys2Proof.Config
end

