-- ==== Sys2Proof/Machine/State.lean ====
section
/-! DEFINITION. The state of the machine as plain data: threads, cores, clusters, dies, contexts, queues, kernels,
groups, layers, endpoints, memory, and what is on its way between them. Entries of tables that are not listed read as
the default their accessor in Machine/Tab.lean and Machine/Ops.lean names. -/

namespace Sys2Proof.Machine

open Sys2Proof

/-! ### Threads (03_thread R51-R65, 04_scalar R66, 17_context R303, R310) -/

/-- The six states of a slot (R53). -/
inductive SlotState where
  | free | runnable | waiting | sleeping | dropped | saved
  deriving DecidableEq, Repr

/-- One trap level's registers (R303). -/
structure Bank where
  tvec : W64 := 0
  tcause : W64 := 0
  tepc : W64 := 0
  tval : W64 := 0
  tword : W64 := 0
  twordh : W64 := 0
  deriving DecidableEq, Repr

/-- A register of a thread, as the destination of a long-latency bundle. -/
inductive Reg where
  | s (n : SReg) | a (n : AReg) | v (n : VReg) | m (n : MReg)
  deriving DecidableEq, Repr

/-- A bundle as it issued: its address, its words and its lookahead. -/
structure Bundle where
  pc : W64 := 0
  words : List (BitVec 16) := []
  la : Nat := 0
  deriving DecidableEq, Repr

/-- An error a trap reports: cause code, TVAL, and the bits it adds to TWORDH (R304). -/
structure Err where
  cause : Nat
  tval : W64 := 0
  high : W64 := 0
  deriving DecidableEq, Repr

/-- A reduction over a gang (06_vector R138). -/
inductive GangOp where
  | add | fadd | min | max
  deriving DecidableEq, Repr

/-- A part of a matrix save area within a page: where its translation puts it, by physical address with the node above
it, its virtual address, its bytes, and what another device has answered to a read of it (10_matrix R201). -/
structure AreaPart where
  pa : Nat
  va : Nat
  n : Nat
  data : List (BitVec 8) := []
  deriving DecidableEq, Repr

/-- What a committed long-latency bundle still waits for (R59, R60). -/
inductive Due where
  /-- the result is known; it completes no earlier than cycle `at_` -/
  | ready (at_ : Nat)
  /-- a reply of another core, by the number of the remote access (07_memory R152) -/
  | reply (num : Nat)
  /-- the reply of an accumulator read or of another matrix entry, by its class 0 number (10_matrix R197, R198) -/
  | entry (num : Nat)
  /-- the freeze of the core's matrix queue, then the save to these parts (10_matrix R201) -/
  | msave (parts : List AreaPart)
  /-- the special-function unit (06_vector R123) -/
  | sfu
  /-- the other members `ms` of gang `num`, at its `n`-th bundle; the entry is the leader's (06_vector R138) -/
  | gang (op : GangOp) (operand : W64) (entry : W64) (ms : List Nat) (num n : Nat)
  /-- the two version slots of a format entry, and whether the FMTSET pops QIN when it completes (05_formats R98,
  04_scalar R67) -/
  | format (entry : Nat) (word : W64) (values : List (BitVec 32)) (pops : Bool)
  deriving DecidableEq, Repr

/-- A snapshot of a format entry (05_formats R99): its word, and for a codebook its version slot and values. -/
structure Snap where
  ctx : Nat
  entry : Nat
  word : W64
  slot : Nat := 0
  values : List (BitVec 32) := []
  deriving DecidableEq, Repr

/-- A chain link (08_barrier R167, R168). -/
structure Link where
  ctx : Nat
  src : Nat
  dst : Nat
  vals : List W64 := []
  srcEnded : Bool := false
  /-- saved with its group, and that group's key -/
  saved : Bool := false
  grp : Nat := 0
  deriving DecidableEq, Repr

/-- An outstanding long-latency bundle. -/
structure Pend where
  b : Bundle
  /-- bundles of its window that may still issue -/
  win : Nat
  /-- registers it is still to write -/
  dests : List Reg
  /-- what it writes, each value in its low bits -/
  vals : List (Reg × V512) := []
  due : Due
  /-- an error that arrived with its reply (R61) -/
  err : Option Err := none
  /-- a level-of-detail load (14_lod R261) -/
  lod : Bool := false
  /-- another access of device memory -/
  mem : Bool := false
  /-- the format entries a level-of-detail load has a snapshot of (05_formats R99) -/
  snaps : List Snap := []
  /-- the upstream link as the bundle found it, where it has popped a value: a trap gives that back (04_scalar R67) -/
  popped : Option Link := none
  deriving DecidableEq, Repr

/-- What a WAITING thread waits for (R57), with the operands read at issue. -/
inductive Wait where
  | timeline (cls : Nat) (n : W64)
  | generation (off : W64) (last : BitVec 32) (d : SReg)
  | tag (id pa tile : Nat) (gen : BitVec 32)
  | pop
  | push
  | spawn (core : Nat) (start : W64) (d : SReg)
  | gang (n : Nat)
  | disconnect
  /-- TRIPOP: a record of the set, for an offset (21_layer R360) -/
  | triangle (set off : Nat) (d : SReg)
  /-- PXLOCK: a quad, for a ticket (R361) -/
  | pixel (set seq quad : Nat)
  deriving DecidableEq, Repr

/-- A waiting bundle: what it waits for, and whether it pops QIN when it completes. -/
structure Waiting where
  b : Bundle
  w : Wait
  pops : Bool := false
  deriving DecidableEq, Repr

/-- A bundle of the leader a follower is still to execute: its number in the gang, the leader's outcome (the next address and
whether a branch went), none where the leader waits in it or left the gang at it, and the leader's FSEL slot 0 with its entry
then (R64, R65, 06_vector R138). -/
structure Follow where
  b : Bundle
  n : Nat
  next : Option W64
  way : Bool := false
  slot : Nat := 0
  entry : W64 := 0
  deriving DecidableEq, Repr

/-- Membership of a gang (R63). -/
structure Gang where
  size : Nat
  index : Nat
  /-- which of the gangs formed so far it is -/
  num : Nat := 0
  /-- bundles the member has executed in it, and, as its leader, led to the others -/
  done : Nat := 0
  led : Nat := 0
  /-- its newest bundle was a branch that went -/
  way : Bool := false
  /-- bundles the leader is ahead, oldest first -/
  ahead : List Follow := []
  /-- the gang dissolves once those are executed (R65) -/
  last : Bool := false
  deriving DecidableEq, Repr

/-- The message a handler on slot 7 is handling (07_memory R155-R157). -/
structure Handling where
  sender : Nat
  third : W64
  replied : Bool := false
  /-- bundles counted toward the limit of R58 -/
  count : Nat := 0
  deriving DecidableEq, Repr

/-- An operation on a timeline that is not done, or that ended in error (11_engines R203, R204). -/
structure TimeOp where
  cls : Nat
  num : Nat
  complete : Bool := false
  err : Option Err := none
  deriving DecidableEq, Repr

/-- A slot and its thread. -/
structure Thread where
  st : SlotState := .free
  pc : W64 := 0
  /-- a sequential fetch has left the code range (01_machine R24) -/
  past : Bool := false
  s : Tab W64 := []
  a : Tab VAddr := []
  v : Tab V512 := []
  m : Tab W64 := []
  tstate : W64 := 0
  bank1 : Bank := {}
  bank2 : Bank := {}
  tscratch : W64 := 0
  fsel : W64 := 0
  fflags : W64 := 0
  issued : Tab Nat := []
  ops : List TimeOp := []
  wakePend : Bool := false
  ctx : Nat := 0
  vf : Nat := 0
  /-- the group that holds the slot: kernel serial and group index (16_group R283) -/
  grp : Option (Nat × Nat) := none
  /-- which of the threads started so far it is -/
  inc : Nat := 0
  /-- cycle from which a FREE slot can be taken: its thread has ended in the one before (QUIT) -/
  freed : Nat := 0
  /-- its start PC, arguments and mode, for a restart (R53) -/
  startPc : W64 := 0
  startSys : Bool := false
  startArgs : List W64 := []
  wait : Option Waiting := none
  sleepEnd : Option Nat := none
  yieldEnd : Nat := 0
  pend : List Pend := []
  /-- the model's own: for a register, the moment (`State.moment`) of the newest load its value depends on (07_memory
  R143) -/
  deps : Tab Nat := []
  /-- the model's own: the moment at which its newest load of a home slice was performed, by slice, and the moment from
  which on its loads are performed, after an acquire or a restore (R139, R143) -/
  seen : Tab Nat := []
  base : Nat := 0
  /-- it has accessed a page of another device since its last FENCE of loads (R159) -/
  far : Bool := false
  /-- remote accesses sent, those not yet acknowledged, and refusals no FENCE has raised, by number (07_memory R154) -/
  remSent : Nat := 0
  remOut : List Nat := []
  remErr : List (Nat × Err) := []
  gang : Option Gang := none
  hand : Option Handling := none
  /-- array of a poisoned register or queue entry it owns (24_device R386) -/
  poison : Option Nat := none
  deriving DecidableEq, Repr

/-- The thread that issued an operation, as the operation remembers it, and how many remote accesses it had sent by then
(11_engines R212). -/
structure Owner where
  thr : Nat
  inc : Nat
  ctx : Nat
  vf : Nat
  /-- kernel serial and group index -/
  grp : Option (Nat × Nat)
  pc : W64
  sent : Nat := 0
  deriving DecidableEq, Repr

/-- Who accesses memory of another device (23_link R376): a thread's bundle, its fetch, or its level-of-detail load, or what
a thread waits for, by the thread's start; an engine, for an owner; a queue's command; a packet that has come in at an
endpoint. -/
inductive Asker where
  | thread (t inc : Nat)
  | fetch (t inc : Nat)
  | lod (t inc : Nat)
  | waiting (t inc : Nat)
  | engine (o : Owner)
  | queue (q : Nat)
  | packet (ep : Nat)
  deriving DecidableEq, Repr

/-- What has become of the bundle being issued: it runs; it traps; its translation waits for a walker, or its access for
the answer of another device (12_page R229, 23_link R376). -/
inductive Turn where
  | ran | trapped | walking
  deriving DecidableEq, Repr

/-- The bundle being issued: which thread's, the bundle, the moment of the newest load its registers depend on, and
what has become of it. -/
structure Issue where
  thr : Nat := 0
  b : Bundle := {}
  dep : Nat := 0
  turn : Turn := .ran
  /-- an error that an access of the bundle met and went on from, for its reply to bring (24_device R386) -/
  late : Option Err := none
  deriving DecidableEq, Repr

/-! ### Translation and the caches (12_page R228-R231, 07_memory R139) -/

/-- A TLB entry: one leaf of a context, with gathered and written-back A and D. -/
structure TlbEnt where
  ctx : Nat
  lvl : Nat
  /-- page number: the address without the page offset of the level -/
  page : Nat
  leaf : W64
  /-- where the leaf stands in memory -/
  pte : Nat
  a : Bool := false
  d : Bool := false
  aDone : Bool := false
  dDone : Bool := false
  /-- cycle at which A or D was first gathered -/
  since : Nat := 0
  deriving DecidableEq, Repr

/-- A miss in both TLBs that a walker walks, or that waits for one: for a thread, or, none, for a prefetch; with the
shoot-down count it read (R229, R230). -/
structure Walk where
  core : Nat
  ctx : Nat
  va : Nat
  shoot : Nat
  thr : Option Nat := none
  deriving DecidableEq, Repr

/-- A line of an L1 cache: its 64 bytes as one number. -/
structure Line where
  addr : Nat
  data : V512
  deriving DecidableEq, Repr

/-- A store performed at its home slice and not yet acknowledged: the thread, which of the threads started it is, its
VF, the bytes, and the moment of the write (R139). -/
structure StoreEnt where
  thr : Nat
  inc : Nat
  vf : Nat
  addr : Nat
  bytes : List (BitVec 8)
  moment : Nat
  deriving DecidableEq, Repr

/-- What home slices have sent a core that it has not yet accepted: the invalidation of a line, with the moment of the
write it tells of, or the acknowledgement of a store (R139). -/
inductive FromSlice where
  | inval (addr moment : Nat)
  | ack (e : StoreEnt)
  deriving DecidableEq, Repr

/-! ### Messages, the matrix unit and the engines -/

/-- A triangle record on its way: set, sequence number, layer, and the box of pixels it covers; or an end mark
(21_layer R348, R359). -/
structure Tri where
  set : Nat
  seq : Nat
  mark : Bool := false
  layer : Nat := 0
  x0 : Nat := 0
  x1 : Nat := 0
  y0 : Nat := 0
  y1 : Nat := 0
  data : V512 := 0
  deriving DecidableEq, Repr

/-- WAKE, RESUME and ABORT on the mesh (03_thread R53). -/
inductive PingKind where
  | wake | resume | abort
  deriving DecidableEq, Repr

/-- What a message carries (03_thread R53; 07_memory R152, R155; 08_barrier R161; 21_layer R348). -/
inductive Load where
  | rld (off size : Nat)
  | rst (off size : Nat) (val : W64)
  | radd (off : Nat) (val : BitVec 32) (answer : Bool)
  | msg (h : Nat) (w1 w2 w3 : W64)
  /-- REPLY: a dword for the sender, whose thread is then woken (R157) -/
  | reply (off : Nat) (val : W64) (sender : Nat)
  | credit (off : Nat) (n : BitVec 32)
  | triangle (t : Tri)
  | ping (k : PingKind) (thr : Nat)
  deriving DecidableEq, Repr

/-- A message on the mesh, in the order it was sent (01_machine R20). -/
structure Msg where
  owner : Owner
  src : Nat
  tgt : Nat
  /-- number of the remote access at its thread; 0: none -/
  num : Nat
  body : Load
  /-- refused once and kept by its sender until a remap (01_machine R15) -/
  held : Bool := false
  /-- it releases: performed after every message of its thread numbered below; 0: it does not -/
  rel : Nat := 0
  deriving DecidableEq, Repr

/-- A matrix operand as its descriptor gives it (10_matrix R174). -/
structure Operand where
  core : Nat
  off : Nat
  stride : Nat
  k : Nat
  sparsity : Nat
  fmt : Snap
  deriving DecidableEq, Repr

/-- An entry of a core's matrix queue (R172). -/
inductive MOp where
  | mma (tile : Nat) (zero : Bool) (a b : Operand)
  | mzero (tile : Nat)
  | drain (tile : Nat) (desc : W64) (fmt : Snap) (wake : Bool)
  | accrd (tile row half : Nat) (d : VReg)
  | accwr (tile row half : Nat) (val : V512)
  | neteval (d : VReg) (recd : BitVec 384) (wt act : Snap) (x : List V512)
  deriving DecidableEq, Repr

structure MEnt where
  owner : Owner
  num : Nat
  op : MOp
  /-- tile steps executed -/
  steps : Nat := 0
  /-- flags gathered for the issuer's FFLAGS -/
  flags : Nat := 0
  /-- its last step is done and its writes wait to be acknowledged -/
  sent : Bool := false
  /-- those writes are acknowledged; its wake is still to go out (R187) -/
  acked : Bool := false
  /-- refused (R188), or its operands carry poison -/
  refused : Option Err := none
  deriving DecidableEq, Repr

/-- A bundle the special-function unit has accepted: when it completes, and the flags it raises (06_vector R123). -/
structure SfuEnt where
  owner : Owner
  at_ : Nat
  flags : Nat
  deriving DecidableEq, Repr

/-- A place of an engine's area (11_engines R206). -/
inductive Loc where
  | dev (va : Nat)
  | loc (core : Nat) (off : Int)
  deriving DecidableEq, Repr

/-- A stall of an engine's request on a soft fault: the cycle of the next retry, and the fault its record tells of (R210). -/
structure Stall where
  retry : Nat
  va : Nat
  cause : Nat
  kind : Nat
  deriving DecidableEq, Repr

/-- A request in a core's copy queue (R205, R206). -/
structure CopyReq where
  owner : Owner
  num : Nat
  desc : V512
  src : Option Snap := none
  dst : Option Snap := none
  /-- units of up to 64 destination bytes moved -/
  done : Nat := 0
  flags : Nat := 0
  /-- the source as read first, for a plain copy whose areas overlap (R208) -/
  buf : Option (List (BitVec 8)) := none
  stall : Option Stall := none
  /-- its last write is done, or it has stopped on an error -/
  past : Bool := false
  err : Option Err := none
  deriving DecidableEq, Repr

/-- A request accepted by a cluster's transform port (R213, R214). -/
structure TxReq where
  owner : Owner
  num : Nat
  recd : BitVec 256
  stall : Option Stall := none
  /-- bytes of the second area written -/
  done : Nat := 0
  deriving DecidableEq, Repr

/-- A fault record on its way to a ring (12_page R236, R237). -/
structure FaultRec where
  ctx : Nat
  data : BitVec 256
  /-- its ring, once its context has been released (19_queue R327): base and number of records -/
  ring : Option (Nat × Nat) := none
  /-- found the ring full -/
  held : Bool := false
  retryAt : Nat := 0
  deriving DecidableEq, Repr

/-- The operation of a transfer (23_link R377). -/
inductive HOp where
  | put | get | amo | send
  deriving DecidableEq, Repr

/-- A transfer of a core, from its issue to its completion (23_link R369-R371). -/
structure NetReq where
  owner : Owner
  num : Nat
  op : HOp
  ep : Nat
  desc : V512
  /-- its place in the order of issue -/
  order : Nat
  /-- its first packet has gone -/
  started : Bool := false
  /-- bytes sent, or asked for -/
  sent : Nat := 0
  /-- bytes acknowledged, or placed -/
  acked : Nat := 0
  stall : Option Stall := none
  deriving DecidableEq, Repr

/-- What a packet asks of the peer (23_link R369, R373). -/
structure NetMsg where
  op : HOp
  remote : Nat
  len : Nat
  data : List (BitVec 8) := []
  amo : Nat := 0
  operand : W64 := 0
  compare : W64 := 0
  /-- arrival word at the peer: core, offset -/
  credit : Option (Nat × Nat) := none
  deriving DecidableEq, Repr

/-- A packet sent and not yet acknowledged (23_link R365, R367, R372). -/
structure OutPkt where
  /-- order of its transfer, and the packet's offset in it -/
  order : Nat
  off : Nat
  msg : NetMsg
  /-- the port it travels on -/
  port : Option Nat
  /-- retransmissions counted toward the limit -/
  tries : Nat := 0
  /-- answered "retry" and waiting for the backoff -/
  backoff : Bool := false
  /-- the peer's answer, not yet placed -/
  reply : Option (List (BitVec 8)) := none
  /-- whose access it is, and its virtual address; none of a transfer's packets (R376) -/
  asker : Option Asker := none
  va : Nat := 0
  /-- context of a translated access, that of an asker which is gone too (12_page R242, 18_program_trap R316) -/
  acc : Option Nat := none
  deriving DecidableEq, Repr

/-- What another device has answered to an access, until the access is made again and finds it (R376). -/
structure FarAns where
  who : Asker
  va : Nat
  msg : NetMsg
  reply : Reply
  deriving DecidableEq, Repr
/-- A key of the duplicate filter (14_lod R252). -/
structure FbKey where
  ctx : Nat
  id : Nat
  level : Nat
  px : Nat
  py : Nat
  deriving DecidableEq, Repr

/-- A cached line of a map, tagged by context (R255), with those of its dwords that carry poison (24_device R386). -/
structure MapLine where
  ctx : Nat
  va : Nat
  data : V512
  bad : List Nat := []
  deriving DecidableEq, Repr

/-- A core's LOD unit: duplicate filter, oldest first; records sent and not yet written; map lines (R252-R255). -/
structure LodUnit where
  filter : List FbKey := []
  recs : List (Nat × BitVec 128) := []
  lines : List MapLine := []
  deriving DecidableEq, Repr

/-- A record delivered to a core and not yet popped (21_layer R349). -/
structure TriRec where
  ctx : Nat
  tri : Tri
  deriving DecidableEq, Repr

/-- A live ticket of a core: its record's box, the thread that popped it, and the quads it has given up (R349, R350). -/
structure Ticket where
  ctx : Nat
  tri : Tri
  popper : Option (Nat × Nat) := none
  given : List Nat := []
  deriving DecidableEq, Repr

/-- A quad held by a ticket (R350). -/
structure PxLock where
  ctx : Nat
  quad : Nat
  set : Nat
  seq : Nat
  deriving DecidableEq, Repr
/-- An entry of an error log (24_device R387). -/
structure LogEnt where
  row : BitVec 32
  syndrome : BitVec 8
  ctx : Nat
  cls : Nat
  deriving DecidableEq, Repr

/-- An injected fault not yet read: its array, what was written there, and its kind (R388). What stands in an array is
known by a key: 0 the offset of a local-store dword; 1 and 2 the physical address of a cached dword; 3 and 4
`TlbEnt.key`; 5 `regKey`; 6 the place in the spill ring; 7 `MEnt.key`; 8 an accumulator number / 2. -/
structure Inject where
  array : Nat
  key : Nat
  kind : Nat
  deriving DecidableEq, Repr

/-- Error logs and injection of a core (24_device R385, R387, R388). -/
structure ErrUnit where
  /-- logs by array, newest first, at most 8 entries -/
  logs : Tab (List LogEnt) := []
  elsel : W64 := 0
  einj : W64 := 0
  /-- spare rows used, by array -/
  used : Tab Nat := []
  faults : List Inject := []
  deriving DecidableEq, Repr
/-- The state of a layer (21_layer R337). -/
inductive LayerState where
  | empty | rendering | fresh | aging | requested | retired
  deriving DecidableEq, Repr

/-- A layer (R333, R334): fields by id, but the state, and the compositor commands its id still waits for (R356), each by
its thread's start and its class 4 number. -/
structure Layer where
  st : LayerState := .retired
  owner : Nat := 0
  f : Tab W64 := []
  waits : List (Nat × Nat) := []
  deriving DecidableEq, Repr

/-- What a compositor command does (R338). -/
inductive CompOp where
  /-- COMPOSE: record offset, count, and the record -/
  | compose (off n : Nat) (recd : V512)
  /-- LAYSPLIT: parent, child, and the rectangle -/
  | split (parent child x y w h : Nat)
  | merge (target source : Nat)
  deriving DecidableEq, Repr

/-- A request a composite is to post: queue, layer, E, age (R342). -/
structure Post where
  queue : Nat
  id : Nat
  e : Nat
  age : Nat
  deriving DecidableEq, Repr

/-- A command of a die's compositor, and how far it has come. -/
structure CompReq where
  owner : Owner
  num : Nat
  op : CompOp
  /-- its layer steps are made -/
  stepped : Bool := false
  /-- rows done -/
  at_ : Nat := 0
  /-- the layers as its steps left them -/
  snap : List (Nat × Layer) := []
  posts : List Post := []
  dropped : Nat := 0
  stall : Option Stall := none
  deriving DecidableEq, Repr

/-- The state of an endpoint (23_link R367). -/
inductive EpState where
  | free | opened | failed
  deriving DecidableEq, Repr

/-- An endpoint (R366-R368, R378, R379). -/
structure Endpoint where
  st : EpState := .free
  ctx : Nat := 0
  /-- true: ROD -/
  rod : Bool := false
  /-- true: kind 1, commands for `queue` -/
  cmds : Bool := false
  queue : Nat := 0
  security : Nat := 0
  peer : V512 := 0
  /-- reason of the last REMOTE error -/
  err : Nat := 0
  /-- retransmissions since open, and packets that failed authentication -/
  retrans : Nat := 0
  unauth : Nat := 0
  /-- packets sent and not acknowledged, oldest first -/
  pkts : List OutPkt := []
  /-- congestion window, bytes (R364, R378) -/
  window : Nat := 0
  /-- packets of the peer placed or answered for good, for the order of ROD (R372) -/
  arrived : Nat := 0
  deriving DecidableEq, Repr

/-- The state of a port (R365). -/
inductive Port where
  | down | up | disabled
  deriving DecidableEq, Repr

/-- The queue and spill ring an MSAVE image stands for (10_matrix R200). -/
structure MImage where
  ents : List MEnt := []
  spill : List (BitVec 1024) := []
  deriving DecidableEq, Repr

/-- Device-wide registers and what boot fixes (24_device R380-R383, 12_page R230, 19_queue R327, R328). -/
structure Dev where
  /-- own node number (01_machine R23) -/
  node : Nat := 0
  /-- node table: the endpoint of each other node; and the exported 4 KiB pages (23_link R376) -/
  nodes : Tab Nat := []
  exports : List Nat := []
  ctxBase : Option Nat := none
  qBase : Option Nat := none
  /-- shoot-down count -/
  shoot : Nat := 0
  /-- module power limit, W (00_scope R2) -/
  power : Nat := 2400
  vfctl : W64 := 0
  /-- transfers issued so far -/
  nextXfer : Nat := 0
  /-- MSAVE images written so far, by the number their queue image holds (entry 14) -/
  images : Tab MImage := []
  nextImage : Nat := 1
  /-- phase of a VF reset, 0 idle, with the VF and the cycle its grace ends -/
  vfPhase : Nat := 0
  vfNo : Nat := 0
  vfGrace : Nat := 0
  /-- queue whose MGMT asked for it -/
  vfQueue : Option Nat := none
  /-- the last reset was asked for by VFCTL; a read has found it done, and VFSTAT counts 0 (20_program_vfreset R331) -/
  vfByReg : Bool := false
  vfQuiet : Bool := false
  /-- cores that SHROUD has named in this cycle, fenced as it ends (24_device R393, 25_ordering R397) -/
  fences : List Nat := []
  /-- buffers whose publications at a generation are dropped after a fallback, by record address (15_kernel R278) -/
  fallen : List (Nat × BitVec 32) := []
  /-- answers of other devices (23_link R376); within a step, those found, by asker and access, and who must wait for one -/
  answers : List FarAns := []
  found : List (Asker × NetMsg) := []
  asking : List Asker := []
  deriving DecidableEq, Repr

/-- What the device sends out (19_queue R320, R324; 23_link R368). -/
inductive OutMsg where
  /-- the answer to a command that arrived for a host-fed queue: placed, a duplicate, or refused -/
  | command (q seq : Nat) (accepted : Bool)
  /-- the answer to a packet that arrived at an endpoint (23_link R372, R375) -/
  | packet (ep : Nat) (r : Reply)
  /-- a negative acknowledgement: the endpoint is not OPEN, or refuses a command (R367, R375) -/
  | nack (ep : Nat)
  /-- the answer to an access of another device whose page here is not exported (R376) -/
  | absent (ep : Nat)
  /-- a packet to the peer of an endpoint, by a port -/
  | send (ep : Nat) (port : Option Nat) (m : NetMsg)
  deriving DecidableEq, Repr
/-! ### Contexts, kernels, groups, tags and queues -/

/-- State of a context (17_context R300). -/
inductive CtxState where
  | free | live | suspended | dead
  deriving DecidableEq, Repr

/-- A format entry of a context: its word and its two codebook version slots (05_formats R83, R98). -/
structure FmtEnt where
  word : W64 := 0
  /-- version slot that holds the current codebook -/
  cur : Nat := 0
  slot0 : List (BitVec 32) := []
  slot1 : List (BitVec 32) := []
  deriving DecidableEq, Repr

/-- The killing thread and its causes (17_context R307): kernel serial, bytes 16 to 19, the address. -/
structure KillNote where
  ser : Nat
  bytes : List Nat
  addr : W64
  deriving DecidableEq, Repr

/-- A context record (17_context R299) with its format table. -/
structure Ctx where
  st : CtxState := .free
  sysok : Bool := false
  vf : Nat := 0
  handlers : Tab W64 := []
  tvec1 : W64 := 0
  tvec2 : W64 := 0
  fbmask : W64 := 0
  fbring : W64 := 0
  fring : W64 := 0
  ptroot : W64 := 0
  saveSize : Nat := 0
  saveCount : Nat := 0
  pool : Nat := 0
  multicast : Nat := 0
  image : Nat := 0
  /-- entries 8 to 31; entries 0 to 7 are fixed -/
  fmts : Tab FmtEnt := []
  /-- save areas of the pool in use, by index (17_context R308) -/
  areas : List Nat := []
  /-- a suspend not yet complete, with the queue that asked (R300) -/
  suspending : Option Nat := none
  /-- causes of the kill (R307) -/
  note : Option KillNote := none
  /-- address a CTXKILL puts in the KILLED records: the issuer's thread number (R307) -/
  killer : Option Nat := none
  /-- the kill has finished (R306 step 5) -/
  killDone : Bool := false
  /-- next sequence number of each multicast set (21_layer R348) -/
  mseq : Tab Nat := []
  deriving DecidableEq, Repr

/-- A declaration of a kernel object (15_kernel R268), with the buffer record's home and identity. -/
structure Decl where
  va : Nat
  pa : Nat
  id : Nat
  /-- the generation the kernel reads or writes (R265) -/
  gen : BitVec 32
  mul : Nat
  add : Nat
  count : Nat
  deriving DecidableEq, Repr

/-- State of a kernel (R271). -/
inductive KState where
  | active | faulting | stopping | ended
  deriving DecidableEq, Repr

/-- A launched kernel (15_kernel R267, R271). -/
structure Kernel where
  ctx : Nat := 0
  vf : Nat := 0
  queue : Nat := 0
  seq : Nat := 0
  code : W64 := 0
  groups : Nat := 0
  w : Nat := 0
  p : Nat := 0
  n : Nat := 0
  restart : Bool := false
  prio : Nat := 0
  b : Nat := 0
  args : List W64 := []
  sys : Bool := false
  inputs : List Decl := []
  outputs : List Decl := []
  /-- unended producers of its inputs' generations at launch (16_group R293) -/
  producers : List Nat := []
  st : KState := .ended
  cause : Nat := 0
  addr : W64 := 0
  faults : Nat := 0
  /-- groups each die has admitted (16_group R289) -/
  admitted : Tab Nat := []
  /-- groups that have ended or were discarded -/
  done : Nat := 0
  /-- ended because its context was killed, its record not yet written -/
  killed : Bool := false
  /-- in step 4 of its end, its record waiting for ring space (R273, 19_queue R323) -/
  ending : Bool := false
  /-- the event ring of its queue, once that queue has been destroyed: address and records -/
  ring : Option (Nat × Nat) := none
  deriving DecidableEq, Repr

/-- One input tile of a group (15_kernel R275). -/
structure Input where
  id : Nat
  pa : Nat
  tile : Nat
  gen : BitVec 32
  /-- it holds a count on the tag entry -/
  counted : Bool
  /-- its registration found no free entry: it is never stale (R275) -/
  noEntry : Bool
  deriving DecidableEq, Repr

/-- State of a group that its dispatcher has admitted and that has not ended (16_group R287). -/
inductive GState where
  | waiting | ready | placed | saved
  deriving DecidableEq, Repr

/-- A wake waiting in a core's spawn queue (10_matrix R187, R189): it takes a slot held by a group of its context. -/
structure Spawn where
  owner : Owner
  pc : W64
  args : List W64
  handler : Nat
  deriving DecidableEq, Repr

/-- What a pre-empted group has saved (16_group R295, 17_context R308). -/
structure Saved where
  area : Nat := 0
  /-- threads by thread number, and which of them are to reissue a waiting bundle -/
  threads : List (Nat × Thread) := []
  waiting : List Nat := []
  /-- regions by core, and their dwords that carry poison -/
  regions : List (Nat × Tab (BitVec 8)) := []
  poison : List (Nat × List Nat) := []
  spawns : List (Nat × Spawn) := []
  /-- cores whose matrix state is held, with queue and partition, and with the replies of their spill rings -/
  mcores : List Nat := []
  mstate : List (Nat × List MEnt × Tab (BitVec 32)) := []
  mspill : List (Nat × List (BitVec 1024)) := []
  mpoison : List (Nat × List Nat) := []
  /-- ABORT has ended a thread of it (R288) -/
  aborted : Bool := false
  deriving DecidableEq, Repr

/-- An admitted group (16_group R283-R296). -/
structure Group where
  st : GState := .waiting
  inputs : List Input := []
  clu : Nat := 0
  first : Nat := 0
  /-- slots held on each of its cores, group core 0 first -/
  slots : List (List Nat) := []
  /-- cycle of its placement -/
  placedAt : Nat := 0
  /-- cycle since which every placement attempt has failed -/
  failing : Option Nat := none
  /-- chosen for pre-emption, the area of `save` reserved (R295, 17_context R308) -/
  saving : Bool := false
  save : Saved := {}
  deriving DecidableEq, Repr

/-- An entry of the tag table (15_kernel R274). -/
structure TagEnt where
  ctx : Nat
  id : Nat
  tile : Nat
  vf : Nat
  gen : BitVec 32
  ready : Bool
  pending : Nat
  /-- home of its buffer's record, to read the done generation -/
  pa : Nat
  /-- it carries poison (24_device R386) -/
  bad : Bool := false
  deriving DecidableEq, Repr

/-- A publication held in a cluster's tag port (R277), with its number in the order of holding. -/
structure HeldPub where
  num : Nat
  ctx : Nat
  vf : Nat
  ser : Nat
  id : Nat
  pa : Nat
  va : Nat
  tile : Nat
  gen : BitVec 32
  deriving DecidableEq, Repr

/-- A done update held until the generation before it is done (R266). -/
structure HeldDone where
  pa : Nat
  gen : BitVec 32
  deriving DecidableEq, Repr

/-- State of a queue (19_queue R317). -/
inductive QState where
  | free | running | blocked | stopped | halted | stalled
  deriving DecidableEq, Repr

/-- What a BLOCKED queue's command waits for: the drain of earlier kernels or the dword of a WAIT (R318); a suspend or a
kill of a context, a VF reset, or the transfers of a closed endpoint (R325, 23_link R367). -/
inductive Block where
  | drain
  | wait
  | suspend (c : Nat)
  | kill (c : Nat)
  | vf (v : Nat)
  | close (ep : Nat)
  | record
  deriving DecidableEq, Repr

/-- A completion record waiting for ring space, with its bytes from 8 on (R322, R323). -/
structure Rec where
  status : Nat
  ser : Nat
  cause : BitVec 32
  addr : W64
  seq : Nat
  /-- kernel whose end it reports -/
  kernel : Option Nat := none
  /-- the record of an EVENT, which executes when its record is written (R318) -/
  event : Bool := false
  deriving DecidableEq, Repr

/-- A completion record waiting for the ring of a queue that has been destroyed since: the ring's address and size, and
the cycle of the next retry (R323). -/
structure OldRec where
  base : Nat
  size : Nat
  r : Rec
  retryAt : Nat := 0
  deriving DecidableEq, Repr

/-- A re-render request (21_layer R342). -/
structure Request where
  id : Nat
  e : Nat
  age : Nat
  deriving DecidableEq, Repr

/-- A hardware queue (19_queue R317). -/
structure Queue where
  st : QState := .free
  ctx : Nat := 0
  vf : Nat := 0
  devFed : Bool := false
  csize : Nat := 0
  esize : Nat := 0
  cring : Nat := 0
  ering : Nat := 0
  ep : Nat := 0
  n : Nat := 0
  t : Nat := 0
  next : Nat := 0
  /-- sequence numbers placed and not executed -/
  placed : List Nat := []
  stallVa : Nat := 0
  retryAt : Nat := 0
  block : Option Block := none
  /-- records waiting for ring space, oldest first -/
  recs : List Rec := []
  recRetry : Nat := 0
  /-- records waiting for the rings of destroyed queues of this number, oldest first -/
  old : List OldRec := []
  /-- records not yet notified, and the cycle of the first -/
  unnotified : Nat := 0
  firstRec : Nat := 0
  reqs : List Request := []
  deriving DecidableEq, Repr

/-- Quotas and weight of a VF (R326, 16_group R291). -/
structure Vf where
  slots : Nat := 0
  tags : Nat := 0
  queues : Nat := 0
  weight : Nat := 1
  deriving DecidableEq, Repr

/-! ### Cores, clusters and dies (01_machine R14-R17) -/

/-- A core. -/
structure Core where
  /-- local store, 384 KiB of bytes (07_memory R140) -/
  ls : Tab (BitVec 8) := []
  /-- dwords of the local store that carry poison (24_device R386) -/
  lsPoison : List Nat := []
  /-- context that last held the region, and context that last used the partition (16_group R286, 10_matrix R171) -/
  lsCtx : Option Nat := none
  partCtx : Option Nat := none
  /-- accumulator partition: tile * 1024 + row * 32 + column (10_matrix R170) -/
  acc : Tab (BitVec 32) := []
  /-- aligned pairs of accumulators that carry poison: accumulator number / 2 (24_device R386) -/
  accPoison : List Nat := []
  mq : List MEnt := []
  mqWeight : BitVec 4 := 1
  mqStop : Bool := false
  mqFrozen : Bool := false
  /-- saved by MSAVE and not yet restored (R201) -/
  mqSaved : Bool := false
  mqMaskErr : Bool := false
  /-- spill ring, up to 64 replies of 128 bytes (R199) -/
  spill : List (BitVec 1024) := []
  /-- spawn queue (R187); drains that have started hold reservations, see `spawnReserved` (R189) -/
  spawnQ : List Spawn := []
  cq : List CopyReq := []
  nq : List NetReq := []
  /-- the special-function queue (06_vector R123) -/
  sfu : List SfuEnt := []
  /-- cycle at which the divider is free (04_scalar R69) -/
  divBusy : Nat := 0
  l1 : List Line := []
  /-- invalidations and acknowledgements on their way from the home slices, in the order sent -/
  path : List FromSlice := []
  /-- the 32 KiB instruction cache (01_machine R16, 02_encoding R45) -/
  icache : List Line := []
  itlb : List TlbEnt := []
  dtlb : List TlbEnt := []
  lod : LodUnit := {}
  tris : List TriRec := []
  tickets : List Ticket := []
  locks : List PxLock := []
  errs : ErrUnit := {}
  /-- poison in arrays 1 to 7: array and key, as for `Inject` (24_device R386) -/
  bad : List (Nat × Nat) := []
  throttle : W64 := 0
  /-- cycle of the core's last issue, and of each slot's (03_thread R55) -/
  issued : Option Nat := none
  slotIssue : Tab Nat := []
  /-- cycles with a RUNNABLE slot since the last retirement, and the cycle of that (24_device R389) -/
  watch : Nat := 0
  retired : Option Nat := none
  /-- fenced with no spare left (24_device R391) -/
  fenced : Bool := false
  /-- VF whose group holds the core, or held it last (19_queue R327) -/
  lastVf : Option Nat := none
  deriving DecidableEq, Repr

/-- A cluster. -/
structure Cluster where
  /-- logical core to physical core, 4 bits each; the spare, if left (01_machine R14, R15) -/
  phys : List Nat := [0, 1, 2, 3, 4, 5, 6, 7]
  spare : Option Nat := some 8
  tlb : List TlbEnt := []
  walks : List Walk := []
  txq : List TxReq := []
  /-- copy engine: core last served, and the cycle of its last unit (11_engines R205) -/
  ccore : Nat := 7
  cAt : Option Nat := none
  held : List HeldPub := []
  frecs : List FaultRec := []
  /-- matrix round: the core being served and the tile steps left to it (10_matrix R182) -/
  mcore : Nat := 7
  mleft : Nat := 0
  /-- tile steps, idle ones among them, modulo 8 (24_device R383) -/
  mphase : Nat := 0
  /-- idle steps not yet charged to a core -/
  midle : Nat := 0
  /-- entries of the second-level TLB that carry poison, by key (24_device R386) -/
  bad : List Nat := []
  deriving DecidableEq, Repr

/-- A compute die (01_machine R17). -/
structure Die where
  /-- compositor queue (21_layer R338) -/
  comp : List CompReq := []
  /-- dispatcher: cycle of the last placement; by priority the VF of the round and its placements in it; by priority × 16 + VF
  the queue whose turn is next (16_group R291) -/
  placedAt : Option Nat := none
  rrVf : Tab (Nat × Nat) := []
  rrQueue : Tab Nat := []
  /-- group being pre-empted: serial and index (16_group R295) -/
  preempt : Option (Nat × Nat) := none
  /-- idle tile steps of every 8 under the Reef grant (24_device R383) -/
  idle : Nat := 0
  deriving DecidableEq, Repr

/-! ### The whole machine -/

/-- Which move the machine makes next: a step of the device, the issue turn of a core, or the end of a core cycle
(entry 3). -/
inductive Move where
  | dev (i : Instr)
  | issue (core : Nat)
  | tick
  deriving DecidableEq, Repr

/-- The device. -/
structure State where
  /-- the bundle being issued (the model's own) -/
  iss : Issue
  /-- the next moves (the model's own, entry 3); with none, the scheduler of Machine/Step.lean chooses -/
  agenda : List Move
  /-- free values used so far (the model's own, entry 10) -/
  free : Nat
  /-- threads started so far, and gangs formed so far (the model's own) -/
  births : Nat
  gangs : Nat
  /-- writes performed in memory so far (the model's own) -/
  moment : Nat
  /-- CYCLE (01_machine R19), never wrapped; registers read its low 64 bits -/
  cycle : Nat
  thr : Tab Thread
  cores : Tab Core
  clus : Tab Cluster
  dies : Tab Die
  mem : Tab (BitVec 8)
  /-- dwords of memory that carry poison, by address (24_device R386) -/
  poison : List Nat
  ctxs : Tab Ctx
  queues : Tab Queue
  vfs : Tab Vf
  tags : List TagEnt
  kernels : Tab Kernel
  nextSer : Nat
  heldDone : List HeldDone
  /-- admitted groups, key serial * 2^24 + index -/
  groups : Tab Group
  links : List Link
  layers : Tab Layer
  eps : Tab Endpoint
  ports : Tab Port
  /-- messages on the mesh, in the order sent -/
  net : List Msg
  /-- what the device has sent out, oldest first -/
  out : List OutMsg
  dev : Dev
  deriving DecidableEq, Repr

/-- Reasons a step stops the model. -/
inductive Fault where
  /-- raised by BOOT alone: a table the boot flash names does not lie in the device's memory (01_machine R23);
  safe, the spec gives no device that boots so -/
  | bootOutsideMemory
  deriving DecidableEq, Repr

/-- Reasons the model gives no meaning. -/
inductive Refusal where
  /-- raised by an arm of Machine/Dispatch.lean for an instruction not modelled yet; safe -/
  | notModelled (mnemonic : String)
  deriving DecidableEq, Repr

/-- What a meaning answers. -/
abbrev Out := Host.Outcome State Fault Refusal

/-- The machine after reset (24_device R380). -/
def State.reset : State :=
  { iss := {}, agenda := [], free := 0, births := 0, gangs := 0, moment := 0, cycle := 0, thr := [], cores := [], clus := [],
    dies := [], mem := [], poison := [], ctxs := [], queues := [], vfs := [(0, { slots := 16777215, tags := 262144, queues := 1024 })], tags := [], kernels := [], nextSer := 0,
    heldDone := [], groups := [], links := [], layers := [], eps := [], ports := [], net := [], out := [],
    dev := {} }

end Sys2Proof.Machine
end

