-- ==== Sys2Proof/Machine/Flags.lean ====
section
/-! DEFINITION. Numbers and flags: exact values, the meaning of codes, the one rounding rule, encodes and the flags they
raise, and exact arithmetic (05_formats R84-R94, R96). -/

namespace Sys2Proof.Machine

open Sys2Proof

/-- Bits [hi:lo] of a number. -/
def bits (x hi lo : Nat) : Nat := x / 2 ^ lo % 2 ^ (hi + 1 - lo)

/-! ### Values -/

/-- A value: NaN, an infinity, or ± (m + ε) 2^e, where ε is 0, or with `more` something between 0 and 1 that is not
written out (a quotient, a root, a transcendental result). -/
inductive Val where
  | nan
  | inf (neg : Bool)
  | fin (neg : Bool) (m : Nat) (e : Int) (more : Bool := false)
  deriving DecidableEq, Repr

/-- FFLAGS bits (R94). -/
def flInexact : Nat := 1
def flUnder : Nat := 2
def flOver : Nat := 4
def flDivide : Nat := 8
def flInvalid : Nat := 16

/-- A value with the flags raised so far. -/
abbrev Flagged (α : Type) := α × Nat

def Val.neg : Val → Val
  | .nan => .nan
  | .inf s => .inf (!s)
  | .fin s m e k => .fin (!s) m e k

def Val.abs : Val → Val
  | .nan => .nan
  | .inf _ => .inf false
  | .fin _ m e k => .fin false m e k

def Val.isNan : Val → Bool
  | .nan => true
  | _ => false

def Val.sign : Val → Bool
  | .nan => false
  | .inf s => s
  | .fin s _ _ _ => s

def Val.isZero : Val → Bool
  | .fin _ 0 _ false => true
  | _ => false

/-- An integer as a value. -/
def Val.ofInt (x : Int) : Val := .fin (decide (x < 0)) x.natAbs 0

/-- A signed significand at exponent `q` at or below `e`. -/
def scaled (s : Bool) (m : Nat) (e q : Int) : Int :=
  let v : Int := (m * 2 ^ (e - q).toNat : Nat)
  if s then -v else v

/-- The order of values, −∞ below and +∞ above, +0 equal to −0; none with a NaN. -/
def Val.cmp : Val → Val → Option Ordering
  | .nan, _ => none
  | _, .nan => none
  | .inf s, .inf t => some (if s = t then .eq else if s then .lt else .gt)
  | .inf s, .fin _ _ _ _ => some (if s then .lt else .gt)
  | .fin _ _ _ _, .inf t => some (if t then .gt else .lt)
  | .fin s m e k, .fin t n f l =>
    let q := min e f
    let x := 2 * scaled s m e q + (if k then (if s then -1 else 1) else 0)
    let y := 2 * scaled t n f q + (if l then (if t then -1 else 1) else 0)
    some (compare x y)

def Val.lt (x y : Val) : Bool := x.cmp y == some .lt
def Val.le (x y : Val) : Bool := x.cmp y == some .lt || x.cmp y == some .eq
def Val.eqv (x y : Val) : Bool := x.cmp y == some .eq

/-! ### Exact arithmetic (R96, R108) -/

/-- A sum; an exact zero of two terms is −0 only when both are −0. -/
def Val.add : Val → Val → Flagged Val
  | .nan, _ => (.nan, 0)
  | _, .nan => (.nan, 0)
  | .inf s, .inf t => if s = t then (.inf s, 0) else (.nan, flInvalid)
  | .inf s, .fin _ _ _ _ => (.inf s, 0)
  | .fin _ _ _ _, .inf t => (.inf t, 0)
  | .fin s m e _, .fin t n f _ =>
    let q := min e f
    let x := scaled s m e q + scaled t n f q
    if x = 0 then (.fin (m == 0 && n == 0 && s && t) 0 0, 0)
    else (.fin (decide (x < 0)) x.natAbs q, 0)

def Val.sub (x y : Val) : Flagged Val := x.add y.neg

def Val.mul : Val → Val → Flagged Val
  | .nan, _ => (.nan, 0)
  | _, .nan => (.nan, 0)
  | .inf s, .inf t => (.inf (s != t), 0)
  | .inf s, .fin t n _ _ => if n = 0 then (.nan, flInvalid) else (.inf (s != t), 0)
  | .fin s m _ _, .inf t => if m = 0 then (.nan, flInvalid) else (.inf (s != t), 0)
  | .fin s m e _, .fin t n f _ => (.fin (s != t) (m * n) (e + f), 0)

/-- x × y + z with no rounding between; a NaN operand raises nothing. -/
def Val.fma (x y z : Val) : Flagged Val :=
  if x.isNan || y.isNan || z.isNan then (.nan, 0)
  else
    let (p, f) := x.mul y
    if f ≠ 0 then (.nan, f) else p.add z

/-! ### Formats (R84) -/

/-- An entry's fields; `book` holds the FP32 values of a codebook. -/
structure Fmt where
  kind : Nat
  sign : Bool
  E : Nat
  F : Nat
  W : Nat
  bias : Int
  policy : Nat
  sub : Bool
  book : List (BitVec 32) := []
  deriving DecidableEq, Repr

/-- Sign-extended 8-bit field. -/
def int8 (n : Nat) : Int := if n < 128 then n else n - 256

/-- The fields of a word; entry 0's word, with W = 0, is FP32 (R83). -/
def fmtOf (w : W64) (book : List (BitVec 32) := []) : Fmt :=
  let n := w.toNat
  if w = 0x10FE0089#64 then { kind := 1, sign := true, E := 8, F := 23, W := 32, bias := 127, policy := 0, sub := true }
  else
    { kind := bits n 2 0, sign := w.getLsbD 3, E := bits n 7 4, F := bits n 11 8, W := bits n 16 12,
      bias := int8 (bits n 24 17), policy := bits n 27 25, sub := w.getLsbD 28, book := book }

def fp32 : Fmt := fmtOf 0x10FE0089#64

/-! ### Decoding (R88, R89) -/

def decodeFloat (f : Fmt) (c : Nat) : Val :=
  let s := f.sign && decide (c / 2 ^ (f.E + f.F) % 2 = 1)
  let e := c / 2 ^ f.F % 2 ^ f.E
  let x := c % 2 ^ f.F
  let top := 2 ^ f.E - 1
  if e = 0 then .fin s (if f.sub then x else 0) (1 - f.bias - f.F)
  else if e = top ∧ f.policy = 0 ∧ x = 0 then .inf s
  else if e = top ∧ f.policy = 0 then .nan
  else if e = top ∧ f.policy = 1 ∧ x = 2 ^ f.F - 1 then .nan
  else .fin s (2 ^ f.F + x) (e - f.bias - f.F)

def decodeInt (f : Fmt) (c : Nat) : Val :=
  let c := c % 2 ^ f.W
  let x : Int := if f.kind = 2 ∧ 2 ^ (f.W - 1) ≤ c then (c : Int) - (2 ^ f.W : Nat) else c
  .fin (decide (x < 0)) x.natAbs (-f.bias)

/-- The value of a code (R88-R90). -/
def decodeVal (f : Fmt) (c : Nat) : Val :=
  if f.kind = 1 then decodeFloat f (c % 2 ^ f.W)
  else if f.kind = 4 then decodeFloat fp32 (f.book.getD (c % 2 ^ f.W) 0).toNat
  else decodeInt f c

/-! ### Rounding -/

/-- Rounding modes, as control words number them (R106). -/
inductive Rnd where
  | rne | rz | rd | ru
  deriving DecidableEq, Repr

def rndOf (n : Nat) : Rnd := if n = 0 then .rne else if n = 1 then .rz else if n = 2 then .rd else .ru

/-- A magnitude m 2^e (and more) as a multiple of 2^q: the multiple, and whether it differs. -/
def roundAt (mode : Rnd) (s : Bool) (m : Nat) (e : Int) (more : Bool) (q : Int) : Nat × Bool :=
  if q ≤ e then
    let n := m * 2 ^ (e - q).toNat
    let up := more && (match mode with | .rd => s | .ru => !s | _ => false)
    (if up then n + 1 else n, more)
  else
    let k := (q - e).toNat
    let n := m / 2 ^ k
    let r := m % 2 ^ k
    let inexact := decide (r ≠ 0) || more
    let half := 2 ^ (k - 1)
    let up := match mode with
      | .rne => decide (half < r) || (decide (r = half) && (more || decide (n % 2 = 1)))
      | .rz => false
      | .rd => s && inexact
      | .ru => !s && inexact
    (if up then n + 1 else n, inexact)

/-- Exponent of the leading bit of m 2^e. -/
def leadExp (m : Nat) (e : Int) : Int := e + Nat.log2 m

/-! ### Encoding a float (R91) -/

def floatCode (f : Fmt) (s : Bool) (e x : Nat) : Nat :=
  (if f.sign && s then 2 ^ (f.E + f.F) else 0) + e * 2 ^ f.F + x

def nanCode (f : Fmt) : Nat :=
  floatCode f false (2 ^ f.E - 1) (if f.policy = 0 then 2 ^ (f.F - 1) else 2 ^ f.F - 1)

/-- Exponent and fraction fields of the largest finite code. -/
def maxFields (f : Fmt) : Nat × Nat :=
  if f.policy = 0 then (2 ^ f.E - 2, 2 ^ f.F - 1)
  else if f.policy = 1 then (if f.F = 0 then (2 ^ f.E - 2, 0) else (2 ^ f.E - 1, 2 ^ f.F - 2))
  else (2 ^ f.E - 1, 2 ^ f.F - 1)

def maxCode (f : Fmt) (s : Bool) : Nat := floatCode f s (maxFields f).1 (maxFields f).2

/-- What an overflow gives: the largest finite code, or the infinity of policy 0 and the NaN of policy 1 (R91 step 4). -/
def overCode (f : Fmt) (mode : Rnd) (sat s : Bool) : Nat :=
  let max := sat || decide (f.policy = 2) || (match mode with | .rne => false | .rz => true | .rd => !s | .ru => s)
  if max then maxCode f s
  else if f.policy = 0 then floatCode f s (2 ^ f.E - 1) 0
  else nanCode f

/-- Step 3 and 4 of R91. -/
def encodeFinite (f : Fmt) (mode : Rnd) (sat s : Bool) (m : Nat) (e : Int) (more : Bool) : Flagged Nat :=
  let emin : Int := 1 - f.bias
  let q := max (leadExp m e) emin - f.F
  let (n, inexact) := roundAt mode s m e more q
  if n = 0 then (floatCode f s 0 0, if inexact then flInexact else 0)
  else
    let tiny := decide (leadExp n q < emin)
    if tiny && !f.sub then (floatCode f s 0 0, flInexact + flUnder)
    else
      let big := decodeFloat f (maxCode f false)
      if (Val.fin false n q).cmp big == some .gt then (overCode f mode sat s, flOver + flInexact)
      else
        let flags := (if inexact then flInexact else 0) + (if inexact && tiny then flUnder else 0)
        if tiny then (floatCode f s 0 n, flags)
        else
          let up := decide (2 ^ (f.F + 1) ≤ n)
          let n := if up then n / 2 else n
          let q := if up then q + 1 else q
          (floatCode f s (q + f.F + f.bias).toNat (n - 2 ^ f.F), flags)

def encodeFloat (f : Fmt) (mode : Rnd) (sat : Bool) (x : Val) : Flagged Nat :=
  match x with
  | .nan => if f.policy = 2 then (0, flInvalid) else (nanCode f, 0)
  | .inf s =>
    if !f.sign && s then (0, flInvalid)
    else if f.policy = 0 then (floatCode f s (2 ^ f.E - 1) 0, 0)
    else if f.policy = 1 ∧ !sat then (nanCode f, flInvalid)
    else (maxCode f s, flInvalid)
  | .fin s m e more =>
    if m = 0 ∧ !more then (floatCode f s 0 0, 0)
    else if !f.sign && s then (0, flInvalid)
    else encodeFinite f mode sat s m e more

/-! ### Encoding an integer and a codebook (R92, R93) -/

/-- The rounded integer, signed, and whether rounding changed it. -/
def roundInt (mode : Rnd) (s : Bool) (m : Nat) (e : Int) (more : Bool) : Int × Bool :=
  let (n, inexact) := roundAt mode s m e more 0
  (if s then -(n : Int) else n, inexact)

def encodeInt (f : Fmt) (mode : Rnd) (x : Val) : Flagged Nat :=
  let lo : Int := if f.kind = 2 then -(2 ^ (f.W - 1) : Nat) else 0
  let hi : Int := if f.kind = 2 then (2 ^ (f.W - 1) : Nat) - 1 else (2 ^ f.W : Nat) - 1
  let code := fun (y : Int) => (y % (2 ^ f.W : Nat)).toNat
  match x with
  | .nan => (0, flInvalid)
  | .inf s => (code (if s then lo else hi), flInvalid)
  | .fin s m e more =>
    let (y, inexact) := roundInt mode s m (e + f.bias) more
    let flags := if inexact then flInexact else 0
    if y < lo then (code lo, flags + flInvalid)
    else if hi < y then (code hi, flags + flInvalid)
    else (code y, flags)

/-- The codes of a codebook that are no NaN, with their values, rising (R85). -/
def bookVals (f : Fmt) : List (Nat × Val) :=
  (f.book.zipIdx.map fun (w, c) => (c, decodeFloat fp32 w.toNat)).filter fun e => !e.2.isNan

/-- Of two neighbours, the one rne takes: the nearer, and on a tie the even code, or the lower (R93). -/
def nearerBook (x : Val) (a b : Nat × Val) : Nat × Val :=
  let tie := if a.1 % 2 = b.1 % 2 then (if a.1 < b.1 then a else b) else if a.1 % 2 = 0 then a else b
  match a.2, b.2 with
  | .inf _, .inf _ => tie
  | .inf _, _ => b
  | _, .inf _ => a
  | u, v =>
    match (x.sub u).1.cmp (v.sub x).1 with
    | some .lt => a
    | some .gt => b
    | _ => tie

def chooseBook (mode : Rnd) (x : Val) (a b : Nat × Val) : Nat × Val :=
  if x.eqv a.2 then a
  else
    match mode with
    | .rd => a
    | .ru => b
    | .rne => nearerBook x a b
    | .rz =>
      match a.2.abs.cmp b.2.abs with
      | some .lt => a
      | some .gt => b
      | _ => nearerBook x a b

/-- The neighbours below and above `x` in a rising list. -/
def searchBook (mode : Rnd) (x : Val) : List (Nat × Val) → Option (Nat × Val)
  | [] => none
  | [a] => some a
  | a :: b :: r =>
    if x.le a.2 then some a
    else if x.lt b.2 then some (chooseBook mode x a b)
    else searchBook mode x (b :: r)

def encodeBook (f : Fmt) (mode : Rnd) (x : Val) : Flagged Nat :=
  if x.isNan then
    match f.book.zipIdx.find? fun (w, _) => (decodeFloat fp32 w.toNat).isNan with
    | some (_, c) => (c, 0)
    | none => (0, flInvalid)
  else
    match searchBook mode x (bookVals f) with
    | some (c, v) => (c, if x.eqv v then 0 else flInexact)
    | none => (0, flInvalid)

/-- Encode a value in an entry's format, with the flags raised (R91-R93). -/
def encodeVal (f : Fmt) (x : Val) (mode : Rnd := .rne) (sat : Bool := false) : Flagged Nat :=
  if f.kind = 1 then encodeFloat f mode sat x
  else if f.kind = 4 then encodeBook f mode x
  else encodeInt f mode x

/-- Rounding to FP32, nearest even, as the matrix unit and the raster rules use it. -/
def rne32 (x : Val) : BitVec 32 := BitVec.ofNat 32 (encodeVal fp32 x).1
def val32 (w : BitVec 32) : Val := decodeFloat fp32 w.toNat

/-- Is a value exact in E8M10 (R87)? -/
def exactE8M10 : Val → Bool
  | .nan => true
  | .inf _ => true
  | .fin s m e k =>
    if m = 0 ∧ !k then true
    else
      let q := max (leadExp m e - 10) (-136)
      let (_, inexact) := roundAt .rz s m e k q
      !inexact && decide (leadExp m e ≤ 127)

/-- A whole number of values: FTOI and FTOIN (R110). -/
def toInteger (lo hi : Int) (x : Val) : Flagged Int :=
  match x with
  | .nan => (0, flInvalid)
  | .inf s => (if s then lo else hi, flInvalid)
  | .fin s m e more =>
    let (y, inexact) := roundInt .rz s m e more
    if y < lo then (lo, flInvalid)
    else if hi < y then (hi, flInvalid)
    else (y, if inexact then flInexact else 0)

/-! ### Trees of sums (06_vector R128, R138) -/

/-- The rounded sum of two codes of a format. -/
def addCodes (f : Fmt) (x y : Nat) : Flagged Nat :=
  let (v, e) := (decodeVal f x).add (decodeVal f y)
  let (c, e') := encodeVal f v
  (c, e ||| e')

/-- One round: neighbours in pairs; an absent one leaves the other unchanged. -/
def pairUp (f : Fmt) : List (Option Nat) → Flagged (List (Option Nat))
  | some x :: some y :: r =>
    let (c, e) := addCodes f x y
    let (l, e') := pairUp f r
    (some c :: l, e ||| e')
  | some x :: none :: r => let (l, e) := pairUp f r; (some x :: l, e)
  | none :: y :: r => let (l, e) := pairUp f r; (y :: l, e)
  | l => (l, 0)

/-- The fixed tree over up to 2^n codes: +0 when all are absent. -/
def treeSum (f : Fmt) : Nat → List (Option Nat) → Flagged Nat
  | 0, l => ((l.headD none).getD 0, 0)
  | n + 1, l =>
    let (l, e) := pairUp f l
    let (x, e') := treeSum f n l
    (x, e ||| e')

/-- A reduction outside a gang: the thread's own value, a float encoded again (06_vector R138, 05_formats R91). -/
def gangOwn (op : GangOp) (w x : W64) : Flagged W64 :=
  match op with
  | .fadd =>
    let f := fmtOf w
    let (c, e) := encodeVal f (decodeVal f x.toNat)
    (BitVec.ofNat 64 c, e)
  | _ => (x, 0)

/-- A gang reduction over the members' values, absent ones left out (06_vector R138). -/
def gangCombine (op : GangOp) (w : W64) (vals : List (Option W64)) : Flagged W64 :=
  let present := vals.filterMap id
  match op with
  | .add => (present.foldl (· + ·) 0, 0)
  | .min => (present.foldl (fun x y => if y.slt x then y else x) (present.headD 0), 0)
  | .max => (present.foldl (fun x y => if x.slt y then y else x) (present.headD 0), 0)
  | .fadd =>
    let f := fmtOf w
    let (c, e) := treeSum f 3 (vals.map fun v => v.map fun x => x.toNat % 2 ^ f.W)
    (BitVec.ofNat 64 c, e)

end Sys2Proof.Machine
end

