-- ==== Sys2Proof/Machine/Tab.lean ====
section
/-! DEFINITION. Sparse tables: reading and writing, and their canonical form. -/

namespace Sys2Proof.Machine

/-- The value at `k`; `d` where none is listed. -/
def tget {α : Type} (d : α) : Tab α → Nat → α
  | [], _ => d
  | (k', v) :: r, k => if k' = k then v else tget d r k

/-- The value listed at `k`, if any. -/
def tfind {α : Type} : Tab α → Nat → Option α
  | [], _ => none
  | (k', v) :: r, k => if k' = k then some v else tfind r k

/-- List `v` at `k`, keeping keys rising. -/
def tput {α : Type} : Tab α → Nat → α → Tab α
  | [], k, v => [(k, v)]
  | (k', v') :: r, k, v =>
    if k < k' then (k, v) :: (k', v') :: r
    else if k = k' then (k, v) :: r
    else (k', v') :: tput r k v

/-- Unlist `k`. -/
def terase {α : Type} (m : Tab α) (k : Nat) : Tab α := m.filter (fun e => decide (e.1 ≠ k))

/-- Write `v` at `k`; writing what an unlisted key reads as removes the entry. -/
def tset {α : Type} [DecidableEq α] (d : α) (m : Tab α) (k : Nat) (v : α) : Tab α :=
  if v = d then terase m k else tput m k v

/-- The canonical form: keys strictly rising, no entry equal to the default. -/
def twf {α : Type} [DecidableEq α] (d : α) : Tab α → Bool
  | [] => true
  | [e] => decide (e.2 ≠ d)
  | e :: e' :: r => decide (e.2 ≠ d) && decide (e.1 < e'.1) && twf d (e' :: r)

end Sys2Proof.Machine
end

