-- ==== Sys2Proof/Machine/Ops.lean ====
section
/-! DEFINITION. The named operations: tables of the device, registers, local stores, memory at the home slices,
rings, credits, messages, the end of a thread, a kill, taking a trap and returning from one, and how a bundle
completes, waits, commits or drops its thread. -/

namespace Sys2Proof.Machine

open Sys2Proof

/-! ### Tables of the device -/

def State.thread (s : State) (t : Nat) : Thread := tget {} s.thr t
def State.setThread (s : State) (t : Nat) (x : Thread) : State := { s with thr := tput s.thr t x }
def State.core (s : State) (c : Nat) : Core := tget {} s.cores c
def State.setCore (s : State) (c : Nat) (x : Core) : State := { s with cores := tput s.cores c x }
def State.clu (s : State) (c : Nat) : Cluster := tget {} s.clus c
def State.setClu (s : State) (c : Nat) (x : Cluster) : State := { s with clus := tput s.clus c x }
def State.die (s : State) (d : Nat) : Die := tget {} s.dies d
def State.setDie (s : State) (d : Nat) (x : Die) : State := { s with dies := tput s.dies d x }
def State.ctx (s : State) (c : Nat) : Ctx := tget {} s.ctxs c
def State.queue (s : State) (q : Nat) : Queue := tget {} s.queues q
def State.vf (s : State) (v : Nat) : Vf := tget {} s.vfs v
def State.kernel (s : State) (k : Nat) : Kernel := tget {} s.kernels k
def State.setKernel (s : State) (k : Nat) (x : Kernel) : State := { s with kernels := tput s.kernels k x }

/-- Key of a group: kernel serial and group index (15_kernel R267: fewer than 2^24 + 1 groups). -/
def groupKey (ser g : Nat) : Nat := ser * 33554432 + g
def State.group? (s : State) (ser g : Nat) : Option Group := tfind s.groups (groupKey ser g)
def State.setGroup (s : State) (ser g : Nat) (x : Group) : State := { s with groups := tput s.groups (groupKey ser g) x }
def State.dropGroup (s : State) (ser g : Nat) : State := { s with groups := terase s.groups (groupKey ser g) }

/-! ### Numbers of threads and cores (01_machine R13, 03_thread R51) -/

def coreOf (t : Nat) : Nat := t / 8
def slotOf (t : Nat) : Nat := t % 8
def cluOf (t : Nat) : Nat := t / 64
def dieOf (t : Nat) : Nat := t / 3072

/-- TIMENS (R19). -/
def State.timens (s : State) : Nat := s.cycle * 5 / 9

/-- A free value, and the counter moved on (entry 10). -/
def State.takeFree (s : State) : V512 × State := (Config.freeValue s.free, { s with free := s.free + 1 })

/-- The fixed entries of a format table (05_formats R83). -/
def fixedFmts : List W64 :=
  [0x10FE0089, 0x101F0A59, 0x10FF0789, 0x120E8349, 0x101E8259, 0x14024129, 0x800A, 0x8003]

/-- The word of an entry, 0 for an INVALID one. -/
def Ctx.fmtWord (c : Ctx) (i : Nat) : W64 := if i < 8 then fixedFmts.getD i 0 else (tget {} c.fmts i).word

/-! ### Bits and bytes -/

/-- Sign extension of the low `n` bits to 64. -/
def sext (n : Nat) (x : Nat) : W64 := (BitVec.ofNat n x).signExtend 64

/-- The bytes of a number, least significant first (00_scope R7). -/
def toBytes : Nat → Nat → List (BitVec 8)
  | 0, _ => []
  | n + 1, x => BitVec.ofNat 8 x :: toBytes n (x / 256)

/-- The number little-endian bytes hold. -/
def ofBytes : List (BitVec 8) → Nat
  | [] => 0
  | b :: r => b.toNat + 256 * ofBytes r

/-! ### Registers (04_scalar R66, 06_vector R113) -/

/-- s0 reads zero; s30 and s31 are ports, handled by `operands`. -/
def Thread.readS (th : Thread) (r : SReg) : W64 := if r = 0#5 then 0 else tget 0 th.s r.toNat
/-- A write to s0 is discarded; s30 and s31 hold nothing. -/
def Thread.writeS (th : Thread) (r : SReg) (v : W64) : Thread :=
  if r = 0#5 ∨ 30 ≤ r.toNat then th else { th with s := tset 0 th.s r.toNat v }
def Thread.readA (th : Thread) (r : AReg) : VAddr := tget 0 th.a r.toNat
def Thread.writeA (th : Thread) (r : AReg) (v : VAddr) : Thread := { th with a := tset 0 th.a r.toNat v }
def Thread.readV (th : Thread) (r : VReg) : V512 := tget 0 th.v r.toNat
def Thread.writeV (th : Thread) (r : VReg) (v : V512) : Thread := { th with v := tset 0 th.v r.toNat v }
/-- m0 reads all ones and discards writes. -/
def Thread.readM (th : Thread) (r : MReg) : W64 := if r = 0#3 then BitVec.allOnes 64 else tget 0 th.m r.toNat
def Thread.writeM (th : Thread) (r : MReg) (v : W64) : Thread :=
  if r = 0#3 then th else { th with m := tset 0 th.m r.toNat v }

/-- Write a register, its value in the low bits. -/
def Thread.writeReg (th : Thread) (r : Reg) (v : V512) : Thread :=
  match r with
  | .s n => th.writeS n (v.setWidth 64)
  | .a n => th.writeA n (v.setWidth 72)
  | .v n => th.writeV n v
  | .m n => th.writeM n (v.setWidth 64)

/-- Number of a register in `Thread.deps`. -/
def Reg.code : Reg → Nat
  | .s n => n.toNat | .a n => 32 + n.toNat | .v n => 64 + n.toNat | .m n => 96 + n.toNat

/-- A register's value depends on loads up to a moment; s0 carries no dependency (07_memory R143). -/
def Thread.dependOn (th : Thread) (r : Reg) (m : Nat) : Thread :=
  if r = .s 0 then th else { th with deps := tset 0 th.deps r.code m }

/-- A long-latency bundle writes registers as it completes: what they hold depends on loads up to a moment (R143). -/
def Thread.writeLate (th : Thread) (m : Nat) (vals : List (Reg × V512)) : Thread :=
  vals.foldl (fun th (r, v) => (th.writeReg r v).dependOn r m) th

/-- The newest load that any of some registers depends on. -/
def Thread.depOf (th : Thread) (rs : List Reg) : Nat := rs.foldl (fun m r => max m (tget 0 th.deps r.code)) 0

/-- Number in `Thread.deps` of a system register that holds a value of the thread's. -/
def sysCode (n : Nat) : Nat := 128 + n

/-- A system register's value depends on loads up to a moment, besides what it depended on (R143). -/
def Thread.sysDepend (th : Thread) (n m : Nat) : Thread :=
  { th with deps := tset 0 th.deps (sysCode n) (max m (tget 0 th.deps (sysCode n))) }

/-- The newest load that any of some system registers depends on. -/
def Thread.sysDepOf (th : Thread) (ns : List Nat) : Nat := ns.foldl (fun m n => max m (tget 0 th.deps (sysCode n))) 0

/-- The thread whose bundle is being issued. -/
def State.cur (s : State) : Thread := s.thread s.iss.thr
def State.setCur (s : State) (x : Thread) : State := s.setThread s.iss.thr x
def State.curCore (s : State) : Nat := coreOf s.iss.thr

def Thread.level (th : Thread) : Nat := bits th.tstate.toNat 1 0
/-- System mode (17_context R301). -/
def Thread.sysMode (th : Thread) : Bool := th.tstate.getLsbD 2

/-- The owner record of a thread, for what it issues. -/
def State.owner (s : State) (t : Nat) (pc : W64) : Owner :=
  let th := s.thread t
  { thr := t, inc := th.inc, ctx := th.ctx, vf := th.vf, grp := th.grp, pc := pc, sent := th.remSent }

/-! ### Local stores (07_memory R140) -/

def lsGet (c : Core) (o n : Nat) : List (BitVec 8) := (List.range n).map fun i => tget 0 c.ls (o + i)

/-- Put bytes at rising keys. -/
def putBytes (m : Tab (BitVec 8)) : Nat → List (BitVec 8) → Tab (BitVec 8)
  | _, [] => m
  | a, b :: r => putBytes (tset 0 m a b) (a + 1) r

/-- Dwords a range of bytes touches. -/
def touches (a n d : Nat) : Bool := decide (a < d + 8) && decide (d < a + n)
/-- Dwords a range of bytes covers whole. -/
def coversDword (a n d : Nat) : Bool := decide (a ≤ d) && decide (d + 8 ≤ a + n)

/-- The number at a local-store offset. -/
def State.lsRead (s : State) (core o n : Nat) : Nat := ofBytes (lsGet (s.core core) o n)
/-- Is an injection armed for an array (24_device R388)? -/
def ErrUnit.armed (u : ErrUnit) (array : Nat) : Bool := u.einj.getLsbD 16 && decide (bits u.einj.toNat 15 8 = array)
/-- What a write of an array does to injection: a fault written over is gone, and an armed injection is stored with what
is written (24_device R388). -/
def ErrUnit.wrote (u : ErrUnit) (array : Nat) (hit : Nat → Bool) (key : Nat) : ErrUnit :=
  let faults := u.faults.filter fun f => !(decide (f.array = array) && hit f.key)
  if u.armed array then
    { u with einj := u.einj &&& ~~~0x10000#64
             faults := if bits u.einj.toNat 1 0 = 0 then faults
               else faults ++ [{ array := array, key := key, kind := bits u.einj.toNat 1 0 }] }
  else { u with faults := faults }
/-- A write of one of the arrays 1 to 8 of a core: it takes an armed injection, and ends the poison it writes over. -/
def Core.wrote (c : Core) (array : Nat) (hit : Nat → Bool) (key : Nat) : Core :=
  { c with errs := c.errs.wrote array hit key, bad := c.bad.filter fun x => !(decide (x.1 = array) && hit x.2) }
/-- Write bytes to a local store; a dword written whole loses its poison (24_device R386). -/
def State.lsWrite (s : State) (core o : Nat) (bs : List (BitVec 8)) : State :=
  let c := s.core core
  s.setCore core { c with
    ls := putBytes c.ls o bs
    lsPoison := c.lsPoison.filter fun d => !coversDword o bs.length d
    errs := if bs = [] then c.errs else c.errs.wrote 0 (coversDword o bs.length) (o / 8 * 8) }
/-- Write the result of a read-modify-write at the port: what was poisoned stays so (24_device R386). -/
def State.lsModify (s : State) (core o : Nat) (bs : List (BitVec 8)) : State :=
  let bad := (s.core core).lsPoison
  let s := s.lsWrite core o bs
  s.setCore core { s.core core with lsPoison := bad }
/-- Log an error of an array, newest first, 8 entries (R387). -/
def ErrUnit.log (u : ErrUnit) (array : Nat) (e : LogEnt) : ErrUnit :=
  { u with logs := tput u.logs array ((e :: tget [] u.logs array).take 8) }
/-- A read finds an error in a core's array: logged with its class; a lasting one takes a spare row while one is left
(R385). -/
def State.arrayError (s : State) (core array : Nat) (row : BitVec 32) (syndrome : BitVec 8) (ctx : Nat)
    (corrected clean : Bool) : State :=
  let c := s.core core
  let used := tget 0 c.errs.used array
  let cls := if clean then (if corrected then 1 else 2)
    else if Config.spareRows array ≤ used then 5 else if corrected then 3 else 4
  let u := if !clean ∧ used < Config.spareRows array then { c.errs with used := tput c.errs.used array (used + 1) } else c.errs
  s.setCore core { c with errs := u.log array { row := row, syndrome := syndrome, ctx := ctx, cls := cls } }
/-- What stands in an array under a key carries poison from now on (R386). -/
def Core.spoil (c : Core) (array key : Nat) : Core :=
  if array = 0 then { c with lsPoison := c.lsPoison ++ [key] }
  else if array = 8 then { c with accPoison := c.accPoison ++ [key] }
  else { c with bad := c.bad ++ [(array, key)] }
/-- A read of an array of a core finds the faults injected in the rows `p` picks: the third kind poisons what stands there
(R388, R386). -/
def State.arrayTouch (s : State) (core array : Nat) (p : Nat → Bool) (ctx : Nat) : State :=
  ((s.core core).errs.faults.filter fun f => decide (f.array = array) && p f.key).foldl (fun s f =>
    let (v, s) := s.takeFree
    let s := s.arrayError core array (Config.rowOf array f.key) (v.setWidth 8) ctx (decide (f.kind = 1)) (decide (f.kind ≠ 3))
    let c := s.core core
    let c := { c with errs := { c.errs with faults := c.errs.faults.filter fun g => decide (g ≠ f) } }
    s.setCore core (if f.kind = 3 then c.spoil array f.key else c)) s
/-- A read of a local store. -/
def State.lsTouch (s : State) (core o n ctx : Nat) : State := s.arrayTouch core 0 (touches o n) ctx
/-- ECC of what is neither a device-memory nor a local-store access: the array that holds it (24_device R386). -/
def eccArray (a : Nat) : Err := { cause := 14, high := BitVec.ofNat 64 (a * 2 ^ 48) }
def State.lsPoisoned (s : State) (core o n : Nat) : Bool := (s.core core).lsPoison.any (touches o n)

/-- The checks of R140 on an access of `z` bytes: MISALIGN, then LOCAL. -/
def localCheck (o : W64) (z align limit : Nat) : Option Err :=
  if o.toNat % align ≠ 0 then some { cause := 4, tval := o }
  else if limit < o.toNat + z then some { cause := 6, tval := o }
  else none

/-! ### Memory at the home slices (07_memory R139, R142) -/

def State.memGet (s : State) (a n : Nat) : List (BitVec 8) := (List.range n).map fun i => tget 0 s.mem (a + i)
/-- The little-endian number at a physical address of the device's memory. -/
def State.memRead (s : State) (a n : Nat) : Nat := ofBytes (s.memGet a n)
def State.memPoisoned (s : State) (a n : Nat) : Bool := s.poison.any (touches a n)

/-- Lines of 64 bytes an access of `n` bytes touches. -/
def linesOf (a n : Nat) : List Nat :=
  (List.range ((a + n + 63) / 64 - a / 64)).map fun i => (a / 64 + i) * 64

/-- Send the invalidation of lines to every core that may hold them, but the writer's (R139). -/
def State.invalidate (s : State) (writer : Option Nat) (lines : List Nat) : State :=
  { s with cores := s.cores.map fun (k, c) =>
      if writer = some k then (k, c)
      else
        (k, { c with path := c.path ++
                (lines.filter fun l => c.l1.any fun e => decide (e.addr = l)).map fun l => .inval l s.moment }) }

/-- A write performed at its home slice. -/
def State.memWrite (s : State) (writer : Option Nat) (a : Nat) (bs : List (BitVec 8)) : State :=
  let s := { s with mem := putBytes s.mem a bs, poison := s.poison.filter fun d => !coversDword a bs.length d,
                    moment := s.moment + 1 }
  s.invalidate writer (linesOf a bs.length)

/-- A number written by the device itself. -/
def State.memPut (s : State) (a n x : Nat) : State := s.memWrite none a (toBytes n x)

/-! ### What home slices send a core (07_memory R139) -/

def sliceOf (pa : Nat) : Nat := pa / 256 % 256

/-- The line of 64 bytes an address lies in. -/
def lineOf (pa : Nat) : Nat := pa / 64 * 64

def FromSlice.slice : FromSlice → Nat
  | .inval a _ => sliceOf a
  | .ack e => sliceOf e.addr
/-- The line it tells of, and the moment of the write. -/
def FromSlice.line : FromSlice → Nat
  | .inval a _ => a
  | .ack e => lineOf e.addr
def FromSlice.moment : FromSlice → Nat
  | .inval _ m => m
  | .ack e => e.moment

/-- Put a write that the slice has acknowledged into the lines present in L1. -/
def ackLines (l1 : List Line) (a : Nat) (bs : List (BitVec 8)) : List Line :=
  l1.map fun e =>
    if e.addr / 64 = a / 64 then
      { e with data := BitVec.ofNat 512 (ofBytes ((List.range 64).map fun i =>
          if a ≤ e.addr + i ∧ e.addr + i < a + bs.length then bs.getD (e.addr + i - a) 0
          else BitVec.ofNat 8 (e.data.toNat / 2 ^ (8 * i)))) }
    else e

/-- The L1 after the core accepts one thing a slice has sent: a line goes, or takes an acknowledged store. -/
def acceptFrom (l1 : List Line) : FromSlice → List Line
  | .inval a _ => l1.filter fun e => decide (e.addr ≠ a)
  | .ack e => ackLines l1 e.addr e.bytes

/-- An acknowledged store is written to the line of L1 that holds it (array 1). -/
def Core.ackWrote (c : Core) (a n : Nat) : Core :=
  if c.l1.any fun e => decide (e.addr / 64 = a / 64) then c.wrote 1 (coversDword a n) (a / 8 * 8) else c
def FromSlice.wrote (c : Core) : FromSlice → Core
  | .inval _ _ => c
  | .ack e => c.ackWrote e.addr e.bytes.length

/-- The core accepts the first `n` things on their way from a slice, in their order. -/
def Core.accept (c : Core) (slice n : Nat) : Core :=
  let rest := fun (l : List FromSlice) => go n l
  let taken := (c.path.filter fun x => decide (x.slice = slice)).take n
  let c' := taken.foldl FromSlice.wrote c
  { c' with l1 := taken.foldl acceptFrom c.l1, path := rest c.path }
where
  go : Nat → List FromSlice → List FromSlice
    | 0, l => l
    | _, [] => []
    | n + 1, x :: r => if x.slice = slice then go n r else x :: go (n + 1) r

/-- All of it: a reply of the slice is accepted, and with it what the slice has sent by then (R139). -/
def Core.acceptAll (c : Core) (slice : Nat) : Core := c.accept slice c.path.length

/-- Is it the acknowledgement of a store of this thread? -/
def FromSlice.ackOf (t inc : Nat) : FromSlice → Bool
  | .ack e => decide (e.thr = t) && decide (e.inc = inc)
  | .inval _ _ => false

/-- Every store of the thread is acknowledged. -/
def State.ackAll (s : State) (t : Nat) : State :=
  let c := s.core (coreOf t)
  let slices := ((c.path.filter (FromSlice.ackOf t (s.thread t).inc)).map FromSlice.slice).eraseDups
  if slices = [] then s else s.setCore (coreOf t) (slices.foldl Core.acceptAll c)

/-- What the thread loads from now on is performed no earlier than now: an acquire among the slots of its core, or the
reissue of a thread that was saved (R143, 17_context R308). -/
def State.fromNow (s : State) (t : Nat) : State := s.setThread t { s.thread t with base := s.moment }

/-- A bundle that releases (R143): it is held until the thread's earlier remote accesses are performed, and its stores
are visible to every slot of its core from then on. -/
def State.release (s : State) (k : State → State) : State :=
  if s.cur.remOut = [] then k (s.ackAll s.iss.thr) else s

/-- Is it an address of the device's own memory: bits [63:52] zero, own node, inside HBM (01_machine R23)? -/
def State.ownAddr (s : State) (pa n : Nat) : Bool :=
  decide (pa / 2 ^ 40 = s.dev.node) && decide (pa % 2 ^ 40 + n ≤ Config.memBytes)

/-! ### Records of the device that stand in its memory (17_context R299, 19_queue R317) -/

def CtxState.code : CtxState → Nat
  | .free => 0 | .live => 1 | .suspended => 2 | .dead => 3

/-- The 256 bytes of a context record (R299). -/
def ctxRecord (c : Nat) (x : Ctx) : Nat :=
  if x.st = .free then 0
  else
    x.ptroot.toNat + x.fring.toNat * 2 ^ 64 + x.fbring.toNat * 2 ^ 128 + x.fbmask.toNat * 2 ^ 192 +
    x.tvec1.toNat * 2 ^ 256 + x.tvec2.toNat * 2 ^ 320 + x.image * 2 ^ 384 + x.multicast * 2 ^ 448 + x.pool * 2 ^ 512 +
    ((List.range 7).map fun i => (tget 0 x.handlers (i + 1)).toNat * 2 ^ (576 + 64 * i)).sum +
    x.saveCount * 2 ^ 1024 + x.saveSize * 2 ^ 1056 + x.vf * 2 ^ 1088 + (if x.sysok then 2 ^ 1096 else 0) +
    x.st.code * 2 ^ 1100 + c * 2 ^ 1104

/-- Change a context, and its record where boot has placed the table. -/
def State.setCtx (s : State) (c : Nat) (x : Ctx) : State :=
  let s := { s with ctxs := tput s.ctxs c x }
  match s.dev.ctxBase with
  | some base => s.memPut (base + 256 * c) 256 (ctxRecord c x)
  | none => s

def QState.code : QState → Nat
  | .free => 0 | .running => 1 | .blocked => 2 | .stopped => 3 | .halted => 4 | .stalled => 5

/-- The 64 bytes of a queue record (R317). -/
def queueRecord (q : Nat) (x : Queue) : Nat :=
  if x.st = .free then 0
  else
    q + x.ctx * 2 ^ 10 + x.vf * 2 ^ 18 + (if x.devFed then 2 ^ 22 else 0) + x.st.code * 2 ^ 24 + x.csize * 2 ^ 28 +
    x.esize * 2 ^ 32 + x.cring * 2 ^ 64 + x.ering * 2 ^ 128 + x.ep * 2 ^ 192 + x.n * 2 ^ 208 + x.t * 2 ^ 224 +
    x.next * 2 ^ 256 + x.placed.length * 2 ^ 288 + x.stallVa * 2 ^ 320

def State.setQueue (s : State) (q : Nat) (x : Queue) : State :=
  let s := { s with queues := tput s.queues q x }
  match s.dev.qBase with
  | some base => s.memPut (base + 64 * q) 64 (queueRecord q x)
  | none => s

/-! ### Groups, tasks and kernels -/

/-- The threads a group holds: its slots, by group core and then slot (16_group R283). -/
def Group.threads (g : Group) : List Nat :=
  (g.slots.zipIdx.map fun (sl, c) => sl.map fun k => (g.clu * 8 + g.first + c) * 8 + k).flatten

/-- Is the core one of those a placed or saved group is at home on? -/
def Group.homes (g : Group) (core : Nat) : Bool :=
  decide (g.clu = core / 8) && decide (g.first ≤ core % 8) && decide (core % 8 < g.first + g.slots.length)
/-- The cores a group is at home on. -/
def Group.cores (g : Group) : List Nat := (List.range g.slots.length).map fun i => g.clu * 8 + g.first + i

/-- Does the core hold a task of the context in slots 0 to 6 (07_memory R153)? -/
def State.hasTask (s : State) (core ctx : Nat) : Bool :=
  (List.range 7).any fun k =>
    let th := s.thread (core * 8 + k)
    decide (th.st ≠ .free) && decide (th.ctx = ctx)

/-- A saved group of the context whose region on this core holds the bytes (08_barrier R164). -/
def State.savedHome (s : State) (core ctx o n : Nat) : Option Nat :=
  (s.groups.find? fun (key, g) =>
    let k := s.kernel (key / 33554432)
    decide (g.st = .saved) && decide (k.ctx = ctx) && g.homes core && decide (o + n ≤ k.b)).map (·.1)

/-- Change or drop the tag entry of a tile (15_kernel R274). -/
def State.modTag (s : State) (ctx id tile : Nat) (f : TagEnt → Option TagEnt) : State :=
  { s with tags := s.tags.filterMap fun e => if e.ctx = ctx ∧ e.id = id ∧ e.tile = tile then f e else some e }

/-- A group's launch or discard takes its count off every entry it registered; an EXPECTED entry at 0 goes (R276). -/
def State.unregister (s : State) (ctx : Nat) (l : List Input) : State :=
  (l.filter (·.counted)).foldl (fun s i => s.modTag ctx i.id i.tile fun e =>
    if e.pending ≤ 1 ∧ !e.ready then none else some { e with pending := e.pending - 1 }) s

/-- One group of a kernel has ended or been discarded. -/
def State.countEnd (s : State) (ser n : Nat) : State :=
  let k := s.kernel ser
  s.setKernel ser { k with done := k.done + n }

/-- A kernel's groups that are not placed are discarded, their registrations released (R271). -/
def State.discardUnplaced (s : State) (ser : Nat) : State :=
  let k := s.kernel ser
  let mine := s.groups.filter fun (key, g) => decide (key / 33554432 = ser) && decide (g.st = GState.waiting ∨ g.st = GState.ready)
  let live := (s.groups.filter fun (key, g) => decide (key / 33554432 = ser) && decide (g.st = GState.placed ∨ g.st = GState.saved)).length
  let s := mine.foldl (fun s e => s.unregister k.ctx e.2.inputs) s
  let s := { s with groups := s.groups.filter fun (key, g) =>
               !(decide (key / 33554432 = ser) && decide (g.st = GState.waiting ∨ g.st = GState.ready)) }
  s.setKernel ser { s.kernel ser with done := k.groups - live,
                                      admitted := [(0, k.groups), (1, k.groups), (2, k.groups), (3, k.groups)] }

/-- Mark a kernel faulted; the first mark discards its unplaced groups (15_kernel R271, R272). -/
def State.markFault (s : State) (ser cause : Nat) (addr : W64) : State :=
  let k := s.kernel ser
  match k.st with
  | .ended => s
  | .faulting => s.setKernel ser { k with faults := min (k.faults + 1) 16777215 }
  | _ => (s.setKernel ser { k with st := .faulting, cause := cause, addr := addr, faults := 1 }).discardUnplaced ser

/-! ### Arrival words (08_barrier R160, R161) -/

/-- One credit to a word: [31:0] target, [63:32] count, [95:64] generation, [99] wrap. -/
def awCredit (w : Nat) (n : BitVec 32) : Nat :=
  let target := bits w 31 0
  let sum := bits w 63 32 + n.toNat
  let gen := bits w 95 64
  let flags := w / 2 ^ 96
  if target = 0 then
    let flags := if 2 ^ 32 ≤ sum ∧ bits flags 3 3 = 0 then flags + 8 else flags
    target + sum % 2 ^ 32 * 2 ^ 32 + gen * 2 ^ 64 + flags * 2 ^ 96
  else
    let k := sum / target
    target + (sum - k * target) * 2 ^ 32 + (gen + k) % 2 ^ 32 * 2 ^ 64 + flags * 2 ^ 96

/-- Credit the word at an offset of a core's local store, at its port. -/
def State.awCreditAt (s : State) (core o : Nat) (n : BitVec 32) : State :=
  s.lsModify core o (toBytes 16 (awCredit (s.lsRead core o 16) n))

/-- The region image a saved group keeps for a core, and its change. -/
def Saved.region (x : Saved) (core : Nat) : Tab (BitVec 8) :=
  match x.regions.find? fun e => decide (e.1 = core) with
  | some e => e.2
  | none => []
def Saved.setRegion (x : Saved) (core : Nat) (m : Tab (BitVec 8)) : Saved :=
  { x with regions := (core, m) :: x.regions.filter fun e => decide (e.1 ≠ core) }

/-- Dwords of a saved region that carry poison; a write over a whole dword clears its own. -/
def Saved.poisonOf (x : Saved) (core : Nat) : List Nat := ((x.poison.find? fun e => decide (e.1 = core)).map (·.2)).getD []
def Saved.unpoison (x : Saved) (core o n : Nat) : Saved :=
  { x with poison := x.poison.map fun e => if e.1 = core then (core, e.2.filter fun d => !coversDword o n d) else e }

/-- Address of a saved group's region bytes of a core in its save area (17_context R308). -/
def State.regionAddr (s : State) (ser : Nat) (g : Group) (core : Nat) : Nat :=
  let k := s.kernel ser
  let c := s.ctx k.ctx
  let threads := (g.slots.map List.length).sum
  let after := (0x100 + 3072 * threads + 255) / 256 * 256 + 41728 * g.save.mcores.length
  c.pool % 2 ^ 40 + g.save.area * c.saveSize * 4096 + after + k.b * (core % 8 - g.first)

/-- Write bytes to a saved group's region, and to its save area. -/
def State.savedWrite (s : State) (key core o : Nat) (bs : List (BitVec 8)) : State :=
  match tfind s.groups key with
  | none => s
  | some g =>
    let m := putBytes (g.save.region core) o bs
    let save := (g.save.setRegion core m).unpoison core o bs.length
    let s := { s with groups := tput s.groups key { g with save := save } }
    s.memWrite none (s.regionAddr (key / 33554432) g core + o) bs

/-- Write the result of a read-modify-write to a saved group's region: what was poisoned stays so (24_device R386). -/
def State.savedModify (s : State) (key core o : Nat) (bs : List (BitVec 8)) : State :=
  let t := s.savedWrite key core o bs
  match tfind s.groups key, tfind t.groups key with
  | some g, some h =>
    { t with groups := tput t.groups key { h with save := { h.save with poison := g.save.poison } }, poison := s.poison }
  | _, _ => t

/-- Where local-store bytes that a context's operation names lie: on the core, in a saved image, or with no task of the
context. -/
inductive Home where
  | live | saved (key : Nat) | refused
  deriving DecidableEq, Repr

/-- The saved group of `grp` whose region on a core holds the bytes. -/
def State.ownSaved (s : State) (grp : Option (Nat × Nat)) (core o n : Nat) : Option Nat :=
  match grp with
  | none => none
  | some (ser, g) =>
    match s.group? ser g with
    | some x => if x.st = .saved ∧ x.homes core ∧ o + n ≤ (s.kernel ser).b then some (groupKey ser g) else none
    | none => none

/-- Where they lie: in the image of the operation's own group once that is saved (11_engines R210); else on the core
while a task of the context is there, or in a saved image (07_memory R153, 08_barrier R164). -/
def State.home (s : State) (ctx : Nat) (grp : Option (Nat × Nat)) (core o n : Nat) : Home :=
  match s.ownSaved grp core o n with
  | some key => .saved key
  | none =>
    if s.hasTask core ctx then .live
    else
      match s.savedHome core ctx o n with
      | some key => .saved key
      | none => .refused

/-- A credit aimed at a core, made for a group: performed there, or in a saved image, or refused with reason 2 (R153,
R164). -/
def State.credit (s : State) (ctx core o : Nat) (n : BitVec 32) (grp : Option (Nat × Nat) := none) : State × Bool :=
  match s.home ctx grp core o 16 with
  | .live => ((s.lsTouch core o 16 ctx).awCreditAt core o n, true)
  | .saved key =>
    match tfind s.groups key with
    | some g =>
      let w := ofBytes ((List.range 16).map fun i => tget 0 (g.save.region core) (o + i))
      (s.savedModify key core o (toBytes 16 (awCredit w n)), true)
    | none => (s, false)
  | .refused => (s, false)

/-! ### Rings (12_page R235-R237) -/

/-- A record of 32 bytes put in a ring of `size` records: written, then the head advanced; or no room. -/
def State.ringPut (s : State) (base size rcd : Nat) : Option State :=
  let head := s.memRead base 8
  let tail := s.memRead (base + 8) 8
  if (head + 2 ^ 64 - tail) % 2 ^ 64 < size then
    let s := s.memPut (base + 64 + 32 * (head % size)) 32 rcd
    some (s.memPut base 8 ((head + 1) % 2 ^ 64))
  else none

/-- A record found no room: held set, the held count raised, saturating (R235). -/
def State.ringHeld (s : State) (base : Nat) : State :=
  let n := s.memRead (base + 16) 4
  let s := s.memPut (base + 16) 4 (min (n + 1) 4294967295)
  s.memPut (base + 20) 1 (bits (s.memRead (base + 20) 1) 7 1 * 2 + 1)

/-- The credit a fault or feedback ring's header asks for (R235, R237 step 3). DESIGN CHOICE (entry 42): a word whose core is
none, whose offset is no multiple of 16 or that lies beyond the local store takes no credit. -/
def State.ringCredit (s : State) (ctx base : Nat) : State :=
  let h := s.memRead base 64
  if bits h 203 203 = 1 ∧ bits h 207 204 = 0 ∧ bits h 202 192 < Config.cores ∧ bits h 223 204 + 16 ≤ Config.localBytes then
    (s.credit ctx (bits h 202 192) (bits h 223 204) 1).1
  else s

/-- The fault ring of a context: base and number of records; none where base is 0 or of another node (R234), or, DESIGN
CHOICE (entry 42), lies beyond the device's memory. -/
def State.faultRing (s : State) (c : Nat) : Option (Nat × Nat) :=
  let f := (s.ctx c).fring.toNat
  let base := bits f 51 12 * 4096
  if base = 0 ∨ ¬s.ownAddr base 64 then none
  else some (base % 2 ^ 40, 2 ^ (min (bits f 3 0) 12 + 4))

/-- Write the oldest fault record of a cluster, if its ring has room (R237). DESIGN CHOICE (entry 23): a record that waits goes
to the ring its context names when it is written, and is dropped where that is none. -/
def State.faultWrite (s : State) (r : FaultRec) : Option State :=
  match r.ring.or (s.faultRing r.ctx) with
  | none => some s
  | some (base, size) => (s.ringPut base size r.data.toNat).map fun s => s.ringCredit r.ctx base

/-- A fault record is made: written at once when no earlier one of the cluster waits and there is room; else it
waits, and held is set where its ring is full. -/
def State.faultEmit (s : State) (clu : Nat) (r : FaultRec) : State :=
  let c := s.clu clu
  match c.frecs with
  | [] =>
    match s.faultWrite r with
    | some s => s
    | none =>
      let s := match s.faultRing r.ctx with
        | some (base, _) => s.ringHeld base
        | none => s
      s.setClu clu { s.clu clu with frecs := [{ r with held := true, retryAt := s.cycle + 4096 }] }
  | l =>
    let full := match s.faultRing r.ctx with
      | some (base, size) => if (s.ringPut base size 0).isNone then some base else none
      | none => none
    let s := match full with
      | some base => s.ringHeld base
      | none => s
    s.setClu clu { c with frecs := l ++ [{ r with held := full.isSome, retryAt := s.cycle + 4096 }] }

/-- The fields of a fault record (R236). -/
def faultRecord (pc : W64) (thr ctx source time kind cause va : Nat) : BitVec 256 :=
  BitVec.ofNat 256 (va % 2 ^ 72 + cause * 2 ^ 72 + kind * 2 ^ 82 + time % 2 ^ 64 * 2 ^ 96 + source * 2 ^ 166 + ctx * 2 ^ 170 +
    thr * 2 ^ 178 + pc.toNat * 2 ^ 192)

/-! ### Gangs (03_thread R63-R65) -/

/-- The members of the gang a thread belongs to; itself when alone. -/
def State.members (s : State) (t : Nat) : List Nat :=
  match (s.thread t).gang with
  | none => [t]
  | some g => (List.range g.size).map fun j => t - 8 * g.index + 8 * j

/-- What an outstanding bundle contributes to the reduction at a gang's `n`-th bundle. -/
def Pend.gangAt (num n : Nat) (p : Pend) : Option (GangOp × W64 × W64) :=
  match p.due with
  | .gang op x w _ k j => if k = num ∧ j = n then some (op, x, w) else none
  | _ => none

/-- Members' contributions to a reduction, none of one that has given none. -/
def State.gangParts (s : State) (ms : List Nat) (num n : Nat) : List (Option (GangOp × W64 × W64)) :=
  ms.map fun m => (s.thread m).pend.findSome? (Pend.gangAt num n)

/-- Is the thread a member of the gang that has still to execute its `n`-th bundle? -/
def Thread.owes (th : Thread) (num n : Nat) : Bool :=
  match th.gang with
  | some g => decide (g.num = num) && decide (g.done ≤ n)
  | none => false

/-- The outstanding bundles `p` holds of get a result. -/
def giveTo (p : Pend → Bool) (v : W64) (l : List Pend) : List Pend :=
  l.map fun x => if p x then { x with due := .ready 0, vals := x.dests.map fun d => (d, v.setWidth 512) } else x

/-- A reduction completes once no member owes its part: those given are combined (06_vector R138). -/
def State.reduce (s : State) (ms : List Nat) (num n : Nat) : State :=
  if ms.any fun m => (s.thread m).owes num n then s
  else
    let parts := s.gangParts ms num n
    match parts.find? Option.isSome with
    | some (some (op, _, w)) =>
      let (v, fl) := gangCombine op w (parts.map fun p => p.map (·.2.1))
      ms.foldl (fun s m =>
        let th := s.thread m
        if th.pend.any fun p => (p.gangAt num n).isSome then
          s.setThread m (({ th with pend := giveTo (fun p => (p.gangAt num n).isSome) v th.pend
                                    fflags := th.fflags ||| BitVec.ofNat 64 fl } : Thread).sysDepend 0x011 s.moment)
        else s) s
    | _ => s

/-- A reduction of a gang that dissolved before it: the member's own value (R65, R138). -/
def Thread.alone (m num k : Nat) (th : Thread) : Thread :=
  th.pend.foldl (fun th p =>
    match p.due with
    | .gang op x w _ j n =>
      if j = num ∧ k ≤ n then
        let (v, fl) := gangOwn op w x
        ({ th with pend := giveTo (fun q => (q.gangAt num n).isSome) v th.pend
                   fflags := th.fflags ||| BitVec.ofNat 64 fl } : Thread).sysDepend 0x011 m
      else th
    | _ => th) th

/-- A gang dissolves before its bundle `k`: a member that has come so far fetches its own stream from now on, another
after the led bundles before `k` (R65). -/
def State.dissolveAt (s : State) (ms : List Nat) (num k : Nat) : State :=
  ms.foldl (fun s m =>
    let th := s.thread m
    let th' := match th.gang with
      | some g =>
        if g.num = num then
          let ahead := g.ahead.filter fun (f : Follow) => decide (f.n < k)
          { th with gang := if ahead = [] then none else some { g with ahead := ahead, last := true } }
        else th
      | none => th
    s.setThread m (th'.alone s.moment num k)) s

/-- What a leader hands a follower: a bundle, or, of one led before, the outcome. -/
def Gang.follow (h : Gang) (f : Follow) (led : Bool) : Gang :=
  { h with ahead := if led then h.ahead.map fun (x : Follow) => if x.n = f.n then { x with next := f.next, way := f.way } else x
                    else h.ahead ++ [f] }

/-- A leader hands the bundle being issued to its followers, with its outcome, none while it waits in it (R64). -/
def State.lead (s : State) (t : Nat) (next : Option W64) (way : Bool := false) : State :=
  match (s.thread t).gang with
  | none => s
  | some g =>
    if g.index ≠ 0 then s
    else
      let slot := bits (s.thread t).fsel.toNat 4 0
      let f : Follow := { b := s.iss.b, n := g.done, next := next, way := way, slot := slot,
                          entry := (s.ctx (s.thread t).ctx).fmtWord slot }
      ((s.members t).drop 1).foldl (fun s m =>
        let th := s.thread m
        match th.gang with
        | some h =>
          if h.num = g.num then s.setThread m { th with gang := some (h.follow f (decide (g.done < g.led))) } else s
        | none => s) (s.setThread t { s.thread t with gang := some { g with led := g.done + 1 } })

/-- A thread leaves its gang, which dissolves (R65): at the bundle it is executing, which the others complete, or
(`shared` false) before it. -/
def State.leave (s : State) (t : Nat) (shared : Bool) : State :=
  match (s.thread t).gang with
  | none => s
  | some g =>
    let ms := s.members t
    let s := if shared then s.lead t none else s
    let s := s.setThread t { s.thread t with gang := none }
    s.dissolveAt ms g.num (if shared then g.done + 1 else g.done)

/-! ### Links (08_barrier R167, R168) -/

def State.upLink (s : State) (t : Nat) : Option Link := s.links.find? fun l => decide (l.dst = t) && !l.saved
def State.downLink (s : State) (t : Nat) : Option Link :=
  s.links.find? fun l => decide (l.src = t) && !l.srcEnded && !l.saved

/-- Every L1 line of a core goes, and with them the invalidations on their way: an acquire or a FENCE of loads at
CLUSTER or wider (07_memory R139). -/
def State.flushL1 (s : State) (core : Nat) : State :=
  let c := s.core core
  s.setCore core { c with
    l1 := []
    path := c.path.filter fun x => match x with | .ack _ => true | .inval _ _ => false }

/-- Pop the oldest value of the upstream link, a CLUSTER-scope acquire (R169); an emptied link whose sender has ended
goes. -/
def State.pop (s : State) (t : Nat) : State :=
  let s := s.flushL1 (coreOf t)
  { s with links := s.links.filterMap fun l =>
      if l.dst = t ∧ ¬l.saved then
        if l.srcEnded ∧ l.vals.length ≤ 1 then none else some { l with vals := l.vals.drop 1 }
      else some l }
/-- Push a value on the downstream link; what releases the pusher's earlier accesses is in its callers (R169). -/
def State.push (s : State) (t : Nat) (v : W64) : State :=
  { s with links := s.links.map fun l =>
      if l.src = t ∧ ¬l.srcEnded ∧ ¬l.saved then { l with vals := l.vals ++ [v] } else l }

/-- The links of a saved thread that ends with its save, saved with the group of a key (R168). -/
def State.endSavedLinks (s : State) (key t : Nat) : State :=
  { s with links := s.links.filterMap fun l =>
      if !l.saved ∨ l.grp ≠ key then some l
      else if l.dst = t then none
      else if l.src = t ∧ ¬l.srcEnded then (if l.vals = [] then none else some { l with srcEnded := true })
      else some l }

/-- The links of a thread that ends (R168). -/
def State.endLinks (s : State) (t : Nat) : State :=
  { s with links := s.links.filterMap fun l =>
      if l.saved then some l
      else if l.dst = t then none
      else if l.src = t ∧ ¬l.srcEnded then (if l.vals = [] then none else some { l with srcEnded := true })
      else some l }

/-! ### Starting and ending a thread -/

/-- The registers of a slot are written as a thread starts in it: what that does to injection and poison (24_device R386,
R388). -/
def State.slotWritten (s : State) (t : Nat) : State :=
  let c := s.core (coreOf t)
  if c.errs.armed 5 ∨ c.errs.faults ≠ [] ∨ c.bad ≠ [] then
    s.setCore (coreOf t) (c.wrote 5 (fun k => decide (k / 128 = slotOf t)) (slotOf t * 128 + 1))
  else s

/-- A thread starts in a free slot (03_thread R52); its start acquires (SPAWN entry, 10_matrix R191, 15_kernel R279). -/
def State.startThread (s : State) (t : Nat) (pc : W64) (args : List W64) (ctx vf : Nat) : State :=
  let s := s.flushL1 (coreOf t)
  let old := s.thread t
  let th : Thread := { st := .runnable, pc := pc, ctx := ctx, vf := vf, grp := old.grp, inc := s.births,
                       startPc := pc, startArgs := args }
  let th := (args.zipIdx.take 4).foldl (fun th (v, i) => th.writeS (BitVec.ofNat 5 (i + 1)) v) th
  { (s.slotWritten t).setThread t th with births := s.births + 1 }

/-- The slot becomes FREE, from the next cycle on; a group that holds it goes on holding it (QUIT entry, R294). -/
def State.endThread (s : State) (t : Nat) : State :=
  let th := s.thread t
  let s := s.endLinks t
  s.setThread t { grp := if slotOf t = 7 then none else th.grp, freed := s.cycle + 1 }

/-- Is a slot FREE, since an earlier cycle than its last thread's end (QUIT)? -/
def State.isFree (s : State) (t : Nat) : Bool := decide ((s.thread t).st = .free) && decide ((s.thread t).freed ≤ s.cycle)

/-! ### Layers that retire (21_layer R337, R356) -/

def State.layer (s : State) (l : Nat) : Layer := tget {} s.layers l
def State.setLayer (s : State) (l : Nat) (x : Layer) : State := { s with layers := tput s.layers l x }

/-- A layer's request leaves its queue's list, or the composite that is to post it. -/
def State.unrequest (s : State) (id : Nat) : State :=
  { s with
    queues := s.queues.map fun (k, q) => (k, { q with reqs := q.reqs.filter fun r => decide (r.id ≠ id) })
    dies := s.dies.map fun (k, d) => (k, { d with comp := d.comp.map fun c =>
      { c with posts := c.posts.filter fun r => decide (r.id ≠ id) } }) }

/-- A layer goes RETIRED; its id waits for every compositor command now in flight. -/
def State.retireLayer (s : State) (id : Nat) : State :=
  let s := s.unrequest id
  let waits := (s.dies.map fun (_, d) => d.comp.map fun c => (c.owner.inc, c.num)).flatten
  s.setLayer id { s.layer id with st := .retired, waits := waits }

/-! ### Accesses of other devices (07_memory R159, 23_link R376) -/

def State.ep (s : State) (e : Nat) : Endpoint := tget {} s.eps e
def State.setEp (s : State) (e : Nat) (x : Endpoint) : State := { s with eps := tput s.eps e x }

/-- The context an asker accesses memory for. -/
def State.askerCtx (s : State) : Asker → Nat
  | .thread t _ | .fetch t _ | .lod t _ | .waiting t _ => (s.thread t).ctx
  | .engine o => o.ctx
  | .queue q => (s.queue q).ctx
  | .packet e => (s.ep e).ctx

/-! ### Kill (17_context R306) -/

/-- Steps 1 to 4 of a kill of a LIVE or SUSPENDED context; KILL_FINISH does step 5. -/
def State.kill (s : State) (c : Nat) (note : Option KillNote) (killer : Option Nat) : State :=
  let x := s.ctx c
  if x.st = .live ∨ x.st = .suspended then
    let mine := fun (ser : Nat) => decide ((s.kernel ser).ctx = c)
    let owned := fun (o : Owner) => decide (o.ctx = c)
    let inGroup := fun (t : Nat) =>
      match (s.thread t).grp with
      | some (ser, _) => mine ser
      | none => decide ((s.thread t).ctx = c) && decide ((s.thread t).st ≠ .free)
    let links := s.links.filter fun l => if l.saved then decide (l.ctx ≠ c) else !(inGroup l.src || inGroup l.dst)
    let thr := s.thr.map fun (t, th) => if inGroup t then (t, ({ freed := s.cycle + 1 } : Thread)) else (t, th)
    let left := s.groups.filter fun (key, g) => mine (key / 33554432) && decide (g.st = .placed)
    let cores := s.cores.map fun (k, r) =>
      (k, { r with
        lastVf := if left.any fun e => e.2.homes k then some x.vf else r.lastVf
        mq := r.mq.filter fun e => !owned e.owner
        cq := r.cq.filter fun e => !owned e.owner
        nq := r.nq.filter fun e => !owned e.owner
        sfu := r.sfu.filter fun e => !owned e.owner
        spawnQ := r.spawnQ.filter fun e => !owned e.owner
        tris := r.tris.filter fun e => decide (e.ctx ≠ c)
        tickets := r.tickets.filter fun e => decide (e.ctx ≠ c)
        locks := r.locks.filter fun e => decide (e.ctx ≠ c) })
    let clus := s.clus.map fun (k, r) =>
      (k, { r with txq := r.txq.filter fun e => !owned e.owner, held := r.held.filter fun e => decide (e.ctx ≠ c) })
    let dies := s.dies.map fun (k, r) => (k, { r with preempt := r.preempt.filter fun e => !mine e.1 })
    let kernels := s.kernels.map fun (k, r) =>
      if r.ctx = c ∧ r.st ≠ .ended ∧ !r.ending then (k, { r with killed := true }) else (k, r)
    let groups := (s.groups.filter fun (key, _) => !mine (key / 33554432)).map fun (key, (g : Group)) =>
      (key, { g with save := { g.save with mstate := g.save.mstate.map fun (k, q, a) => (k, q.filter fun e => !owned e.owner, a) } })
    let qs := s.queues.filter fun (_, r) => decide (r.ctx = c) && decide (r.st ≠ .free)
    let asks := fun (w : Asker) => decide (s.askerCtx w = c)
    let lost := ((s.eps.filter fun (_, e) => decide (e.ctx = c)).map fun (_, e) => e.pkts).flatten
    let dev : Dev := { s.dev with
      answers := (s.dev.answers.filter fun a => !asks a.who) ++ lost.filterMap fun p =>
        (p.asker.filter fun w => !asks w).map fun w => { who := w, va := p.va, msg := p.msg, reply := .refused 5 }
      images := s.dev.images.map fun (n, (x : MImage)) => (n, { x with ents := x.ents.filter fun e => !owned e.owner }) }
    let eps := s.eps.map fun (k, (e : Endpoint)) =>
      (k, { e with pkts := e.pkts.map fun p => if p.asker.any asks then { p with asker := none } else p })
    let s := { s with thr := thr, cores := cores, clus := clus, dies := dies, kernels := kernels, groups := groups, dev := dev,
                      eps := eps, links := links, tags := s.tags.filter fun e => decide (e.ctx ≠ c) }
    let s := qs.foldl (fun s (q, r) =>
      s.setQueue q { r with st := .halted, placed := [], block := none, stallVa := 0, reqs := [], recs := r.recs.filter fun x => !x.event }) s
    let s := (s.layers.filter fun (_, l) => decide (l.owner = c) && decide (l.st ≠ .retired)).foldl (fun s e => s.retireLayer e.1) s
    let s : State := { s with eps := s.eps.map fun (k, (e : Endpoint)) => if e.ctx = c then (k, ({} : Endpoint)) else (k, e) }
    s.setCtx c { s.ctx c with st := .dead, note := note, killer := killer, areas := [], suspending := none, killDone := false }
  else s

/-! ### Traps (17_context R303, R304, R314) -/

def Thread.bank (th : Thread) (m : Nat) : Bank := if m = 1 then th.bank1 else th.bank2
def Thread.setBank (th : Thread) (m : Nat) (b : Bank) : Thread :=
  if m = 1 then { th with bank1 := b } else { th with bank2 := b }

/-- TSTATE from its fields (R303). -/
def mkTstate (level : Nat) (mode pm1 pm2 : Bool) : W64 :=
  BitVec.ofNat 64 (level + (if mode then 4 else 0) + (if pm1 then 8 else 0) + (if pm2 then 16 else 0))

/-- Words 0 to 3 of a bundle, word 0 lowest (02_encoding R43). -/
def twordOf (ws : List (BitVec 16)) : W64 := BitVec.ofNat 64 (ofWords (ws.take 4))
where
  ofWords : List (BitVec 16) → Nat
    | [] => 0
    | w :: r => w.toNat + 65536 * ofWords r

/-- Word 4 and the number of words (R43). -/
def twordhOf (ws : List (BitVec 16)) : W64 :=
  BitVec.ofNat 64 ((match ws[4]? with | some w => w.toNat | none => 0) + ws.length % 8 * 65536)

/-- Take a trap in thread `t` for bundle `b`: the next level's bank saves address, cause and words, the mode becomes
system and the pc the vector; a third level or a missing vector kills the context (R303, R307). -/
def State.takeTrap (s : State) (t : Nat) (b : Bundle) (tepc : W64) (e : Err) (shared : Bool := true) : State :=
  let s := s.leave t shared
  let s := { s with iss := { s.iss with turn := .trapped } }
  let th := s.thread t
  let m := th.level + 1
  let cause := BitVec.ofNat 64 e.cause
  let ser := match th.grp with | some (k, _) => some k | none => none
  let note := fun (bytes : List Nat) => ser.map fun k => { ser := k, bytes := bytes, addr := b.pc : KillNote }
  if 2 < m then
    s.kill th.ctx (note [th.bank1.tcause.toNat, th.bank2.tcause.toNat, e.cause, 3]) none
  else
    let own := (th.bank m).tvec
    let c := s.ctx th.ctx
    let vec := if own.toNat / 2 ≠ 0 then own else if m = 1 then c.tvec1 else c.tvec2
    if vec.toNat / 2 = 0 then
      s.kill th.ctx (note (if m = 1 then [0, 0, e.cause, 1] else [th.bank1.tcause.toNat, 0, e.cause, 2])) none
    else
      let th' := th.setBank m { tvec := own, tcause := cause, tepc := tepc, tval := e.tval, tword := twordOf b.words,
                                twordh := twordhOf b.words ||| e.high }
      let pm1 := if m = 1 then th.sysMode else th.tstate.getLsbD 3
      let pm2 := if m = 2 then th.sysMode else th.tstate.getLsbD 4
      s.setThread t (({ th' with tstate := mkTstate m true pm1 pm2, pc := vec &&& ~~~1#64, past := false } : Thread).sysDepend
        (if m = 1 then 0x024 else 0x02C) s.iss.dep |>.sysDepend (if m = 1 then 0x026 else 0x02E) s.iss.dep)

/-- The bundle being issued traps; nothing of it takes effect. Where the others of its gang have not got it (`shared`
false), each fetches it for itself. -/
def State.trap (s : State) (e : Err) (shared : Bool := true) : State := s.takeTrap s.iss.thr s.iss.b s.iss.b.pc e shared

/-- PRIV with a reason of R304. -/
def privErr (reason : Nat) (csr : Nat := 0) : Err := { cause := 2, tval := BitVec.ofNat 64 (csr + reason * 4096) }
/-- QUEUE: register and reason (08_barrier R168). -/
def queueErr (reg reason : Nat) : Err := { cause := 10, tval := BitVec.ofNat 64 (reg + reason * 256) }
/-- HANDLER: reason in TWORDH [55:48] (R304). -/
def handlerErr (reason : Nat) (tval : W64 := 0) : Err :=
  { cause := 11, tval := tval, high := BitVec.ofNat 64 (reason * 2 ^ 48) }
/-- ADDR: the address and the reason (12_page R240). -/
def addrErr (va reason : Nat) : Err :=
  { cause := 5, tval := BitVec.ofNat 64 va, high := BitVec.ofNat 64 (reason * 2 ^ 48 + va / 2 ^ 64 % 256 * 2 ^ 56) }
/-- REMOTE: core or set number, and the reason (07_memory R153). DESIGN CHOICE (entry 39): of a number too large for the
field, TVAL [10:0] holds the low 11 bits. -/
def remoteErr (id reason : Nat) : Err := { cause := 15, tval := BitVec.ofNat 64 (id % 2048 + reason * 4096) }
/-- MDESC: reason and descriptor (10_matrix R178). -/
def mdescErr (reason desc : Nat) : Err := { cause := 12, tval := BitVec.ofNat 64 (reason + desc * 256) }

/-- RETT of a thread above level 0: back to the interrupted address, mode and level; the bank and pm stay (R314). DESIGN CHOICE
(entry 44): where the bundle of a TRAP ends at 2^64 TEPC holds 0, and this goes to address 0 without a trap (01_machine
R24). -/
def Thread.ret (th : Thread) : Thread :=
  let n := th.level
  let mode := if n = 1 then th.tstate.getLsbD 3 else th.tstate.getLsbD 4
  { th with pc := (th.bank n).tepc &&& ~~~1#64, past := false,
            tstate := mkTstate (n - 1) mode (th.tstate.getLsbD 3) (th.tstate.getLsbD 4) }

/-! ### How a bundle ends -/

/-- Address after the bundle being issued, and whether it leaves the code range (01_machine R24). DESIGN CHOICE (entry 44): of
a bundle that ends at 2^64 the address after it, as the TEPC of a TRAP or the link of a JAL or JALR, is 0. -/
def Bundle.next (b : Bundle) : W64 := b.pc + BitVec.ofNat 64 (2 * b.words.length)
def Bundle.nextOver (b : Bundle) : Bool := decide (2 ^ 64 ≤ b.pc.toNat + 2 * b.words.length)

/-- Has a member of a gang executed its first `n` bundles, the last with another outcome than `next` and `way`? -/
def Thread.wentElse (th : Thread) (num n : Nat) (next : W64) (way : Bool) : Bool :=
  match th.gang with
  | some h => decide (h.num = num) && decide (h.done = n) && (decide (th.pc ≠ next) || h.way != way)
  | none => false

/-- The pc moves to `next`, by a branch that goes where `way` says so: a gang's leader hands the bundle to its followers, and
where an outcome differs from the leader's, be it the condition alone, the gang splits (03_thread R64, R65, 04_scalar
R76). -/
def State.moveTo (s : State) (next : W64) (past : Bool) (way : Bool := false) : State :=
  let t := s.iss.thr
  let th := s.thread t
  match th.gang with
  | none => s.setThread t { th with pc := next, past := past }
  | some g =>
    if g.index = 0 then
      let s := s.lead t (some next) way
      let s := s.setThread t { s.thread t with
        pc := next, past := past, gang := (s.thread t).gang.map fun h => { h with done := g.done + 1, way := way } }
      if decide (g.done < g.led) && ((s.members t).drop 1).any fun m => (s.thread m).wentElse g.num (g.done + 1) next way then
        s.dissolveAt (s.members t) g.num (g.done + 1)
      else s
    else
      let rest := g.ahead.drop 1
      let ms := s.members t
      let s := s.setThread t { th with
        pc := next, past := past
        gang := if rest = [] ∧ g.last then none else some { g with done := g.done + 1, ahead := rest, way := way } }
      match g.ahead.head? with
      | some f => if f.next.isNone ∨ (f.next = some next ∧ f.way = way) then s else s.dissolveAt ms g.num (g.done + 1)
      | none => s

/-- The bundle completes and the next in sequence follows. -/
def State.done (s : State) : State := s.moveTo s.iss.b.next s.iss.b.nextOver

/-- What reading the operands of a bundle finds (04_scalar R67, 08_barrier R167). -/
inductive Ready where
  | trap (e : Err)
  /-- a push releases, and an earlier remote access is not performed yet (08_barrier R169) -/
  | hold
  | wait (w : Wait)
  | go (qin : W64)
  deriving DecidableEq, Repr

/-- A source s31 or a destination s30 traps; s30 needs a value to pop, s31 room to push; `late` destinations push
when their result comes and need only the link. -/
def State.operands (s : State) (srcs : List SReg) (dst : Option SReg) (late : Bool := false) : Ready :=
  let t := s.iss.thr
  let up := s.upLink t
  let down := s.downLink t
  if 31#5 ∈ srcs then .trap (queueErr 31 0)
  else if dst = some 30#5 then .trap (queueErr 30 0)
  else
    let pops := decide (30#5 ∈ srcs)
    let pushes := decide (dst = some 31#5)
    match pops, up with
    | true, none => .trap (queueErr 30 3)
    | _, _ =>
      if pushes ∧ down = none then .trap (queueErr 31 1)
      else
        let vals := match up with | some l => l.vals | none => []
        if pops ∧ vals = [] then .wait .pop
        else if pushes && !late && (match down with | some l => decide (16 ≤ l.vals.length) | none => false) then .wait .push
        else if pushes && !late && decide (s.cur.remOut ≠ []) then .hold
        else .go (if pops then vals.headD 0 else 0)

/-- A waiting instruction whose condition is not met: the thread is WAITING, as a leader with its bundle handed to its
followers; in slot 7 it traps HANDLER (R57, R58, R64). -/
def State.block (s : State) (w : Wait) (srcs : List SReg := []) : State :=
  if slotOf s.iss.thr = 7 then s.trap (handlerErr 2)
  else
    let s := s.lead s.iss.thr none
    s.setCur { s.cur with st := .waiting, wait := some { b := s.iss.b, w := w, pops := decide (30#5 ∈ srcs) } }

/-- A bundle retires on a core: its watchdog starts anew (24_device R389). -/
def State.retires (s : State) (core : Nat) : State :=
  s.setCore core { s.core core with watch := 0, retired := some s.cycle }

/-- The waiting bundle of a thread ends: the thread is RUNNABLE and the bundle, issued before, is the one that `k` goes
on with. -/
def State.resume (s : State) (t : Nat) (x : Waiting) (k : State → State) : State :=
  let s := s.setThread t { s.thread t with st := .runnable, wait := none }
  let s := { s with iss := { thr := t, b := x.b } }
  k (if x.pops then s.pop t else s)

/-- The waiting bundle of a thread completes, and retires. -/
def State.unblock (s : State) (t : Nat) (x : Waiting) (k : State → State) : State := (s.resume t x k).retires (coreOf t)

/-- A bundle that has popped a value traps: its thread's upstream link has the value again, oldest first (04_scalar R67). A link
that has gone since holds it for the thread alone, as one whose sender has ended does (08_barrier R168). -/
def State.unpop (s : State) (t : Nat) (l : Option Link) : State :=
  match l with
  | none => s
  | some l =>
    let v := l.vals.headD 0
    if (s.upLink t).isSome then
      { s with links := s.links.map fun x => if x.dst = t ∧ ¬x.saved then { x with vals := v :: x.vals } else x }
    else { s with links := s.links ++ [{ l with vals := [v], srcEnded := true }] }

/-- Raise an error that came with a reply, or found a push's link gone, at the bundle that must wait for it: TEPC holds
the long-latency bundle's address, and its links are as it found them (R61, 04_scalar R67). -/
def State.raiseLate (s : State) (t : Nat) (p : Pend) : State :=
  match p.err with
  | none => s
  | some e =>
    let s := s.unpop t p.popped
    let th := s.thread t
    let s : State := { s with iss := { s.iss with dep := s.moment } }
    (s.setThread t { th with pend := th.pend.erase p }).takeTrap t p.b p.b.pc e false

/-- A waiting bundle completes by a trap: once every long-latency bundle outstanding before it has completed, and an
error that came with one of those first (R60, R61). -/
def State.unblockTrap (s : State) (t : Nat) (x : Waiting) (e : Err) : State :=
  let th := s.thread t
  match th.pend with
  | [] => s.resume t { x with pops := false } fun s => s.trap e
  | p :: _ =>
    if th.pend.all (·.err.isSome) then s.resume t { x with pops := false } fun s => s.raiseLate t p else s

/-- A waiting bundle completes with a value for s_d: a full link holds it, and so does an unperformed remote access,
which a push releases; a link that has gone traps (08_barrier R168, R169). -/
def State.unblockInto (s : State) (t : Nat) (x : Waiting) (d : SReg) (k : State → State) : State :=
  if d = 31#5 then
    match s.downLink t with
    | none => s.unblockTrap t x (queueErr 31 1)
    | some l => if 16 ≤ l.vals.length ∨ (s.thread t).remOut ≠ [] then s else s.unblock t x k
  else s.unblock t x k

/-- Read operands and go on with the value each source has. -/
def State.withOps (s : State) (srcs : List SReg) (dst : Option SReg) (k : (SReg → W64) → State) (late : Bool := false) :
    State :=
  match s.operands srcs dst late with
  | .trap e => s.trap e
  | .hold => s
  | .wait w => s.block w
  | .go qin => k fun r => if r = 30#5 then qin else s.cur.readS r

/-- The pop a completing bundle makes. -/
def State.popIf (s : State) (srcs : List SReg) : State := if 30#5 ∈ srcs then s.pop s.iss.thr else s

/-- A short bundle completes with no result. -/
def State.retire (s : State) (srcs : List SReg) : State := (s.popIf srcs).done

/-- A value for s_d: written, or for s31 pushed, which releases the thread's stores (08_barrier R169). -/
def State.putS (s : State) (d : SReg) (v : W64) : State :=
  if d = 31#5 then (s.ackAll s.iss.thr).push s.iss.thr v else s.setCur (s.cur.writeS d v)

/-- A short bundle completes with `v` for s_d, next in sequence. -/
def State.retireS (s : State) (srcs : List SReg) (d : SReg) (v : W64) : State := ((s.popIf srcs).putS d v).done

/-- A short bundle completes after a change to its thread. -/
def State.retireT (s : State) (srcs : List SReg) (f : Thread → Thread) : State :=
  let s := s.popIf srcs
  (s.setCur (f s.cur)).done

/-- A long-latency bundle commits: it will write `dests`, its window opens, and the next bundle follows (R59, R60). -/
def State.commit (s : State) (srcs : List SReg) (dests : List Reg) (vals : List (Reg × V512)) (due : Due)
    (err : Option Err := none) (lod : Bool := false) (mem : Bool := false) (snaps : List Snap := []) : State :=
  let popped := if 30#5 ∈ srcs then s.upLink s.iss.thr else none
  let s := s.popIf srcs
  let th := s.cur
  let p : Pend := { b := s.iss.b, win := s.iss.b.la, dests := dests, vals := vals, due := due, err := err, lod := lod,
                    mem := mem, snaps := snaps, popped := popped }
  (s.setCur { th with pend := th.pend ++ [p] }).done

/-- A soft translation fault of the bundle being issued: HANDLER in slot 7, ADDR with no ring, else the thread is
DROPPED and a record goes to the ring (12_page R233-R237, 03_thread R58, R62); `shared` as for `trap`. -/
def State.softFault (s : State) (cause kind va : Nat) (shared : Bool := true) : State :=
  let t := s.iss.thr
  let th := s.cur
  if slotOf t = 7 then s.trap (handlerErr 3 (BitVec.ofNat 64 va)) shared
  else
    match s.faultRing th.ctx with
    | none => s.trap (addrErr va 5) shared
    | some _ =>
      let s := s.leave t shared
      let s := s.setThread t { s.thread t with st := .dropped }
      s.faultEmit (cluOf t)
        { ctx := th.ctx, data := faultRecord s.iss.b.pc t th.ctx 0 s.timens kind cause va }

/-- A bundle whose translation finds no walker free: the miss waits for one in arrival order, the thread RUNNABLE and
its bundle to be issued again (12_page R229). -/
def State.waitWalk (s : State) (core ctx va : Nat) : State :=
  let clu := core / 8
  let x := s.clu clu
  let w : Walk := { core := core, ctx := ctx, va := va, shoot := s.dev.shoot, thr := some s.iss.thr }
  { (s.setClu clu { x with walks := x.walks ++ [w] }) with iss := { s.iss with turn := .walking } }

/-! ### Ports and endpoints (23_link R365-R367) -/

def State.port (s : State) (p : Nat) : Port := tget .down s.ports p

/-- One of the ports that are UP; which one is open. -/
def State.pickPort (s : State) : State × Option Nat :=
  let ups := (List.range 12).filter fun p => decide (s.port p = .up)
  let (v, s) := s.takeFree
  (s, if ups = [] then none else ups[v.toNat % ups.length]?)

def State.say (s : State) (m : OutMsg) : State := { s with out := s.out ++ [m] }

/-- Bytes sent and not acknowledged. -/
def Endpoint.inFlight (x : Endpoint) : Nat := (x.pkts.map fun p => p.msg.len).sum

/-- A packet goes out, by a port that is UP. -/
def State.resend (s : State) (e : Nat) (p : OutPkt) : State × OutPkt :=
  let (s, port) := s.pickPort
  (s.say (.send e port p.msg), { p with port := port })

/-- A packet of the device's own goes out on an OPEN endpoint; `w`: the access it is sent for, with its virtual address, and
`acc` the context whose translated access it is. It is sent again until it is acknowledged, as any packet is (R367, R372). -/
def State.sendOwn (s : State) (e : Nat) (m : NetMsg) (w : Option Asker := none) (va : Nat := 0) (acc : Option Nat := none) : State :=
  if (s.ep e).st ≠ .opened then s
  else
    let order := s.dev.nextXfer
    let s := { s with dev := { s.dev with nextXfer := order + 1 } }
    let (s, p) := s.resend e { order := order, off := 0, msg := m, port := none, asker := w, va := va, acc := acc }
    s.setEp e { s.ep e with pkts := (s.ep e).pkts ++ [p] }

/-! ### Answers to accesses of other devices (07_memory R159, 23_link R376) -/

/-- Does the asker still want an answer? A thread that has ended, or has been saved, does not. -/
def State.asks (s : State) (w : Asker) : Bool :=
  match w with
  | .thread t inc | .fetch t inc | .lod t inc => decide ((s.thread t).st ≠ .free) && decide ((s.thread t).inc = inc)
  | .waiting t inc => decide ((s.thread t).st = .waiting) && decide ((s.thread t).inc = inc)
  | .engine _ | .queue _ | .packet _ => true

/-- What another device has answered to an access. -/
def State.answered (s : State) (w : Asker) (m : NetMsg) : Option Reply :=
  (s.dev.answers.find? fun a => decide (a.who = w) && decide (a.msg = m)).map (·.reply)

/-- Is a packet of an asker's on its way? -/
def State.asked (s : State) (w : Asker) : Bool := s.eps.any fun (_, e) => e.pkts.any fun p => decide (p.asker = some w)

/-- As whom a thread asks in an issue turn: for its bundle, its fetch, its level-of-detail load. -/
def State.askers (s : State) (t : Nat) : List Asker :=
  let n := (s.thread t).inc
  [.thread t n, .fetch t n, .lod t n]

/-- Is an answer held for a thread's issue turn? -/
def State.hasAnswer (s : State) (t : Nat) : Bool := s.dev.answers.any fun a => (s.askers t).contains a.who

/-- Packets that go, or whose endpoint has gone: their askers meet an error. -/
def State.failAsks (s : State) (l : List OutPkt) : State :=
  { s with dev := { s.dev with answers := s.dev.answers ++ l.filterMap fun p =>
      (p.asker.filter s.asks).map fun w => { who := w, va := p.va, msg := p.msg, reply := .refused 5 } } }

/-- A thread's bundle has ended: the answers to its accesses go. -/
def State.dropAnswers (s : State) (t : Nat) : State :=
  { s with dev := { s.dev with answers := s.dev.answers.filter fun a =>
      match a.who with
      | .thread n _ | .fetch n _ | .lod n _ => decide (n ≠ t)
      | _ => true } }

/-- An asker is gone, and another takes its name: its answers go, and what is on its way for it is no longer awaited. -/
def State.forget (s : State) (w : Asker) : State :=
  { s with
    dev := { s.dev with answers := s.dev.answers.filter fun a => decide (a.who ≠ w) }
    eps := s.eps.map fun (k, (e : Endpoint)) =>
      (k, { e with pkts := e.pkts.map fun p => if p.asker = some w then { p with asker := none } else p }) }

/-- A step of the device is over: an asker that asks for nothing more is done with the answers it has found; what no
one asks for any more goes. -/
def State.settled (s : State) : State :=
  { s with dev := { s.dev with
      answers := s.dev.answers.filter fun a => s.asks a.who && !(s.dev.found.contains (a.who, a.msg) && !s.dev.asking.contains a.who)
      found := []
      asking := [] } }

/-! ### Messages on the mesh (01_machine R20) -/

/-- Number the thread's next message takes. -/
def State.nextNum (s : State) : Nat := s.cur.remSent + 1

/-- Send a message to a core; a kind a FENCE waits for is noted at the thread (07_memory R154). -/
def State.send (s : State) (tgt : Nat) (body : Load) (fenced : Bool) (rel : Nat := 0) : State :=
  let t := s.iss.thr
  let th := s.thread t
  let num := th.remSent + 1
  let m : Msg := { owner := s.owner t s.iss.b.pc, src := coreOf t, tgt := tgt, num := num, body := body, rel := rel }
  let s := s.setThread t { th with remSent := num, remOut := if fenced then th.remOut ++ [num] else th.remOut }
  { s with net := s.net ++ [m] }

/-- The first message from one core to another that `p` picks of those that are the oldest of their VF, each of which
has a channel of its own (24_device R392), and the others; `past`: VFs whose oldest has been passed over. -/
def takeMsg (src tgt : Nat) (p : Msg → Bool) : List Nat → List Msg → Option (Msg × List Msg)
  | _, [] => none
  | past, m :: r =>
    let mine := decide (m.src = src ∧ m.tgt = tgt)
    if mine && !past.contains m.owner.vf && p m then some (m, r)
    else
      match takeMsg src tgt p (if mine then m.owner.vf :: past else past) r with
      | some (q, r) => some (q, m :: r)
      | none => none

/-- Is traffic of a VF from a core to another on its way there? What the core sends after it arrives after it (R20,
24_device R392). -/
def State.meshBusy (s : State) (vf src tgt : Nat) : Bool :=
  decide (src ≠ tgt) && s.net.any fun m => decide (m.src = src) && decide (m.tgt = tgt) && decide (m.owner.vf = vf)

/-- Does a message store at its target, or add there? -/
def Load.stores : Load → Bool
  | .rst _ _ _ | .radd _ _ _ => true
  | _ => false

/-- Is a store to a local store that the issuer made before an engine's request still on its way (11_engines R212, 10_matrix
R190)? DESIGN CHOICE (entry 45): one of a handler to its own core, which waits for that handler to end (07_memory R156), is not
waited for, so that a queue drains without the handler (R217). -/
def State.storesOut (s : State) (o : Owner) : Bool :=
  s.net.any fun m => m.body.stores && decide (m.owner.thr = o.thr) && decide (m.owner.inc = o.inc) && decide (m.num ≤ o.sent) &&
    !(decide (slotOf o.thr = 7) && decide (m.tgt = coreOf o.thr))

/-- May a message be performed: where it releases, those its thread sent before it are (07_memory R143, 08_barrier
R165)? -/
def Msg.cleared (m : Msg) (net : List Msg) : Bool :=
  !(net.any fun x => decide (0 < x.num) && decide (x.num < m.rel) && decide (x.owner.thr = m.owner.thr) &&
    decide (x.owner.inc = m.owner.inc))

/-- A message that `p` picks at its target, while no handler runs there and its sender is not holding it (R156, R15). -/
def State.onMsg (s : State) (src tgt : Nat) (p : Msg → Bool) (k : Msg → State → State) : State :=
  match takeMsg src tgt (fun m => p m && !m.held && m.cleared s.net) [] s.net with
  | none => s
  | some (m, rest) => if s.isFree (tgt * 8 + 7) then k m { s with net := rest } else s

/-- A privileged bundle: PRIV reason 1 in user mode (17_context R302). -/
def State.system (s : State) (k : State) : State := if s.cur.sysMode then k else s.trap (privErr 1)

end Sys2Proof.Machine
end

