-- ==== Sys2Proof/Machine/Xlate.lean ====
section
/-! DEFINITION. Translation, the TLBs, the L1 cache and the accesses to device memory (12_page R221-R231,
07_memory R139, R142, R159). -/

namespace Sys2Proof.Machine

open Sys2Proof

/-! ### The walk -/

/-- The class of a page table entry (R224, R225). -/
inductive Pte where
  | table (base : Nat)
  | present | cow | absent | compressed
  | invalid
  | malformed
  deriving DecidableEq, Repr

/-- Low bits of PPN that a leaf of the level must have zero. -/
def ppnAlign (lvl : Nat) : Nat := 2 ^ (12 * lvl)

/-- The class of an entry of a level. DESIGN CHOICE (entry 46): a V = 1 leaf of another node whose compressed or COW bit is set
is COMPRESSED or COW by that bit. -/
def State.classify (s : State) (lvl : Nat) (e : W64) : Pte :=
  let n := e.toNat
  let v := e.getLsbD 0
  let r := e.getLsbD 1
  let w := e.getLsbD 2
  let x := e.getLsbD 3
  let cow := e.getLsbD 6
  let node := bits n 21 10
  let ppn := bits n 61 22
  let any := r || w || x
  if !v && !any then .invalid
  else if v && !any then
    if bits n 9 4 = 0 ∧ node = s.dev.node ∧ ppn % 8 = 0 ∧ bits n 61 50 = 0 ∧ 1 ≤ lvl ∧ ppn * 4096 + 32768 ≤ Config.memBytes then
      .table (ppn * 4096)
    else .malformed
  else if 2 < lvl then .malformed
  else if (w && !r) ∨ (cow && (w || !r)) ∨ bits n 9 8 = 3 ∨ bits n 61 50 ≠ 0 ∨ ppn % ppnAlign lvl ≠ 0 ∨
      (node = s.dev.node ∧ Config.memBytes < ppn * 4096 + 4096 * ppnAlign lvl) then .malformed
  else if !v then .absent
  else if e.getLsbD 7 then .compressed
  else if cow then .cow
  else .present

/-- The kinds of access, as a fault record numbers them (R236). -/
inductive Kind where
  | load | store | fetch | atomic
  deriving DecidableEq, Repr

def Kind.code : Kind → Nat
  | .load => 0 | .store => 1 | .fetch => 2 | .atomic => 3

/-- What a walk finds: a leaf with its class, level and place, an ADDR reason, or an entry that carries poison (24_device
R386). -/
inductive Walked where
  | leaf (cls : Pte) (e : W64) (lvl pte : Nat)
  | hard (reason : Nat)
  | ecc
  deriving DecidableEq, Repr

/-- The walk from a table of level `lvl` (R226). -/
def State.walkFrom (s : State) (va : Nat) : Nat → Nat → Walked
  | 0, _ => .hard 3
  | n + 1, t =>
    let pte := t + 8 * (va / 2 ^ (12 * n + 12) % 4096)
    let e : W64 := BitVec.ofNat 64 (s.memRead pte 8)
    if s.memPoisoned pte 8 then .ecc
    else
    match s.classify n e with
    | .table base => s.walkFrom va n base
    | .invalid => .hard 1
    | .malformed => .hard 3
    | c => .leaf c e n pte

/-- The walk of a context (R222, R226); every table lies in the device's own memory. -/
def State.walk (s : State) (ctx va : Nat) : Walked :=
  let root := bits (s.ctx ctx).ptroot.toNat 51 15 * 32768
  if root / 2 ^ 40 ≠ s.dev.node ∨ Config.memBytes < root % 2 ^ 40 + 32768 then .hard 3
  else s.walkFrom va 5 (root % 2 ^ 40)

/-- The outcome of a translation: node, local address and memory type, an ADDR reason, a soft cause, that the miss must
wait for a walker (R229), or that what an array holds of it carries poison: a TLB entry, or an entry of a page table, as
device memory does (24_device R386; entry 13). -/
inductive Xlat where
  | ok (node pa type : Nat)
  | hard (reason : Nat)
  | soft (cause : Nat)
  | busy
  | ecc (array : Nat)
  deriving DecidableEq, Repr

/-- Is the permission held (R227)? For a COW leaf R stands in for W; DESIGN CHOICE (entry 42): so it does on an ABSENT or
COMPRESSED leaf whose COW bit is 1. -/
def permitted (k : Kind) (e : W64) : Bool :=
  let r := e.getLsbD 1
  let w := e.getLsbD 2 || (e.getLsbD 6 && r)
  match k with
  | .load => r
  | .store => w
  | .atomic => r && w
  | .fetch => e.getLsbD 3

def pageBits (lvl : Nat) : Nat := 12 * lvl + 12

/-- Outcome of a leaf (R227). -/
def leafOutcome (k : Kind) (cls : Pte) (e : W64) (lvl va : Nat) : Xlat :=
  if !permitted k e then .hard 2
  else
    match cls with
    | .absent => .soft 1
    | .compressed => .soft 4
    | .cow =>
      if k = .store ∨ k = .atomic then .soft 2
      else .ok (bits e.toNat 21 10) (bits e.toNat 61 22 * 4096 + va % 2 ^ pageBits lvl) (bits e.toNat 9 8)
    | _ => .ok (bits e.toNat 21 10) (bits e.toNat 61 22 * 4096 + va % 2 ^ pageBits lvl) (bits e.toNat 9 8)

/-! ### TLBs -/

def TlbEnt.covers (t : TlbEnt) (ctx va : Nat) : Bool :=
  decide (t.ctx = ctx) && decide (t.page = va / 2 ^ pageBits t.lvl)

/-- The atomic OR of an entry's gathered bits into its leaf, while node and PPN still match (R231). -/
def State.adWrite (s : State) (t : TlbEnt) : State :=
  let a := t.a && !t.aDone
  let d := t.d && !t.dDone
  if !a && !d then s
  else
    let e := s.memRead t.pte 8
    if bits e 61 10 = bits t.leaf.toNat 61 10 then
      let e := if a && bits e 4 4 = 0 then e + 16 else e
      let e := if d && bits e 5 5 = 0 then e + 32 else e
      { s.memPut t.pte 8 e with poison := s.poison }
    else s

def TlbEnt.written (t : TlbEnt) : TlbEnt := { t with aDone := t.aDone || t.a, dDone := t.dDone || t.d }

/-- The TLBs of the device: a core's two, and a cluster's. -/
def State.tlb (s : State) : TlbId → List TlbEnt
  | .data c => (s.core c).dtlb
  | .fetch c => (s.core c).itlb
  | .second k => (s.clu k).tlb
def State.setTlb (s : State) (id : TlbId) (l : List TlbEnt) : State :=
  match id with
  | .data c => s.setCore c { s.core c with dtlb := l }
  | .fetch c => s.setCore c { s.core c with itlb := l }
  | .second k => s.setClu k { s.clu k with tlb := l }
def tlbSize : TlbId → Nat
  | .data _ => 128 | .fetch _ => 64 | .second _ => 4096

/-- What an entry is known by in its array (24_device R388). -/
def TlbEnt.key (t : TlbEnt) : Nat := (t.page * 8 + t.lvl) * 256 + t.ctx

/-- A TLB is written: what that does to injection and to poison in it (24_device R386, R388). -/
def State.tlbWrote (s : State) (id : TlbId) (key : Nat) : State :=
  let hit := fun (x : Nat) => decide (x = key)
  match id with
  | .data c => s.setCore c ((s.core c).wrote 3 hit key)
  | .fetch c => s.setCore c ((s.core c).wrote 4 hit key)
  | .second k => s.setClu k { s.clu k with bad := (s.clu k).bad.filter fun x => !hit x }

/-- Fill an entry; the oldest goes when the TLB is full, its bits written back (entry 5). -/
def State.tlbFill (s : State) (id : TlbId) (t : TlbEnt) : State :=
  let s := s.tlbWrote id t.key
  let l := s.tlb id
  if l.length < tlbSize id then s.setTlb id (l ++ [t])
  else
    match l with
    | [] => s.setTlb id [t]
    | old :: rest => (s.adWrite old).setTlb id (rest ++ [t])

/-- Gather A, and D for writes, in the entry an access went through (R231). -/
def State.gather (s : State) (id : TlbId) (ctx va : Nat) (d : Bool) : State :=
  s.setTlb id ((s.tlb id).map fun t =>
    if t.covers ctx va then { t with a := true, d := t.d || d, since := if t.a then t.since else s.cycle } else t)

/-- Must a miss wait: a walker walks its page already, or the eight walk other pages (R229; entry 5)? -/
def Cluster.walkBusy (x : Cluster) (ctx va : Nat) : Bool :=
  let pages := (x.walks.map fun w => (w.ctx, w.va / 4096)).eraseDups
  pages.contains (ctx, va / 4096) || decide (8 ≤ pages.length)

/-- Translate for an access of a core (R227-R229): its own TLB, then the cluster's, then a walk; PRESENT and COW
leaves are filled. -/
def State.xlate (s : State) (core ctx : Nat) (k : Kind) (va : Nat) : State × Xlat :=
  let id := if k = .fetch then TlbId.fetch core else .data core
  let second := TlbId.second (core / 8)
  let answer := fun (s : State) (cls : Pte) (e : W64) (lvl : Nat) =>
    match leafOutcome k cls e lvl va with
    | .ok node pa ty => (s.gather id ctx va (decide (k = .store ∨ k = .atomic)), Xlat.ok node pa ty)
    | x => (s, x)
  match (s.tlb id).find? (·.covers ctx va) with
  | some t =>
    let array := if k = .fetch then 4 else 3
    let s := s.arrayTouch core array (fun x => decide (x = t.key)) ctx
    if (s.core core).bad.contains (array, t.key) then (s, .ecc array)
    else answer s (if t.leaf.getLsbD 6 then .cow else .present) t.leaf t.lvl
  | none =>
    match (s.tlb second).find? (·.covers ctx va) with
    | some t =>
      if (s.clu (core / 8)).bad.contains t.key then
        let (v, s) := s.takeFree
        (s, .ecc (v.toNat % 256))
      else
      let fresh := { t with a := false, d := false, aDone := false, dDone := false, since := s.cycle }
      answer (s.tlbFill id fresh) (if t.leaf.getLsbD 6 then .cow else .present) t.leaf t.lvl
    | none =>
      if (s.clu (core / 8)).walkBusy ctx va then (s, .busy)
      else
      match s.walk ctx va with
      | .hard r => (s, .hard r)
      | .ecc => (s, .ecc 1)
      | .leaf cls e lvl pte =>
        if cls = .present ∨ cls = .cow then
          let t : TlbEnt := { ctx := ctx, lvl := lvl, page := va / 2 ^ pageBits lvl, leaf := e, pte := pte, since := s.cycle }
          answer ((s.tlbFill second t).tlbFill id t) cls e lvl
        else answer s cls e lvl

/-- The translation of an engine or of the command path: a walk, its A and D ORed into the leaf at once. -/
def State.xlateDev (s : State) (ctx : Nat) (k : Kind) (va : Nat) : State × Xlat :=
  match s.walk ctx va with
  | .hard r => (s, .hard r)
  | .ecc => (s, .ecc 1)
  | .leaf cls e lvl pte =>
    match leafOutcome k cls e lvl va with
    | .ok node pa ty =>
      (s.adWrite { ctx := ctx, lvl := lvl, page := 0, leaf := e, pte := pte, a := true,
                   d := decide (k = .store ∨ k = .atomic) }, .ok node pa ty)
    | x => (s, x)

/-! ### The L1 -/

/-- A line comes into a core's L1 with a reply of its home slice, after all the slice sent before (07_memory R139); poison
comes with it (24_device R386). -/
def State.l1Fill (s : State) (core base : Nat) : State :=
  let c := (s.core core).acceptAll (sliceOf base)
  if c.l1.any fun e => decide (e.addr = base) then s.setCore core c
  else
    let kept := if c.l1.length < 1024 then c.l1 else c.l1.drop 1
    let c := c.wrote 1 (fun x => decide (x / 64 * 64 = base)) base
    let bad := (((List.range 8).map fun i => base + 8 * i).filter fun d => s.memPoisoned d 8).map fun d => (1, d)
    s.setCore core { c with bad := c.bad ++ bad, l1 := kept ++ [{ addr := base, data := BitVec.ofNat 512 (s.memRead base 64) }] }

/-- A prefetch brings a line into L1, if a TLB of the core or its cluster translates it to a normal page here (R147). -/
def State.prefetchLine (s : State) (core ctx va : Nat) : State :=
  match ((s.core core).dtlb ++ (s.clu (core / 8)).tlb).find? (·.covers ctx va) with
  | none => s
  | some t =>
    match leafOutcome .load (if t.leaf.getLsbD 6 then .cow else .present) t.leaf t.lvl va with
    | .ok node pa ty => if node = s.dev.node ∧ ty = 0 then s.l1Fill core (pa / 64 * 64) else s
    | _ => s

/-- Bytes of a line from an address on. -/
def Line.bytes (e : Line) (pa n : Nat) : List (BitVec 8) :=
  (List.range n).map fun i => BitVec.ofNat 8 (e.data.toNat / 2 ^ (8 * (pa + i - e.addr)))

/-- Do bytes of a line in L1 that a thread's load has hit carry poison? A dword that a store of its own covers, still to be
acknowledged, does not. -/
def State.lineBad (s : State) (t pa n : Nat) : Bool :=
  let c := s.core (coreOf t)
  let covered := fun (d : Nat) => c.path.any fun x =>
    match x with
    | .ack e => decide (e.thr = t) && decide (e.inc = (s.thread t).inc) && coversDword e.addr e.bytes.length d
    | .inval _ _ => false
  c.bad.any fun x => decide (x.1 = 1) && touches pa n x.2 && !covered x.2

/-- An access of a thread to a home slice is performed at a moment; its later ones there come no earlier (R139, R143). -/
def State.performedAt (s : State) (t slice m : Nat) : State :=
  let th := s.thread t
  s.setThread t { th with seen := tset 0 th.seen slice m }

/-- A load is performed at its home slice, whose reply reaches the core of the thread. -/
def State.replied (s : State) (t pa : Nat) : State :=
  let core := coreOf t
  (s.setCore core ((s.core core).acceptAll (sliceOf pa))).performedAt t (sliceOf pa) s.moment

/-- The earliest moment at which a hit of a thread on a line of a slice may be performed: after every load its address
depends on, the thread's last acquire, and its earlier accesses to the slice (R139, R143). -/
def State.floor (s : State) (t slice : Nat) : Nat := max s.iss.dep (max (s.thread t).base (tget 0 (s.thread t).seen slice))

/-- The line of a core's L1 that a thread's load hits, its value that of a moment: none where a write to it performed by
then has not reached the core, but for the thread's own, which its store buffer holds (R139). -/
def State.l1Hit (s : State) (t pa m : Nat) : Option Line :=
  let c := s.core (coreOf t)
  let mine := FromSlice.ackOf t (s.thread t).inc
  if c.path.any fun x => decide (x.line = lineOf pa) && decide (x.moment ≤ m) && !mine x then none
  else
    match c.l1.find? fun e => decide (e.addr = lineOf pa) with
    | some e => ((c.path.filter mine).foldl acceptFrom [e]).head?
    | none => none

/-- A load of the device's own memory by a thread through its core's L1, within one line: a hit, counted as performed at
the earliest moment R139 allows, or a miss, which allocates the line of a normal page. -/
def State.loadOwn (s : State) (t pa n ty : Nat) : State × List (BitVec 8) :=
  let slice := sliceOf pa
  match if ty = 0 then s.l1Hit t pa (s.floor t slice) else none with
  | some e =>
    (((s.performedAt t slice (s.floor t slice))).arrayTouch (coreOf t) 1 (fun x => decide (lineOf x = lineOf pa)) (s.thread t).ctx,
     e.bytes pa n)
  | none => ((if ty = 0 then s.l1Fill (coreOf t) (lineOf pa) else s).replied t pa, s.memGet pa n)

/-- A store of a thread to the device's own memory: performed at the slice, which acknowledges it (STORE_ACK). -/
def State.storeOwn (s : State) (t pa : Nat) (bs : List (BitVec 8)) : State :=
  let core := coreOf t
  let th := s.thread t
  let s := s.memWrite (some core) pa bs
  let c := s.core core
  let e : StoreEnt := { thr := t, inc := th.inc, vf := th.vf, addr := pa, bytes := bs, moment := s.moment }
  (s.setCore core { c with path := c.path ++ [.ack e] }).performedAt t (sliceOf pa) s.moment

/-- A read-modify-write performed at the slice: the old bytes, and the new ones written where `f` answers some. -/
def State.rmwOwn (s : State) (t pa n : Nat) (f : Nat → Option Nat) : State × Nat :=
  let core := coreOf t
  let old := s.memRead pa n
  let s := s.replied t pa
  match f old with
  | none => (s, old)
  | some new =>
    let bs := toBytes n new
    let s := s.memWrite (some core) pa bs
    let c := s.core core
    ((s.setCore core { c.ackWrote pa n with l1 := ackLines c.l1 pa bs }).performedAt t (sliceOf pa) s.moment, old)

/-! ### Accesses of a thread -/

/-- What an access finds; `wait`: another device has not answered it yet (R376; entry 12). -/
inductive Got where
  | ok (bs : List (BitVec 8)) (err : Option Err)
  | hard (reason : Nat)
  | soft (cause : Nat)
  | busy
  | wait
  deriving DecidableEq, Repr

/-- ECC of a device-memory access: array 1, the L1 data array (24_device R386; entry 13). -/
def eccMem (va : Nat) : Err := { cause := 14, tval := BitVec.ofNat 64 va, high := BitVec.ofNat 64 (2 ^ 48) }
/-- ECC of a device-memory access whose translation, or whose instruction word, an array holds. -/
def eccAt (array va : Nat) : Err := { cause := 14, tval := BitVec.ofNat 64 va, high := BitVec.ofNat 64 (array * 2 ^ 48) }
/-- ECC of a local-store access: array 0. -/
def eccLocal (off : Nat) : Err := { cause := 14, tval := BitVec.ofNat 64 off }

/-- The OPEN endpoint on which accesses to another device travel (23_link R376). -/
def State.farEp (s : State) (node : Nat) : Option Nat := (tfind s.dev.nodes node).filter fun e => decide ((s.ep e).st = .opened)

/-- What an atomic asks of the peer: its code, operand and compare (23_link R377). -/
structure AmoReq where
  amo : Nat := 0
  operand : W64 := 0
  compare : W64 := 0
  deriving DecidableEq, Repr

/-- What an answer is to the access: data, that the page is absent there, or an error. -/
def gotOf (va n : Nat) : Reply → Got
  | .done bs => .ok bs none
  | .absent => .soft 3
  | .refused _ | .retry => .ok (List.replicate n 0) (some { cause := 15, tval := BitVec.ofNat 64 va })

/-- Note that an asker that is no thread in its turn has found an answer, or must wait for one. -/
def State.noteAsk (s : State) (w : Asker) (m : NetMsg) (found : Bool) : State :=
  match w with
  | .thread _ _ | .fetch _ _ | .lod _ _ => s
  | _ => { s with dev := if found then { s.dev with found := (w, m) :: s.dev.found } else { s.dev with asking := w :: s.dev.asking } }

/-- May a packet of `n` bytes go out on an endpoint now: every transfer issued there has sent all of its own, since ROD
places packets in the order of issue; and it fits the congestion window, or nothing is in flight (R364, R372)? -/
def State.mayAccess (s : State) (e n : Nat) : Bool :=
  (s.cores.all fun (_, c) => c.nq.all fun q => decide (q.ep ≠ e) || decide (bits q.desc.toNat 287 256 ≤ q.sent)) &&
    (decide ((s.ep e).inFlight = 0) || decide ((s.ep e).inFlight + n ≤ (s.ep e).window))

/-- What has become of an access that an asker has sent before, by its virtual address: answered, or still on its way. It keeps
the translation it was sent by (R242). -/
def State.sentBefore (s : State) (w : Asker) (op : HOp) (va n : Nat) (data : List (BitVec 8) := []) : Option (State × Got) :=
  match s.dev.answers.find? fun a =>
      decide (a.who = w) && decide (a.va = va) && decide (a.msg.op = op) && decide (a.msg.len = n) && decide (a.msg.data = data) with
  | some a => some (s.noteAsk w a.msg true, gotOf va n a.reply)
  | none =>
    let mine := fun (p : OutPkt) =>
      decide (p.asker = some w) && decide (p.va = va) && decide (p.msg.op = op) && decide (p.msg.len = n) && decide (p.msg.data = data)
    match s.eps.findSome? fun (_, e) => e.pkts.find? mine with
    | some p => some (s.noteAsk w p.msg false, .wait)
    | none => none

/-- An access of `n` bytes to another device (R159, 23_link R376): a packet on the endpoint the node table names, to the
physical address, sent once and awaited; the access is made again until its answer has come. An error where the table
names no endpoint that is OPEN (entry 12). -/
def State.remoteAccess (s : State) (w : Asker) (op : HOp) (node pa va n : Nat) (data : List (BitVec 8) := [])
    (r : AmoReq := {}) : State × Got :=
  let m : NetMsg := { op := op, remote := node * 2 ^ 40 + pa, len := n, data := data, amo := r.amo, operand := r.operand,
                      compare := r.compare }
  match s.answered w m with
  | some a => (s.noteAsk w m true, gotOf va n a)
  | none =>
    match s.farEp node with
    | none => (s, .ok (List.replicate n 0) (some { cause := 15, tval := BitVec.ofNat 64 va }))
    | some e =>
      let s := s.noteAsk w m false
      if ((s.ep e).pkts.any fun p => decide (p.asker = some w) && decide (p.msg = m)) || !s.mayAccess e n then (s, .wait)
      else (s.sendOwn e m (some w) va (some (s.askerCtx w)), .wait)

/-- A thread's bundle, its fetch and its level-of-detail load, as they access other devices. -/
def State.asker (s : State) (t : Nat) : Asker := .thread t (s.thread t).inc
def State.fetcher (s : State) (t : Nat) : Asker := .fetch t (s.thread t).inc
def State.lodAsker (s : State) (t : Nat) : Asker := .lod t (s.thread t).inc

/-- Make an access that has not been sent before. -/
def State.orSent (s : State) (w : Asker) (op : HOp) (va n : Nat) (k : State × Got) (data : List (BitVec 8) := []) : State × Got :=
  (s.sentBefore w op va n data).getD k

/-- A thread has accessed a page of another device: its next FENCE acts at DOMAIN (R159). -/
def State.wentFar (s : State) (t : Nat) : State := s.setThread t { s.thread t with far := true }

/-- A load of the device's own memory: its bytes, and the ECC error of poison in them, which stands in the line where it
hits (24_device R386). -/
def State.readOwn (s : State) (t pa va n ty : Nat) : State × List (BitVec 8) × Option Err :=
  let hit := decide (ty = 0) && (s.l1Hit t pa (s.floor t (sliceOf pa))).isSome
  let miss := s.memPoisoned pa n
  let (s, bs) := s.loadOwn t pa n ty
  (s, bs, if (if hit then s.lineBad t pa n else miss) then some (eccMem va) else none)

/-- A load of a thread. -/
def State.readAt (s : State) (t va n : Nat) : State × Got :=
  s.orSent (s.asker t) .get va n <|
  match s.xlate (coreOf t) (s.thread t).ctx .load va with
  | (s, .ok node pa ty) =>
    if node = s.dev.node then
      let (s, bs, err) := s.readOwn t pa va n ty
      (s, .ok bs err)
    else (s.wentFar t).remoteAccess (s.asker t) .get node pa va n
  | (s, .ecc a) => (s, .ok (List.replicate n 0) (some (eccAt a va)))
  | (s, .hard r) => (s, .hard r)
  | (s, .soft c) => (s, .soft c)
  | (s, .busy) => (s, .busy)

/-- A store of a thread. -/
def State.writeAt (s : State) (t va : Nat) (bs : List (BitVec 8)) : State × Got :=
  s.orSent (s.asker t) .put va bs.length (data := bs) <|
  match s.xlate (coreOf t) (s.thread t).ctx .store va with
  | (s, .ok node pa _) =>
    if node = s.dev.node then (s.storeOwn t pa bs, .ok [] none)
    else (s.wentFar t).remoteAccess (s.asker t) .put node pa va bs.length bs
  | (s, .ecc a) => (s, .ok [] (some (eccAt a va)))
  | (s, .hard r) => (s, .hard r)
  | (s, .soft c) => (s, .soft c)
  | (s, .busy) => (s, .busy)

/-- The place, with its node above it, that an asker's read was sent to. -/
def State.readPlace (s : State) (w : Asker) (va n : Nat) : Option Nat :=
  (s.dev.answers.find? fun a => decide (a.who = w) && decide (a.va = va) && decide (a.msg.op = HOp.get) && decide (a.msg.len = n)).map
    (·.msg.remote)

/-- An atomic of another device: of the operations Halyard has, one packet; of another, a read, and a write of the new
value where there is one, to the place that was read (entry 12). -/
def State.rmwFar (s : State) (w : Asker) (node pa va : Nat) (f : Nat → Option Nat) (req : Option AmoReq) : State × Got :=
  match req with
  | some r => s.remoteAccess w .amo node pa va 8 (r := r)
  | none =>
    match s.orSent w .get va 8 (s.remoteAccess w .get node pa va 8) with
    | (s, .ok bs none) =>
      match f (ofBytes bs) with
      | some new =>
        let at_ := (s.readPlace w va 8).getD (node * 2 ^ 40 + pa)
        match s.orSent w .put va 8 (data := toBytes 8 new) (s.remoteAccess w .put (at_ / 2 ^ 40) (at_ % 2 ^ 40) va 8 (toBytes 8 new)) with
        | (s, .ok _ err) => (s, .ok bs err)
        | x => x
      | none => (s, .ok bs none)
    | x => x

/-- Has a thread's bundle sent an atomic to another device: by its own packet, or as a read that a write follows? -/
def State.rmwSent (s : State) (t va : Nat) : Bool :=
  let w := s.asker t
  (s.dev.answers.any fun a => decide (a.who = w) && decide (a.va = va)) ||
    s.eps.any fun (_, e) => e.pkts.any fun p => decide (p.asker = some w) && decide (p.va = va)

/-- An atomic of a thread. -/
def State.rmwAt (s : State) (t va : Nat) (f : Nat → Option Nat) (req : Option AmoReq := none) : State × Got :=
  if s.rmwSent t va then
    match req with
    | some _ => s.orSent (s.asker t) .amo va 8 (s, .wait)
    | none => s.rmwFar (s.asker t) 0 0 va f none
  else
  match s.xlate (coreOf t) (s.thread t).ctx .atomic va with
  | (s, .ok node pa _) =>
    if node = s.dev.node then
      let bad := s.memPoisoned pa 8
      if bad then (s, .ok (s.memGet pa 8) (some (eccMem va)))
      else
        let (s, old) := s.rmwOwn t pa 8 f
        (s, .ok (toBytes 8 old) none)
    else ((s.flushL1 (coreOf t)).wentFar t).rmwFar (s.asker t) node pa va f req
  | (s, .ecc a) => (s, .ok (List.replicate 8 0) (some (eccAt a va)))
  | (s, .hard r) => (s, .hard r)
  | (s, .soft c) => (s, .soft c)
  | (s, .busy) => (s, .busy)

/-- A bundle whose access must wait is issued again. -/
def State.waitTurn (s : State) : State := { s with iss := { s.iss with turn := .walking } }

/-- The bundle being issued ends by what its access found: a hard fault, a soft fault, or `k` of the bytes. -/
def State.onGot (s : State) (g : Got) (kind : Kind) (va : Nat) (k : List (BitVec 8) → Option Err → State) : State :=
  match g with
  | .ok bs err => k bs err
  | .hard r => s.trap (addrErr va r)
  | .soft c => s.softFault c kind.code va
  | .busy => s.waitWalk s.curCore s.cur.ctx va
  | .wait => s.waitTurn

/-- Is the address on a page of another device, so that an access to it acts at DOMAIN (R159)? -/
def State.onFar (s : State) (k : Kind) (va : Nat) : Bool :=
  s.rmwSent s.iss.thr va ||
  match (s.xlate s.curCore s.cur.ctx k va).2 with
  | .ok node _ _ => decide (node ≠ s.dev.node)
  | _ => false

end Sys2Proof.Machine
end

