-- ==== Sys2Proof/Machine/Place.lean ====
section
/-! DEFINITION. An instruction placed where the next step fetches and runs it (entry 2): thread 0 of context 0, in an
identity mapping of the first 64 GiB, with core 0 to issue next. -/

namespace Sys2Proof.Machine

open Sys2Proof

/-- Where the words are placed. -/
def placedPc : Nat := 0x20000

/-- Little-endian bytes of words (00_scope R7). -/
def codeBytes : List (BitVec 16) → List (BitVec 8)
  | [] => []
  | w :: r => BitVec.ofNat 8 w.toNat :: BitVec.ofNat 8 (w.toNat / 256) :: codeBytes r

/-- The page tables of levels 4, 3 and 2 (12_page R222-R225): one leaf maps 64 GiB onto itself, readable, writable and
executable, with A and D set. -/
def State.withTables (s : State) : State :=
  let entry := fun (base : Nat) => base / 4096 * 2 ^ 22 + s.dev.node * 1024 + 1
  let s' := (s.memPut 0x8000 8 (entry 0x10000)).memPut 0x10000 8 (entry 0x18000)
  s'.memPut 0x18000 8 (s.dev.node * 1024 + 0x3F)

/-- The words stored, with words of zeros up to the longest bundle. -/
def State.withWords (s : State) (ws : List (BitVec 16)) : State :=
  s.memWrite none placedPc (codeBytes (ws ++ List.replicate (5 - ws.length) 0))

/-- Context 0 live, with those tables. -/
def State.withContext (s : State) : State :=
  s.setCtx 0 { s.ctx 0 with st := .live, sysok := true, ptroot := BitVec.ofNat 64 (0x8000 + s.dev.node * 2 ^ 40) }

/-- Thread 0 ready to issue, in system mode if it starts here, with nothing that could hold it back. -/
def State.withThread (s : State) : State :=
  let th := s.thread 0
  let s := s.setThread 0 { th with
    st := .runnable, pc := BitVec.ofNat 64 placedPc, past := false, ctx := 0,
    tstate := if th.st = .free then 4 else th.tstate,
    wait := none, sleepEnd := none, yieldEnd := 0, pend := [], gang := none, grp := none, hand := none, poison := none,
    remOut := [] }
  let s := s.setCore 0 { s.core 0 with itlb := [], icache := [], issued := none, slotIssue := [] }
  s.setClu 0 { s.clu 0 with tlb := [], walks := [] }

end Sys2Proof.Machine
end

