-- ==== Sys2Proof/Machine/Save.lean ====
section
/-! DEFINITION. What pre-emption saves of a group and where: the thread image, the save area's layout, which groups are
to be saved, and what happens to a saved thread while it is saved (16_group R295, 17_context R308, R310). -/

namespace Sys2Proof.Machine

open Sys2Proof

def Thread.timeIssued (th : Thread) (c : Nat) : Nat := tget 0 th.issued c

/-- The done counter: one below the lowest number outstanding, or all that was issued. -/
def Thread.timeDone (th : Thread) (c : Nat) : Nat :=
  match th.ops.find? fun o => decide (o.cls = c) && !o.complete with
  | some o => o.num - 1
  | none => th.timeIssued c

/-- Cores a group alone holds (16_group R295 step 1). -/
def State.soleCores (s : State) (ser g : Nat) (grp : Group) : List Nat :=
  grp.cores.filter fun core =>
    (List.range 7).all fun k =>
      match (s.thread (core * 8 + k)).grp with
      | some x => decide (x = (ser, g))
      | none => true

/-- Number little-endian from fields of given widths in bytes. -/
def layout : List (Nat × Nat) → Nat
  | [] => 0
  | (n, v) :: r => v % 2 ^ (8 * n) + 2 ^ (8 * n) * layout r

/-- Does it wait for an entry of the matrix queue, an ACCRD or a NETEVAL? -/
def Pend.unstarted (p : Pend) : Bool :=
  match p.due with
  | .entry _ => p.err.isNone
  | _ => false

/-- The status dword of a thread image (R310); `waiting`: its pc names a waiting bundle to reissue. -/
def Thread.status (th : Thread) (waiting : Bool) : Nat :=
  (match th.st with | .free => 0 | .dropped => 4 | _ => 1) + (if th.wakePend then 8 else 0) +
    (if th.st = .dropped then 16 else 0) + (if waiting then 256 else 0) +
    (((th.pend.filter Pend.unstarted).map fun p =>
      (p.dests.map fun d => match d with | .v n => 2 ^ n.toNat | _ => 0).sum).sum % 2 ^ 32) * 2 ^ 32

/-- Issued and done counters of classes 0 to 4, as a thread image holds them. -/
def Thread.counters (th : Thread) : Nat :=
  layout ((List.range 5).map fun c => [(8, th.timeIssued c), (8, th.timeDone c)]).flatten

/-- A thread image (R310); `waiting`: its pc names a waiting bundle to reissue. -/
def threadImage (th : Thread) (waiting : Bool) : Nat :=
  let bank : Bank → List (Nat × Nat) := fun b => [(8, b.tvec.toNat), (8, b.tcause.toNat), (8, b.tepc.toNat), (8, b.tval.toNat), (8, b.tword.toNat), (8, b.twordh.toNat)]
  layout (
    ((List.range 32).map fun i => (8, if 30 ≤ i then 0 else (th.readS (BitVec.ofNat 5 i)).toNat)) ++
    ((List.range 16).map fun i => (16, (th.readA (BitVec.ofNat 4 i)).toNat)) ++
    ((List.range 32).map fun i => (64, (th.readV (BitVec.ofNat 5 i)).toNat)) ++
    ((List.range 8).map fun i => (8, (th.readM (BitVec.ofNat 3 i)).toNat)) ++
    [(8, th.pc.toNat), (8, th.tstate.toNat), (8, th.tscratch.toNat), (8, th.fsel.toNat), (8, th.fflags.toNat), (8, th.status waiting)] ++
    bank th.bank1 ++ bank th.bank2 ++ [(80, th.counters)])

/-- Offsets of a group's save area (R308): matrix images, regions, links, spawn queues, end. -/
def saveOffsets (k : Kernel) (grp : Group) : Nat × Nat × Nat × Nat × Nat :=
  let m := (0x100 + 3072 * (grp.slots.map List.length).sum + 255) / 256 * 256
  let r := m + 41728 * grp.save.mcores.length
  let l := r + k.b * grp.slots.length
  let q := l + 256 * (k.w * (k.p - 1))
  (m, r, l, q, q + 256 * grp.slots.length)

/-- Areas of a context's pool that are free. -/
def Ctx.freeAreas (c : Ctx) : Nat := c.saveCount - c.areas.length

/-- Does the group's layout fit an area of its context (R308)? -/
def State.saveFits (s : State) (ser g : Nat) (grp : Group) : Bool :=
  let k := s.kernel ser
  let (_, _, _, _, size) := saveOffsets k { grp with save := { grp.save with mcores := s.soleCores ser g grp } }
  decide (size ≤ (s.ctx k.ctx).saveSize * 4096)

/-- A free save area that the group's layout fits (R308). -/
def State.saveArea (s : State) (ser g : Nat) (grp : Group) : Option Nat :=
  let c := s.ctx (s.kernel ser).ctx
  if s.saveFits ser g grp then (List.range (min c.saveCount (c.areas.length + 1))).find? fun a => !c.areas.contains a
  else none

/-- The area a group is saved to: the one reserved as its dispatcher chose it, or a free one; none where its layout does
not fit. -/
def State.areaFor (s : State) (ser g : Nat) (grp : Group) : Option Nat :=
  if grp.saving then (if s.saveFits ser g grp then some grp.save.area else none) else s.saveArea ser g grp

/-- Is a group to be saved: chosen by its dispatcher, an area reserved for it; or its context is being suspended, its
layout fits an area, and an area is free for it after the groups of lower serial and index (16_group R295, 17_context
R300, R308)? -/
def State.toBeSaved (s : State) (ser g : Nat) (grp : Group) : Bool :=
  let c := (s.kernel ser).ctx
  let earlier := s.groups.filter fun (key, x) =>
    decide (key < groupKey ser g) && decide ((s.kernel (key / 33554432)).ctx = c) && decide (x.st = .placed) &&
      !x.saving && s.saveFits (key / 33554432) (key % 33554432) x
  decide (grp.st = .placed) &&
    (grp.saving || ((s.ctx c).suspending.isSome && s.saveFits ser g grp && decide (earlier.length < (s.ctx c).freeAreas)))

/-- Is the thread's group being saved (16_group R295)? -/
def State.saving (s : State) (th : Thread) : Bool :=
  match th.grp with
  | some (ser, g) =>
    match s.group? ser g with
    | some grp => s.toBeSaved ser g grp
    | none => false
  | none => false

/-- Is a result for s31 due, and the link full whose receiver may issue no more? -/
def State.stuckPush (s : State) (t : Nat) (p : Pend) : Bool :=
  (p.vals.any fun e => decide (e.1 = Reg.s 31)) &&
    match s.downLink t with
    | some l => decide (16 ≤ l.vals.length)
    | none => false

/-- A member of a gang that is being saved and issues nothing more: it waits or has been dropped, its core's matrix queue
is frozen, or a full link holds up a result that its bundles may have to wait for (03_thread R65). -/
def State.stuckSaving (s : State) (t : Nat) : Bool :=
  let th := s.thread t
  s.saving th && (decide (th.st ≠ .runnable) || (s.core (coreOf t)).mqFrozen || th.pend.any (s.stuckPush t))

/-! ### A thread while it is saved -/

/-- The saved thread of a number in a context, with its group's key. -/
def State.savedAt (s : State) (ctx t : Nat) : Option (Nat × Thread) :=
  s.groups.findSome? fun (key, g) =>
    if g.st = .saved ∧ (s.kernel (key / 33554432)).ctx = ctx then
      (g.save.threads.find? fun e => decide (e.1 = t) && decide (e.2.st ≠ .free)).map fun e => (key, e.2)
    else none

/-- Place of a saved thread's image: its group's held slots are imaged in order of group core, then slot (R308). -/
def State.imageAddr (s : State) (key : Nat) (g : Group) (t : Nat) : Nat :=
  let c := s.ctx (s.kernel (key / 33554432)).ctx
  c.pool % 2 ^ 40 + g.save.area * c.saveSize * 4096 + 0x100 + 3072 * g.threads.findIdx (fun x => decide (x = t))

/-- A saved thread changes, and with it the flags, the status dword and the counters of its image, which programs may
read (R310). -/
def State.changeSaved (s : State) (key t : Nat) (f : Thread → Thread) : State :=
  match tfind s.groups key with
  | none => s
  | some g =>
    match g.save.threads.find? fun e => decide (e.1 = t) with
    | none => s
    | some (_, th) =>
      let th := f th
      let g := { g with save := { g.save with threads := g.save.threads.map fun e => if e.1 = t then (t, th) else e } }
      let a := s.imageAddr key g t
      let s := { s with groups := tput s.groups key g }
      let s := s.memPut (a + 0xA60) 8 th.fflags.toNat
      (s.memPut (a + 0xA68) 8 (th.status (g.save.waiting.contains t))).memPut (a + 0xAD0) 80 th.counters

/-- A saved thread ends: its save is discarded (03_thread R53); its group goes on holding the slot. -/
def State.dropSaved (s : State) (key t : Nat) : State :=
  let s := s.changeSaved key t fun th => { grp := th.grp }
  match tfind s.groups key with
  | none => s
  | some g => { s with groups := tput s.groups key { g with save := { g.save with aborted := true } } }

end Sys2Proof.Machine
end

