-- ==== Sys2Proof/Machine/Memory.lean ====
section
/-! DEFINITION. Memory, local stores, atomics, fences, remote local stores and active messages (07_memory R139-R159). -/

namespace Sys2Proof.Machine

open Sys2Proof

/-! ### Device memory -/

/-- The effective address (R145). -/
def effAddr (base : VAddr) (i : Imm) (z : Nat) : VAddr := base + i.signExtend 72 * BitVec.ofNat 72 z

def misalign (va : VAddr) : Err := { cause := 4, tval := va.setWidth 64 }

/-- An acquire or a fence of loads at CLUSTER or wider empties the L1 (R139). -/
def State.acquire (s : State) (scope : Nat) : State := if 1 ≤ scope then s.flushL1 s.curCore else s

/-- A load of `z` bytes into s_d, its value formed by `conv` (R145). -/
def load (z : Nat) (conv : Nat → W64) (d : SReg) (a : AReg) (x : BitVec 3) (i : Imm) (s : State) : State :=
  s.withOps [] (some d) (late := true) fun _ =>
    let ea := effAddr (s.cur.readA a) i z
    if ea.toNat % z ≠ 0 then s.trap (misalign ea)
    else
      let (s, g) := (s.acquire x.toNat).readAt s.iss.thr ea.toNat z
      s.onGot g .load ea.toNat fun bs err =>
        s.commit [] [.s d] [(.s d, (conv (ofBytes bs)).setWidth 512)] (.ready s.cycle) err (mem := true)

/-- A store completes; an error another device answers is raised at the thread's next bundle (R159, R61). -/
def State.stored (s : State) (srcs : List SReg) (err : Option Err) : State :=
  match err with
  | none => s.retire srcs
  | some _ => s.commit srcs [] [] (.ready s.cycle) err (mem := true)

/-- An access that releases when its annotation says so (R143, R145). -/
def State.ordered (s : State) (x : BitVec 3) (k : State → State) : State := if x = 0#3 then k s else s.release k

/-- A store of the low `z` bytes of s_d (R145). -/
def store (z : Nat) (d : SReg) (a : AReg) (x : BitVec 3) (i : Imm) (s : State) : State :=
  s.withOps [d] none fun r =>
    let ea := effAddr (s.cur.readA a) i z
    if ea.toNat % z ≠ 0 then s.trap (misalign ea)
    else
      s.ordered x fun s =>
        let (s, g) := s.writeAt s.iss.thr ea.toNat (toBytes z (r d).toNat)
        s.onGot g .store ea.toNat fun _ err => s.stored [d] err

/-- LDB (R145). -/
def execLdb (d : SReg) (a : AReg) (x : BitVec 3) (i : Imm) (s : State) : Out := .next (load 1 (sext 8) d a x i s)

/-- LDBZ (R145). -/
def execLdbz (d : SReg) (a : AReg) (x : BitVec 3) (i : Imm) (s : State) : Out := .next (load 1 (BitVec.ofNat 64) d a x i s)

/-- LDH (R145). -/
def execLdh (d : SReg) (a : AReg) (x : BitVec 3) (i : Imm) (s : State) : Out := .next (load 2 (sext 16) d a x i s)

/-- LDHZ (R145). -/
def execLdhz (d : SReg) (a : AReg) (x : BitVec 3) (i : Imm) (s : State) : Out := .next (load 2 (BitVec.ofNat 64) d a x i s)

/-- LDW (R145). -/
def execLdw (d : SReg) (a : AReg) (x : BitVec 3) (i : Imm) (s : State) : Out := .next (load 4 (sext 32) d a x i s)

/-- LDWZ (R145). -/
def execLdwz (d : SReg) (a : AReg) (x : BitVec 3) (i : Imm) (s : State) : Out := .next (load 4 (BitVec.ofNat 64) d a x i s)

/-- LDD (R145). -/
def execLdd (d : SReg) (a : AReg) (x : BitVec 3) (i : Imm) (s : State) : Out := .next (load 8 (BitVec.ofNat 64) d a x i s)

/-- STB (R145). -/
def execStb (d : SReg) (a : AReg) (x : BitVec 3) (i : Imm) (s : State) : Out := .next (store 1 d a x i s)

/-- STH (R145). -/
def execSth (d : SReg) (a : AReg) (x : BitVec 3) (i : Imm) (s : State) : Out := .next (store 2 d a x i s)

/-- STW (R145). -/
def execStw (d : SReg) (a : AReg) (x : BitVec 3) (i : Imm) (s : State) : Out := .next (store 4 d a x i s)

/-- STD (R145). -/
def execStd (d : SReg) (a : AReg) (x : BitVec 3) (i : Imm) (s : State) : Out := .next (store 8 d a x i s)

/-- LDA: bytes [8:0] of a 16-byte slot (R146). -/
def execLda (d a : AReg) (x : BitVec 3) (i : Imm) (s : State) : Out :=
  .next (
    let ea := effAddr (s.cur.readA a) i 16
    if ea.toNat % 16 ≠ 0 then s.trap (misalign ea)
    else
      let (s, g) := (s.acquire x.toNat).readAt s.iss.thr ea.toNat 16
      s.onGot g .load ea.toNat fun bs err =>
        s.commit [] [.a d] [(.a d, BitVec.ofNat 512 (ofBytes (bs.take 9)))] (.ready s.cycle) err (mem := true))

/-- STA: the pointer in bytes [8:0], zero in [15:9], one 16-byte write (R146). -/
def execSta (d a : AReg) (x : BitVec 3) (i : Imm) (s : State) : Out :=
  .next (
    let ea := effAddr (s.cur.readA a) i 16
    if ea.toNat % 16 ≠ 0 then s.trap (misalign ea)
    else
      s.ordered x fun s =>
        let (s, g) := s.writeAt s.iss.thr ea.toNat (toBytes 16 (s.cur.readA d).toNat)
        s.onGot g .store ea.toNat fun _ err => s.stored [] err)

/-- PREF: a hint that never traps; the line comes into L1, once a walker has found a translation both TLBs miss (R147,
R229). -/
def execPref (a : AReg) (i : Imm) (s : State) : Out :=
  .next (
    let ea := (effAddr (s.cur.readA a) i 64).toNat
    let c := s.cur.ctx
    let clu := cluOf s.iss.thr
    let x := s.clu clu
    if (s.core s.curCore).dtlb.any (·.covers c ea) ∨ x.tlb.any (·.covers c ea) then (s.prefetchLine s.curCore c ea).done
    else
      (s.setClu clu { x with walks := x.walks ++ [{ core := s.curCore, ctx := c, va := ea, shoot := s.dev.shoot }] }).done)

/-! ### Own local store (R148, R150) -/

def widthBytes (w : BitVec 2) : Nat := 2 ^ w.toNat

/-- LDL. -/
def execLdl (w : BitVec 2) (d a : SReg) (x : BitVec 3) (s : State) : Out :=
  .next (s.withOps [a] (some d) (late := true) fun r =>
    let z := widthBytes w
    match localCheck (r a) z z Config.localBytes with
    | some e => s.trap e
    | none =>
      let s := s.acquire x.toNat
      let o := (r a).toNat
      let s := s.lsTouch s.curCore o z s.cur.ctx
      let err := if s.lsPoisoned s.curCore o z then some (eccLocal o) else none
      s.commit [a] [.s d] [(.s d, BitVec.ofNat 512 (s.lsRead s.curCore o z))] (.ready s.cycle) err)

/-- STL. -/
def execStl (w : BitVec 2) (d a : SReg) (x : BitVec 3) (s : State) : Out :=
  .next (s.withOps [d, a] none fun r =>
    let z := widthBytes w
    match localCheck (r a) z z Config.localBytes with
    | some e => s.trap e
    | none => s.ordered x fun s => (s.lsWrite s.curCore (r a).toNat (toBytes z (r d).toNat)).retire [d, a])

/-! ### Atomics -/

/-- An atomic at CLUSTER or wider is an acquire and a release; at CORE it is so among the slots of the core, to which
its thread's stores become visible (R149, R150). -/
def State.atomically (s : State) (scope : Nat) (k : State → State) : State :=
  if scope = 0 then k ((s.ackAll s.iss.thr).fromNow s.iss.thr) else s.release fun s => k (s.acquire scope)

/-- An atomic of device memory: `f old` is the new dword, none for no write; on a page of another device its scope is
DOMAIN, and `req` what Halyard is asked (R149, R159). -/
def amo (d : SReg) (a : AReg) (srcs : List SReg) (x : BitVec 3) (f : (SReg → W64) → W64 → Option W64) (s : State)
    (req : (SReg → W64) → Option AmoReq := fun _ => none) : State :=
  s.withOps srcs (some d) (late := true) fun r =>
    let ea := s.cur.readA a
    if ea.toNat % 8 ≠ 0 then s.trap (misalign ea)
    else
      s.atomically (if s.onFar .atomic ea.toNat then 4 else x.toNat) fun s =>
        let (s, g) := s.rmwAt s.iss.thr ea.toNat (fun old => (f r (BitVec.ofNat 64 old)).map (·.toNat)) (req r)
        s.onGot g .atomic ea.toNat fun bs err =>
          s.commit srcs [.s d] [(.s d, BitVec.ofNat 512 (ofBytes bs))] (.ready s.cycle) err (mem := true)

/-- An atomic of the own local store (R150). -/
def amoLocal (d a : SReg) (srcs : List SReg) (x : BitVec 3) (f : (SReg → W64) → W64 → Option W64) (s : State) : State :=
  s.withOps srcs (some d) (late := true) fun r =>
    match localCheck (r a) 8 8 Config.localBytes with
    | some e => s.trap e
    | none =>
      s.atomically x.toNat fun s =>
        let o := (r a).toNat
        let s := s.lsTouch s.curCore o 8 s.cur.ctx
        let old := BitVec.ofNat 64 (s.lsRead s.curCore o 8)
        if s.lsPoisoned s.curCore o 8 then
          s.commit srcs [.s d] [(.s d, old.setWidth 512)] (.ready s.cycle) (some (eccLocal o))
        else
          let s := match f r old with
            | some v => s.lsWrite s.curCore o (toBytes 8 v.toNat)
            | none => s
          s.commit srcs [.s d] [(.s d, old.setWidth 512)] (.ready s.cycle)

/-- AMOADD (R149). -/
def execAmoadd (d : SReg) (a : AReg) (b : SReg) (x : BitVec 3) (s : State) : Out :=
  .next (amo d a [b] x (fun r old => some (old + r b)) s (fun r => some { operand := r b }))

/-- AMOSWAP (R149). -/
def execAmoswap (d : SReg) (a : AReg) (b : SReg) (x : BitVec 3) (s : State) : Out :=
  .next (amo d a [b] x (fun r _ => some (r b)) s (fun r => some { amo := 1, operand := r b }))

/-- AMOAND (R149). -/
def execAmoand (d : SReg) (a : AReg) (b : SReg) (x : BitVec 3) (s : State) : Out :=
  .next (amo d a [b] x (fun r old => some (old &&& r b)) s)

/-- AMOOR (R149). -/
def execAmoor (d : SReg) (a : AReg) (b : SReg) (x : BitVec 3) (s : State) : Out :=
  .next (amo d a [b] x (fun r old => some (old ||| r b)) s)

/-- AMOXOR (R149). -/
def execAmoxor (d : SReg) (a : AReg) (b : SReg) (x : BitVec 3) (s : State) : Out :=
  .next (amo d a [b] x (fun r old => some (old ^^^ r b)) s)

/-- AMOMIN (R149). -/
def execAmomin (d : SReg) (a : AReg) (b : SReg) (x : BitVec 3) (s : State) : Out :=
  .next (amo d a [b] x (fun r old => some (if old.slt (r b) then old else r b)) s)

/-- AMOMAX (R149). -/
def execAmomax (d : SReg) (a : AReg) (b : SReg) (x : BitVec 3) (s : State) : Out :=
  .next (amo d a [b] x (fun r old => some (if old.slt (r b) then r b else old)) s)

/-- AMOMINN (R149). -/
def execAmominn (d : SReg) (a : AReg) (b : SReg) (x : BitVec 3) (s : State) : Out :=
  .next (amo d a [b] x (fun r old => some (if old.ult (r b) then old else r b)) s)

/-- CAS: s_d is the expected value and receives the old one (R149). -/
def execCas (d : SReg) (a : AReg) (b : SReg) (x : BitVec 3) (s : State) : Out :=
  .next (amo d a [d, b] x (fun r old => if old = r d then some (r b) else none) s
    (fun r => some { amo := 2, operand := r b, compare := r d }))

/-- LADD (R150). -/
def execLadd (d a b : SReg) (x : BitVec 3) (s : State) : Out :=
  .next (amoLocal d a [a, b] x (fun r old => some (old + r b)) s)

/-- LSWAP (R150). -/
def execLswap (d a b : SReg) (x : BitVec 3) (s : State) : Out :=
  .next (amoLocal d a [a, b] x (fun r _ => some (r b)) s)

/-- LMIN (R150). -/
def execLmin (d a b : SReg) (x : BitVec 3) (s : State) : Out :=
  .next (amoLocal d a [a, b] x (fun r old => some (if old.slt (r b) then old else r b)) s)

/-- LMAX (R150). -/
def execLmax (d a b : SReg) (x : BitVec 3) (s : State) : Out :=
  .next (amoLocal d a [a, b] x (fun r old => some (if old.slt (r b) then r b else old)) s)

/-- CASL (R150). -/
def execCasl (d a b : SReg) (x : BitVec 3) (s : State) : Out :=
  .next (amoLocal d a [d, a, b] x (fun r old => if old = r d then some (r b) else none) s)

/-! ### FENCE (R151) -/

/-- FENCE: scope in i8 [7:5], classes in [4:0]; with msg it waits for the remote accesses and raises the oldest refusal
in program order; it acts at DOMAIN for a thread that has accessed another device (R159). -/
def execFence (i : Imm) (s : State) : Out :=
  .next (
    let n := i.toNat
    let scope := n / 32
    let th := s.cur
    let go := fun (s : State) =>
      let s := if bits n 0 0 = 1 then
          let s := if scope = 0 ∧ !s.cur.far then s.fromNow s.iss.thr else s.flushL1 s.curCore
          s.setCur { s.cur with far := false }
        else s
      let s := if bits n 1 1 = 1 then s.ackAll s.iss.thr else s
      s.retire []
    if bits n 4 4 = 1 then
      if th.remOut ≠ [] then s
      else
        match th.remErr with
        | e :: rest => (s.setCur { th with remErr := rest }).trap e.2
        | [] => go s
    else go s)

/-! ### Remote local stores and messages (R152-R158) -/

/-- The target core id, then the offset (R152). -/
def remoteCheck (core o : W64) (z align limit : Nat) : Option Err :=
  if Config.cores ≤ core.toNat then some (remoteErr core.toNat 1) else localCheck o z align limit

/-- RLD. -/
def execRld (w : BitVec 2) (d a b : SReg) (s : State) : Out :=
  .next (s.withOps [a, b] (some d) (late := true) fun r =>
    let z := widthBytes w
    match remoteCheck (r a) (r b) z z Config.localBytes with
    | some e => s.trap e
    | none =>
      let s := s.send (r a).toNat (.rld (r b).toNat z) true
      s.commit [a, b] [.s d] [] (.reply s.cur.remSent))

/-- RST. -/
def execRst (w : BitVec 2) (d a b : SReg) (s : State) : Out :=
  .next (s.withOps [d, a, b] none fun r =>
    let z := widthBytes w
    match remoteCheck (r a) (r b) z z Config.localBytes with
    | some e => s.trap e
    | none => (s.send (r a).toNat (.rst (r b).toNat z (r d)) true).retire [d, a, b])

/-- RADD. -/
def execRadd (d a b : SReg) (s : State) : Out :=
  .next (s.withOps [d, a, b] none fun r =>
    match remoteCheck (r a) (r b) 4 4 Config.localBytes with
    | some e => s.trap e
    | none => (s.send (r a).toNat (.radd (r b).toNat ((r d).setWidth 32) false) true).retire [d, a, b])

/-- RADDR: s_d is the addend and receives the old word. -/
def execRaddr (d a b : SReg) (s : State) : Out :=
  .next (s.withOps [d, a, b] (some d) (late := true) fun r =>
    match remoteCheck (r a) (r b) 4 4 Config.localBytes with
    | some e => s.trap e
    | none =>
      let s := s.send (r a).toNat (.radd (r b).toNat ((r d).setWidth 32) true) true
      s.commit [d, a, b] [.s d] [] (.reply s.cur.remSent))

/-- MSG: the payload is s_b, s_b+1 and s_b+2. -/
def execMsg (d : BitVec 3) (a b : SReg) (s : State) : Out :=
  .next (s.withOps [a, b] none fun r =>
    if Config.cores ≤ (r a).toNat then s.trap (remoteErr (r a).toNat 1)
    else
      (s.send (r a).toNat (.msg d.toNat (r b) (s.cur.readS (b + 1)) (s.cur.readS (b + 2))) true).retire [a, b])

/-- REPLY: HANDLER outside a handler or a second time, then the offset of the third payload word (R157). -/
def execReply (a : SReg) (s : State) : Out :=
  .next (s.withOps [a] none fun r =>
    match s.cur.hand with
    | none => s.trap (handlerErr 4)
    | some h =>
      if h.replied then s.trap (handlerErr 4)
      else
        match localCheck h.third 8 8 Config.localBytes with
        | some e => s.trap e
        | none =>
          let s := s.send (coreOf h.sender) (.reply h.third.toNat (r a) h.sender) true
          s.retireT [a] fun th => { th with hand := some { h with replied := true } })

/-- HSET: install s_d as the context's handler; 0 removes it; an odd address traps MISALIGN (R158). -/
def execHset (d : SReg) (i : Imm) (s : State) : Out :=
  .next (s.withOps [d] none fun r =>
    if (r d).getLsbD 0 then s.trap { cause := 4, tval := r d }
    else
      let c := s.ctx s.cur.ctx
      (s.setCtx s.cur.ctx { c with handlers := tset 0 c.handlers i.toNat (r d) }).retire [d])

/-! ### Arrival of messages -/

/-- Change the thread an operation belongs to, in its slot or saved; false where it has ended. -/
def State.modOwner (s : State) (o : Owner) (f : Thread → Thread) : State × Bool :=
  let th := s.thread o.thr
  if th.st ≠ .free ∧ th.inc = o.inc then (s.setThread o.thr (f th), true)
  else
    match s.groups.find? fun e => decide (e.2.st = .saved) &&
        e.2.save.threads.any fun x => decide (x.1 = o.thr) && decide (x.2.inc = o.inc) && decide (x.2.st ≠ .free) with
    | some (key, _) => (s.changeSaved key o.thr f, true)
    | none => (s, false)

/-- The kernel of an ended thread is marked faulted (R154). -/
def State.markOwner (s : State) (o : Owner) (e : Err) : State :=
  match o.grp with
  | some (ser, _) => s.markFault ser e.cause e.tval
  | none => s

/-- A refusal takes its place in the program order of the accesses refused (R151). -/
def noteRefusal (num : Nat) (e : Err) : List (Nat × Err) → List (Nat × Err)
  | [] => [(num, e)]
  | x :: r => if num < x.1 then (num, e) :: x :: r else x :: noteRefusal num e r

/-- A message is answered: acknowledged, or with an error (R153, R154, 24_device R386); an access that waits for its
reply gets its value or its error. -/
def State.answerWith (s : State) (m : Msg) (value : W64) (err : Option Err) : State :=
  let waits := match m.body with
    | .rld _ _ => true
    | .radd _ _ a => a
    | _ => false
  let f := fun (th : Thread) =>
    let th := { th with remOut := th.remOut.filter fun n => decide (n ≠ m.num) }
    if waits then
      { th with pend := th.pend.map fun p =>
          if p.due = .reply m.num then
            { p with due := .ready 0, vals := p.dests.map fun d => (d, value.setWidth 512), err := err }
          else p }
    else
      { th with remErr := match err with
                  | some e => noteRefusal m.num e th.remErr
                  | none => th.remErr }
  match s.modOwner m.owner f, err with
  | (s, true), _ => s
  | (s, false), some e => s.markOwner m.owner e
  | (s, false), none => s

/-- A message is answered: acknowledged, or refused with a reason. -/
def State.answer (s : State) (m : Msg) (value : W64) (refused : Option Nat) : State :=
  s.answerWith m value (refused.map fun k => remoteErr m.tgt k)

/-- Does the offset name the running count of an arrival word (R152)? -/
def countOff (o : Nat) : Bool := decide (o % 16 = 4)

/-- An addition of RADD at the target's port; at a count it is a credit (R152, R161). -/
def State.addAt (s : State) (tgt o : Nat) (v : BitVec 32) : State :=
  if countOff o then s.awCreditAt tgt (o - 4) v
  else s.lsModify tgt o (toBytes 4 (s.lsRead tgt o 4 + v.toNat))

/-- Which step performs a message: the built-in handler, a handler of the context, or the port of the local store. -/
def Load.builtin : Load → Bool
  | .rld _ _ | .rst _ _ _ | .radd _ _ _ | .reply _ _ _ => true
  | _ => false
def Load.handled : Load → Bool
  | .msg _ _ _ _ => true
  | _ => false
def Load.credits : Load → Bool
  | .credit _ _ => true
  | _ => false

/-- BUILTIN_HANDLER_ACCESS: built-in handler 0 performs the oldest arriving access (R152, R156, R157). -/
def execBuiltinHandlerAccess (src tgt : Nat) (s : State) : Out :=
  .next (s.onMsg src tgt (·.body.builtin) fun m s' =>
    let here := s'.hasTask tgt m.owner.ctx
    let no := s'.answer m 0 (some 2)
    match m.body with
    | .rld o z =>
      if here then
        let s' := s'.lsTouch tgt o z m.owner.ctx
        s'.answerWith m (BitVec.ofNat 64 (s'.lsRead tgt o z)) (if s'.lsPoisoned tgt o z then some (eccLocal o) else none)
      else no
    | .rst o z v => if here then (s'.lsWrite tgt o (toBytes z v.toNat)).answer m 0 none else no
    | .radd o v a =>
      if here then
        let s' := if countOff o then s'.lsTouch tgt (o - 4) 16 m.owner.ctx else s'.lsTouch tgt o 4 m.owner.ctx
        let old := s'.lsRead tgt o 4
        (s'.addAt tgt o v).answerWith m (BitVec.ofNat 64 old) (if a && s'.lsPoisoned tgt o 4 then some (eccLocal o) else none)
      else if countOff o then
        match s'.savedHome tgt m.owner.ctx (o - 4) 16 with
        | some key =>
          let (old, bad) := match tfind s'.groups key with
            | some g => (ofBytes ((List.range 4).map fun i => tget 0 (g.save.region tgt) (o + i)),
                         (g.save.poisonOf tgt).any (touches o 4))
            | none => (0, false)
          ((s'.credit m.owner.ctx tgt (o - 4) v).1).answerWith m (BitVec.ofNat 64 old) (if a && bad then some (eccLocal o) else none)
        | none => no
      else no
    | .reply o v sender =>
      let s'' := if here then (s'.lsWrite tgt o (toBytes 8 v.toNat)).answer m 0 none else no
      let wake : Msg := { m with num := 0, body := .ping .wake sender, rel := m.num }
      { s'' with net := s.net.map fun x => if x = m then wake else x }
    | _ => s)

/-- HANDLER_START: the oldest arriving MSG starts a handler on slot 7 (R155, R156). -/
def execHandlerStart (src tgt : Nat) (s : State) : Out :=
  .next (s.onMsg src tgt (·.body.handled) fun m s' =>
    match m.body with
    | .msg h w1 w2 w3 =>
      let pc := tget 0 (s'.ctx m.owner.ctx).handlers h
      if !s'.hasTask tgt m.owner.ctx then s'.answer m 0 (some 2)
      else if pc = 0 then s'.answer m 0 (some 3)
      else
        let t := tgt * 8 + 7
        let s' := s'.startThread t pc [w1, w2, w3, BitVec.ofNat 64 m.owner.thr] m.owner.ctx m.owner.vf
        let s' := s'.setThread t { s'.thread t with hand := some { sender := m.owner.thr, third := w3 } }
        s'.answer m 0 none
    | _ => s)

/-- MESSAGE_RETRY: a sender sends the messages a fenced core refused again, in their order (01_machine R15). -/
def execMessageRetry (src tgt : Nat) (s : State) : Out :=
  .next { s with net := s.net.map fun m => if m.src = src ∧ m.tgt = tgt then { m with held := false } else m }

/-- L1_INVALIDATE: the oldest invalidation that nothing of its slice comes before reaches the core. -/
def execL1Invalidate (core : Nat) (s : State) : Out :=
  .next (
    let c := s.core core
    let first := c.path.find? fun x =>
      (match x with | .inval _ _ => true | .ack _ => false) &&
        decide (c.path.find? (fun y => decide (y.slice = x.slice)) = some x)
    match first with
    | none => s
    | some x => s.setCore core (c.accept x.slice 1))

/-- STORE_ACK: the home slice acknowledges the core's oldest store; what the slice has sent by then is accepted with it
(R139). -/
def execStoreAck (core : Nat) (s : State) : Out :=
  .next (
    let c := s.core core
    match c.path.find? fun x => match x with | .ack _ => true | .inval _ _ => false with
    | none => s
    | some x => s.setCore core (c.acceptAll x.slice))

end Sys2Proof.Machine
end

