-- ==== Sys2Proof/Machine/Barrier.lean ====
section
/-! DEFINITION. Arrival words, multicast sets and chain queues (08_barrier R160-R169, 16_group R297, R298). -/

namespace Sys2Proof.Machine

open Sys2Proof

/-- AWSET: target and scope set, count and the other flags cleared, the generation kept. -/
def execAwset (a b : SReg) (s : State) : Out :=
  .next (s.withOps [a, b] none fun r =>
    match localCheck (r a) 16 16 Config.localBytes with
    | some e => s.trap e
    | none =>
      let o := (r a).toNat
      let s := s.lsTouch s.curCore (o + 8) 4 s.cur.ctx
      if s.lsPoisoned s.curCore (o + 8) 4 then s.trap (eccLocal o)
      else
        let gen := s.lsRead s.curCore (o + 8) 4
        let w := bits (r b).toNat 31 0 + gen * 2 ^ 64 + bits (r b).toNat 34 32 * 2 ^ 96
        (s.lsWrite s.curCore o (toBytes 16 w)).retire [a, b])

/-- Has the generation moved past the one last seen: (g − last) mod 2^32 in 1..2^31? -/
def genPast (g : Nat) (last : BitVec 32) : Bool :=
  let d := (g + 2 ^ 32 - last.toNat) % 2 ^ 32
  decide (1 ≤ d) && decide (d ≤ 2 ^ 31)

/-- The acquire of a thread's WAITGEN at the word's scope (R160, R165). -/
def State.acquireWord (s : State) (t o : Nat) : State :=
  if bits (s.lsRead (coreOf t) (o + 12) 4) 2 0 = 0 then s.fromNow t else s.flushL1 (coreOf t)

/-- WAITGEN. -/
def execWaitgen (d a b : SReg) (s : State) : Out :=
  .next (s.withOps [a, b] (some d) fun r =>
    match localCheck (r a) 16 16 Config.localBytes with
    | some e => s.trap e
    | none =>
      let o := (r a).toNat
      let s := s.lsTouch s.curCore (o + 8) 4 s.cur.ctx
      if s.lsPoisoned s.curCore (o + 8) 4 then s.trap (eccLocal o)
      else
        let g := s.lsRead s.curCore (o + 8) 4
        let last : BitVec 32 := (r b).setWidth 32
        if genPast g last then (s.acquireWord s.iss.thr o).retireS [a, b] d (BitVec.ofNat 64 g)
        else s.block (.generation (r a) last d) [a, b])

/-- WAITGEN_COMPLETE: the generation of a waiting WAITGEN's word has moved on. -/
def execWaitgenComplete (thr : Nat) (s : State) : Out :=
  .next (match (s.thread thr).st, (s.thread thr).wait with
    | .waiting, some x =>
      match x.w with
      | .generation off last d =>
        let core := coreOf thr
        let s := s.lsTouch core (off.toNat + 8) 4 (s.thread thr).ctx
        let g := s.lsRead core (off.toNat + 8) 4
        if s.lsPoisoned core (off.toNat + 8) 4 then s.unblockTrap thr x (eccLocal off.toNat)
        else if genPast g last then
          s.unblockInto thr x d fun s => (s.acquireWord thr off.toNat).retireS [] d (BitVec.ofNat 64 g)
        else s
      | _ => s
    | _, _ => s)

/-- ARRIVE: the target core, then the word's offset; its credit releases every earlier access (R165). -/
def execArrive (d a b : SReg) (s : State) : Out :=
  .next (s.withOps [d, a, b] none fun r =>
    match remoteCheck (r a) (r b) 16 16 Config.localBytes with
    | some e => s.trap e
    | none =>
      ((s.ackAll s.iss.thr).send (r a).toNat (.credit (r b).toNat ((r d).setWidth 32)) true s.nextNum).retire [d, a, b])

/-- A multicast set of a context: its members, or none where it is not configured (R297, R298). -/
def State.multicastSet (s : State) (ctx set : Nat) : Option (List Nat) :=
  let e := s.memRead ((s.ctx ctx).multicast % 2 ^ 40 + 256 * set) 256
  if e / 2 ^ 1536 = 1 then some ((List.range 1536).filter fun i => decide (e / 2 ^ i % 2 = 1)) else none

/-- An instruction that names a set reads its entry at the home slice, as a load of its thread whatever the entry holds (16_group
R298, 07_memory R143): poison in it is reported (24_device R386; entry 13), and a set not configured is refused with reason 4
(R153). -/
def State.withSet (s : State) (set : Nat) (k : State → List Nat → State) : State :=
  let pa := (s.ctx s.cur.ctx).multicast % 2 ^ 40 + 256 * set
  let u := (List.range 4).foldl (fun s i => s.replied s.iss.thr (pa + 64 * i)) s
  if s.memPoisoned pa 256 then u.trap (eccMem 0)
  else
    match s.multicastSet s.cur.ctx set with
    | none => u.trap (remoteErr set 4)
    | some cores => k u cores

/-- ARRIVEM: one credit to every core of the set, each a release (R165). -/
def execArrivem (d a b : SReg) (s : State) : Out :=
  .next (s.withOps [d, a, b] none fun r =>
    s.withSet (bits (r a).toNat 5 0) fun s cores =>
      match localCheck (r b) 16 16 Config.localBytes with
      | some e => s.trap e
      | none =>
        let num := s.nextNum
        (cores.foldl (fun s c => s.send c (.credit (r b).toNat ((r d).setWidth 32)) true num)
          (s.ackAll s.iss.thr)).retire [d, a, b])

/-- ARRIVAL_CREDIT: the oldest arriving credit is performed at the port, in a saved image, or refused (R161, R164). -/
def execArrivalCredit (src tgt : Nat) (s : State) : Out :=
  .next (s.onMsg src tgt (·.body.credits) fun m s' =>
    match m.body with
    | .credit o n =>
      match s'.credit m.owner.ctx tgt o n with
      | (s'', true) => s''.answer m 0 none
      | (_, false) => s'.answer m 0 (some 2)
    | _ => s)

/-- Remove the downstream link of a thread. -/
def State.unlink (s : State) (t : Nat) : State :=
  { s with links := s.links.filter fun l => !(decide (l.src = t) && !l.srcEnded && !l.saved) }

/-- QCFG: connect a link to a peer of the group, or disconnect the downstream link when it is empty. -/
def execQcfg (a : SReg) (s : State) : Out :=
  .next (s.withOps [a] none fun r =>
    let t := s.iss.thr
    let peer := bits (r a).toNat 13 0
    if (r a).getLsbD 14 then
      if peer = t ∨ Config.threads ≤ peer ∨ s.cur.grp = none ∨ (s.thread peer).grp ≠ s.cur.grp ∨ cluOf peer ≠ cluOf t ∨
          (s.upLink peer).isSome ∨ (s.downLink t).isSome then s.trap (queueErr 0 2)
      else
        let link : Link := { ctx := s.cur.ctx, src := t, dst := peer }
        ({ s with links := s.links ++ [link] } : State).retire [a]
    else
      match s.downLink t with
      | none => s.retire [a]
      | some l =>
        if l.vals ≠ [] then s.block .disconnect [a]
        else (s.unlink t).retire [a])

/-- QCFG_DISCONNECT_COMPLETE: the link a disconnect waits for is empty, or gone with its receiver. -/
def execQcfgDisconnectComplete (thr : Nat) (s : State) : Out :=
  .next (match (s.thread thr).st, (s.thread thr).wait with
    | .waiting, some x =>
      match x.w with
      | .disconnect =>
        if (match s.downLink thr with | some l => l.vals.isEmpty | none => true) then
          s.unblock thr x fun s => (s.unlink thr).done
        else s
      | _ => s
    | _, _ => s)

/-- QSTAT: [4:0] values held, [5] exists, [6] the other end has ended, [29:16] the peer. -/
def execQstat (d a : SReg) (s : State) : Out :=
  .next (s.withOps [a] (some d) fun r =>
    let t := s.iss.thr
    let v := if (r a).getLsbD 0 then
        match s.downLink t with
        | some l => l.vals.length + 32 + l.dst * 65536
        | none => 0
      else
        match s.upLink t with
        | some l => l.vals.length + 32 + (if l.srcEnded then 64 else 0) + l.src * 65536
        | none => 0
    s.retireS [a] d (BitVec.ofNat 64 v))

end Sys2Proof.Machine
end

