-- ==== Sys2Proof/Machine/System.lean ====
section
/-! DEFINITION. System instructions of page 15 and the steps of translation, faults, kill and soft errors
(17_context R299-R315, 12_page R228-R243, 24_device R385-R388). -/

namespace Sys2Proof.Machine

open Sys2Proof

/-! ### System registers (17_context R311) -/

/-- Is the bundle an access of memory that has not been answered, rather than a divide, a message, a queue entry, a gang's
reduction or a special function? -/
def Pend.memory (p : Pend) : Bool :=
  p.err.isNone && (p.mem || p.lod || match p.due with
    | .msave _ => true
    | _ => false)

/-- Requests in flight tagged with a VF (19_queue R328): memory accesses (stores not yet acknowledged, long-latency
bundles outstanding for memory, misses that wait for a walker), messages, engine work, transfers, packets of transfers
that are no more, commands that execute. -/
def State.vfCount (s : State) (v : Nat) : Nat :=
  let own := fun (o : Owner) => decide (o.vf = v)
  let perCore := (s.cores.map fun (_, c) =>
    (c.path.filter fun x => match x with | .ack e => decide (e.vf = v) | .inval _ _ => false).length +
    (c.mq.filter fun e => own e.owner).length + (c.cq.filter fun e => own e.owner).length +
    (c.nq.filter fun e => own e.owner).length).sum
  let perClu := (s.clus.map fun (_, c) => (c.txq.filter fun e => own e.owner).length +
    (c.walks.filter fun w => decide ((s.ctx w.ctx).vf = v)).length).sum
  let perDie := (s.dies.map fun (_, d) => (d.comp.filter fun e => own e.owner).length).sum
  let msgs := (s.net.filter fun m => own m.owner).length
  let pend := (s.thr.map fun (_, th) => if th.vf = v then (th.pend.filter Pend.memory).length else 0).sum
  let cmds := (s.queues.filter fun (_, q) => decide (q.vf = v) && decide (q.st = .blocked ∨ q.st = .stalled)).length
  let live := (s.cores.map fun (_, c) => c.nq.map (·.order)).flatten
  let pkts := (s.eps.map fun (_, e) => (e.pkts.filter fun p =>
    !live.contains p.order && decide ((s.ctx (p.acc.getD e.ctx)).vf = v)).length).sum
  perCore + perClu + perDie + msgs + pend + cmds + pkts

/-- Entry `n`, newest 0, of an array's log as ELDATA shows it (R387). -/
def ErrUnit.read (u : ErrUnit) : W64 :=
  let array := bits u.elsel.toNat 15 8
  let n := bits u.elsel.toNat 2 0
  match (tget [] u.logs array)[n]? with
  | some e => e.row ++ e.syndrome ++ BitVec.ofNat 8 e.ctx ++ BitVec.ofNat 16 e.cls
  | none => 0

/-- Is it a core for the reset of a VF to scrub: one that last held a group of the VF, and holds none of another now
(19_queue R327)? -/
def State.scrubs (s : State) (v core : Nat) : Bool :=
  decide ((s.core core).lastVf = some v) &&
    !(s.groups.any fun (key, g) => decide (g.st = .placed) && g.homes core && decide ((s.kernel (key / 33554432)).vf ≠ v))

/-- The value of a system register for thread `t`; none where the number is unlisted (R311). -/
def State.csr (s : State) (t n : Nat) : Option W64 :=
  let th := s.thread t
  let c := s.core (coreOf t)
  let x := s.ctx th.ctx
  let bank := fun (b : Bank) (k : Nat) =>
    match k with
    | 0 => b.tvec | 1 => b.tcause | 2 => b.tepc | 3 => b.tval | 4 => b.tword | _ => b.twordh
  if n = 0x000 then some (BitVec.ofNat 64 s.cycle)
  else if n = 0x001 then some (BitVec.ofNat 64 s.timens)
  else if n = 0x010 then some th.fsel
  else if n = 0x011 then some th.fflags
  else if n = 0x020 then some th.tstate
  else if 0x021 ≤ n ∧ n ≤ 0x026 then some (bank th.bank1 (n - 0x021))
  else if 0x029 ≤ n ∧ n ≤ 0x02E then some (bank th.bank2 (n - 0x029))
  else if n = 0x02F then some th.tscratch
  else if n = 0x030 then some (BitVec.ofNat 64 th.ctx)
  else if n = 0x031 then some (BitVec.ofNat 64 th.vf)
  else if n = 0x032 then some x.ptroot
  else if n = 0x033 then some x.fring
  else if n = 0x034 then some x.fbring
  else if n = 0x035 then some x.fbmask
  else if n = 0x040 then some (c.mqWeight.setWidth 64)
  else if n = 0x041 then
    some (BitVec.ofNat 64 ((if c.mqStop then 1 else 0) + (if c.mqFrozen then 2 else 0) + (if c.mqMaskErr then 4 else 0) +
      c.spill.length * 256))
  else if n = 0x050 then some c.errs.elsel
  else if n = 0x051 then some c.errs.read
  else if n = 0x052 then some c.errs.einj
  else if n = 0x060 then some (if s.dev.vfPhase ≠ 0 then s.dev.vfctl ||| 1 else s.dev.vfctl &&& ~~~1#64)
  else if n = 0x061 then
    some (BitVec.ofNat 64
      ((if s.dev.vfQuiet then 0 else s.vfCount (bits s.dev.vfctl.toNat 19 16) % 2 ^ 32) + s.dev.vfPhase * 2 ^ 32))
  else if n = 0x070 then some c.throttle
  else none

/-- What a CSRR leaves: one of VFCTL that finds no reset in progress acquires what the last one did; after a reset asked
for there VFSTAT counts 0 from then on (20_program_vfreset R331). -/
def State.csrTouch (s : State) (n : Nat) : State :=
  if n = 0x060 ∧ s.dev.vfPhase = 0 then
    let s := s.flushL1 s.curCore
    { s with dev := { s.dev with vfQuiet := s.dev.vfQuiet || s.dev.vfByReg } }
  else s

/-- Keep bits [hi:lo] of a value in place. -/
def keep (v : W64) (hi lo : Nat) : W64 := BitVec.ofNat 64 (bits v.toNat hi lo * 2 ^ lo)

def Bank.write (b : Bank) (k : Nat) (v : W64) : Bank :=
  match k with
  | 0 => { b with tvec := v &&& ~~~1#64 }
  | 1 => { b with tcause := keep v 7 0 }
  | 2 => { b with tepc := v }
  | 3 => { b with tval := v }
  | 4 => { b with tword := v }
  | _ => { b with twordh := v }

/-- MQCTL stop: 1 requests a freeze, 0 lets a queue that is not saved run again (10_matrix R202). -/
def State.mqctlStop (s : State) (core : Nat) (stop : Bool) : State :=
  let c := s.core core
  s.setCore core (if stop then { c with mqStop := true }
    else { c with mqStop := false, mqFrozen := c.mqFrozen && c.mqSaved })

/-- MQCTL maskerr is cleared by writing 1 (R202). -/
def State.mqctlClear (s : State) (core : Nat) : State := s.setCore core { s.core core with mqMaskErr := false }

/-- ELSEL clear empties the selected array's log (R387). -/
def State.elselClear (s : State) (core : Nat) : State :=
  let c := s.core core
  s.setCore core { c with errs := { c.errs with logs := tput c.errs.logs (bits c.errs.elsel.toNat 15 8) [] } }

/-- What a stopped queue's command goes on waiting for: the work of a management command that has been done or begun is
tested again at restart; anything else is executed again (19_queue R321). -/
def Block.kept : Block → Bool
  | .suspend _ | .kill _ | .vf _ | .close _ => true
  | .drain | .wait | .record => false

/-- A queue is stopped (19_queue R321). -/
def State.stopQueue (s : State) (q : Nat) : State :=
  let x := s.queue q
  match x.st with
  | .running | .blocked | .stalled =>
    s.setQueue q { x with st := .stopped, block := x.block.filter Block.kept, stallVa := 0, recs := x.recs.filter fun r => !r.event }
  | _ => s

/-- A STOPPED queue restarts (R321). -/
def State.restartQueue (s : State) (q : Nat) : State :=
  let x := s.queue q
  s.setQueue q { x with st := if x.block.isSome then .blocked else .running }

/-- Step 1 of a VF reset (19_queue R327): queues stop, ACTIVE kernels go to STOPPING, the grace time starts. -/
def State.vfStart (s : State) (v grace : Nat) (q : Option Nat) : State :=
  let s := (s.queues.filter fun e => decide (e.2.vf = v)).foldl (fun s e => s.stopQueue e.1) s
  let s := (s.kernels.filter fun e => decide (e.2.vf = v) && decide (e.2.st = .active)).foldl
    (fun s e => (s.setKernel e.1 { e.2 with st := .stopping }).discardUnplaced e.1) s
  { s with dev := { s.dev with vfPhase := 1, vfNo := v, vfGrace := s.cycle + grace * 1800, vfQueue := q,
                               vfByReg := q.isNone, vfQuiet := false } }

/-- A write of VFCTL: fields set, and a reset started where bit 0 is 1; one that names VF 0, or asks for a reset while one is in
progress, is ignored (19_queue R327, R328). -/
def State.vfctlWrite (s : State) (v : W64) : State :=
  let n := bits v.toNat 19 16
  let s' := { s with dev := { s.dev with vfctl := keep v 47 32 ||| keep v 19 16 } }
  if n = 0 then s
  else if v.getLsbD 0 then
    if s.dev.vfPhase ≠ 0 then s else s'.vfStart n (bits v.toNat 47 32) none
  else s'

/-- Write a system register for thread `t`; RO ones keep their value (R312). -/
def State.csrWrite (s : State) (t n : Nat) (v : W64) : State :=
  let th := s.thread t
  let core := coreOf t
  let c := s.core core
  let x := s.ctx th.ctx
  if n = 0x010 then s.setThread t { th with fsel := keep v 19 0 }
  else if n = 0x011 then s.setThread t { th with fflags := keep v 4 0 }
  else if n = 0x020 then
    s.setThread t { th with tstate := keep v 4 2 ||| (if bits v.toNat 1 0 = 3 then 2 else keep v 1 0) }
  else if 0x021 ≤ n ∧ n ≤ 0x026 then s.setThread t { th with bank1 := th.bank1.write (n - 0x021) v }
  else if 0x029 ≤ n ∧ n ≤ 0x02E then s.setThread t { th with bank2 := th.bank2.write (n - 0x029) v }
  else if n = 0x02F then s.setThread t { th with tscratch := v }
  else if n = 0x032 then s.setCtx th.ctx { x with ptroot := keep v 51 15 }
  else if n = 0x033 then s.setCtx th.ctx { x with fring := keep v 51 12 ||| keep v 3 0 }
  else if n = 0x034 then s.setCtx th.ctx { x with fbring := keep v 51 12 }
  else if n = 0x035 then s.setCtx th.ctx { x with fbmask := keep v 19 0 }
  else if n = 0x040 then s.setCore core { c with mqWeight := v.setWidth 4 }
  else if n = 0x041 then
    let s := s.mqctlStop core (v.getLsbD 0)
    if v.getLsbD 2 then s.mqctlClear core else s
  else if n = 0x050 then
    let s := s.setCore core { c with errs := { c.errs with elsel := keep v 15 8 ||| keep v 2 0 } }
    if v.getLsbD 16 then s.elselClear core else s
  else if n = 0x052 then
    s.setCore core { c with errs := { c.errs with einj := keep v 16 16 ||| keep v 15 8 ||| keep v 1 0 } }
  else if n = 0x060 then s.vfctlWrite v
  else s

/-- The checks of CSRR and CSRW after the mode: an unlisted number, then the VF registers (R311). -/
def State.csrCheck (s : State) (n : Nat) : Option Err :=
  match s.csr s.iss.thr n with
  | none => some (privErr 2 n)
  | some _ => if (n = 0x060 ∨ n = 0x061) ∧ s.cur.vf ≠ 0 then some (privErr 3 n) else none

/-- A system instruction that names a register: in user mode PRIV reason 1 with the number (R304). -/
def State.systemCsr (s : State) (n : Nat) (k : State) : State :=
  if s.cur.sysMode then (match s.csrCheck n with | some e => s.trap e | none => k) else s.trap (privErr 1 n)

/-- CSRR. -/
def execCsrr (d : SReg) (i : Imm) (s : State) : Out :=
  .next (s.systemCsr i.toNat (s.withOps [] (some d) fun _ =>
    (s.csrTouch i.toNat).retireS [] d ((s.csr s.iss.thr i.toNat).getD 0)))

/-- CSRW. -/
def execCsrw (d : SReg) (i : Imm) (s : State) : Out :=
  .next (s.systemCsr i.toNat (s.withOps [d] none fun r =>
    (s.csrWrite s.iss.thr i.toNat (r d)).retire [d]))

/-- TRAP: SYSCALL with the code in TVAL; TEPC holds the next bundle's address (R313). -/
def execTrap (i : Imm) (s : State) : Out :=
  .next (s.takeTrap s.iss.thr s.iss.b s.iss.b.next { cause := 13, tval := i.setWidth 64 })

/-- RETT (R314). -/
def execRett (s : State) : Out :=
  .next (s.system (
    if s.cur.level = 0 then s.trap (privErr 4)
    else
      let th := s.cur.ret
      (s.setCur th).moveTo th.pc false))

/-- CTXKILL: another VF's context traps PRIV reason 3 unless the issuer is of VF 0; a FREE context is of no VF (R315). -/
def execCtxkill (a : SReg) (s : State) : Out :=
  .next (s.system (s.withOps [a] none fun r =>
    let c := bits (r a).toNat 7 0
    if s.cur.vf ≠ 0 ∧ (s.ctx c).st ≠ .free ∧ (s.ctx c).vf ≠ s.cur.vf then s.trap (privErr 3)
    else s.release fun s => (s.retire [a]).kill c none (some s.iss.thr)))

/-! ### TLBINV and HARVEST (12_page R242, R243) -/

/-- Write back the gathered bits of a list of entries. -/
def State.adWriteAll (s : State) (l : List TlbEnt) : State := l.foldl State.adWrite s

/-- Every TLB of the device, by the cores and clusters that have state. -/
def State.tlbIds (s : State) : List TlbId :=
  s.cores.map (fun e => TlbId.data e.1) ++ s.cores.map (fun e => TlbId.fetch e.1) ++ s.clus.map (fun e => TlbId.second e.1)

/-- Entries that `p` selects are written back and invalidated, in every TLB. -/
def State.shootDown (s : State) (p : TlbEnt → Bool) : State :=
  s.tlbIds.foldl (fun s id =>
    let l := s.tlb id
    (s.adWriteAll (l.filter p)).setTlb id (l.filter fun t => !p t)) s

/-- Entries that `p` selects are written back and stay, in every TLB. -/
def State.harvest (s : State) (p : TlbEnt → Bool) : State :=
  s.tlbIds.foldl (fun s id =>
    let l := s.tlb id
    (s.adWriteAll (l.filter p)).setTlb id (l.map fun t => if p t then t.written else t)) s

/-- Does an asker make further accesses by the translations of those that have been answered? -/
def Asker.goesOn : Asker → Bool
  | .thread _ _ | .lod _ _ | .engine _ | .queue _ => true
  | .fetch _ _ | .waiting _ _ | .packet _ => false

/-- Is an access of a context that `p` picks translated and still to be performed: a packet on its way to another device, what goes
on from its answer, or an MSAVE that waits for its freeze (R242)? -/
def State.translated (s : State) (p : Nat → Bool) : Bool :=
  (s.thr.any fun (_, th) => p th.ctx && th.pend.any fun x => match x.due with
    | .msave _ => true
    | _ => false) ||
  (s.eps.any fun (_, e) => e.pkts.any fun x => x.acc.any p) ||
  s.dev.answers.any fun a => a.who.goesOn && p (s.askerCtx a.who)

/-- TLBINV: held until the accesses translated before it are performed, the issuer's earlier ones among them. -/
def execTlbinv (a : AReg) (b : SReg) (s : State) : Out :=
  .next (s.system (s.withOps [b] none fun r =>
    let v := (r b).toNat
    let c := bits v 7 0
    let va := (s.cur.readA a).toNat
    let p := fun (t : TlbEnt) =>
      if bits v 9 9 = 1 then true else if bits v 8 8 = 1 then decide (t.ctx = c) else t.covers c va
    if s.translated fun x => decide (bits v 9 9 = 1) || decide (x = c) then s
    else
      s.release fun s =>
        let s := { s with dev := { s.dev with shoot := s.dev.shoot + 1 } }
        (s.shootDown p).commit [b] [] [] (.ready s.cycle)))

/-- HARVEST: a later load of the issuer finds the bits. -/
def execHarvest (s : State) : Out :=
  .next (s.system
    (((s.harvest fun t => decide (t.ctx = s.cur.ctx)).flushL1 s.curCore).commit [] [] [] (.ready s.cycle)))

/-- PAGE_WALK: the cluster's oldest walk ends, and with it those that joined it; if the shoot-down count has changed it
walks again, else its leaf is filled; a prefetch then brings its line (R229, R230, R147). -/
def execPageWalk (clu : Nat) (s : State) : Out :=
  .next (
    let x := s.clu clu
    match x.walks with
    | [] => s
    | w :: rest =>
      if w.shoot ≠ s.dev.shoot then s.setClu clu { x with walks := { w with shoot := s.dev.shoot } :: rest }
      else
        let joined := fun (v : Walk) => decide (v.ctx = w.ctx) && decide (v.va / 4096 = w.va / 4096)
        let s := s.setClu clu { x with walks := rest.filter fun v => !joined v }
        let prefetch := fun (s : State) =>
          (x.walks.filter fun v => joined v && v.thr.isNone).foldl (fun s v => s.prefetchLine v.core v.ctx v.va) s
        match s.walk w.ctx w.va with
        | .leaf cls e lvl pte =>
          if (cls = .present ∨ cls = .cow) ∧ !(s.tlb (.second clu)).any (·.covers w.ctx w.va) then
            let t : TlbEnt := { ctx := w.ctx, lvl := lvl, page := w.va / 2 ^ pageBits lvl, leaf := e, pte := pte, since := s.cycle }
            let s := s.tlbFill (.second clu) t
            prefetch (if w.thr.isSome ∨ (s.tlb (.data w.core)).any (·.covers w.ctx w.va) then s else s.tlbFill (.data w.core) t)
          else prefetch s
        | .hard _ | .ecc => s)

/-- Write back the gathered bits of the `k`-th entry of a TLB. -/
def State.adEntry (s : State) (t : TlbId) (k : Nat) : State :=
  let l := s.tlb t
  match l[k]? with
  | some e => (s.adWrite e).setTlb t (l.set k e.written)
  | none => s

/-- AD_WRITEBACK: an entry's gathered bits reach its leaf (R231). -/
def execAdWriteback (t : TlbId) (k : Nat) (s : State) : Out := .next (s.adEntry t k)

/-- AD_WRITEBACK_TIMEOUT: 2^20 core cycles after a bit was first gathered (R231). -/
def execAdWritebackTimeout (t : TlbId) (k : Nat) (s : State) : Out :=
  .next (match (s.tlb t)[k]? with
    | some e => if (e.a || e.d) && decide (e.since + 2 ^ 20 ≤ s.cycle) then s.adEntry t k else s
    | none => s)

/-- FAULT_RECORD_RETRY: the cluster's oldest waiting fault record is tried again (R237). -/
def execFaultRecordRetry (clu : Nat) (s : State) : Out :=
  .next (
    let x := s.clu clu
    match x.frecs with
    | [] => s
    | r :: rest =>
      if s.cycle < r.retryAt then s
      else
        match s.faultWrite r with
        | some s => s.setClu clu { s.clu clu with frecs := rest }
        | none =>
          let s := if r.held then s else match s.faultRing r.ctx with
            | some (base, _) => s.ringHeld base
            | none => s
          s.setClu clu { s.clu clu with frecs := { r with held := true, retryAt := s.cycle + 4096 } :: rest })

/-! ### MQCTL, ELSEL and VFCTL by their own steps -/

/-- MQCTL_STOP. -/
def execMqctlStop (core : Nat) (stop : Bool) (s : State) : Out := .next (s.mqctlStop core stop)
/-- MQCTL_MASKERR_CLEAR. -/
def execMqctlMaskerrClear (core : Nat) (s : State) : Out := .next (s.mqctlClear core)
/-- ELSEL_CLEAR. -/
def execElselClear (core : Nat) (s : State) : Out := .next (s.elselClear core)
/-- VFCTL_RESET. -/
def execVfctlReset (v : W64) (s : State) : Out := .next (s.vfctlWrite v)

end Sys2Proof.Machine
end

