-- ==== Sys2Proof/Machine/Threads.lean ====
section
/-! DEFINITION. Threads, slots and gangs (03_thread R51-R65), and the steps that complete waiting and long-latency
bundles. -/

namespace Sys2Proof.Machine

open Sys2Proof

/-! ### SPAWN, SPAWNW -/

/-- Free slots of a core held by a group, lowest first. -/
def State.freeSlot (s : State) (core : Nat) (grp : Nat × Nat) : Option Nat :=
  ((List.range 7).map fun k => core * 8 + k).find? fun t =>
    s.isFree t && decide ((s.thread t).grp = some grp)

/-- SPAWN and SPAWNW: start a task in the lowest free slot of the group's core, else −1 or wait; a start releases the
spawner's earlier accesses. -/
def spawn (waits : Bool) (d a b : SReg) (s : State) : State :=
  s.withOps [a, b] (some d) fun r =>
    let th := s.cur
    let start := r b
    if start.getLsbD 0 then s.trap { cause := 4, tval := start }
    else
      let none_ := s.retireS [a, b] d (BitVec.allOnes 64)
      match th.grp with
      | none => none_
      | some (ser, g) =>
        let k := s.kernel ser
        let c := bits (r a).toNat 2 0
        match s.group? ser g with
        | none => none_
        | some grp =>
          if slotOf s.iss.thr = 7 ∨ k.w * k.p ≤ c then none_
          else
            let core := grp.clu * 8 + grp.first + c
            match s.freeSlot core (ser, g) with
            | some t =>
              let args := [th.readS 1, th.readS 2, th.readS 3, th.readS 4]
              s.release fun s => (s.startThread t start args th.ctx th.vf).retireS [a, b] d (BitVec.ofNat 64 t)
            | none => if waits then s.block (.spawn core start d) [a, b] else none_

def execSpawn (d a b : SReg) (s : State) : Out := .next (spawn false d a b s)
def execSpawnw (d a b : SReg) (s : State) : Out := .next (spawn true d a b s)

/-- SPAWNW_COMPLETE: a slot of the target core held by the group is free (R57). -/
def execSpawnwComplete (thr : Nat) (s : State) : Out :=
  .next (match (s.thread thr).st, (s.thread thr).wait, (s.thread thr).grp with
    | .waiting, some x, some grp =>
      match x.w with
      | .spawn core start d =>
        match s.freeSlot core grp with
        | some t =>
          let th := s.thread thr
          if th.remOut ≠ [] then s
          else
            let args := [th.readS 1, th.readS 2, th.readS 3, th.readS 4]
            s.unblockInto thr x d fun s =>
              ((s.ackAll thr).startThread t start args th.ctx th.vf).retireS [] d (BitVec.ofNat 64 t)
        | none => s
      | _ => s
    | _, _, _ => s)

/-! ### QUIT, YIELD, SLEEP -/

/-- QUIT: the slot becomes FREE; a gang's members each come to it (R65). -/
def execQuit (s : State) : Out := .next ((s.leave s.iss.thr true).endThread s.iss.thr)

/-- YIELD: not eligible in the next 8 core cycles. -/
def execYield (s : State) : Out := .next (s.retireT [] fun th => { th with yieldEnd := s.cycle + 9 })

/-- SLEEP: completes at once on a pending wake, acquiring; else the thread sleeps, with the timeout of s_a cycles. -/
def execSleep (a : SReg) (s : State) : Out :=
  .next (if slotOf s.iss.thr = 7 then s.trap (handlerErr 2)
    else s.withOps [a] none fun r =>
      if s.cur.wakePend then (s.flushL1 s.curCore).retireT [a] fun th => { th with wakePend := false }
      else
        let n := (r a).toNat
        let s := s.retire [a]
        s.setCur { s.cur with st := .sleeping, sleepEnd := if n = 0 then none else some (s.cycle + n) })

/-- SLEEP_TIMEOUT. -/
def execSleepTimeout (thr : Nat) (s : State) : Out :=
  .next (let th := s.thread thr
    match th.sleepEnd with
    | some e => if th.st = .sleeping ∧ e ≤ s.cycle then s.setThread thr { th with st := .runnable, sleepEnd := none } else s
    | none => s)

/-! ### WAKE, RESUME, ABORT -/

/-- Send a wake, resume or abort to the thread s_a [13:0] names; a number that names no slot is discarded (R51). A wake
and a resume release. -/
def ping (k : PingKind) (a : SReg) (s : State) : State :=
  s.withOps [a] none fun r =>
    let t := bits (r a).toNat 13 0
    let s := if k = .abort then s else s.ackAll s.iss.thr
    let s := if t < Config.threads then s.send (coreOf t) (.ping k t) false (if k = .abort then 0 else s.nextNum) else s
    s.retire [a]

def execWake (a : SReg) (s : State) : Out := .next (ping .wake a s)
def execResume (a : SReg) (s : State) : Out := .next (s.system (ping .resume a s))
def execAbort (a : SReg) (s : State) : Out := .next (s.system (ping .abort a s))

/-- Is the message the oldest of its VF from its core to its target core, not held by its sender, and free to be
performed? -/
def Msg.first (m : Msg) (net : List Msg) : Bool :=
  !m.held && m.cleared net && decide (net.find? (fun x => decide (x.src = m.src ∧ x.tgt = m.tgt ∧ x.owner.vf = m.owner.vf)) = some m)

/-- Change the saved thread of a number in a context, in its group and in its save area (R53, SAVED rows). -/
def State.modSaved (s : State) (ctx t : Nat) (f : Thread → Thread) : State :=
  match s.savedAt ctx t with
  | some (key, _) => s.changeSaved key t f
  | none => s

/-- The oldest ping of a kind that has reached a thread's core acts on a thread of its own context in the slot, or on a
saved one whose home slot it is; else it is discarded (R53). Where both are there the spec does not say which is meant:
the thread in the slot is (DESIGN CHOICE; entry 36). No bundle of the slot follows it in the cycle (R54). -/
def State.arrive (s : State) (k : PingKind) (t : Nat) (here : Thread → State → State) (saved : Nat → State → State) : State :=
  match s.net.find? fun m => decide (m.body = .ping k t) && m.first s.net with
  | none => s
  | some m =>
    let s := { s with net := s.net.erase m }
    let th := s.thread t
    if th.st ≠ .free ∧ th.ctx = m.owner.ctx then
      let th := { th with yieldEnd := max th.yieldEnd (s.cycle + 1) }
      here th (s.setThread t th)
    else saved m.owner.ctx s

/-- WAKE_ARRIVE: ends a sleep, which acquires; else sets the wake-pending bit (R53). -/
def execWakeArrive (thr : Nat) (s : State) : Out :=
  .next (s.arrive .wake thr
    (fun th s =>
      if th.st = .sleeping then (s.flushL1 (coreOf thr)).setThread thr { th with st := .runnable, sleepEnd := none }
      else s.setThread thr { th with wakePend := true })
    (fun ctx s => s.modSaved ctx thr fun th => { th with wakePend := true }))

/-- RESUME_ARRIVE: a DROPPED thread reissues its bundle, acquiring; a saved one loses its dropped mark (R53). -/
def execResumeArrive (thr : Nat) (s : State) : Out :=
  .next (s.arrive .resume thr
    (fun th s =>
      if th.st = .dropped then (s.flushL1 (coreOf thr)).setThread thr { th with st := .runnable } else s)
    (fun ctx s => s.modSaved ctx thr fun th => if th.st = .dropped then { th with st := .runnable } else th))

/-- ABORT_ARRIVE: the target ends; a gang's other members go on alone; a saved thread's save is discarded, and its links
end with it (R53, R65, 08_barrier R168). -/
def execAbortArrive (thr : Nat) (s : State) : Out :=
  .next (s.arrive .abort thr
    (fun _ s => (s.leave thr false).endThread thr)
    (fun ctx s =>
      match s.savedAt ctx thr with
      | some (key, _) => (s.endSavedLinks key thr).dropSaved key thr
      | none => s))

/-! ### Gangs -/

/-- The slots of a gang of `n` that the thread is a candidate of (R63). -/
def gangSlots (t n : Nat) : List Nat :=
  let core := coreOf t
  let base := core - core % 8 % n
  (List.range n).map fun i => (base + i) * 8 + slotOf t

/-- Is the thread waiting in GANGn? -/
def Thread.inGangWait (th : Thread) (n : Nat) : Bool :=
  match th.st, th.wait with
  | .waiting, some x => decide (x.w = .gang n)
  | _, _ => false

/-- What a member's registers depend on in a gang: its s- and a-registers, which are the leader's, on what the leader's do; what
it keeps, on what that did (R63, 07_memory R143). -/
def gangDeps (leader own : Tab Nat) : Tab Nat :=
  leader.filter (fun e => decide (e.1 < 64)) ++ own.filter fun e => decide (64 ≤ e.1)

/-- All members complete GANGn: followers take the leader's s- and a-registers and its next pc (R63). -/
def State.formGang (s : State) (n : Nat) (slots : List Nat) (leader : Thread) (next : W64) (past : Bool) : State :=
  slots.zipIdx.foldl (fun s (t, i) =>
    let th := s.thread t
    (s.retires (coreOf t)).setThread t
      { th with st := .runnable, wait := none, pc := next, past := past, s := leader.s, a := leader.a,
                deps := gangDeps leader.deps th.deps, gang := some { size := n, index := i, num := s.gangs } })
    { (slots.foldl State.ackAll s) with gangs := s.gangs + 1 }

/-- GANGn. -/
def gang (n : Nat) (s : State) : State :=
  if slotOf s.iss.thr = 7 then s.trap (handlerErr 2)
  else
    let s := s.leave s.iss.thr true
    let t := s.iss.thr
    let slots := gangSlots t n
    if slots.all fun m => decide ((s.thread m).st ≠ .free) && decide ((s.thread m).grp = s.cur.grp) then
      if slots.all fun m => decide (m = t) || (s.thread m).inGangWait n then
        let l := slots.headD t
        let b := match (s.thread l).wait with | some x => if l = t then s.iss.b else x.b | none => s.iss.b
        s.formGang n slots (s.thread l) b.next b.nextOver
      else s.block (.gang n)
    else s.done

def execGang2 (s : State) : Out := .next (gang 2 s)
def execGang4 (s : State) : Out := .next (gang 4 s)
def execGang8 (s : State) : Out := .next (gang 8 s)

/-- GANG_FORM: every member waits in the same GANGn. DESIGN CHOICE (entry 7): a member goes on waiting while a
partner's slot has become FREE since, until a new task there issues GANGn (R63). -/
def execGangForm (thr : Nat) (s : State) : Out :=
  .next (match (s.thread thr).wait with
    | some x =>
      match x.w with
      | .gang n =>
        let slots := gangSlots thr n
        if slots.all fun m => (s.thread m).inGangWait n then
          let l := slots.headD thr
          let b := match (s.thread l).wait with | some y => y.b | none => x.b
          s.formGang n slots (s.thread l) b.next b.nextOver
        else s
      | _ => s
    | none => s)

/-- SPLIT: every member goes on alone after the bundle. -/
def execSplit (s : State) : Out := .next (s.leave s.iss.thr true).done

/-! ### CRD -/

/-- Coordinate `code` of a thread. -/
def State.coordinate (s : State) (t code : Nat) : Nat :=
  let th := s.thread t
  let core := coreOf t
  let msgSlot := decide (slotOf t = 7)
  match th.grp with
  | some (ser, g) =>
    let k := s.kernel ser
    let first := match s.group? ser g with | some x => x.first | none => 0
    let c := core % 8 - first
    match code with
    | 0 => core | 1 => core / 8 | 2 => core % 8 | 3 => slotOf t
    | 4 => if msgSlot then 0 else c % k.w
    | 5 => if msgSlot then 0 else c / k.w
    | 6 => core / 384
    | 7 => match th.gang with | some x => x.index | none => 0
    | 8 => match th.gang with | some x => x.size | none => 1
    | 9 => if msgSlot then 0 else g
    | 10 => if msgSlot then 0 else ser
    | 11 => th.ctx | 12 => th.vf
    | 13 => if msgSlot then 0 else k.w
    | 14 => if msgSlot then 0 else k.p
    | _ => if th.sysMode then 1 else 0
  | none =>
    match code with
    | 0 => core | 1 => core / 8 | 2 => core % 8 | 3 => slotOf t | 6 => core / 384 | 8 => 1
    | 11 => th.ctx | 12 => th.vf
    | 15 => if th.sysMode then 1 else 0
    | _ => 0

/-- CRD. -/
def execCrd (d : SReg) (i : Imm) (s : State) : Out :=
  .next (s.withOps [] (some d) fun _ => s.retireS [] d (BitVec.ofNat 64 (s.coordinate s.iss.thr i.toNat)))

/-! ### Completion of waiting and long-latency bundles -/

/-- The bundle a full or empty link holds is reissued once both ends can proceed, or its trap is due (R167, R168). -/
def State.reissueLink (s : State) (thr : Nat) (w : Wait) : State :=
  let th := s.thread thr
  match th.st, th.wait with
  | .waiting, some x =>
    if x.w = w then
      let ready := match w with
        | .pop => (match s.upLink thr with | some l => !l.vals.isEmpty || l.srcEnded | none => true)
        | _ => (match s.downLink thr with | some l => decide (l.vals.length < 16) | none => true)
      if ready then s.setThread thr { th with st := .runnable, wait := none } else s
    else s
  | _, _ => s

/-- QIN_POP_COMPLETE. -/
def execQinPopComplete (thr : Nat) (s : State) : Out := .next (s.reissueLink thr .pop)

/-- QOUT_PUSH_COMPLETE. -/
def execQoutPushComplete (thr : Nat) (s : State) : Out := .next (s.reissueLink thr .push)

/-- HANDLER_LIMIT: a handler's 65th bundle traps before it is decoded; TWORD and TWORDH hold its words (R58, R44,
17_context R304). -/
def execHandlerLimit (s : State) : Out := .next (s.trap (handlerErr 1))

/-- ILLEGAL_ENCODING: the word at fault and the reason (02_encoding R42, R43). -/
def execIllegalEncoding (idx : BitVec 3) (reason : BitVec 4) (s : State) : Out :=
  .next (s.trap { cause := 1, tval := BitVec.ofNat 64 (idx.toNat + 16 * reason.toNat) })

/-- Drop the `k`-th entry. -/
def dropAt {α : Type} (l : List α) (k : Nat) : List α := l.take k ++ l.drop (k + 1)

/-- The result of an outstanding bundle, its `k`-th, has come: its registers are written, or it is pushed; a full link delays
that, as does a remote access a push releases, and a missing link is an error raised later (R59, R61, 04_scalar R67). -/
def State.deliver (s : State) (t k : Nat) (p : Pend) : State :=
  let th := s.thread t
  match p.vals.find? fun e => decide (e.1 = Reg.s 31) with
  | some e =>
    match s.downLink t with
    | none => s.setThread t { th with pend := th.pend.set k { p with err := some (queueErr 31 1) } }
    | some l =>
      if 16 ≤ l.vals.length ∨ th.remOut ≠ [] then s
      else ((s.ackAll t).push t (e.2.setWidth 64)).setThread t { th with pend := dropAt th.pend k }
  | none =>
    let th := th.writeLate s.moment p.vals
    s.setThread t { th with pend := dropAt th.pend k }

/-- LONG_LATENCY_COMPLETE: the result of a committed bundle is ready and delivered; a gang's reduction is combined once no member owes its part (06_vector R138). -/
def execLongLatencyComplete (thr k : Nat) (s : State) : Out :=
  .next (let th := s.thread thr
    match th.pend[k]? with
    | none => s
    | some p =>
      match p.due, p.err with
      | .gang _ _ _ ms num n, none =>
        if ms.any fun m => (s.thread m).owes num n then
          match ms.find? fun m => (s.thread m).owes num n && s.stuckSaving m with
          | some m => s.dissolveAt ms num (match (s.thread m).gang with | some g => g.done | none => 0)
          | none => s
        else s.reduce ms num n
      | .ready at_, none => if s.cycle < at_ then s else s.deliver thr k p
      | _, _ => s)

end Sys2Proof.Machine
end

