-- ==== Sys2Proof/Machine/Formats.lean ====
section
/-! DEFINITION. The format table, its instructions, conversions and the scalar float instructions (05_formats
R83-R111). -/

namespace Sys2Proof.Machine

open Sys2Proof

/-! ### The table (R83, R97-R99, 17_context R309) -/

def FmtEnt.slot (e : FmtEnt) (k : Nat) : List (BitVec 32) := if k = 0 then e.slot0 else e.slot1

/-- Kind of a word (R84). -/
def kindOf (w : W64) : Nat := bits w.toNat 2 0

/-- The snapshot a user of an entry takes. -/
def State.snap (s : State) (c i : Nat) : Snap :=
  let x := s.ctx c
  let w := x.fmtWord i
  let e := tget {} x.fmts i
  if kindOf w = 4 then { ctx := c, entry := i, word := w, slot := e.cur, values := e.slot e.cur }
  else { ctx := c, entry := i, word := w }

def Snap.fmt (x : Snap) : Fmt := fmtOf x.word x.values

def MOp.snaps : MOp → List Snap
  | .mma _ _ a b => [a.fmt, b.fmt]
  | .drain _ _ f _ => [f]
  | .neteval _ _ w a _ => [w, a]
  | .mzero _ => []
  | .accrd _ _ _ _ => []
  | .accwr _ _ _ _ => []

/-- Snapshots of operations that have not completed. Those that stand only in an MSAVE image do not count: the spec does
not say whether they reference their version slots (DESIGN CHOICE; entry 37). -/
def State.snaps (s : State) : List Snap :=
  (s.cores.map fun (_, c) => (c.mq.map (·.op.snaps)).flatten ++ (c.cq.map fun r => r.src.toList ++ r.dst.toList).flatten).flatten ++
  (s.groups.map fun (_, g) => (g.save.mstate.map fun (_, q, _) => (q.map (·.op.snaps)).flatten).flatten).flatten ++
  (s.thr.map fun (_, th) => (th.pend.map fun p => if p.err.isNone then p.snaps else []).flatten).flatten

/-- Is a version slot neither current nor referenced (R98)? -/
def State.slotFree (s : State) (c i k : Nat) : Bool :=
  let e := tget {} (s.ctx c).fmts i
  !(decide (kindOf e.word = 4) && decide (e.cur = k)) &&
  !(s.snaps.any fun x => decide (x.ctx = c) && decide (x.entry = i) && decide (kindOf x.word = 4) && decide (x.slot = k))

/-- The lowest free version slot of an entry. -/
def State.freeVersion (s : State) (c i : Nat) : Option Nat := [0, 1].find? (s.slotFree c i)

/-- Replace an entry; the context's record does not change. -/
def State.setFmt (s : State) (c i : Nat) (e : FmtEnt) : State :=
  let x := s.ctx c
  { s with ctxs := tput s.ctxs c { x with fmts := tput x.fmts i e } }

def wordBytes (ws : List (BitVec 32)) : List (BitVec 8) := (ws.map fun w => toBytes 4 w.toNat).flatten

/-- Place of a version slot in the context's format image (R309). -/
def Ctx.slotAddr (c : Ctx) (i k : Nat) : Nat := c.image % 2 ^ 40 + 0x400 + 2048 * (i - 8) + 1024 * k

/-- Install a codebook in a version slot; its values stand in the image. -/
def State.installBook (s : State) (c i k : Nat) (w : W64) (vals : List (BitVec 32)) : State :=
  let e := tget {} (s.ctx c).fmts i
  let s := s.setFmt c i (if k = 0 then { e with word := w, cur := 0, slot0 := vals } else { e with word := w, cur := 1, slot1 := vals })
  s.memWrite none ((s.ctx c).slotAddr i k) (wordBytes vals)

/-- Write the format image at a suspend: the entry words; the version slots stand there already. -/
def State.fmtImageWrite (s : State) (c : Nat) : State :=
  (List.range 32).foldl (fun s i => s.memPut ((s.ctx c).image % 2 ^ 40 + 8 * i) 8 ((s.ctx c).fmtWord i).toNat) s

/-- The VALID entries of a context go INVALID, the words and the values zeroed where they stand (R97, VF scrub). -/
def State.scrubFmts (s : State) (c : Nat) : State :=
  let s := ((List.range 24).map (· + 8)).foldl (fun s i =>
    let x := s.ctx c
    if x.fmtWord i = 0 then s
    else (s.memPut (x.image % 2 ^ 40 + 8 * i) 8 0).memWrite none (x.slotAddr i 0) (List.replicate 2048 0)) s
  s.setCtx c { s.ctx c with fmts := [] }

/-- Number of codebook values of a word. -/
def bookSize (w : W64) : Nat := if kindOf w = 4 then 2 ^ bits w.toNat 16 12 else 0

/-- The FP32 values at an address of the device's memory. -/
def State.memWords (s : State) (a n : Nat) : List (BitVec 32) :=
  (List.range n).map fun i => BitVec.ofNat 32 (s.memRead (a + 4 * i) 4)

/-- Reload the format table from the image at a resume. -/
def State.fmtImageRead (s : State) (c : Nat) : State :=
  ((List.range 24).map (· + 8)).foldl (fun s i =>
    let x := s.ctx c
    let e := tget {} x.fmts i
    let w : W64 := BitVec.ofNat 64 (s.memRead (x.image % 2 ^ 40 + 8 * i) 8)
    let vals := s.memWords (x.slotAddr i e.cur) (bookSize w)
    if w = 0 ∧ e = {} then s
    else if kindOf w = 4 then
      s.setFmt c i (if e.cur = 0 then { e with word := w, slot0 := vals } else { e with word := w, slot1 := vals })
    else s.setFmt c i { e with word := w }) s

/-! ### Validation (R85) and acceptance (R86) -/

/-- FMT: reason and entry index. -/
def fmtErr (reason entry : Nat) : Err := { cause := 7, tval := BitVec.ofNat 64 (entry + reason * 256) }

/-- Checks 1 to 3, on the word alone. -/
def wordCheck (w : W64) : Option Nat :=
  let n := w.toNat
  let f := fmtOf w
  let width := decide (f.W = 4 ∨ f.W = 8 ∨ f.W = 16)
  if n / 2 ^ 31 ≠ 0 then some 1
  else if 5 ≤ f.kind ∨ 3 ≤ f.policy ∨ bits n 30 29 = 3 then some 2
  else
    let fits :=
      if f.kind = 0 then decide (n = 0)
      else if w = 0x10FE0089#64 then false
      else if f.kind = 1 then
        width && decide (1 ≤ f.E ∧ f.E ≤ 8) && decide ((if f.sign then 1 else 0) + f.E + f.F = f.W) &&
          (decide (f.policy ≠ 0) || decide (2 ≤ f.E ∧ 1 ≤ f.F))
      else if f.kind = 4 then
        decide (f.W = 4 ∨ f.W = 8) && !f.sign && !f.sub && decide (f.E = 0 ∧ f.F = 0 ∧ f.bias = 0 ∧ f.policy = 0)
      else
        width && decide (f.E = 0 ∧ f.F = 0 ∧ f.policy = 0) && !f.sub && decide (f.sign = decide (f.kind = 2))
    if fits then none else some 3

/-- Check 4 of a float or an integer word: every finite value is exact in E8M10. -/
def exactWord (f : Fmt) : Bool :=
  if f.kind = 1 then
    decide (f.F ≤ 10) && decide (-136 ≤ 1 - f.bias - (f.F : Int)) && exactE8M10 (decodeFloat f (maxCode f false))
  else
    decide (f.W ≤ 8) && exactE8M10 (decodeInt f 1) &&
      exactE8M10 (decodeInt f (if f.kind = 2 then 2 ^ (f.W - 1) else 2 ^ f.W - 1))

/-- Do the values strictly increase? -/
def rising : List Val → Bool
  | a :: b :: r => a.lt b && rising (b :: r)
  | _ => true

/-- Checks 4 and 5. -/
def valueCheck (w : W64) (vals : List (BitVec 32)) : Option Nat :=
  let f := fmtOf w
  if f.kind = 0 then none
  else if f.kind = 4 then
    let vs := vals.map fun v => val32 v
    let real := vs.filter fun v => !v.isNan
    if !vs.all exactE8M10 then some 4
    else if vs.length ≤ real.length + 1 && rising real then none
    else some 5
  else if exactWord f then none else some 4

/-- Acceptance for a use: `none`, or the reason. -/
def acceptFloat (w : W64) : Option Nat :=
  let f := fmtOf w
  if f.kind = 0 then some 7
  else if f.W = 32 ∨ (f.kind = 1 ∧ f.sign ∧ f.W = 16) then none
  else some 8

def acceptAny (w : W64) : Option Nat := if kindOf w = 0 then some 7 else none

/-- Matrix operands, NETEVAL weights and activations: any valid entry except 0. -/
def acceptMatrix (i : Nat) (w : W64) : Option Nat := if kindOf w = 0 then some 7 else if i = 0 then some 8 else none

/-! ### Reading the word and its values -/

/-- The parts of an area within lines of 64 bytes. -/
def pieces (va n : Nat) : List (Nat × Nat) :=
  if n = 0 then []
  else
    (linesOf va n).map fun l =>
      let lo := max va l
      (lo, min (va + n) (l + 64) - lo)

/-- Plain loads of an area, in address order. -/
def State.readPieces (s : State) (t : Nat) : List (Nat × Nat) → State × Got
  | [] => (s, .ok [] none)
  | (va, n) :: r =>
    match s.readAt t (va % 2 ^ 72) n with
    | (s, .ok bs e) =>
      match s.readPieces t r with
      | (s, .ok bs' e') => (s, .ok (bs ++ bs') (e.or e'))
      | x => x
    | x => x

/-- The number of bytes read, when a piece faulted: where it faulted. -/
def State.faultPiece (s : State) (t : Nat) : List (Nat × Nat) → Nat
  | [] => 0
  | (va, n) :: r =>
    match s.readAt t (va % 2 ^ 72) n with
    | (s, .ok _ _) => s.faultPiece t r
    | _ => va % 2 ^ 72

/-- 4-byte words of a list of bytes. -/
def bytesWords (bs : List (BitVec 8)) (n : Nat) : List (BitVec 32) :=
  (List.range n).map fun i => BitVec.ofNat 32 (ofBytes ((bs.drop (4 * i)).take 4))

/-! ### FMTSET, FMTGET, FSET, FMTINV (R102-R105) -/

/-- The entry is installed, or waits for a version slot (R98). -/
def State.install (s : State) (srcs : List SReg) (c i : Nat) (w : W64) (vals : List (BitVec 32)) : State :=
  if kindOf w = 4 then
    match s.freeVersion c i with
    | some k => (s.installBook c i k w vals).commit srcs [] [] (.ready s.cycle)
    | none => s.commit [] [] [] (.format i w vals (decide (30#5 ∈ srcs)))
  else (s.setFmt c i { tget {} (s.ctx c).fmts i with word := w }).commit srcs [] [] (.ready s.cycle)

/-- FMTSET. -/
def execFmtset (a : AReg) (b : SReg) (s : State) : Out :=
  .next (s.withOps [b] none fun r =>
    let i := bits (r b).toNat 4 0
    let ea := s.cur.readA a
    if i < 8 then s.trap (fmtErr 6 i)
    else if ea.toNat % 8 ≠ 0 then s.trap (misalign ea)
    else
      let t := s.iss.thr
      let c := s.cur.ctx
      let (s1, g) := s.readAt t ea.toNat 8
      s1.onGot g .load ea.toNat fun bs err =>
        let w : W64 := BitVec.ofNat 64 (ofBytes bs)
        if err.isSome then s1.commit [b] [] [] (.ready s1.cycle) err (mem := true)
        else
          match wordCheck w with
          | some k => s1.trap (fmtErr k i)
          | none =>
            let ps := pieces (ea.toNat + 8) (4 * bookSize w)
            let (s2, g2) := s1.readPieces t ps
            s2.onGot g2 .load (s1.faultPiece t ps) fun bs2 err2 =>
              if err2.isSome then s2.commit [b] [] [] (.ready s2.cycle) err2 (mem := true)
              else
                let vals := bytesWords bs2 (bookSize w)
                match valueCheck w vals with
                | some k => s2.trap (fmtErr k i)
                | none => s2.install [b] c i w vals)

/-- FMTSET_INSTALL: a version slot is free for the oldest waiting FMTSET of the thread (R98). -/
def execFmtsetInstall (thr : Nat) (s : State) : Out :=
  .next (let th := s.thread thr
    match th.pend.findIdx? fun p => match p.due with | .format _ _ _ _ => true | _ => false with
    | none => s
    | some k =>
      match th.pend[k]? with
      | some p =>
        match p.due with
        | .format i w vals pops =>
          match s.freeVersion th.ctx i with
          | some v =>
            let s := s.installBook th.ctx i v w vals
            let s := if pops then s.pop thr else s
            s.setThread thr { s.thread thr with pend := dropAt th.pend k }
          | none => s
        | _ => s
      | none => s)

/-- FMTGET: an entry word, FSEL, or FFLAGS, cleared for selection 3. -/
def execFmtget (d b : SReg) (s : State) : Out :=
  .next (s.withOps [b] (some d) (late := true) fun r =>
    let sel := bits (r b).toNat 6 5
    let th := s.cur
    let v := if sel = 0 then (s.ctx th.ctx).fmtWord (bits (r b).toNat 4 0) else if sel = 1 then th.fsel else th.fflags
    let s := if sel = 3 then s.setCur { th with fflags := 0 } else s
    s.commit [b] [.s d] [(.s d, v.setWidth 512)] (.ready s.cycle))

/-- FSET. -/
def execFset (w : BitVec 2) (a : SReg) (s : State) : Out :=
  .next (s.withOps [a] none fun r =>
    s.retireT [a] fun th =>
      let old := th.fsel.toNat
      let k := 2 ^ (5 * w.toNat)
      { th with fsel := BitVec.ofNat 64 (old - old / k % 32 * k + bits (r a).toNat 4 0 * k) })

/-- FMTINV. -/
def execFmtinv (b : SReg) (s : State) : Out :=
  .next (s.withOps [b] none fun r =>
    let i := bits (r b).toNat 4 0
    let c := s.cur.ctx
    if i < 8 then s.trap (fmtErr 6 i)
    else (s.setFmt c i { tget {} (s.ctx c).fmts i with word := 0 }).retire [b])

/-! ### Fields of a v-register -/

/-- Bits [pos+w−1 : pos]. -/
def fieldAt (v : V512) (pos w : Nat) : Nat := v.toNat / 2 ^ pos % 2 ^ w
/-- The register with those bits replaced. -/
def putAt (v : V512) (pos w x : Nat) : V512 :=
  BitVec.ofNat 512 (v.toNat - fieldAt v pos w * 2 ^ pos + x % 2 ^ w * 2 ^ pos)

/-! ### CVT, CVTEF (R106, R107) -/

/-- First bit of the chunk of `n` narrow elements at part `p`. -/
def chunkBase (n narrow p : Nat) : Nat := 64 * (p - p % (n * narrow / 64))

def addFlags (th : Thread) (f : Nat) : Thread := { th with fflags := th.fflags ||| BitVec.ofNat 64 f }

/-- CVT. DESIGN CHOICE (entry 20): where neither entry is accepted, TVAL names the from entry. -/
def execCvt (d a : VReg) (b : SReg) (s : State) : Out :=
  .next (s.withOps [b] none fun r =>
    let n := (r b).toNat
    let c := s.cur.ctx
    let from_ := s.snap c (bits n 4 0)
    let dests := s.snap c (bits n 9 5)
    match acceptAny from_.word, acceptAny dests.word with
    | some k, _ => s.trap (fmtErr k from_.entry)
    | none, some k => s.trap (fmtErr k dests.entry)
    | none, none =>
      let f := from_.fmt
      let g := dests.fmt
      let wide := max f.W g.W
      let m := 512 / wide
      let base := chunkBase m (min f.W g.W) (bits n 15 13)
      let src := s.cur.readV a
      let (v, fl) := (List.range m).foldl (fun (acc : V512 × Nat) i =>
        let code := fieldAt src ((if f.W < g.W then base else 0) + f.W * i) f.W
        let (y, e) := encodeVal g (decodeVal f code) (rndOf (bits n 11 10)) (decide (bits n 12 12 = 1))
        (putAt acc.1 ((if g.W < f.W then base else 0) + g.W * i) g.W y, acc.2 ||| e)) (s.cur.readV d, 0)
      s.retireT [b] fun th => addFlags (th.writeV d v) fl)

/-- The finite range of a float or integer entry. -/
def finiteRange (f : Fmt) : Val × Val :=
  if f.kind = 1 then
    let top := decodeFloat f (maxCode f false)
    (if f.sign then top.neg else .fin false 0 0, top)
  else if f.kind = 2 then (decodeInt f (2 ^ (f.W - 1)), decodeInt f (2 ^ (f.W - 1) - 1))
  else (.fin false 0 0, decodeInt f (2 ^ f.W - 1))

/-- CVTEF: codes to v_d, residuals to v_d+1, lanes out of range to m7. A from entry that is INVALID traps with reason 7
and its index, as every use of an INVALID entry does (R97), where the operand line would give reason 8, and where neither
entry is accepted TVAL names the from entry (DESIGN CHOICE; entry 20). -/
def execCvtef (d a : VReg) (b : SReg) (s : State) : Out :=
  .next (s.withOps [b] none fun r =>
    let n := (r b).toNat
    let c := s.cur.ctx
    let from_ := bits n 4 0
    let dests := s.snap c (bits n 9 5)
    match acceptAny (s.snap c from_).word, acceptAny dests.word with
    | some k, _ => s.trap (fmtErr k from_)
    | none, some k => if from_ = 0 then s.trap (fmtErr k dests.entry) else s.trap (fmtErr 8 from_)
    | none, none =>
      if from_ ≠ 0 then s.trap (fmtErr 8 from_)
      else if kindOf dests.word = 4 then s.trap (fmtErr 8 dests.entry)
      else
        let f := dests.fmt
        let base := chunkBase 16 f.W (bits n 15 13)
        let src := s.cur.readV a
        let (lo, hi) := finiteRange f
        let lane := fun i =>
          let x := val32 (BitVec.ofNat 32 (fieldAt src (32 * i) 32))
          let (code, e) := encodeVal f x (rndOf (bits n 11 10)) (decide (bits n 12 12 = 1))
          let out := x.isNan || x.lt lo || hi.lt x
          (code, (rne32 (x.sub (decodeVal f code)).1).toNat, out, e ||| (if out && !x.isNan then flOver else 0))
        let ls := (List.range 16).map fun i => (i, lane i)
        let codes := ls.foldl (fun v (i, l) => if f.W = 32 then putAt v (32 * i) 32 l.1 else putAt v (base + f.W * i) f.W l.1) (s.cur.readV d)
        let res := ls.foldl (fun v (i, l) => putAt v (32 * i) 32 l.2.1) (0 : V512)
        let outs := (ls.map fun (i, l) => if l.2.2.1 then 2 ^ i else 0).sum
        let fl := ls.foldl (fun e (_, l) => e ||| l.2.2.2) 0
        s.retireT [b] fun th =>
          addFlags (((th.writeV d codes).writeV (d + 1) res).writeM 7 (th.readM 7 ||| BitVec.ofNat 64 outs)) fl)

/-! ### Scalar float instructions (R108-R111) -/

/-- The entry an FSEL slot names, accepted for float use, or its FMT trap. -/
def State.onSlot (s : State) (fs : Nat) (k : Fmt → State) : State :=
  let i := bits s.cur.fsel.toNat (5 * fs + 4) (5 * fs)
  let w := (s.ctx s.cur.ctx).fmtWord i
  match acceptFloat w with
  | some reason => s.trap (fmtErr reason i)
  | none => k (fmtOf w)

def State.withFlags (s : State) (f : Nat) : State := s.setCur (addFlags s.cur f)

/-- s_d := the encoded result. -/
def State.retireF (s : State) (srcs : List SReg) (d : SReg) (f : Fmt) (x : Flagged Val) : State :=
  let (c, e) := encodeVal f x.1
  (s.withFlags (x.2 ||| e)).retireS srcs d (BitVec.ofNat 64 c)

def floatOp (d a b : SReg) (fs : BitVec 2) (op : Val → Val → Flagged Val) (s : State) : State :=
  s.withOps [a, b] (some d) fun r =>
    s.onSlot fs.toNat fun f => s.retireF [a, b] d f (op (decodeVal f (r a).toNat) (decodeVal f (r b).toNat))

/-- FADD. -/
def execFadd (d a b : SReg) (fs : BitVec 2) (s : State) : Out := .next (floatOp d a b fs Val.add s)
/-- FSUB. -/
def execFsub (d a b : SReg) (fs : BitVec 2) (s : State) : Out := .next (floatOp d a b fs Val.sub s)
/-- FMUL. -/
def execFmul (d a b : SReg) (fs : BitVec 2) (s : State) : Out := .next (floatOp d a b fs Val.mul s)
/-- FFMA: s_d is the addend. -/
def execFfma (d a b : SReg) (fs : BitVec 2) (s : State) : Out :=
  .next (s.withOps [d, a, b] (some d) fun r =>
    s.onSlot fs.toNat fun f =>
      s.retireF [d, a, b] d f (Val.fma (decodeVal f (r a).toNat) (decodeVal f (r b).toNat) (decodeVal f (r d).toNat)))

/-- A comparison: the relation, and the flags it raises on a NaN operand. -/
def floatCmp (d a b : SReg) (fs : BitVec 2) (rel : Val → Val → Bool) (nanFlag : Nat) (s : State) : State :=
  s.withOps [a, b] (some d) fun r =>
    s.onSlot fs.toNat fun f =>
      let x := decodeVal f (r a).toNat
      let y := decodeVal f (r b).toNat
      (s.withFlags (if x.isNan || y.isNan then nanFlag else 0)).retireS [a, b] d (if rel x y then 1 else 0)

/-- FEQ. -/
def execFeq (d a b : SReg) (fs : BitVec 2) (s : State) : Out := .next (floatCmp d a b fs Val.eqv 0 s)
/-- FLT. -/
def execFlt (d a b : SReg) (fs : BitVec 2) (s : State) : Out := .next (floatCmp d a b fs Val.lt flInvalid s)
/-- FLE. -/
def execFle (d a b : SReg) (fs : BitVec 2) (s : State) : Out := .next (floatCmp d a b fs Val.le flInvalid s)
/-- FUNORD. -/
def execFunord (d a b : SReg) (fs : BitVec 2) (s : State) : Out :=
  .next (floatCmp d a b fs (fun x y => x.isNan || y.isNan) 0 s)

/-- To an integer in a range. -/
def floatToInt (d a : SReg) (fs : BitVec 2) (lo hi : Int) (s : State) : State :=
  s.withOps [a] (some d) fun r =>
    s.onSlot fs.toNat fun f =>
      let (x, e) := toInteger lo hi (decodeVal f (r a).toNat)
      (s.withFlags e).retireS [a] d (BitVec.ofInt 64 x)

def intToFloat (d a : SReg) (fs : BitVec 2) (val : W64 → Int) (s : State) : State :=
  s.withOps [a] (some d) fun r =>
    s.onSlot fs.toNat fun f => s.retireF [a] d f (Val.ofInt (val (r a)), 0)

/-- FTOI. -/
def execFtoi (d a : SReg) (fs : BitVec 2) (s : State) : Out := .next (floatToInt d a fs (-(2 ^ 63)) (2 ^ 63 - 1) s)
/-- FTOIN. -/
def execFtoin (d a : SReg) (fs : BitVec 2) (s : State) : Out := .next (floatToInt d a fs 0 (2 ^ 64 - 1) s)
/-- ITOF. -/
def execItof (d a : SReg) (fs : BitVec 2) (s : State) : Out := .next (intToFloat d a fs (fun x => x.toInt) s)
/-- ITOFN. -/
def execItofn (d a : SReg) (fs : BitVec 2) (s : State) : Out := .next (intToFloat d a fs (fun x => (x.toNat : Int)) s)

/-- FABS clears the sign bit of the code. -/
def execFabs (d a : SReg) (fs : BitVec 2) (s : State) : Out :=
  .next (s.withOps [a] (some d) fun r =>
    s.onSlot fs.toNat fun f => s.retireS [a] d (BitVec.ofNat 64 ((r a).toNat % 2 ^ (f.W - 1))))

/-- FNEG inverts it. -/
def execFneg (d a : SReg) (fs : BitVec 2) (s : State) : Out :=
  .next (s.withOps [a] (some d) fun r =>
    s.onSlot fs.toNat fun f =>
      let x := (r a).toNat % 2 ^ f.W
      s.retireS [a] d (BitVec.ofNat 64 ((x + 2 ^ (f.W - 1)) % 2 ^ f.W)))

end Sys2Proof.Machine
end

