-- ==== Sys2Proof/Machine/Engines.lean ====
section
/-! DEFINITION. Timelines, the copy engine and the transform coprocessor (11_engines R203-R220). -/

namespace Sys2Proof.Machine

open Sys2Proof

/-! ### Timelines (R203, R204) -/

/-- A numbered instruction issues. -/
def Thread.number (th : Thread) (c : Nat) : Thread × Nat :=
  let n := th.timeIssued c + 1
  ({ th with issued := tput th.issued c n, ops := th.ops ++ [{ cls := c, num := n }] }, n)

/-- Number the bundle being issued. -/
def State.number (s : State) (c : Nat) : State × Nat :=
  let (th, n) := s.cur.number c
  (s.setCur th, n)

def Thread.finish (th : Thread) (c n flags : Nat) (err : Option Err) : Thread :=
  let ops := match err with
    | none => th.ops.filter fun o => !(decide (o.cls = c) && decide (o.num = n))
    | some _ => th.ops.map fun o => if o.cls = c ∧ o.num = n then { o with complete := true, err := err } else o
  { addFlags th flags with ops := ops }

/-- An operation completes on its issuer's timeline; an ended issuer's error marks its kernel faulted. -/
def State.finishOp (s : State) (o : Owner) (c n flags : Nat) (err : Option Err) : State :=
  match s.modOwner o fun th => th.finish c n flags err with
  | (s, true) => s
  | (s, false) =>
    match err with
    | some e => s.markOwner o e
    | none => s

/-- The lowest-numbered operation up to `v` that ended in error. -/
def Thread.timeError (th : Thread) (c v : Nat) : Option TimeOp :=
  th.ops.find? fun o => decide (o.cls = c) && o.err.isSome && decide (o.num ≤ v)

def Thread.clearError (th : Thread) (o : TimeOp) : Thread := { th with ops := th.ops.filter fun p => decide (p ≠ o) }

/-- WAITTL (R219). -/
def execWaittl (d : BitVec 3) (a : SReg) (s : State) : Out :=
  .next (s.withOps [a] none fun r =>
    let c := d.toNat
    let v := min (r a).toNat (s.cur.timeIssued c)
    if s.cur.timeDone c < v then s.block (.timeline c (BitVec.ofNat 64 v)) [a]
    else
      match s.cur.timeError c v with
      | some o => (s.setCur (s.cur.clearError o)).trap (o.err.getD { cause := 15 })
      | none => (s.flushL1 s.curCore).retire [a])

/-- WAITTL_COMPLETE. -/
def execWaittlComplete (thr : Nat) (s : State) : Out :=
  .next (let th := s.thread thr
    match th.st, th.wait with
    | .waiting, some x =>
      match x.w with
      | .timeline c n =>
        let v := min n.toNat (th.timeIssued c)
        if th.timeDone c < v then s
        else
          match th.timeError c v with
          | some o =>
            let s := if th.pend = [] then s.setThread thr (th.clearError o) else s
            s.unblockTrap thr x (o.err.getD { cause := 15 })
          | none => s.unblock thr x fun s => (s.flushL1 (coreOf thr)).done
      | _ => s
    | _, _ => s)

/-- TLRD (R220). -/
def execTlrd (d : SReg) (i : Imm) (s : State) : Out :=
  .next (s.withOps [] (some d) fun _ =>
    let c := bits i.toNat 2 0
    s.retireS [] d (BitVec.ofNat 64 (if bits i.toNat 3 3 = 1 then s.cur.timeIssued c else s.cur.timeDone c)))

/-! ### Accesses of an engine (R210) -/

/-- What an engine's access finds; `wait`: what it must wait for is before it, and it is tried again. -/
inductive EGot where
  | ok (bs : List (BitVec 8))
  | err (e : Err)
  | soft (cause kind va : Nat)
  | wait
  deriving DecidableEq, Repr

/-- The lowest address of the 64-byte unit an engine faults in. DESIGN CHOICE (entry 17): the aligned 64 bytes that hold the
part it accesses, also where the unit it moves is not aligned (12_page R236), and for TVAL where there is no ring (R234). -/
def unitAddr (va : Nat) : Nat := va / 64 * 64

/-- What another device has answered, as an engine finds it; it keeps no walker waiting. -/
def Got.engine (va kind : Nat) : Got → EGot
  | .ok bs none => .ok bs
  | .ok _ (some e) => .err e
  | .hard k => .err (addrErr va k)
  | .soft c => .soft c kind (unitAddr va)
  | .busy => .soft 3 kind (unitAddr va)
  | .wait => .wait

/-- What a translation that gives no page leaves an engine. -/
def Xlat.engine (va kind : Nat) : Xlat → EGot
  | .soft c => .soft c kind (unitAddr va)
  | .ecc a => .err (eccAt a va)
  | .hard k => .err (addrErr va k)
  | _ => .err (addrErr va 3)

/-- Bytes of device memory, read in the context at the home slices; 64-byte parts in address order. -/
def State.devRead (s : State) (w : Asker) (ctx : Nat) : List (Nat × Nat) → State × EGot
  | [] => (s, .ok [])
  | (va, n) :: r =>
    let va := va % 2 ^ 72
    let go := fun (s : State) (bs : List (BitVec 8)) =>
      match s.devRead w ctx r with
      | (s, .ok bs') => (s, EGot.ok (bs ++ bs'))
      | x => x
    let far := fun (s : State) (g : Got) =>
      match g.engine va 0 with
      | .ok bs => go s bs
      | x => (s, x)
    match s.sentBefore w .get va n with
    | some (s, g) => far s g
    | none =>
      match s.xlateDev ctx .load va with
      | (s, .ok node pa _) =>
        if node = s.dev.node then
          if s.memPoisoned pa n then (s, .err (eccMem va)) else go s (s.memGet pa n)
        else
          match s.remoteAccess w .get node pa va n with
          | (s, g) => far s g
      | (s, x) => (s, x.engine va 0)

/-- Translate the parts of a write; none is made here before all are. What goes to another device, `data` from the
first part on, is sent to it. -/
def State.devPlaces (s : State) (w : Asker) (ctx : Nat) (data : Option (List (BitVec 8))) :
    List (Nat × Nat) → State × EGot × List (Option Nat)
  | [] => (s, .ok [], [])
  | (va, n) :: r =>
    let va := va % 2 ^ 72
    let go := fun (s : State) (p : Option Nat) =>
      match s.devPlaces w ctx (data.map fun bs => bs.drop n) r with
      | (s, g, ps) => (s, g, p :: ps)
    let far := fun (s : State) (g : Got) =>
      match g.engine va 1 with
      | .ok _ => go s none
      | x => (s, x, [])
    match data.bind fun bs => s.sentBefore w .put va n (bs.take n) with
    | some (s, g) => far s g
    | none =>
      match s.xlateDev ctx .store va with
      | (s, .ok node pa _) =>
        if node = s.dev.node then go s (some pa)
        else
          match data with
          | none => go s none
          | some bs =>
            match s.remoteAccess w .put node pa va n (bs.take n) with
            | (s, g) => far s g
      | (s, x) => (s, x.engine va 1, [])

/-- Write bytes to device memory in the context. -/
def State.devWrite (s : State) (w : Asker) (ctx va : Nat) (bs : List (BitVec 8)) : State × EGot :=
  let ps := pieces va bs.length
  match s.devPlaces w ctx (some bs) ps with
  | (s, .ok _, places) =>
    ((ps.zip places).foldl (fun s (p, at_) =>
      match at_ with
      | some pa => s.memWrite none pa ((bs.drop (p.1 - va)).take p.2)
      | none => s) s, .ok [])
  | (s, g, _) => (s, g)

/-- Where the local-store bytes an engine names lie (R210, R153): in the image of its own group once that is saved, else on
the core, refused where that holds no task of the context. The issuer's own core is never refused. A saved image of another
group takes credits alone (08_barrier R164). -/
def State.localHome (s : State) (o : Owner) (core off n : Nat) : Home :=
  match s.ownSaved o.grp core off n with
  | some key => .saved key
  | none => if s.hasTask core o.ctx ∨ core = coreOf o.thr then .live else .refused

def State.engLocalRead (s : State) (o : Owner) (core off n : Nat) : EGot :=
  match s.localHome o core off n with
  | .live => if s.lsPoisoned core off n then .err (eccLocal off) else .ok (lsGet (s.core core) off n)
  | .saved key =>
    match tfind s.groups key with
    | some g =>
      if (g.save.poisonOf core).any (touches off n) then .err (eccLocal off)
      else .ok ((List.range n).map fun i => tget 0 (g.save.region core) (off + i))
    | none => .err (remoteErr core 2)
  | .refused => .err (remoteErr core 2)

def State.engLocalWrite (s : State) (o : Owner) (core off : Nat) (bs : List (BitVec 8)) : State × EGot :=
  match s.localHome o core off bs.length with
  | .live => (s.lsWrite core off bs, .ok [])
  | .saved key => (s.savedWrite key core off bs, .ok [])
  | .refused => (s, .err (remoteErr core 2))

/-- Read `n` bytes at a place moved by `d`. -/
def State.locRead (s : State) (o : Owner) (l : Loc) (d : Int) (n : Nat) : State × EGot :=
  match l with
  | .dev va => let a := wrapVa (va + d); s.devRead (.engine o) o.ctx (pieces a n)
  | .loc core off =>
    let s := s.lsTouch core (off + d).toNat n o.ctx
    (s, s.engLocalRead o core (off + d).toNat n)
where
  wrapVa (x : Int) : Nat := (x % (2 ^ 72 : Nat)).toNat

/-- Write bytes at a place moved by `d`. DESIGN CHOICE (entry 17): an access that runs past the 72-bit address space goes on at
its start, while areas overlap by their addresses as computed (R208). -/
def State.locWrite (s : State) (o : Owner) (l : Loc) (d : Int) (bs : List (BitVec 8)) : State × EGot :=
  match l with
  | .dev va => s.devWrite (.engine o) o.ctx ((va + d) % (2 ^ 72 : Nat)).toNat bs
  | .loc core off => s.engLocalWrite o core (off + d).toNat bs

/-- Read several parts and join them. -/
def State.locReadAll (s : State) (o : Owner) (l : Loc) : List (Int × Nat) → State × EGot
  | [] => (s, .ok [])
  | (d, n) :: r =>
    match s.locRead o l d n with
    | (s, .ok bs) =>
      match s.locReadAll o l r with
      | (s, .ok bs') => (s, .ok (bs ++ bs'))
      | x => x
    | x => x

/-- What a stalled request does on a soft fault: one record for each fault it stalls on, known by its page, its cause and its kind,
and the next retry; with no ring the fault is hard (R210, R233, R234). -/
def State.engFault (s : State) (o : Owner) (source cause kind va : Nat) (was : Option Stall) :
    State × Except Err Stall :=
  match s.faultRing o.ctx with
  | none => (s, .error (addrErr va 5))
  | some _ =>
    let seen := was.any fun w => decide (w.va / 4096 = va / 4096 ∧ w.cause = cause ∧ w.kind = kind)
    let s := if seen then s
      else s.faultEmit (cluOf o.thr) { ctx := o.ctx, data := faultRecord o.pc o.thr o.ctx source s.timens kind cause va }
    (s, .ok { retry := s.cycle + 4096, va := va, cause := cause, kind := kind })

/-! ### Copy descriptors (R206-R209) -/

/-- A place from its field: an address, or core and offset. -/
def placeOf (field : Nat) (isLocal : Bool) : Loc := if isLocal then .loc (bits field 30 20) (bits field 19 0) else .dev field

/-- A copy as its descriptor and snapshots give it. -/
structure Plan where
  kind : Nat
  rows : Nat
  row : Nat
  src : Loc
  dst : Loc
  ss : Int
  ds : Int
  /-- element widths on the source and destination side, in bits -/
  ws : Nat
  wd : Nat
  outRows : Nat
  outRow : Nat
  credit : Option (Nat × Nat)
  deriving DecidableEq, Repr

/-- Signed 32-bit field. -/
def int32 (n : Nat) : Int := if n < 2 ^ 31 then n else (n : Int) - (2 ^ 32 : Nat)

def planOf (d : Nat) (src dst : Option Snap) : Plan :=
  let kind := bits d 391 384
  let rows := bits d 287 256
  let row := bits d 319 288
  let e := 4 * 2 ^ bits d 406 405
  let w := fun (x : Option Snap) => match x with | some y => y.fmt.W | none => 8
  let ws := if kind = 2 then e else if kind = 1 then w src else 8
  let wd := if kind = 2 then e else if kind = 1 then w dst else 8
  { kind := kind, rows := rows, row := row
    src := placeOf (bits d 71 0) (bits d 408 408 = 1), dst := placeOf (bits d 199 128) (bits d 409 409 = 1)
    ss := if kind = 3 then 0 else int32 (bits d 351 320), ds := int32 (bits d 383 352)
    ws := ws, wd := wd
    outRows := if kind = 2 then 8 * row / e else rows
    outRow := if kind = 2 then rows * e / 8 else if kind = 1 then row * wd / ws else row
    credit := if bits d 410 410 = 1 then some (bits d 478 468, bits d 467 448) else none }

/-- Lowest and highest byte of an area. -/
def areaOf (base : Int) (rows n : Nat) (stride : Int) : Int × Int :=
  let span := stride * ((rows : Int) - 1)
  (base + min 0 span, base + max 0 span + n - 1)

def Loc.base : Loc → Int
  | .dev va => va
  | .loc _ o => o
def Loc.isLocal : Loc → Bool
  | .dev _ => false
  | .loc _ _ => true
def Loc.coreId : Loc → Nat
  | .dev _ => 0
  | .loc c _ => c

def Plan.srcArea (p : Plan) : Int × Int := areaOf p.src.base (if p.kind = 3 then 1 else p.rows) p.row p.ss
def Plan.dstArea (p : Plan) : Int × Int := areaOf p.dst.base p.outRows p.outRow p.ds

/-- Do the areas share a byte, by address, or by core and offset (R208)? -/
def Plan.overlap (p : Plan) : Bool :=
  (p.src.isLocal == p.dst.isLocal) && decide (p.src.coreId = p.dst.coreId) &&
    decide (p.srcArea.1 ≤ p.dstArea.2) && decide (p.dstArea.1 ≤ p.srcArea.2)

/-- Is an area inside a local store? -/
def inLocal (a : Int × Int) : Bool := decide (0 ≤ a.1) && decide (a.2 < (Config.localBytes : Int))

/-- MDESC of a copy or transform request. -/
def engErr (reason : Nat) : Err := mdescErr reason 3

/-- The checks of R209 in order. DESIGN CHOICE (entry 17): the from stride of an expand is ignored (R207) and no field that
must be 0; a check that needs an entry's width is not made for an INVALID entry, the length of a to row then counting as one
byte. DESIGN CHOICE (entry 20): of two INVALID entries FMT names the from entry. -/
def copyCheck (d : Nat) (src dst : Option Snap) (off : W64) : Option Err :=
  let p := planOf d src dst
  let ok := fun (x : Option Snap) => x.all fun y => decide (kindOf y.word ≠ 0)
  let okS := ok src
  let okD := ok dst
  let reserved := bits d 511 479 + bits d 447 411 + bits d 407 407 + bits d 255 200 + bits d 127 72 +
    (if p.kind = 2 then 0 else bits d 406 405) + (if p.kind = 1 then 0 else bits d 404 392) +
    (if p.src.isLocal then bits d 71 31 else 0) + (if p.dst.isLocal then bits d 199 159 else 0)
  let shape :=
    if p.kind = 1 then (!okS || decide (8 * p.row % p.ws = 0)) && (!(okS && okD) || decide (p.row * p.wd % p.ws = 0))
    else if p.kind = 2 then decide (p.rows % 32 = 0 ∧ p.row % (4 * p.ws) = 0)
    else true
  let dstArea := if okS && okD then p.dstArea else areaOf p.dst.base p.outRows 1 p.ds
  let al := fun (w : Nat) (l : Loc) (st : Int) =>
    let z : Int := max 1 (w / 8 : Nat)
    decide (l.base % z = 0) && decide (st % z = 0)
  if reserved ≠ 0 then some (engErr 20)
  else if p.rows = 0 ∨ 2 ^ 24 < p.rows ∨ p.row = 0 ∨ 2 ^ 24 < p.row then some (engErr 21)
  else if 3 < p.kind then some (engErr 22)
  else if !shape then some (engErr 23)
  else if (p.src.isLocal && !inLocal p.srcArea) || (p.dst.isLocal && !inLocal dstArea) ||
      decide (Config.localBytes < bits d 467 448 + 16) then some (engErr 24)
  else if decide (bits d 467 448 % 16 ≠ 0 ∨ Config.cores ≤ bits d 478 468) ||
      decide (Config.cores ≤ p.src.coreId ∨ Config.cores ≤ p.dst.coreId) then some (engErr 25)
  else if decide (p.kind = 1 ∨ p.kind = 2) && ((okS && !al p.ws p.src p.ss) || (okD && !al p.wd p.dst p.ds)) then some (engErr 26)
  else
    match src.filter (fun x => decide (kindOf x.word = 0)), dst.filter (fun x => decide (kindOf x.word = 0)) with
    | some x, _ => some (fmtErr 7 x.entry)
    | none, some y => some (fmtErr 7 y.entry)
    | none, none => if p.kind ≠ 0 ∧ p.overlap then some { cause := 8, tval := off } else none

/-- COPY (R217): held while the core's queue is full, and by nothing else; the engine's reads come after the thread's earlier
stores (R212). -/
def execCopy (a : SReg) (s : State) : Out :=
  .next (if 8 ≤ (s.core s.curCore).cq.length then s else s.withOps [a] none fun r =>
    match localCheck (r a) 64 64 Config.localBytes with
    | some e => s.trap e
    | none =>
      let core := s.curCore
      let o := (r a).toNat
      let d := s.lsRead core o 64
      let c := s.cur.ctx
      let snapOf := fun (i : Nat) => if bits d 391 384 = 1 then some (s.snap c i) else none
      let src := snapOf (bits d 396 392)
      let dst := snapOf (bits d 401 397)
      let s := s.lsTouch core o 64 s.cur.ctx
      if s.lsPoisoned core o 64 then s.trap (eccLocal o)
      else
        match copyCheck d src dst (r a) with
        | some e => s.trap e
        | none =>
          let (s, n) := s.number 1
          let q : CopyReq := { owner := s.owner s.iss.thr s.iss.b.pc, num := n, desc := BitVec.ofNat 512 d, src := src, dst := dst }
          (s.setCore core { s.core core with cq := (s.core core).cq ++ [q] }).retire [a])

/-! ### The copy engine (R205, R207, R208, R210, R211) -/

def Plan.perRow (p : Plan) : Nat := (p.outRow + 63) / 64
def Plan.units (p : Plan) : Nat := p.outRows * p.perRow

/-- The source bytes a unit needs: destination row `j`, bytes `k` to `k + n`. -/
def Plan.needs (p : Plan) (j k n : Nat) : List (Int × Nat) :=
  if p.kind = 2 then
    (List.range (8 * n / p.ws)).map fun i =>
      let r := 8 * k / p.ws + i
      (p.ss * r + (j * p.ws / 8 : Nat), max 1 (p.ws / 8))
  else if p.kind = 1 then
    let i := 8 * k / p.wd
    [(p.ss * j + (i * p.ws / 8 : Nat), (8 * n / p.wd * p.ws + 7) / 8)]
  else [(p.ss * j + k, n)]

/-- The destination bytes of a unit from its source bytes, and the flags (R207). -/
def CopyReq.convert (q : CopyReq) (p : Plan) (j n : Nat) (bs : List (BitVec 8)) : List (BitVec 8) × Nat :=
  if p.kind = 1 then
    match q.src, q.dst with
    | some f, some g =>
      let x := ofBytes bs
      let d := q.desc.toNat
      let es := (List.range (8 * n / p.wd)).map fun i =>
        encodeVal g.fmt (decodeVal f.fmt (x / 2 ^ (p.ws * i) % 2 ^ p.ws)) (rndOf (bits d 403 402)) (decide (bits d 404 404 = 1))
      (toBytes n (pack p.wd (es.map (·.1))), es.foldl (fun e y => e ||| y.2) 0)
    | _, _ => (bs, 0)
  else if p.kind = 2 ∧ p.ws = 4 then
    let es := bs.map fun b => if j % 2 = 0 then b.toNat % 16 else b.toNat / 16
    (toBytes n (pack 4 es), 0)
  else (bs, 0)
where
  pack (w : Nat) : List Nat → Nat
    | [] => 0
    | x :: r => x % 2 ^ w + 2 ^ w * pack w r

/-- The request at the head of a core's copy queue, changed. -/
def State.setCopy (s : State) (core : Nat) (q : CopyReq) : State :=
  let c := s.core core
  s.setCore core { c with cq := q :: c.cq.drop 1 }

/-- What an access leaves of the request: an error ends it, a soft fault stalls it. -/
def State.copyGot (s : State) (core : Nat) (q : CopyReq) (g : EGot) (k : State → List (BitVec 8) → State) : State :=
  match g with
  | .ok bs => k s bs
  | .err e => s.setCopy core { q with past := true, err := some e }
  | .soft cause kind va =>
    match s.engFault q.owner 1 cause kind va q.stall with
    | (s, .ok st) => s.setCopy core { q with stall := some st }
    | (s, .error e) => s.setCopy core { q with past := true, err := some e }
  | .wait => s

/-- Move one unit of the request. -/
def State.copyUnit (s : State) (core : Nat) (q : CopyReq) : State :=
  let p := planOf q.desc.toNat q.src q.dst
  let o := q.owner
  let j := q.done / p.perRow
  let k := q.done % p.perRow * 64
  let n := min 64 (p.outRow - k)
  let whole := decide (p.kind = 0) && p.overlap
  let move := fun (s : State) (q : CopyReq) (bs : List (BitVec 8)) =>
    let (out, fl) := q.convert p j n bs
    match s.locWrite o p.dst (p.ds * j + k) out with
    | (s, g) =>
      s.copyGot core q g fun s _ =>
        let q := { q with done := q.done + 1, flags := q.flags ||| fl, stall := none, past := decide (p.units ≤ q.done + 1) }
        match p.credit with
        | none => s.setCopy core q
        | some (c, off) =>
          match s.credit o.ctx c off (BitVec.ofNat 32 n) o.grp with
          | (s, true) => s.setCopy core q
          | (s, false) => s.setCopy core { q with past := true, err := some (remoteErr c 2) }
  match whole, q.buf with
  | true, none =>
    match s.locReadAll o p.src ((List.range p.rows).map fun (i : Nat) => (p.ss * i, p.row)) with
    | (s, g) => s.copyGot core q g fun s bs => move s { q with buf := some bs } ((bs.drop (j * p.row + k)).take n)
  | true, some bs => move s q ((bs.drop (j * p.row + k)).take n)
  | false, _ =>
    match s.locReadAll o p.src (p.needs j k n) with
    | (s, g) => s.copyGot core q g fun s bs => move s q bs

/-- Does a stalled request try again now (R210)? -/
def retryDue (cycle : Nat) (x : Option Stall) : Bool := x.any fun w => decide (w.retry ≤ cycle)

/-- Does what an engine writes or credits at a core's local store come after traffic of its issuer's core that is still on
its way there (01_machine R20)? -/
def State.writeBehind (s : State) (o : Owner) (dst : Option Loc) (credit : Option (Nat × Nat)) : Bool :=
  let busy := s.meshBusy o.vf (coreOf o.thr)
  (match dst with | some (.loc c _) => busy c | _ => false) || (match credit with | some (c, _) => busy c | none => false)

/-- The head of a core's queue that the engine may serve now: not stalled, or due to try again, and behind no traffic, the stores
its thread made before it among that (R212). -/
def State.copyHead (s : State) (core : Nat) : Option CopyReq :=
  match (s.core core).cq with
  | q :: _ =>
    let p := planOf q.desc.toNat q.src q.dst
    if !q.past && (q.stall.isNone || retryDue s.cycle q.stall) && !s.writeBehind q.owner (some p.dst) p.credit &&
        !s.storesOut q.owner then some q
    else none
  | [] => none

/-- Is it this core's turn among the heads of the cluster, and the engine free this cycle (R205)? -/
def State.copyTurn (s : State) (core : Nat) : Bool :=
  let c := s.clu (core / 8)
  let dist := fun (k : Nat) => (k + 8 - c.ccore - 1) % 8
  decide (c.cAt ≠ some s.cycle) &&
    (List.range 8).all fun k => decide (dist (core % 8) ≤ dist k) || (s.copyHead (core / 8 * 8 + k)).isNone

/-- The engine serves a core's head, stalled or not as asked, in its turn. -/
def State.copyServe (s : State) (core : Nat) (stalled : Bool) : State :=
  match s.copyHead core with
  | none => s
  | some q =>
    if q.stall.isSome = stalled ∧ s.copyTurn core then
      let c := s.clu (core / 8)
      (s.setClu (core / 8) { c with ccore := core % 8, cAt := some s.cycle }).copyUnit core q
    else s

/-- COPY_UNIT. -/
def execCopyUnit (core : Nat) (s : State) : Out := .next (s.copyServe core false)

/-- COPY_COMPLETE: the last write is done, or an error has stopped the request. -/
def execCopyComplete (core : Nat) (s : State) : Out :=
  .next (match (s.core core).cq with
    | q :: rest =>
      if q.past then (s.setCore core { s.core core with cq := rest }).finishOp q.owner 1 q.num q.flags q.err else s
    | [] => s)

/-! ### Transform requests (R213-R216, R218) -/

def txOp (d : Nat) : Nat := bits d 3 0
def txLen (d : Nat) : Nat := bits d 63 32
def txSrc (d : Nat) : Loc := placeOf (bits d 135 64) (bits d 5 5 = 1)
def txSecond (d : Nat) : Loc := placeOf (bits d 207 136) (bits d 6 6 = 1)
def txCredit (d : Nat) : Option (Nat × Nat) := if bits d 7 7 = 1 then some (bits d 238 228, bits d 227 208) else none

/-- Room the second area needs: 258 bytes a block for COMPRESS, the length for COMPARE; DECOMPRESS fixes none. -/
def txRoom (d : Nat) : Nat := if txOp d = 0 then txLen d / 256 * 258 else if txOp d = 3 then txLen d else 1

/-- The checks of TXREQ in order. -/
def txCheck (d : Nat) : Option Err :=
  let op := txOp d
  let two := decide (op = 0 ∨ op = 1 ∨ op = 3)
  let src := txSrc d
  let snd := txSecond d
  let reserved := bits d 255 239 + bits d 31 28 + bits d 4 4 + (if two then 0 else bits d 207 136) +
    (if src.isLocal then bits d 135 95 else 0) + (if snd.isLocal then bits d 207 167 else 0)
  let fits := fun (l : Loc) (n : Nat) => !l.isLocal || decide (n = 0) || decide (l.base + n ≤ (Config.localBytes : Int))
  if reserved ≠ 0 ∨ 4 < op then some (engErr 27)
  else if (op = 0 ∧ txLen d % 256 ≠ 0) ∨ (op = 1 ∧ txLen d < 2) ∨ (op = 2 ∧ txLen d % 8 ≠ 0) then some (engErr 28)
  else if bits d 27 8 % 8 ≠ 0 ∨ Config.localBytes < bits d 27 8 + 8 then some (engErr 29)
  else if !fits src (txLen d) || (two && !fits snd (txRoom d)) ||
      decide (Config.localBytes < bits d 227 208 + 16) then some (engErr 24)
  else if decide (bits d 227 208 % 16 ≠ 0 ∨ Config.cores ≤ bits d 238 228) ||
      decide (Config.cores ≤ src.coreId ∨ Config.cores ≤ snd.coreId) then some (engErr 25)
  else none

/-- TXREQ (R218): accepted with its number, or 0 when the port is full; the coprocessor's reads come after the thread's earlier
stores (R212). -/
def execTxreq (d a : SReg) (s : State) : Out :=
  .next (s.withOps [a] (some d) (late := true) fun r =>
    match localCheck (r a) 32 32 Config.localBytes with
    | some e => s.trap e
    | none =>
      let o := (r a).toNat
      let w := s.lsRead s.curCore o 32
      let s := s.lsTouch s.curCore o 32 s.cur.ctx
      if s.lsPoisoned s.curCore o 32 then s.trap (eccLocal o)
      else
        match txCheck w with
        | some e => s.trap e
        | none =>
          let clu := cluOf s.iss.thr
          if 16 ≤ (s.clu clu).txq.length then s.commit [a] [.s d] [(.s d, 0)] (.ready s.cycle)
          else
            let (s, n) := s.number 2
            let q : TxReq := { owner := s.owner s.iss.thr s.iss.b.pc, num := n, recd := BitVec.ofNat 256 w }
            (s.setClu clu { s.clu clu with txq := (s.clu clu).txq ++ [q] }).commit [a] [.s d]
              [(.s d, BitVec.ofNat 512 n)] (.ready s.cycle))

/-! ### COMPRESS and DECOMPRESS (R216) -/

/-- The dictionary of a block: its filled slots, and the slot the next literal takes. -/
structure Dict where
  slots : List Nat := []
  next : Nat := 0
  deriving DecidableEq, Repr

def Dict.enter (d : Dict) (w : Nat) : Dict :=
  { slots := if d.slots.length < 16 then d.slots ++ [w] else d.slots.set d.next w, next := (d.next + 1) % 16 }

/-- The code of a word, its payload and the payload's width. -/
def codeWord (d : Dict) (w : Nat) : Nat × Nat × Nat × Dict :=
  if w = 0 then (0, 0, 0, d)
  else
    match d.slots.findIdx? fun x => decide (x = w) with
    | some k => (1, k, 4, d)
    | none =>
      match d.slots.findIdx? fun x => decide (x / 256 = w / 256) with
      | some k => (2, k + 16 * (w % 256), 12, d)
      | none => (3, w, 32, d.enter w)

/-- Codes and payload bits of the words of a block: the codes' number, the payload, its width. -/
def codeBlock : Dict → List Nat → Nat × Nat × Nat
  | _, [] => (0, 0, 0)
  | d, w :: r =>
    let (c, p, n, d) := codeWord d w
    let (cs, ps, k) := codeBlock d r
    (c + 4 * cs, p + 2 ^ n * ps, n + k)

/-- The record of a 256-byte block. -/
def compressBlock (bs : List (BitVec 8)) : List (BitVec 8) :=
  let x := ofBytes bs
  let (cs, ps, n) := codeBlock {} ((List.range 64).map fun i => x / 2 ^ (32 * i) % 2 ^ 32)
  let body := 16 + (n + 7) / 8
  if 256 ≤ body then toBytes 2 0xFFFF ++ bs else toBytes 2 body ++ toBytes 16 cs ++ toBytes ((n + 7) / 8) ps

def compressAll : Nat → List (BitVec 8) → List (BitVec 8)
  | 0, _ => []
  | n + 1, bs => compressBlock (bs.take 256) ++ compressAll n (bs.drop 256)

/-- The words of an encoded block: codes, payload and payload bits left; none when malformed. -/
def decodeBlock : Nat → Dict → Nat → Nat → Nat → Option (List Nat)
  | 0, _, _, _, _ => some []
  | n + 1, d, cs, ps, k =>
    let take := fun (w m : Nat) (d : Dict) =>
      if k < m then none else (decodeBlock n d (cs / 4) (ps / 2 ^ m) (k - m)).map fun l => w :: l
    match cs % 4 with
    | 0 => take 0 0 d
    | 1 =>
      match d.slots[ps % 16]? with
      | some w => take w 4 d
      | none => none
    | 2 =>
      match d.slots[ps % 16]? with
      | some w => take (w / 256 * 256 + ps / 16 % 256) 12 d
      | none => none
    | _ => take (ps % 2 ^ 32) 32 (d.enter (ps % 2 ^ 32))

/-- The blocks of a compressed input, and whether it is well formed. DESIGN CHOICE (entry 17): a record with h
below 16, or with a body too short for its codes or their payload, is malformed, and bytes of a body beyond its payload
are passed over. -/
def decompressAll : Nat → List (BitVec 8) → List (BitVec 8) × Bool
  | 0, _ => ([], true)
  | _ + 1, [] => ([], true)
  | fuel + 1, bs =>
    let h := ofBytes (bs.take 2)
    let rest := bs.drop 2
    if bs.length < 2 then ([], false)
    else if h = 0xFFFF then
      if rest.length < 256 then ([], false)
      else
        let (out, ok) := decompressAll fuel (rest.drop 256)
        (rest.take 256 ++ out, ok)
    else if 256 ≤ h ∨ rest.length < h ∨ h < 16 then ([], false)
    else
      let body := ofBytes (rest.take h)
      match decodeBlock 64 {} (body % 2 ^ 128) (body / 2 ^ 128) (8 * (h - 16)) with
      | none => ([], false)
      | some ws =>
        let (out, ok) := decompressAll fuel (rest.drop h)
        ((ws.map fun w => toBytes 4 w).flatten ++ out, ok)

/-! ### FPRINT, COMPARE, CRC32C (R215) -/

def fprint : Nat → List (BitVec 8) → Nat → Nat
  | 0, _, _ => 0
  | n + 1, bs, i => (ofBytes (bs.take 8) * (2 * i + 1) + fprint n (bs.drop 8) (i + 1)) % 2 ^ 64

def firstDiff : Nat → List (BitVec 8) → List (BitVec 8) → Nat
  | i, x :: r, y :: t => if x = y then firstDiff (i + 1) r t else i
  | _, _, _ => 2 ^ 64 - 1

def crcBit (c : BitVec 32) : BitVec 32 := if c.getLsbD 0 then (c >>> 1) ^^^ 0x82F63B78#32 else c >>> 1
def crcByte (c : BitVec 32) (b : BitVec 8) : BitVec 32 :=
  let x := c ^^^ b.setWidth 32
  crcBit (crcBit (crcBit (crcBit (crcBit (crcBit (crcBit (crcBit x)))))))
def crc32c (bs : List (BitVec 8)) : BitVec 32 := ~~~(bs.foldl crcByte (BitVec.allOnes 32))

/-! ### The transform coprocessor (R213) -/

def State.setTx (s : State) (clu : Nat) (q : TxReq) : State :=
  let c := s.clu clu
  s.setClu clu { c with txq := q :: c.txq.drop 1 }

/-- The request ends on its timeline. -/
def State.endTx (s : State) (clu : Nat) (q : TxReq) (err : Option Err) : State :=
  (s.setClu clu { s.clu clu with txq := (s.clu clu).txq.drop 1 }).finishOp q.owner 2 q.num 0 err

def State.txGot (s : State) (clu : Nat) (q : TxReq) (g : EGot) (k : State → List (BitVec 8) → State) : State :=
  match g with
  | .ok bs => k s bs
  | .err e => s.endTx clu q (some e)
  | .soft cause kind va =>
    match s.engFault q.owner 2 cause kind va q.stall with
    | (s, .ok st) => s.setTx clu { q with stall := some st }
    | (s, .error e) => s.endTx clu q (some e)
  | .wait => s

/-- The result dword, then the credit, then the end (R218). -/
def State.txResult (s : State) (clu : Nat) (q : TxReq) (v : Nat) : State :=
  let d := q.recd.toNat
  match s.engLocalWrite q.owner (coreOf q.owner.thr) (bits d 27 8) (toBytes 8 v) with
  | (s, .ok _) =>
    match txCredit d with
    | none => s.endTx clu q none
    | some (c, off) =>
      match s.credit q.owner.ctx c off 1 q.owner.grp with
      | (s, true) => s.endTx clu q none
      | (s, false) => s.endTx clu q (some (remoteErr c 2))
  | (s, .err e) => s.endTx clu q (some e)
  | (s, .soft _ _ _) => s
  | (s, .wait) => s

/-- Write the bytes from `done` on, 64 at a time; local bytes beyond the store are not written (entry 17). -/
def State.txWrite (s : State) (clu : Nat) (q : TxReq) (bs : List (BitVec 8)) : Nat → State × Option TxReq
  | 0 => (s, some q)
  | n + 1 =>
    if bs.length ≤ q.done then (s, some q)
    else
      let part := (bs.drop q.done).take 64
      let dst := txSecond q.recd.toNat
      let part := if dst.isLocal then part.take (Config.localBytes - (dst.base.toNat + q.done)) else part
      match s.locWrite q.owner dst q.done part with
      | (s, .ok _) => s.txWrite clu { q with done := q.done + 64, stall := none } bs n
      | (s, .wait) => (s.setTx clu q, none)
      | (s, g) => (s.txGot clu q g fun s _ => s, none)

/-- Of `n` output bytes, those the second area takes. -/
def txWritten (d n : Nat) : Nat :=
  if (txSecond d).isLocal then min n (Config.localBytes - (txSecond d).base.toNat) else n

/-- Read the source, compute, write and report: one run of the head request, from where a stall left it. DESIGN CHOICE (entry 17):
where the source and the second area overlap, the whole source is read before anything is written, and again after a stall in the
writes (R215). -/
def State.txRun (s : State) (clu : Nat) (q : TxReq) : State :=
  let d := q.recd.toNat
  let o := q.owner
  let n := txLen d
  let out := fun (s : State) (q : TxReq) (bs : List (BitVec 8)) (ok : Bool) =>
    match s.txWrite clu q bs (bs.length / 64 + 1) with
    | (s, some q) => s.txResult clu q (txWritten d bs.length + (if ok then 0 else 2 ^ 63))
    | (s, none) => s
  match s.locRead o (txSrc d) 0 n with
  | (s, g) =>
    s.txGot clu q g fun s bs =>
      match txOp d with
      | 0 => out s q (compressAll (n / 256) bs) true
      | 1 =>
        let (b, ok) := decompressAll n bs
        out s q b ok
      | 2 => s.txResult clu q (fprint (n / 8) bs 0)
      | 3 =>
        match s.locRead o (txSecond d) 0 n with
        | (s, g) => s.txGot clu q g fun s bs' => s.txResult clu q (firstDiff 0 bs bs')
      | _ => s.txResult clu q (crc32c bs).toNat

/-- Does what the head reads, or its result, come after traffic that is still on its way (R212, 01_machine R20)? -/
def State.txBehind (s : State) (q : TxReq) : Bool :=
  let d := q.recd.toNat
  s.storesOut q.owner || s.writeBehind q.owner (if txOp d ≤ 1 then some (txSecond d) else none) (txCredit d)

/-- Run the head of a cluster's port if it asks for operation `op` and is not stalled. -/
def transform (op clu : Nat) (s : State) : State :=
  match (s.clu clu).txq with
  | q :: _ => if txOp q.recd.toNat = op ∧ q.stall = none ∧ !s.txBehind q then s.txRun clu q else s
  | [] => s

/-- COMPRESS. -/
def execCompress (clu : Nat) (s : State) : Out := .next (transform 0 clu s)
/-- DECOMPRESS. -/
def execDecompress (clu : Nat) (s : State) : Out := .next (transform 1 clu s)
/-- FPRINT. -/
def execFprint (clu : Nat) (s : State) : Out := .next (transform 2 clu s)
/-- COMPARE. -/
def execCompare (clu : Nat) (s : State) : Out := .next (transform 3 clu s)
/-- CRC32C. -/
def execCrc32c (clu : Nat) (s : State) : Out := .next (transform 4 clu s)

end Sys2Proof.Machine
end

