-- ==== Sys2Proof/Machine/Scalar.lean ====
section
/-! DEFINITION. Scalar, address and control instructions of pages 0 and 1 (04_scalar R66-R82). -/

namespace Sys2Proof.Machine

open Sys2Proof

/-! ### Shapes -/

/-- s_d := f s_a s_b. -/
def aluRR (d a b : SReg) (f : W64 → W64 → W64) (s : State) : State :=
  s.withOps [a, b] (some d) fun r => s.retireS [a, b] d (f (r a) (r b))

/-- s_d := f s_a. -/
def aluR (d a : SReg) (f : W64 → W64) (s : State) : State :=
  s.withOps [a] (some d) fun r => s.retireS [a] d (f (r a))

/-- s_d := f s_d s_a s_b; the old s_d is read, so a destination s31 or s30 is a source too. -/
def aluRRR (d a b : SReg) (f : W64 → W64 → W64 → W64) (s : State) : State :=
  s.withOps [d, a, b] (some d) fun r => s.retireS [d, a, b] d (f (r d) (r a) (r b))

/-- a_d := f a_a s_b. -/
def addrRR (d a : AReg) (b : SReg) (f : VAddr → W64 → VAddr) (s : State) : State :=
  s.withOps [b] none fun r => s.retireT [b] fun th => th.writeA d (f (th.readA a) (r b))

/-- An immediate extended by its sign (02_encoding R32). -/
def immS (i : Imm) : W64 := i.signExtend 64
def immZ (i : Imm) : W64 := i.setWidth 64

def ofBool (p : Bool) : W64 := if p then 1 else 0

/-! ### Results (R71, R79-R81) -/

def sll (x n : W64) : W64 := if 64 ≤ n.toNat then 0 else x <<< n.toNat
def srl (x n : W64) : W64 := if 64 ≤ n.toNat then 0 else x >>> n.toNat
def sra (x n : W64) : W64 := x.sshiftRight (min n.toNat 63)
def ror (x n : W64) : W64 := x.rotateRight (n.toNat % 64)
def low32 (x : W64) : W64 := (x.setWidth 32).signExtend 64

def clz (x : W64) : W64 :=
  BitVec.ofNat 64 (((List.range 64).find? fun k => x.getLsbD (63 - k)).getD 64)
def ctz (x : W64) : W64 :=
  BitVec.ofNat 64 (((List.range 64).find? fun k => x.getLsbD k).getD 64)
def popc (x : W64) : W64 := BitVec.ofNat 64 ((List.range 64).filter fun k => x.getLsbD k).length
def brev (x : W64) : W64 := x.reverse

/-- The effective length of a field (R80): pos in [5:0], len in [14:8]. -/
def fieldLen (len pos : Nat) : Nat := min len (min 64 (64 - pos))
def fieldMask (l pos : Nat) : W64 := BitVec.ofNat 64 ((2 ^ l - 1) * 2 ^ pos)
def bext (x : W64) (pos len : Nat) : W64 := BitVec.ofNat 64 (x.toNat / 2 ^ pos % 2 ^ fieldLen len pos)
def bexts (x : W64) (pos len : Nat) : W64 :=
  let l := fieldLen len pos
  if l = 0 then 0 else sext l (x.toNat / 2 ^ pos % 2 ^ l)
def ctlPos (c : W64) : Nat := bits c.toNat 5 0
def ctlLen (c : W64) : Nat := bits c.toNat 14 8

/-- Quotient truncated toward zero and remainder with the sign of the dividend, of two's complement numbers of `n`
bits; the most negative number by −1 gives itself and 0 (R79). -/
def divS (n : Nat) (x y : BitVec n) : BitVec n × BitVec n := (x.sdiv y, x.srem y)
def divU (n : Nat) (x y : BitVec n) : BitVec n × BitVec n := (x.udiv y, x.umod y)

/-! ### Arithmetic and logic on page 0 -/

/-- ADD (R71). -/
def execAdd (d a b : SReg) (s : State) : Out := .next (aluRR d a b (fun x y => x + y) s)

/-- ADDW (R71). -/
def execAddw (d a b : SReg) (s : State) : Out := .next (aluRR d a b (fun x y => low32 (x + y)) s)

/-- SUB (R71). -/
def execSub (d a b : SReg) (s : State) : Out := .next (aluRR d a b (fun x y => x - y) s)

/-- SUBW (R71). -/
def execSubw (d a b : SReg) (s : State) : Out := .next (aluRR d a b (fun x y => low32 (x - y)) s)

/-- AND (R71). -/
def execAnd (d a b : SReg) (s : State) : Out := .next (aluRR d a b (fun x y => x &&& y) s)

/-- OR (R71). -/
def execOr (d a b : SReg) (s : State) : Out := .next (aluRR d a b (fun x y => x ||| y) s)

/-- XOR (R71). -/
def execXor (d a b : SReg) (s : State) : Out := .next (aluRR d a b (fun x y => x ^^^ y) s)

/-- ANDN (R71). -/
def execAndn (d a b : SReg) (s : State) : Out := .next (aluRR d a b (fun x y => x &&& ~~~y) s)

/-- SLL by the whole unsigned amount (R71). -/
def execSll (d a b : SReg) (s : State) : Out := .next (aluRR d a b (fun x y => sll x y) s)

/-- SRL (R71). -/
def execSrl (d a b : SReg) (s : State) : Out := .next (aluRR d a b (fun x y => srl x y) s)

/-- SRA (R71). -/
def execSra (d a b : SReg) (s : State) : Out := .next (aluRR d a b (fun x y => sra x y) s)

/-- ROR by the amount modulo 64 (R71). -/
def execRor (d a b : SReg) (s : State) : Out := .next (aluRR d a b (fun x y => ror x y) s)

/-- CEQ (R71). -/
def execCeq (d a b : SReg) (s : State) : Out := .next (aluRR d a b (fun x y => ofBool (x == y)) s)

/-- CNE (R71). -/
def execCne (d a b : SReg) (s : State) : Out := .next (aluRR d a b (fun x y => ofBool (x != y)) s)

/-- CLT (R71). -/
def execClt (d a b : SReg) (s : State) : Out := .next (aluRR d a b (fun x y => ofBool (x.slt y)) s)

/-- CLTN (R71). -/
def execCltn (d a b : SReg) (s : State) : Out := .next (aluRR d a b (fun x y => ofBool (x.ult y)) s)

/-- ADDI (R72). -/
def execAddi (d a : SReg) (i : Imm) (s : State) : Out := .next (aluR d a (fun x => x + immS i) s)

/-- ANDI (R72). -/
def execAndi (d a : SReg) (i : Imm) (s : State) : Out := .next (aluR d a (fun x => x &&& immS i) s)

/-- ORI (R72). -/
def execOri (d a : SReg) (i : Imm) (s : State) : Out := .next (aluR d a (fun x => x ||| immZ i) s)

/-- XORI (R72). -/
def execXori (d a : SReg) (i : Imm) (s : State) : Out := .next (aluR d a (fun x => x ^^^ immZ i) s)

/-- SLLI (R72). -/
def execSlli (d a : SReg) (i : Imm) (s : State) : Out := .next (aluR d a (fun x => sll x (immZ i)) s)

/-- SRLI (R72). -/
def execSrli (d a : SReg) (i : Imm) (s : State) : Out := .next (aluR d a (fun x => srl x (immZ i)) s)

/-- SRAI (R72). -/
def execSrai (d a : SReg) (i : Imm) (s : State) : Out := .next (aluR d a (fun x => sra x (immZ i)) s)

/-- CLTI (R72). -/
def execClti (d a : SReg) (i : Imm) (s : State) : Out := .next (aluR d a (fun x => ofBool (x.slt (immS i))) s)

/-- LI (R73). -/
def execLi (d : SReg) (i : Imm) (s : State) : Out :=
  .next (s.withOps [] (some d) fun _ => s.retireS [] d (immS i))

/-- MOV (R73). -/
def execMov (d a : SReg) (s : State) : Out := .next (aluR d a (fun x => x) s)

/-- MOVAA (R73). -/
def execMovaa (d a : AReg) (s : State) : Out := .next (s.retireT [] fun th => th.writeA d (th.readA a))

/-! ### Address registers (R74, R75) -/

/-- ADDA: the signed index scaled by 1, modulo 2^72 (R74). -/
def execAdda (d a : AReg) (b : SReg) (s : State) : Out := .next (addrRR d a b (fun x y => x + y.signExtend 72) s)

/-- ADDA2: the signed index scaled by 2, modulo 2^72 (R74). -/
def execAdda2 (d a : AReg) (b : SReg) (s : State) : Out := .next (addrRR d a b (fun x y => x + y.signExtend 72 * 2) s)

/-- ADDA4: the signed index scaled by 4, modulo 2^72 (R74). -/
def execAdda4 (d a : AReg) (b : SReg) (s : State) : Out := .next (addrRR d a b (fun x y => x + y.signExtend 72 * 4) s)

/-- ADDA8: the signed index scaled by 8, modulo 2^72 (R74). -/
def execAdda8 (d a : AReg) (b : SReg) (s : State) : Out := .next (addrRR d a b (fun x y => x + y.signExtend 72 * 8) s)

/-- ADDAI (R74). -/
def execAddai (d a : AReg) (i : Imm) (s : State) : Out :=
  .next (s.retireT [] fun th => th.writeA d (th.readA a + i.signExtend 72))

/-- MOVA: bits [71:64] become 0 (R75). -/
def execMova (d : AReg) (a : SReg) (s : State) : Out :=
  .next (s.withOps [a] none fun r => s.retireT [a] fun th => th.writeA d ((r a).setWidth 72))

/-- MOVS (R75). -/
def execMovs (d : SReg) (a : AReg) (s : State) : Out :=
  .next (s.withOps [] (some d) fun _ => s.retireS [] d ((s.cur.readA a).setWidth 64))

/-- MOVAH: bits [71:64] from s_a[7:0], the rest kept (R75). -/
def execMovah (d : AReg) (a : SReg) (s : State) : Out :=
  .next (s.withOps [a] none fun r => s.retireT [a] fun th =>
    th.writeA d ((r a).setWidth 8 ++ (th.readA d).setWidth 64))

/-- MOVSH (R75). -/
def execMovsh (d : SReg) (a : AReg) (s : State) : Out :=
  .next (s.withOps [] (some d) fun _ => s.retireS [] d (((s.cur.readA a).extractLsb' 64 8).setWidth 64))

/-! ### Control (R76-R78) -/

/-- Address `off` words from the branch, if it stays in the low 2^64 bytes (R24, R33). -/
def branchTarget (pc : W64) (i : Imm) : Int := (pc.toNat : Int) + 2 * i.toInt

/-- Go to a target; one outside the code range traps ADDR reason 4 and nothing takes effect (R76). -/
def State.jumpTo (s : State) (srcs : List SReg) (t : Int) : State :=
  if 0 ≤ t ∧ t < 2 ^ 64 then (s.popIf srcs).moveTo (BitVec.ofInt 64 t) false true
  else s.trap (addrErr (BitVec.ofInt 72 t).toNat 4)

def branchS (a : SReg) (i : Imm) (p : W64 → Bool) (s : State) : State :=
  s.withOps [a] none fun r =>
    if p (r a) then s.jumpTo [a] (branchTarget s.iss.b.pc i) else s.retire [a]

def branchM (a : MReg) (i : Imm) (p : W64 → Bool) (s : State) : State :=
  if p (s.cur.readM a) then s.jumpTo [] (branchTarget s.iss.b.pc i) else s.done

/-- BZ (R77). -/
def execBz (a : SReg) (i : Imm) (s : State) : Out := .next (branchS a i (fun x => x == 0) s)

/-- BNZ (R77). -/
def execBnz (a : SReg) (i : Imm) (s : State) : Out := .next (branchS a i (fun x => x != 0) s)

/-- BLTZ (R77). -/
def execBltz (a : SReg) (i : Imm) (s : State) : Out := .next (branchS a i (fun x => x.slt 0) s)

/-- BGEZ (R77). -/
def execBgez (a : SReg) (i : Imm) (s : State) : Out := .next (branchS a i (fun x => !x.slt 0) s)

/-- BGTZ (R77). -/
def execBgtz (a : SReg) (i : Imm) (s : State) : Out := .next (branchS a i (fun x => BitVec.slt 0 x) s)

/-- BLEZ (R77). -/
def execBlez (a : SReg) (i : Imm) (s : State) : Out := .next (branchS a i (fun x => !BitVec.slt 0 x) s)

/-- BMANY: all 64 bits are tested (R77). -/
def execBmany (a : MReg) (i : Imm) (s : State) : Out := .next (branchM a i (fun x => x != 0) s)

/-- BMNONE: all 64 bits are tested (R77). -/
def execBmnone (a : MReg) (i : Imm) (s : State) : Out := .next (branchM a i (fun x => x == 0) s)

/-- J (R77, JW). -/
def execJ (i : Imm) (s : State) : Out := .next (s.jumpTo [] (branchTarget s.iss.b.pc i))

/-- JAL: s28 takes the address of the next bundle. -/
def execJal (i : Imm) (s : State) : Out :=
  .next (
    let t := branchTarget s.iss.b.pc i
    if 0 ≤ t ∧ t < 2 ^ 64 then (s.setCur (s.cur.writeS 28 s.iss.b.next)).jumpTo [] t else s.jumpTo [] t)

/-- JR: an odd target traps MISALIGN (R78). -/
def execJr (a : SReg) (s : State) : Out :=
  .next (s.withOps [a] none fun r =>
    if (r a).getLsbD 0 then s.trap { cause := 4, tval := r a }
    else ((s.popIf [a]).moveTo (r a) false))

/-- JALR: the target is read before the link is written (R78). -/
def execJalr (d a : SReg) (s : State) : Out :=
  .next (s.withOps [a] (some d) fun r =>
    if (r a).getLsbD 0 then s.trap { cause := 4, tval := r a }
    else
      ((s.popIf [a]).putS d s.iss.b.next).moveTo (r a) false)

/-! ### Integer arithmetic on page 1 -/

/-- MUL. -/
def execMul (d a b : SReg) (s : State) : Out := .next (aluRR d a b (fun x y => x * y) s)

/-- MULW. -/
def execMulw (d a b : SReg) (s : State) : Out := .next (aluRR d a b (fun x y => low32 (x * y)) s)

/-- MULH: the high half, signed. -/
def execMulh (d a b : SReg) (s : State) : Out := .next (aluRR d a b (fun x y => ((x.signExtend 128 * y.signExtend 128).extractLsb' 64 64)) s)

/-- MULHN: the high half, unsigned. -/
def execMulhn (d a b : SReg) (s : State) : Out := .next (aluRR d a b (fun x y => ((x.setWidth 128 * y.setWidth 128).extractLsb' 64 64)) s)

/-- The divide family: held while the divider is busy; a zero divisor traps DIVZ at commit, with s_a and the words;
else the result comes 36 cycles later, 20 for the W forms (R69, R79). -/
def divide (w : Bool) (d a b : SReg) (f : W64 → W64 → W64) (s : State) : State :=
  if s.cycle < (s.core s.curCore).divBusy then s
  else
    s.withOps [a, b] (some d) (late := true) fun r =>
      let zero := if w then (r b).setWidth 32 == (0 : BitVec 32) else r b == 0
      if zero then s.trap { cause := 3, tval := r a }
      else
        let at_ := s.cycle + (if w then 20 else 36)
        let s := s.setCore s.curCore { s.core s.curCore with divBusy := at_ }
        s.commit [a, b] [.s d] [(.s d, (f (r a) (r b)).setWidth 512)] (.ready at_)

def wide32 (f : BitVec 32 → BitVec 32 → BitVec 32) (x y : W64) : W64 := (f (x.setWidth 32) (y.setWidth 32)).signExtend 64

/-- DIV (R79). -/
def execDiv (d a b : SReg) (s : State) : Out := .next (divide false d a b (fun x y => (divS 64 x y).1) s)

/-- DIVN (R79). -/
def execDivn (d a b : SReg) (s : State) : Out := .next (divide false d a b (fun x y => (divU 64 x y).1) s)

/-- REM (R79). -/
def execRem (d a b : SReg) (s : State) : Out := .next (divide false d a b (fun x y => (divS 64 x y).2) s)

/-- REMN (R79). -/
def execRemn (d a b : SReg) (s : State) : Out := .next (divide false d a b (fun x y => (divU 64 x y).2) s)

/-- DIVW (R79). -/
def execDivw (d a b : SReg) (s : State) : Out := .next (divide true d a b (wide32 fun x y => (divS 32 x y).1) s)

/-- DIVNW (R79). -/
def execDivnw (d a b : SReg) (s : State) : Out := .next (divide true d a b (wide32 fun x y => (divU 32 x y).1) s)

/-- REMW (R79). -/
def execRemw (d a b : SReg) (s : State) : Out := .next (divide true d a b (wide32 fun x y => (divS 32 x y).2) s)

/-- REMNW (R79). -/
def execRemnw (d a b : SReg) (s : State) : Out := .next (divide true d a b (wide32 fun x y => (divU 32 x y).2) s)

/-- MIN, signed. -/
def execMin (d a b : SReg) (s : State) : Out := .next (aluRR d a b (fun x y => if x.slt y then x else y) s)

/-- MAX, signed. -/
def execMax (d a b : SReg) (s : State) : Out := .next (aluRR d a b (fun x y => if x.slt y then y else x) s)

/-- MINN, unsigned. -/
def execMinn (d a b : SReg) (s : State) : Out := .next (aluRR d a b (fun x y => if x.ult y then x else y) s)

/-- MAXN, unsigned. -/
def execMaxn (d a b : SReg) (s : State) : Out := .next (aluRR d a b (fun x y => if x.ult y then y else x) s)

/-- CLZ; 64 for 0. -/
def execClz (d a : SReg) (s : State) : Out := .next (aluR d a (fun x => clz x) s)

/-- CTZ; 64 for 0. -/
def execCtz (d a : SReg) (s : State) : Out := .next (aluR d a (fun x => ctz x) s)

/-- POPC. -/
def execPopc (d a : SReg) (s : State) : Out := .next (aluR d a (fun x => popc x) s)

/-- BREV. -/
def execBrev (d a : SReg) (s : State) : Out := .next (aluR d a (fun x => brev x) s)

/-! ### Bit fields and funnels (R80, R81) -/

/-- BEXT (R80). -/
def execBext (d a b : SReg) (s : State) : Out := .next (aluRR d a b (fun x y => bext x (ctlPos y) (ctlLen y)) s)

/-- BEXTS (R80). -/
def execBexts (d a b : SReg) (s : State) : Out := .next (aluRR d a b (fun x y => bexts x (ctlPos y) (ctlLen y)) s)

/-- BINS: s_d is read and written; an empty field leaves it unchanged (R80). -/
def execBins (d a b : SReg) (s : State) : Out :=
  .next (aluRRR d a b (fun z x y =>
    let fm := fieldMask (fieldLen (ctlLen y) (ctlPos y)) (ctlPos y)
    (z &&& ~~~fm) ||| ((x <<< ctlPos y) &&& fm)) s)

/-- BMSK (R80). -/
def execBmsk (d a b : SReg) (s : State) : Out :=
  .next (aluRR d a b (fun x y => x &&& fieldMask (fieldLen (ctlLen y) (ctlPos y)) (ctlPos y)) s)

/-- BEXTI: pos in [5:0], len in [12:6] of the immediate. -/
def execBexti (d a : SReg) (i : Imm) (s : State) : Out :=
  .next (aluR d a (fun x => bext x (i.toNat % 64) (i.toNat / 64)) s)

/-- BEXTSI. -/
def execBextsi (d a : SReg) (i : Imm) (s : State) : Out :=
  .next (aluR d a (fun x => bexts x (i.toNat % 64) (i.toNat / 64)) s)

/-- FSHL: s_d high, s_a low (R81). -/
def execFshl (d a b : SReg) (s : State) : Out :=
  .next (aluRRR d a b (fun z x y => ((z ++ x : BitVec 128) <<< (y.toNat % 64)).extractLsb' 64 64) s)

/-- FSHR: s_a high, s_d low (R81). -/
def execFshr (d a b : SReg) (s : State) : Out :=
  .next (aluRRR d a b (fun z x y => ((x ++ z : BitVec 128) >>> (y.toNat % 64)).setWidth 64) s)

/-! ### Selection, extension and sign -/

/-- SEL: the old s_d is the condition. -/
def execSel (d a b : SReg) (s : State) : Out := .next (aluRRR d a b (fun z x y => if z ≠ 0 then x else y) s)

/-- SEXTB. -/
def execSextb (d a : SReg) (s : State) : Out := .next (aluR d a (fun x => (x.setWidth 8).signExtend 64) s)

/-- SEXTH. -/
def execSexth (d a : SReg) (s : State) : Out := .next (aluR d a (fun x => (x.setWidth 16).signExtend 64) s)

/-- SEXTW. -/
def execSextw (d a : SReg) (s : State) : Out := .next (aluR d a (fun x => low32 x) s)

/-- ZEXTW. -/
def execZextw (d a : SReg) (s : State) : Out := .next (aluR d a (fun x => (x.setWidth 32).setWidth 64) s)

/-- ABS, modulo 2^64. -/
def execAbs (d a : SReg) (s : State) : Out := .next (aluR d a (fun x => if x.slt 0 then 0 - x else x) s)

/-- NEG, modulo 2^64. -/
def execNeg (d a : SReg) (s : State) : Out := .next (aluR d a (fun x => 0 - x) s)

end Sys2Proof.Machine
end

