-- ==== Sys2Proof/Machine/Vector.lean ====
section
/-! DEFINITION. The vector unit: arithmetic, compares, moves, permutes, reductions, scans and masks of pages 3 and 4
(06_vector R112-R129, R135-R138). -/

namespace Sys2Proof.Machine

open Sys2Proof

/-! ### Lanes and masks (R112-R115) -/

/-- Element width in bits of a width suffix. -/
def widthBits (w : BitVec 2) : Nat := 8 * 2 ^ w.toNat
def laneCount (w : Nat) : Nat := 512 / w
/-- Element `i` of width `w`. -/
def laneOf (w : Nat) (v : V512) (i : Nat) : Nat := fieldAt v (w * i) w
/-- A number as signed. -/
def sgn (w x : Nat) : Int := if 2 ^ (w - 1) ≤ x then (x : Int) - (2 ^ w : Nat) else x
/-- An integer modulo 2^w. -/
def unsgn (w : Nat) (x : Int) : Nat := (x % (2 ^ w : Nat)).toNat

/-- Elements of width `w`, lowest first. -/
def packLanes (w : Nat) : List Nat → Nat
  | [] => 0
  | x :: r => x % 2 ^ w + 2 ^ w * packLanes w r

/-- A v-register whose active elements are new and whose others are kept (R113). -/
def mergeLanes (w : Nat) (m : W64) (old : V512) (f : Nat → Nat) : V512 :=
  BitVec.ofNat 512 (packLanes w ((List.range (laneCount w)).map fun i => if m.getLsbD i then f i else laneOf w old i))

/-- A mask register whose active bits below `n` are new, others below `n` kept, the rest 0 (R115). -/
def mergeMask (n : Nat) (m old : W64) (f : Nat → Bool) : W64 :=
  BitVec.ofNat 64 (packLanes 1 ((List.range n).map fun i =>
    if (if m.getLsbD i then f i else old.getLsbD i) then 1 else 0))

/-- v_d := an element-wise result of width `w` under m_x. -/
def vecOp (w : Nat) (d : VReg) (m : MReg) (f : Thread → Nat → Nat) (s : State) : State :=
  s.retireT [] fun th => th.writeV d (mergeLanes w (th.readM m) (th.readV d) (f th))

def vecRR (w : BitVec 2) (d a b : VReg) (m : MReg) (f : Nat → Nat → Nat → Nat) (s : State) : State :=
  let z := widthBits w
  vecOp z d m (fun th i => f z (laneOf z (th.readV a) i) (laneOf z (th.readV b) i)) s

def vecBit (d a b : VReg) (m : MReg) (f : Nat → Nat → Nat) (s : State) : State :=
  vecOp 32 d m (fun th i => f (laneOf 32 (th.readV a) i) (laneOf 32 (th.readV b) i)) s

def vecCmp (z : Nat) (d : MReg) (a b : VReg) (m : MReg) (f : Nat → Nat → Bool) (s : State) : State :=
  s.retireT [] fun th =>
    th.writeM d (mergeMask (laneCount z) (th.readM m) (th.readM d) fun i =>
      f (laneOf z (th.readV a) i) (laneOf z (th.readV b) i))

/-! ### Integer arithmetic (R117-R119) -/

/-- VADD (R117). -/
def execVadd (w : BitVec 2) (d a b : VReg) (m : MReg) (s : State) : Out := .next (vecRR w d a b m (fun _ x y => x + y) s)

/-- VSUB (R117). -/
def execVsub (w : BitVec 2) (d a b : VReg) (m : MReg) (s : State) : Out := .next (vecRR w d a b m (fun z x y => x + 2 ^ z - y) s)

/-- VMUL (R117). -/
def execVmul (w : BitVec 2) (d a b : VReg) (m : MReg) (s : State) : Out := .next (vecRR w d a b m (fun _ x y => x * y) s)

/-- VMULH (R117). -/
def execVmulh (w : BitVec 2) (d a b : VReg) (m : MReg) (s : State) : Out := .next (vecRR w d a b m (fun z x y => unsgn (2 * z) (sgn z x * sgn z y) / 2 ^ z) s)

/-- VSLL (R117). -/
def execVsll (w : BitVec 2) (d a b : VReg) (m : MReg) (s : State) : Out := .next (vecRR w d a b m (fun z x y => if z ≤ y then 0 else x * 2 ^ y) s)

/-- VSRL (R117). -/
def execVsrl (w : BitVec 2) (d a b : VReg) (m : MReg) (s : State) : Out := .next (vecRR w d a b m (fun z x y => if z ≤ y then 0 else x / 2 ^ y) s)

/-- VSRA (R117). -/
def execVsra (w : BitVec 2) (d a b : VReg) (m : MReg) (s : State) : Out := .next (vecRR w d a b m (fun z x y => unsgn z (sgn z x / (2 ^ min y z : Nat))) s)

/-- VMIN (R117). -/
def execVmin (w : BitVec 2) (d a b : VReg) (m : MReg) (s : State) : Out := .next (vecRR w d a b m (fun z x y => if sgn z y < sgn z x then y else x) s)

/-- VMAX (R117). -/
def execVmax (w : BitVec 2) (d a b : VReg) (m : MReg) (s : State) : Out := .next (vecRR w d a b m (fun z x y => if sgn z x < sgn z y then y else x) s)

/-- VMINN (R117). -/
def execVminn (w : BitVec 2) (d a b : VReg) (m : MReg) (s : State) : Out := .next (vecRR w d a b m (fun _ x y => min x y) s)

/-- VMAXN (R117). -/
def execVmaxn (w : BitVec 2) (d a b : VReg) (m : MReg) (s : State) : Out := .next (vecRR w d a b m (fun _ x y => max x y) s)

/-- VAND (R118). -/
def execVand (d a b : VReg) (m : MReg) (s : State) : Out := .next (vecBit d a b m (fun x y => x &&& y) s)

/-- VOR (R118). -/
def execVor (d a b : VReg) (m : MReg) (s : State) : Out := .next (vecBit d a b m (fun x y => x ||| y) s)

/-- VXOR (R118). -/
def execVxor (d a b : VReg) (m : MReg) (s : State) : Out := .next (vecBit d a b m (fun x y => x ^^^ y) s)

/-- VANDN (R118). -/
def execVandn (d a b : VReg) (m : MReg) (s : State) : Out := .next (vecBit d a b m (fun x y => x &&& (y ^^^ (2 ^ 32 - 1))) s)

/-- VCEQ at width 32 (R119). -/
def execVceqE32 (d : MReg) (a b : VReg) (m : MReg) (s : State) : Out := .next (vecCmp 32 d a b m (fun x y => decide (x = y)) s)

/-- VCNE at width 32 (R119). -/
def execVcneE32 (d : MReg) (a b : VReg) (m : MReg) (s : State) : Out := .next (vecCmp 32 d a b m (fun x y => decide (x ≠ y)) s)

/-- VCLT at width 32 (R119). -/
def execVcltE32 (d : MReg) (a b : VReg) (m : MReg) (s : State) : Out := .next (vecCmp 32 d a b m (fun x y => decide (sgn 32 x < sgn 32 y)) s)

/-- VCLTN at width 32 (R119). -/
def execVcltnE32 (d : MReg) (a b : VReg) (m : MReg) (s : State) : Out := .next (vecCmp 32 d a b m (fun x y => decide (x < y)) s)

/-- VCEQ at width 16 (R119). -/
def execVceqE16 (d : MReg) (a b : VReg) (m : MReg) (s : State) : Out := .next (vecCmp 16 d a b m (fun x y => decide (x = y)) s)

/-- VCNE at width 16 (R119). -/
def execVcneE16 (d : MReg) (a b : VReg) (m : MReg) (s : State) : Out := .next (vecCmp 16 d a b m (fun x y => decide (x ≠ y)) s)

/-- VCLT at width 16 (R119). -/
def execVcltE16 (d : MReg) (a b : VReg) (m : MReg) (s : State) : Out := .next (vecCmp 16 d a b m (fun x y => decide (sgn 16 x < sgn 16 y)) s)

/-- VCLTN at width 16 (R119). -/
def execVcltnE16 (d : MReg) (a b : VReg) (m : MReg) (s : State) : Out := .next (vecCmp 16 d a b m (fun x y => decide (x < y)) s)

/-- VCEQ at width 8 (R119). -/
def execVceqE8 (d : MReg) (a b : VReg) (m : MReg) (s : State) : Out := .next (vecCmp 8 d a b m (fun x y => decide (x = y)) s)

/-- VCNE at width 8 (R119). -/
def execVcneE8 (d : MReg) (a b : VReg) (m : MReg) (s : State) : Out := .next (vecCmp 8 d a b m (fun x y => decide (x ≠ y)) s)

/-- VCLT at width 8 (R119). -/
def execVcltE8 (d : MReg) (a b : VReg) (m : MReg) (s : State) : Out := .next (vecCmp 8 d a b m (fun x y => decide (sgn 8 x < sgn 8 y)) s)

/-- VCLTN at width 8 (R119). -/
def execVcltnE8 (d : MReg) (a b : VReg) (m : MReg) (s : State) : Out := .next (vecCmp 8 d a b m (fun x y => decide (x < y)) s)

/-! ### Float arithmetic and compares (R120, R121) -/

/-- v_d := an element-wise float result in the entry of an FSEL slot, flags gathered over the active elements. -/
def vecFloat (fs : Nat) (d : VReg) (m : MReg) (f : Fmt → Thread → Nat → Flagged Nat) (s : State) : State :=
  s.onSlot fs fun g =>
    s.retireT [] fun th =>
      let mask := th.readM m
      let v := mergeLanes g.W mask (th.readV d) fun i => (f g th i).1
      let e := ((List.range (laneCount g.W)).filter fun i => mask.getLsbD i).foldl (fun e i => e ||| (f g th i).2) 0
      addFlags (th.writeV d v) e

/-- An operation of two elements, encoded once. -/
def vecF2 (w : BitVec 2) (d a b : VReg) (m : MReg) (op : Val → Val → Flagged Val) (s : State) : State :=
  vecFloat w.toNat d m (fun g th i =>
    let (x, e) := op (decodeVal g (laneOf g.W (th.readV a) i)) (decodeVal g (laneOf g.W (th.readV b) i))
    let (c, e') := encodeVal g x
    (c, e ||| e')) s

/-- VFADD (R120). -/
def execVfadd (w : BitVec 2) (d a b : VReg) (m : MReg) (s : State) : Out := .next (vecF2 w d a b m Val.add s)

/-- VFSUB (R120). -/
def execVfsub (w : BitVec 2) (d a b : VReg) (m : MReg) (s : State) : Out := .next (vecF2 w d a b m Val.sub s)

/-- VFMUL (R120). -/
def execVfmul (w : BitVec 2) (d a b : VReg) (m : MReg) (s : State) : Out := .next (vecF2 w d a b m Val.mul s)

/-- VFFMA (R120). -/
def execVffma (w : BitVec 2) (d a b : VReg) (m : MReg) (s : State) : Out :=
  .next (vecFloat w.toNat d m (fun g th i =>
    let at_ := fun (r : VReg) => decodeVal g (laneOf g.W (th.readV r) i)
    let (x, e) := (at_ a).fma (at_ b) (at_ d)
    let (c, e') := encodeVal g x
    (c, e ||| e')) s)

/-- The order of VFMIN and VFMAX: −0 below +0. -/
def Val.below (x y : Val) : Bool := x.lt y || (x.isZero && y.isZero && x.sign && !y.sign)

/-- The code of the chosen operand; v_a's when neither is below the other; a NaN result is canonical (R120). -/
def pickFloat (g : Fmt) (x y : Nat) (takeY : Val → Val → Bool) : Nat :=
  let u := decodeVal g x
  let v := decodeVal g y
  if u.isNan && v.isNan then nanCode g
  else if u.isNan then y
  else if v.isNan then x
  else if takeY u v then y else x

/-- VFMIN (R120). -/
def execVfmin (w : BitVec 2) (d a b : VReg) (m : MReg) (s : State) : Out :=
  .next (vecFloat w.toNat d m (fun g th i =>
    (pickFloat g (laneOf g.W (th.readV a) i) (laneOf g.W (th.readV b) i) fun u v => v.below u, 0)) s)

/-- VFMAX (R120). -/
def execVfmax (w : BitVec 2) (d a b : VReg) (m : MReg) (s : State) : Out :=
  .next (vecFloat w.toNat d m (fun g th i =>
    (pickFloat g (laneOf g.W (th.readV a) i) (laneOf g.W (th.readV b) i) fun u v => u.below v, 0)) s)

/-- A float compare in slot 0's entry. -/
def vecFCmp (d : MReg) (a b : VReg) (m : MReg) (rel : Val → Val → Bool) (nanFlag : Nat) (s : State) : State :=
  s.onSlot 0 fun g =>
    s.retireT [] fun th =>
      let mask := th.readM m
      let n := laneCount g.W
      let pair := fun i => (decodeVal g (laneOf g.W (th.readV a) i), decodeVal g (laneOf g.W (th.readV b) i))
      let nan := (List.range n).any fun i => mask.getLsbD i && ((pair i).1.isNan || (pair i).2.isNan)
      addFlags (th.writeM d (mergeMask n mask (th.readM d) fun i => rel (pair i).1 (pair i).2)) (if nan then nanFlag else 0)

/-- VFCEQ (R121). -/
def execVfceq (d : MReg) (a b : VReg) (m : MReg) (s : State) : Out := .next (vecFCmp d a b m Val.eqv 0 s)

/-- VFCLT (R121). -/
def execVfclt (d : MReg) (a b : VReg) (m : MReg) (s : State) : Out := .next (vecFCmp d a b m Val.lt flInvalid s)

/-- VFCLE (R121). -/
def execVfcle (d : MReg) (a b : VReg) (m : MReg) (s : State) : Out := .next (vecFCmp d a b m Val.le flInvalid s)

/-- VFCUN (R121). -/
def execVfcun (d : MReg) (a b : VReg) (m : MReg) (s : State) : Out := .next (vecFCmp d a b m (fun x y => x.isNan || y.isNan) 0 s)

/-! ### Moving lanes (R124-R127) -/

/-- VSEL: m_x chooses between v_a and v_b in every 32-bit element. -/
def execVsel (d a b : VReg) (m : MReg) (s : State) : Out :=
  .next (s.retireT [] fun th => th.writeV d (mergeLanes 32 (th.readM m) (th.readV b) fun i => laneOf 32 (th.readV a) i))

/-- VBCAST. -/
def execVbcast (w : BitVec 2) (d : VReg) (a : SReg) (m : MReg) (s : State) : Out :=
  .next (s.withOps [a] none fun r =>
    s.retireT [a] fun th => th.writeV d (mergeLanes (widthBits w) (th.readM m) (th.readV d) fun _ => (r a).toNat))

/-- VEXTR: element s_b of v_a; 0 beyond the last; a masked-off one leaves s_d. -/
def execVextr (w : BitVec 2) (d : SReg) (a : VReg) (b : SReg) (m : MReg) (s : State) : Out :=
  .next (s.withOps [b] (some d) fun r =>
    let z := widthBits w
    let k := (r b).toNat
    if laneCount z ≤ k then s.retireS [b] d 0
    else if (s.cur.readM m).getLsbD k then s.retireS [b] d (BitVec.ofNat 64 (laneOf z (s.cur.readV a) k))
    else s.retire [b])

/-- VINS: element s_b of v_d := s_a, if it exists and is active. -/
def execVins (w : BitVec 2) (d : VReg) (a b : SReg) (m : MReg) (s : State) : Out :=
  .next (s.withOps [a, b] none fun r =>
    let z := widthBits w
    let k := (r b).toNat
    s.retireT [a, b] fun th =>
      if k < laneCount z ∧ (th.readM m).getLsbD k then th.writeV d (putAt (th.readV d) (z * k) z (r a).toNat) else th)

/-- VIOTA: each active element's rank among the active elements. -/
def execViota (w : BitVec 2) (d : VReg) (m : MReg) (s : State) : Out :=
  .next (vecOp (widthBits w) d m (fun th i => ((List.range i).filter fun j => (th.readM m).getLsbD j).length) s)

/-- VMOV. -/
def execVmov (d a : VReg) (m : MReg) (s : State) : Out := .next (vecOp 32 d m (fun th i => laneOf 32 (th.readV a) i) s)

/-- VWIDEN8. -/
def execVwiden8 (d a : VReg) (m : MReg) (s : State) : Out := .next (vecOp 16 d m (fun th i => laneOf 8 (th.readV a) i) s)

/-- VWIDEN16. -/
def execVwiden16 (d a : VReg) (m : MReg) (s : State) : Out := .next (vecOp 32 d m (fun th i => laneOf 16 (th.readV a) i) s)

def clampU (w n x : Nat) : Nat := if sgn w x < 0 then 0 else min x (2 ^ n - 1)

/-- VNARROW16: bytes 32 to 63 of v_d are kept. -/
def execVnarrow16 (d a : VReg) (m : MReg) (s : State) : Out :=
  .next (vecOp 16 d m (fun th i => if i < 16 then clampU 32 16 (laneOf 32 (th.readV a) i) else laneOf 16 (th.readV d) i) s)

/-- VNARROW8: bytes 32 to 63 of v_d are kept. -/
def execVnarrow8 (d a : VReg) (m : MReg) (s : State) : Out :=
  .next (vecOp 8 d m (fun th i => if i < 32 then clampU 16 8 (laneOf 16 (th.readV a) i) else laneOf 8 (th.readV d) i) s)

/-! ### Reductions and scans (R128, R129) -/

/-- The active signed 32-bit elements. -/
def activeInts (th : Thread) (a : VReg) (m : MReg) : List Int :=
  ((List.range 16).filter fun i => (th.readM m).getLsbD i).map fun i => sgn 32 (laneOf 32 (th.readV a) i)

def vecReduce (d : SReg) (a : VReg) (m : MReg) (f : List Int → Int) (s : State) : State :=
  s.withOps [] (some d) fun _ => s.retireS [] d (BitVec.ofInt 64 (f (activeInts s.cur a m)))

/-- VREDADD. -/
def execVredadd (d : SReg) (a : VReg) (m : MReg) (s : State) : Out := .next (vecReduce d a m (fun l => l.foldl (· + ·) 0) s)

/-- VREDMIN. -/
def execVredmin (d : SReg) (a : VReg) (m : MReg) (s : State) : Out :=
  .next (vecReduce d a m (fun l => l.foldl min (2 ^ 31 - 1)) s)

/-- VREDMAX. -/
def execVredmax (d : SReg) (a : VReg) (m : MReg) (s : State) : Out :=
  .next (vecReduce d a m (fun l => l.foldl max (-(2 ^ 31))) s)

/-- VREDFADD: the fixed tree in slot 0's entry. -/
def execVredfadd (d : SReg) (a : VReg) (m : MReg) (s : State) : Out :=
  .next (s.withOps [] (some d) fun _ =>
    s.onSlot 0 fun g =>
      let th := s.cur
      let l := (List.range (laneCount g.W)).map fun i =>
        if (th.readM m).getLsbD i then some (laneOf g.W (th.readV a) i) else none
      let (c, e) := treeSum g 5 l
      (s.withFlags e).retireS [] d (BitVec.ofNat 64 c))

/-- VSCANADD: inclusive prefix sums of the active elements. -/
def execVscanadd (d a : VReg) (m : MReg) (s : State) : Out :=
  .next (vecOp 32 d m (fun th i =>
    (((List.range (i + 1)).filter fun j => (th.readM m).getLsbD j).map fun j => laneOf 32 (th.readV a) j).sum) s)

/-- The running sums over a list of active codes, with the flags of each addition. -/
def scanCodes (g : Fmt) : Option Nat → List (Option Nat) → List (Nat × Nat)
  | _, [] => []
  | run, none :: r => (0, 0) :: scanCodes g run r
  | none, some x :: r => (x, 0) :: scanCodes g (some x) r
  | some y, some x :: r =>
    let (c, e) := addCodes g y x
    (c, e) :: scanCodes g (some c) r

/-- VSCANFADD: in lane order, each addition rounded once. -/
def execVscanfadd (d a : VReg) (m : MReg) (s : State) : Out :=
  .next (s.onSlot 0 fun g =>
    s.retireT [] fun th =>
      let l := (List.range (laneCount g.W)).map fun i =>
        if (th.readM m).getLsbD i then some (laneOf g.W (th.readV a) i) else none
      let sums := scanCodes g none l
      let v := mergeLanes g.W (th.readM m) (th.readV d) fun i => (sums.getD i (0, 0)).1
      addFlags (th.writeV d v) (sums.foldl (fun e x => e ||| x.2) 0))

/-! ### Permutes (R135) -/

/-- VPERM. -/
def execVperm (w : BitVec 2) (d a b : VReg) (m : MReg) (s : State) : Out :=
  .next (let z := widthBits w
    vecOp z d m (fun th i =>
      let k := laneOf z (th.readV b) i
      if k < laneCount z then laneOf z (th.readV a) k else 0) s)

/-- A shift of lanes by s_b. -/
def vecSlide (w : BitVec 2) (d a : VReg) (b : SReg) (m : MReg) (f : Nat → Nat → Option Nat) (s : State) : State :=
  s.withOps [b] none fun r =>
    let z := widthBits w
    s.retireT [b] fun th =>
      th.writeV d (mergeLanes z (th.readM m) (th.readV d) fun i =>
        match f i (r b).toNat with
        | some k => if k < laneCount z then laneOf z (th.readV a) k else 0
        | none => 0)

/-- VSLDN. -/
def execVsldn (w : BitVec 2) (d a : VReg) (b : SReg) (m : MReg) (s : State) : Out :=
  .next (vecSlide w d a b m (fun i k => some (i + k)) s)

/-- VSLUP. -/
def execVslup (w : BitVec 2) (d a : VReg) (b : SReg) (m : MReg) (s : State) : Out :=
  .next (vecSlide w d a b m (fun i k => if k ≤ i then some (i - k) else none) s)

/-! ### Masks (R136, R137) -/

def maskOp (d a b : MReg) (f : W64 → W64 → W64) (s : State) : State :=
  s.retireT [] fun th => th.writeM d (f (th.readM a) (th.readM b))

/-- MAND (R136). -/
def execMand (d a b : MReg) (s : State) : Out := .next (maskOp d a b (fun x y => x &&& y) s)

/-- MOR (R136). -/
def execMor (d a b : MReg) (s : State) : Out := .next (maskOp d a b (fun x y => x ||| y) s)

/-- MXOR (R136). -/
def execMxor (d a b : MReg) (s : State) : Out := .next (maskOp d a b (fun x y => x ^^^ y) s)

/-- MANDN (R136). -/
def execMandn (d a b : MReg) (s : State) : Out := .next (maskOp d a b (fun x y => x &&& ~~~y) s)

/-- s_d := f m_a. -/
def maskRead (d : SReg) (a : MReg) (f : W64 → W64) (s : State) : State :=
  s.withOps [] (some d) fun _ => s.retireS [] d (f (s.cur.readM a))

/-- MPOP. -/
def execMpop (d : SReg) (a : MReg) (s : State) : Out := .next (maskRead d a popc s)

/-- MFIRST. -/
def execMfirst (d : SReg) (a : MReg) (s : State) : Out := .next (maskRead d a ctz s)

/-- MMOVS. -/
def execMmovs (d : SReg) (a : MReg) (s : State) : Out := .next (maskRead d a (fun x => x) s)

/-- MMOVM. -/
def execMmovm (d : MReg) (a : SReg) (s : State) : Out :=
  .next (s.withOps [a] none fun r => s.retireT [a] fun th => th.writeM d (r a))

/-! ### Gang reductions (R138) -/

/-- A member contributes s_a; outside a gang the value is its own. -/
def gangOp (op : GangOp) (d a : SReg) (entry : W64) (s : State) (bad : Option Err := none) : State :=
  s.withOps [a] (some d) (late := true) fun r =>
    match bad, s.cur.gang with
    | some e, _ => s.trap e
    | none, some g =>
      let ms := s.members s.iss.thr
      (s.commit [a] [.s d] [] (.gang op (r a) entry ms g.num g.done)).reduce ms g.num g.done
    | none, none =>
      let (v, e) := gangOwn op entry (r a)
      (s.withFlags e).commit [a] [.s d] [(.s d, v.setWidth 512)] (.ready s.cycle)

/-- GADD. -/
def execGadd (d a : SReg) (s : State) : Out := .next (gangOp .add d a 0 s)

/-- GMIN. -/
def execGmin (d a : SReg) (s : State) : Out := .next (gangOp .min d a 0 s)

/-- GMAX. -/
def execGmax (d a : SReg) (s : State) : Out := .next (gangOp .max d a 0 s)

/-- FSEL slot 0 and its entry, of the leader as it issued the bundle (R138). -/
def State.gangEntry (s : State) : Nat × W64 :=
  let slot := bits s.cur.fsel.toNat 4 0
  match s.cur.gang.bind (·.ahead.head?) with
  | some f => (f.slot, f.entry)
  | none => (slot, (s.ctx s.cur.ctx).fmtWord slot)

/-- GFADD: in the entry of the leader's FSEL slot 0; where it fails R86 every member traps, DESIGN CHOICE (entry
11): after the tests of its operands. -/
def execGfadd (d a : SReg) (s : State) : Out :=
  .next (
    let (slot, entry) := s.gangEntry
    gangOp .fadd d a entry s (bad := (acceptFloat entry).map fun reason => fmtErr reason slot))

end Sys2Proof.Machine
end

