-- ==== Sys2Proof/Machine/Matrix.lean ====
section
/-! DEFINITION. The matrix unit: operands and drains, the slice sum, the queues and their tile steps, drain wakes,
NETEVAL, and the saving of a core's matrix state (10_matrix R170-R202). -/

namespace Sys2Proof.Machine

open Sys2Proof

/-! ### Operands (R174-R178) -/

/-- Logical elements of a group of 12 that are kept. -/
def keptOf (sparsity : Nat) : Nat := if sparsity = 1 then 6 else if sparsity = 2 then 3 else 12

/-- Bytes of a row. -/
def Operand.rowBytes (o : Operand) : Nat := o.k * 6 * o.fmt.fmt.W
def Operand.scale (o : Operand) : Nat := bits o.fmt.word.toNat 30 29
/-- Groups of a row of a sparse operand. -/
def Operand.groups (o : Operand) : Nat := o.k * 48 / keptOf o.sparsity
def Operand.scaleBase (o : Operand) : Nat := o.off + 32 * o.stride
/-- First even offset after the scales, or the rows (entry 18). -/
def Operand.maskBase (o : Operand) : Nat :=
  let e := o.scaleBase + (if o.scale = 0 then 0 else 32 * o.k)
  e + e % 2

/-- End of the operand's area: rows, scales, masks. -/
def Operand.end_ (o : Operand) : Nat :=
  max (o.off + 31 * o.stride + o.rowBytes)
    (max (if o.scale = 0 then 0 else o.scaleBase + 32 * o.k) (if o.sparsity = 0 then 0 else o.maskBase + 64 * o.groups))

/-- The operand a descriptor names, its entry's snapshot taken in the issuer's context. -/
def State.operand (s : State) (d : W64) : Operand :=
  let n := d.toNat
  let core := if bits n 23 23 = 1 then s.curCore else s.curCore / 8 * 8 + bits n 22 20
  { core := core, off := bits n 19 0, stride := bits n 40 29, k := bits n 48 41, sparsity := bits n 50 49,
    fmt := s.snap s.cur.ctx (bits n 28 24) }

/-- The checks of one operand; those that need the element width only where the entry is accepted. -/
def operandCheck (which : Nat) (sparse : Bool) (d : W64) (o : Operand) : Option Err :=
  let n := d.toNat
  let ok := (acceptMatrix o.fmt.entry o.fmt.word).isNone
  if n / 2 ^ 51 ≠ 0 ∨ (bits n 23 23 = 1 ∧ bits n 22 20 ≠ 0) then some (mdescErr 1 which)
  else if o.off % 32 ≠ 0 then some (mdescErr 2 which)
  else if o.stride % 8 ≠ 0 ∨ (ok ∧ o.stride < o.rowBytes) then some (mdescErr 3 which)
  else if o.k = 0 then some (mdescErr 4 which)
  else if (if sparse then decide (o.sparsity = 0 ∨ o.sparsity = 3) else decide (o.sparsity ≠ 0)) then some (mdescErr 6 which)
  else if ok ∧ Config.localBytes < o.end_ then some (mdescErr 7 which)
  else none

/-- FMT of the first entry not accepted for matrix use. -/
def matrixFmt (l : List Snap) : Option Err :=
  l.findSome? fun x => (acceptMatrix x.entry x.word).map fun k => fmtErr k x.entry

/-! ### The slice sum (R179) -/

def cutTo (x : Val) (g : Int) : Int :=
  match x with
  | .fin s m e _ =>
    let n : Int := (if g ≤ e then m * 2 ^ (e - g).toNat else m / 2 ^ (g - e).toNat : Nat)
    if s then -n else n
  | _ => 0

/-- One slice's exact products added onto an accumulator. -/
def sliceSum (c : Val) (ts : List Val) : BitVec 32 :=
  let l := c :: ts
  let pos := l.any fun x => decide (x = .inf false)
  let neg := l.any fun x => decide (x = .inf true)
  if l.any Val.isNan || (pos && neg) then rne32 .nan
  else if pos then rne32 (.inf false)
  else if neg then rne32 (.inf true)
  else
    let nz := l.filter fun x => !x.isZero
    match nz with
    | [] => rne32 (.fin (l.all Val.sign) 0 0)
    | x :: r =>
      let top := fun (v : Val) => match v with | .fin _ m e _ => leadExp m e | _ => 0
      let g := (r.foldl (fun m v => max m (top v)) (top x)) - 36
      let sum := (nz.map fun v => cutTo v g).foldl (· + ·) 0
      rne32 (.fin (decide (sum < 0)) sum.natAbs g)

/-! ### Reading operands -/

/-- Element `k` of row `r`, and a row's scale of a stored slice. -/
def State.element (s : State) (o : Operand) (r k : Nat) : Val :=
  let f := o.fmt.fmt
  let bit := f.W * k
  let x := s.lsRead o.core (o.off + r * o.stride + bit / 8) ((f.W + 7) / 8)
  decodeVal f (x / 2 ^ (bit % 8))

def State.scaleOf (s : State) (o : Operand) (r sl : Nat) : Option Val :=
  let b := s.lsRead o.core (o.scaleBase + r * o.k + sl) 1
  if o.scale = 1 then some (if b = 0xFF then .nan else .fin false 1 (b - 127))
  else if o.scale = 2 then some (decodeVal (fmtOf 0x120E8349#64) b)
  else none

def mulScale (x : Val) : Option Val → Val
  | some y => (x.mul y).1
  | none => x

/-- The logical positions a group's mask keeps, lowest first, at most N. -/
def maskPositions (n m : Nat) : List Nat := (((List.range 12).filter fun i => bits m i i = 1)).take n

def State.maskOf (s : State) (o : Operand) (r g : Nat) : Nat := s.lsRead o.core (o.maskBase + 2 * (r * o.groups + g)) 2

/-- The exact products of A row `i` and B row `j` of stored slice `sl` (R175, R176). -/
def State.sliceTerms (s : State) (a b : Operand) (i j sl : Nat) : List Val :=
  let prod := fun (t pos : Nat) =>
    mulScale (mulScale ((s.element a i t).mul (s.element b j pos)).1 (s.scaleOf a i sl)) (s.scaleOf b j (pos / 48))
  if a.sparsity = 0 then (List.range 48).map fun k => prod (48 * sl + k) (48 * sl + k)
  else
    let n := keptOf a.sparsity
    ((List.range (48 / n)).map fun q =>
      let g := 48 * sl / n + q
      (maskPositions n (s.maskOf a i g)).zipIdx.map fun (p, k) => prod (n * g + k) (12 * g + p)).flatten

/-- Does some mask of the stored slice keep another number than N (R176)? -/
def State.maskBad (s : State) (a : Operand) (sl : Nat) : Bool :=
  let n := keptOf a.sparsity
  decide (a.sparsity ≠ 0) && (List.range 32).any fun r => (List.range (48 / n)).any fun q =>
    decide ((((List.range 12).filter fun i => bits (s.maskOf a r (48 * sl / n + q)) i i = 1)).length ≠ n)

/-! ### The partition (R170) -/

def accKey (tile row col : Nat) : Nat := tile * 1024 + row * 32 + col
def Core.accGet (c : Core) (tile row col : Nat) : BitVec 32 := tget 0 c.acc (accKey tile row col)
def Core.accSet (c : Core) (tile row col : Nat) (v : BitVec 32) : Core := { c with acc := tset 0 c.acc (accKey tile row col) v }

/-- Do rows of a tile hold poison (24_device R386)? -/
def Core.accBad (c : Core) (tile row n : Nat) : Bool :=
  c.accPoison.any fun p => decide (p / 512 = tile) && decide (row ≤ p % 512 / 16) && decide (p % 512 / 16 < row + n)
/-- ECC of the accumulator partition: array 8. -/
def eccAcc : Err := eccArray 8
/-- Rows of a tile are read: what injection left in them is found (24_device R388). -/
def State.accTouch (s : State) (core tile row n ctx : Nat) : State :=
  s.arrayTouch core 8 (fun p => decide (p / 512 = tile) && decide (row ≤ p % 512 / 16) && decide (p % 512 / 16 < row + n)) ctx

/-- Set every value of a tile; its poison goes. -/
def Core.accTile (c : Core) (tile : Nat) (f : Nat → Nat → BitVec 32) : Core :=
  let c := { c.wrote 8 (fun p => decide (p / 512 = tile)) (tile * 512) with
    accPoison := c.accPoison.filter fun p => decide (p / 512 ≠ tile) }
  (List.range 1024).foldl (fun c k => c.accSet tile (k / 32) (k % 32) (f (k / 32) (k % 32))) c

/-- Sixteen accumulators of a half row. -/
def Core.accRow (c : Core) (tile row half : Nat) : V512 :=
  BitVec.ofNat 512 (packLanes 32 ((List.range 16).map fun l => (c.accGet tile row (16 * half + l)).toNat))

/-! ### Queue entries (R172, R173, R181) -/

/-- Fields of a NETEVAL shape record (R196). -/
def netLayers (d : BitVec 384) : Nat := bits d.toNat 7 0
def netWidth (d : BitVec 384) (i : Nat) : Nat :=
  if i = 0 then bits d.toNat 15 8
  else if i = netLayers d then bits d.toNat 47 40
  else bits d.toNat (8 * i + 15) (8 * i + 8)
def netWeights (d : BitVec 384) (i : Nat) : Nat := bits d.toNat (32 * i + 159) (32 * i + 128)
def netBias (d : BitVec 384) (i : Nat) : Nat := bits d.toNat (32 * i + 287) (32 * i + 256)
def netAct (d : BitVec 384) (i : Nat) : Nat := bits d.toNat (2 * i + 49) (2 * i + 48)

/-- Tile steps an entry takes. -/
def MOp.total : MOp → Nat
  | .mma _ _ a _ => (a.k + 7) / 8
  | .mzero _ => 1
  | .drain _ _ _ _ => 4
  | .accrd _ _ _ _ => 1
  | .accwr _ _ _ _ => 1
  | .neteval _ r _ _ _ => 2 * netLayers r

def MOp.isDrain : MOp → Bool
  | .drain _ _ _ _ => true
  | _ => false
def MOp.wakes : MOp → Bool
  | .drain _ _ _ w => w
  | _ => false
/-- Does it write registers? -/
def MOp.reads : MOp → Bool
  | .accrd _ _ _ _ => true
  | .neteval _ _ _ _ _ => true
  | _ => false

/-- Does a place lie in a core's local store? -/
def Loc.on (l : Loc) (core : Nat) : Bool := l.isLocal && decide (l.coreId = core)

/-- Does a copy request, a transform request or a transfer name a core's local store (11_engines R210, R213, 23_link
R370)? DESIGN CHOICE (entry 17): the word a copy credits is no area it names. -/
def CopyReq.names (q : CopyReq) (core : Nat) : Bool :=
  let p := planOf q.desc.toNat q.src q.dst
  p.src.on core || p.dst.on core
def TxReq.names (q : TxReq) (core : Nat) : Bool :=
  let d := q.recd.toNat
  (txSrc d).on core || (txSecond d).on core || decide (coreOf q.owner.thr = core)
def NetReq.names (q : NetReq) (core : Nat) : Bool :=
  (placeOf (bits q.desc.toNat 71 0) (bits q.desc.toNat 288 288 = 1)).on core

/-- Target core and offset of a drain (R185). -/
def drainCore (d : W64) (own : Nat) : Nat := if bits d.toNat 31 31 = 1 then own else bits d.toNat 30 20
/-- Does an entry of core `own`'s queue fetch from a core's local store, or is it a drain to it that has started (R177;
entry 38)? -/
def MEnt.names (e : MEnt) (own core : Nat) : Bool :=
  match e.op with
  | .mma _ _ a b => decide (a.core = core ∨ b.core = core)
  | .neteval _ _ _ _ _ => decide (own = core)
  | .drain _ d _ _ => decide (0 < e.steps) && !e.sent && e.refused.isNone && decide (drainCore d own = core)
  | _ => false

def drainOff (d : W64) : Nat := bits d.toNat 19 0
def drainStride (d : W64) : Nat := bits d.toNat 48 37

/-- The entry the queue works on: the oldest whose writes are not all sent. DESIGN CHOICE (entry 38): a drain gives up its
place among the 16 entries once all its writes are sent, before they are acknowledged. -/
def Core.mqHead (c : Core) : Option MEnt := c.mq.find? fun e => !e.sent
def Core.mqCount (c : Core) : Nat := (c.mq.filter fun e => !e.sent).length

def Core.setEnt (c : Core) (old new : MEnt) : Core := { c with mq := c.mq.map fun e => if e = old then new else e }
def Core.dropEnt (c : Core) (old : MEnt) : Core := { c with mq := c.mq.filter fun e => decide (e ≠ old) }

/-- Is the entry, in core `own`'s queue, an MDRAINW that has started and whose wake is to go to a core (R189)? -/
def MEnt.reserves (e : MEnt) (own core : Nat) : Bool :=
  match e.op with
  | .drain _ d _ w => w && decide (0 < e.steps) && e.refused.isNone && decide (drainCore d own = core)
  | _ => false

/-- Spawn-queue entries of a core reserved by started MDRAINWs, those of saved queues among them (R189). -/
def State.reservedWakes (s : State) (core : Nat) : Nat :=
  (s.cores.map fun (k, c) => (c.mq.filter fun e => e.reserves k core).length).sum +
  (s.groups.map fun (_, g) =>
    if g.st = .saved then (g.save.mstate.map fun (k, q, _) => (q.filter fun e => e.reserves k core).length).sum else 0).sum

/-- A register-writing entry that has started, or drain writes not yet acknowledged (R199). -/
def Core.startedBusy (c : Core) : Bool :=
  c.mq.any fun e => (e.op.reads && decide (0 < e.steps)) || (e.sent && !e.acked)

/-- What an entry is known by in the queue's array (24_device R388). -/
def MEnt.key (e : MEnt) : Nat := e.num * 16384 + e.owner.thr

/-- Put an entry in the core's queue; the bundle numbers itself on class 0. -/
def State.enqueue (s : State) (op : MOp) : State × Nat :=
  let (s, n) := s.number 0
  let c := s.core s.curCore
  let e : MEnt := { owner := s.owner s.iss.thr s.iss.b.pc, num := n, op := op }
  (s.setCore s.curCore { c.wrote 7 (fun k => decide (k = e.key)) e.key with mq := c.mq ++ [e] }, n)

/-- A bundle that needs a queue entry is held while the queue is full. -/
def State.onQueue (s : State) (k : State → State) : State :=
  if 16 ≤ (s.core s.curCore).mqCount then s else k s

/-! ### Issue -/

/-- The MMA family (R192): its reads observe the thread's earlier stores to every local store (R190). -/
def mma (clear sparse : Bool) (d : BitVec 3) (a b : SReg) (s : State) : State :=
  s.onQueue fun s => s.withOps [a, b] none fun r =>
    let x := s.operand (r a)
    let y := s.operand (r b)
    let factor := if x.sparsity = 1 then 2 else if x.sparsity = 2 then 4 else 1
    match operandCheck 0 sparse (r a) x, operandCheck 1 false (r b) y with
    | some e, _ => s.trap e
    | none, some e => s.trap e
    | none, none =>
      if y.k ≠ x.k * factor then s.trap (mdescErr 5 1)
      else
        match matrixFmt [x.fmt, y.fmt] with
        | some e => s.trap e
        | none => ((s.enqueue (.mma d.toNat clear x y)).1).retire [a, b]

/-- MMA. -/
def execMma (d : BitVec 3) (a b : SReg) (s : State) : Out := .next (mma false false d a b s)
/-- MMAZ. -/
def execMmaz (d : BitVec 3) (a b : SReg) (s : State) : Out := .next (mma true false d a b s)
/-- MMAS. -/
def execMmas (d : BitVec 3) (a b : SReg) (s : State) : Out := .next (mma false true d a b s)
/-- MMASZ. -/
def execMmasz (d : BitVec 3) (a b : SReg) (s : State) : Out := .next (mma true true d a b s)

/-- MZERO (R193). -/
def execMzero (d : BitVec 3) (s : State) : Out :=
  .next (s.onQueue fun s => ((s.enqueue (.mzero d.toNat)).1).retire [])

/-- The checks of a drain (R178). DESIGN CHOICE (entry 38): reason 8 asks that the issuing core hold a task of the
context for an own-core drain too. -/
def State.drainCheck (s : State) (wake : Bool) (d : W64) (f : Snap) : Option Err :=
  let n := d.toNat
  let core := drainCore d s.curCore
  let ok := (acceptAny f.word).isNone
  let row := 4 * f.fmt.W
  if n / 2 ^ 55 ≠ 0 ∨ (bits n 31 31 = 1 ∧ bits n 30 20 ≠ 0) then some (mdescErr 1 0)
  else if drainOff d % 16 ≠ 0 then some (mdescErr 2 0)
  else if drainStride d % 16 ≠ 0 ∨ (ok ∧ drainStride d < row) then some (mdescErr 3 0)
  else if ok ∧ Config.localBytes < drainOff d + 31 * drainStride d + row then some (mdescErr 7 0)
  else if Config.cores ≤ core ∨ !s.hasTask core s.cur.ctx then some (mdescErr 8 0)
  else if wake = decide (bits n 54 52 = 0) then some (mdescErr 9 0)
  else (acceptAny f.word).map fun k => fmtErr k f.entry

/-- MDRAIN and MDRAINW (R194); the wake of an MDRAINW releases the thread's earlier accesses (R191). -/
def drain (wake : Bool) (d : BitVec 3) (a : SReg) (s : State) : State :=
  s.onQueue fun s => s.withOps [a] none fun r =>
    let f := s.snap s.cur.ctx (bits (r a).toNat 36 32)
    match s.drainCheck wake (r a) f with
    | some e => s.trap e
    | none =>
      let go := fun (s : State) => ((s.enqueue (.drain d.toNat (r a) f wake)).1).retire [a]
      if wake then s.release go else go s

/-- MDRAIN. -/
def execMdrain (d : BitVec 3) (a : SReg) (s : State) : Out := .next (drain false d a s)
/-- MDRAINW. -/
def execMdrainw (d : BitVec 3) (a : SReg) (s : State) : Out := .next (drain true d a s)

/-- ACCRD (R195). -/
def execAccrd (d : VReg) (a : SReg) (s : State) : Out :=
  .next (s.onQueue fun s => s.withOps [a] none fun r =>
    let n := (r a).toNat
    let (s, num) := s.enqueue (.accrd (bits n 2 0) (bits n 7 3) (bits n 8 8) d)
    s.commit [a] [.v d] [] (.entry num))

/-- ACCWR (R195): v_d is read at issue. -/
def execAccwr (d : VReg) (a : SReg) (s : State) : Out :=
  .next (s.onQueue fun s => s.withOps [a] none fun r =>
    let n := (r a).toNat
    ((s.enqueue (.accwr (bits n 2 0) (bits n 7 3) (bits n 8 8) (s.cur.readV d))).1).retire [a])

/-- The checks of a NETEVAL record (R178, R196). DESIGN CHOICE (entry 38): of two entries not accepted, FMT names the
weights' before the activations'; and where the weights' entry is not accepted, of reason 13 only the part that needs its
width, the weight areas', is not made. -/
def netCheck (rec_ : BitVec 384) (d a : Nat) (w act : Snap) : Option Err :=
  let n := rec_.toNat
  let l := netLayers rec_
  let ok := (acceptMatrix w.entry w.word).isNone
  let inRange := fun (x : Nat) => decide (1 ≤ x ∧ x ≤ 8)
  let hidden := (List.range 3).all fun i =>
    let x := bits n (8 * i + 23) (8 * i + 16)
    if i + 1 < l then decide (x = 8 ∨ x = 16 ∨ x = 24 ∨ x = 32) else decide (x = 0)
  let areas := (List.range l).all fun i =>
    let m := netWidth rec_ (i + 1)
    decide (netWeights rec_ i % 32 = 0) && decide (netBias rec_ i % 4 = 0) &&
      decide (netBias rec_ i + 4 * m ≤ Config.localBytes) &&
      (!ok || decide (netWeights rec_ i + m * 6 * w.fmt.W ≤ Config.localBytes))
  if bits n 127 69 ≠ 0 ∨ bits n 63 61 ≠ 0 then some (mdescErr 1 2)
  else if !(decide (1 ≤ l ∧ l ≤ 4) && inRange (bits n 15 8) && inRange (bits n 47 40) && hidden) then some (mdescErr 10 2)
  else if (List.range l).any fun i => decide (netAct rec_ i = 3) then some (mdescErr 11 2)
  else if 32 < a + 2 * bits n 15 8 ∨ 32 < d + 2 * bits n 47 40 then some (mdescErr 12 2)
  else if !areas then some (mdescErr 13 2)
  else matrixFmt [w, act]

/-- NETEVAL (R197): its inputs are read at issue; its other reads observe the thread's earlier stores (R190). -/
def execNeteval (d a : VReg) (b : SReg) (s : State) : Out :=
  .next (s.onQueue fun s => s.withOps [b] none fun r =>
    match localCheck (r b) 48 16 Config.localBytes with
    | some e => s.trap e
    | none =>
      let o := (r b).toNat
      let rec_ : BitVec 384 := BitVec.ofNat 384 (s.lsRead s.curCore o 48)
      let w := s.snap s.cur.ctx (bits rec_.toNat 68 64)
      let act := s.snap s.cur.ctx (bits rec_.toNat 60 56)
      let s := s.lsTouch s.curCore o 48 s.cur.ctx
      if s.lsPoisoned s.curCore o 48 then s.trap (eccLocal o)
      else
        match netCheck rec_ d.toNat a.toNat w act with
        | some e => s.trap e
        | none =>
          let x := (List.range (2 * bits rec_.toNat 15 8)).map fun i => s.cur.readV (a + BitVec.ofNat 5 i)
          let outs := (List.range (2 * bits rec_.toNat 47 40)).map fun i => Reg.v (d + BitVec.ofNat 5 i)
          let (s, num) := s.enqueue (.neteval d rec_ w act x)
          s.commit [b] outs [] (.entry num))

/-- MQSTAT (R198). -/
def execMqstat (d : SReg) (s : State) : Out :=
  .next (s.withOps [] (some d) fun _ =>
    let c := s.core s.curCore
    s.retireS [] d (BitVec.ofNat 64 (c.mqCount + (if c.mqFrozen then 2 ^ 5 else 0) + (if c.mqMaskErr then 2 ^ 6 else 0) +
      c.spill.length * 2 ^ 8 + min 4 (c.spawnQ.length + s.reservedWakes s.curCore) * 2 ^ 16 + c.mqWeight.toNat * 2 ^ 24)))

/-! ### Execution of tile steps -/

/-- Poisoned bytes of an operand's area (24_device R386). -/
def State.operandPoison (s : State) (o : Operand) : Option Err :=
  if s.lsPoisoned o.core o.off (o.end_ - o.off) then some (eccLocal o.off) else none

/-- The local stores as the fetches of a step find them: each reply of the spill ring answers the fetch of one of the
blocks of 128 bytes of `l`, a core and an offset; which one is open (R201; entry 14). -/
def State.replayed (s : State) (core : Nat) (l : List (Nat × Nat)) : State :=
  (s.core core).spill.zipIdx.foldl (fun s (x, i) =>
    match l[(Config.freeValue (s.free + i)).toNat % l.length]? with
    | some (c, o) => s.setCore c { s.core c with ls := putBytes (s.core c).ls o (toBytes 128 x.toNat) }
    | none => s) s

/-- The replies are used up, and with them the free values that place them. -/
def State.replayDone (s : State) (core : Nat) : State :=
  let c := s.core core
  { (s.setCore core { c with spill := [] }) with free := s.free + c.spill.length }

/-- The blocks of 128 bytes of an area. -/
def blocksOf (core off n : Nat) : List (Nat × Nat) := (List.range ((n + 127) / 128)).map fun i => (core, off + 128 * i)

/-- Up to eight stored slices of an MMA: c, or +0 at the first step of a clearing one, and the slice sums of operands as
`view` holds them. -/
def State.mmaStep (s view : State) (core : Nat) (e : MEnt) (tile : Nat) (clear : Bool) (a b : Operand) : State :=
  let c := s.core core
  let first := 8 * e.steps
  let slices := (List.range (min 8 (a.k - first))).map (first + ·)
  let c' := c.accTile tile fun i j =>
    let x := if clear && decide (e.steps = 0) then 0 else c.accGet tile i j
    slices.foldl (fun x sl => sliceSum (val32 x) (view.sliceTerms a b i j sl)) x
  let bad := slices.any (view.maskBad a)
  s.setCore core { c' with mqMaskErr := c.mqMaskErr || bad }

/-- Write bytes of a drain that has started: to the local store, or to the image of a group saved since (R188, 08_barrier
R164). -/
def State.drainWrite (s : State) (ctx tgt o : Nat) (bs : List (BitVec 8)) : State :=
  match if s.hasTask tgt ctx then none else s.savedHome tgt ctx o bs.length with
  | some key => s.savedWrite key tgt o bs
  | none => s.lsWrite tgt o bs

/-- Eight rows of a drain (R186). -/
def State.drainStep (s : State) (core : Nat) (e : MEnt) (tile : Nat) (d : W64) (f : Snap) : State × MEnt :=
  let tgt := drainCore d core
  let c := s.core core
  (List.range 8).foldl (fun (acc : State × MEnt) k =>
    let i := 8 * e.steps + k
    let es := (List.range 32).map fun j =>
      encodeVal f.fmt (val32 (c.accGet tile i j)) (rndOf (bits d.toNat 51 50)) (decide (bits d.toNat 49 49 = 1))
    let row := toBytes (4 * f.fmt.W) (packLanes f.fmt.W (es.map (·.1)))
    (acc.1.drainWrite e.owner.ctx tgt (drainOff d + i * drainStride d) row,
     { acc.2 with flags := es.foldl (fun x y => x ||| y.2) acc.2.flags })) (s, e)

/-- Output of an activation function (R197). -/
def activate (code : Nat) (y : BitVec 32) : BitVec 32 :=
  let v := val32 y
  if v.isNan then rne32 .nan
  else if code = 0 then y
  else if v.le (.fin false 0 0) then 0
  else if code = 2 ∧ (Val.fin false 1 0).lt v then 0x3F800000#32
  else y

/-- Layer `i` of a NETEVAL into tile 7, with weights and biases as `view` holds them, and its flags. -/
def State.netLayer (s view : State) (core : Nat) (r : BitVec 384) (w act : Snap) (x : List V512) (i : Nat) : State × Nat :=
  let c := s.core core
  let ni := netWidth r i
  let no := netWidth r (i + 1)
  let input := fun (smp k : Nat) =>
    if i = 0 then val32 (BitVec.ofNat 32 (laneOf 32 (x.getD (2 * k + smp / 16) 0) (smp % 16)))
    else val32 (c.accGet 7 smp k)
  let coded := fun (smp k : Nat) => encodeVal act.fmt (input smp k)
  let weight := fun (o k : Nat) =>
    let f := w.fmt
    let x := view.lsRead core (netWeights r i + o * 6 * f.W + f.W * k / 8) ((f.W + 7) / 8)
    decodeVal f (x / 2 ^ (f.W * k % 8))
  let bias := fun (o : Nat) => val32 (BitVec.ofNat 32 (view.lsRead core (netBias r i + 4 * o) 4))
  let cell := fun (smp o : Nat) =>
    let ts := (List.range ni).map fun k => ((decodeVal act.fmt (coded smp k).1).mul (weight o k)).1
    let zeros := List.replicate (48 - ni) (Val.fin false 0 0)
    let y := sliceSum (.fin false 0 0) (ts ++ zeros)
    let (v, e) := (val32 y).add (bias o)
    let (z, e') := encodeVal fp32 v
    (activate (netAct r i) (BitVec.ofNat 32 z), e ||| e')
  let c' := c.accTile 7 fun smp o => if o < no then (cell smp o).1 else 0
  let fl := (List.range 32).foldl (fun f smp =>
    let f := (List.range ni).foldl (fun f k => f ||| (coded smp k).2) f
    (List.range no).foldl (fun f o => f ||| (cell smp o).2) f) 0
  (s.setCore core c', fl)

/-- Poison in the weights and biases of a layer. -/
def State.netPoison (s : State) (core : Nat) (r : BitVec 384) (w : Snap) (i : Nat) : Option Err :=
  let no := netWidth r (i + 1)
  if s.lsPoisoned core (netWeights r i) (no * 6 * w.fmt.W) then some (eccLocal (netWeights r i))
  else if s.lsPoisoned core (netBias r i) (4 * no) then some (eccLocal (netBias r i))
  else none

/-- An entry and the spilled replies it goes on from are read: poison in them traps the thread that owns the entry at its
next bundle (24_device R386, R388). -/
def State.queueRead (s : State) (core : Nat) (e : MEnt) : State :=
  let s := s.arrayTouch core 7 (fun k => decide (k = e.key)) e.owner.ctx
  let s := if (s.core core).spill = [] then s else s.arrayTouch core 6 (fun _ => true) e.owner.ctx
  let c := s.core core
  let mine := fun (x : Nat × Nat) => decide (x = (7, e.key)) || decide (x.1 = 6)
  match c.bad.find? mine with
  | none => s
  | some (a, _) =>
    ((s.setCore core { c with bad := c.bad.filter fun x => !mine x }).modOwner e.owner fun th => { th with poison := some a }).1

/-- One tile step of an entry. One that consumes poison is refused with ECC (24_device R386), and a drain whose target
holds no task of the context when it starts with REMOTE (R188). The core's partition is the context's from now on
(R171), and the replies of the spill ring are what the first fetches find (R201; entry 14). -/
def State.entryStep (s : State) (core : Nat) (e : MEnt) : State :=
  let s := s.queueRead core e
  let s := s.setCore core { s.core core with partCtx := some e.owner.ctx }
  let put := fun (s : State) (e' : MEnt) => s.setCore core ((s.core core).setEnt e e')
  let next := { e with steps := e.steps + 1 }
  let stop := fun (s : State) (x : Err) => put s { e with steps := e.op.total, refused := some x }
  let s := match e.op with
    | .mma tile _ _ _ => s.accTouch core tile 0 32 e.owner.ctx
    | .drain tile _ _ _ => s.accTouch core tile (8 * e.steps) 8 e.owner.ctx
    | .accrd tile row _ _ => s.accTouch core tile row 1 e.owner.ctx
    | .neteval _ _ _ _ _ => if 1 < e.steps then s.accTouch core 7 0 32 e.owner.ctx else s
    | _ => s
  let bad := fun (tile row n : Nat) => if (s.core core).accBad tile row n then some eccAcc else none
  match e.op with
  | .mma tile clear a b =>
    let s := (s.lsTouch a.core a.off (a.end_ - a.off) e.owner.ctx).lsTouch b.core b.off (b.end_ - b.off) e.owner.ctx
    match ((s.operandPoison a).or (s.operandPoison b)).or (if clear && decide (e.steps = 0) then none else bad tile 0 32) with
    | some x => stop s x
    | none =>
      let view := s.replayed core (blocksOf a.core a.off (a.end_ - a.off) ++ blocksOf b.core b.off (b.end_ - b.off))
      put ((s.mmaStep view core e tile clear a b).replayDone core) next
  | .mzero tile => put (s.setCore core ((s.core core).accTile tile fun _ _ => 0)) next
  | .drain tile d f _ =>
    let gone := decide (e.steps = 0) && !s.hasTask (drainCore d core) e.owner.ctx
    match if gone then some (remoteErr (drainCore d core) 2)
      else if e.steps = 0 then bad tile 0 32 else bad tile (8 * e.steps) 8 with
    | some x => stop s x
    | none =>
      let (s, e') := s.drainStep core e tile d f
      put s { e' with steps := e.steps + 1, sent := decide (4 ≤ e.steps + 1) }
  | .accrd tile row _ _ =>
    match bad tile row 1 with
    | some x => stop s x
    | none => put s next
  | .accwr tile row half v =>
    let c := (List.range 16).foldl (fun c l => c.accSet tile row (16 * half + l) (BitVec.ofNat 32 (laneOf 32 v l))) (s.core core)
    let first := (tile * 1024 + row * 32 + 16 * half) / 2
    let c := { c.wrote 8 (fun p => decide (p / 8 = first / 8)) first with
      accPoison := c.accPoison.filter fun p => decide (p / 8 ≠ first / 8) }
    put (s.setCore core c) next
  | .neteval _ r w act x =>
    if e.steps % 2 = 0 then put s next
    else
      let i := e.steps / 2
      let s := (s.lsTouch core (netWeights r i) (netWidth r (i + 1) * 6 * w.fmt.W) e.owner.ctx).lsTouch core (netBias r i)
        (4 * netWidth r (i + 1)) e.owner.ctx
      match (s.netPoison core r w i).or (if i = 0 then none else bad 7 0 32) with
      | some x => stop s x
      | none =>
      let view := s.replayed core (blocksOf core (netWeights r i) (netWidth r (i + 1) * 6 * w.fmt.W) ++
        blocksOf core (netBias r i) (4 * netWidth r (i + 1)))
      let (s, fl) := s.netLayer view core r w act x (e.steps / 2)
      put (s.replayDone core) { next with flags := e.flags ||| fl }

/-- MQWEIGHT as it acts (R183). -/
def weightOf (w : BitVec 4) : Nat := min 8 (max 1 w.toNat)

/-- Is a freeze of the core's queue asked for: MQCTL stop, or a group to be saved that alone holds the core (R199)? -/
def State.freezeAsked (s : State) (core : Nat) : Bool :=
  (s.core core).mqStop ||
  s.groups.any fun (key, g) =>
    s.toBeSaved (key / 33554432) (key % 33554432) g && (s.soleCores (key / 33554432) (key % 33554432) g).contains core

/-- Must an entry wait: its fetches and writes at another core for what its core has sent there before (01_machine R20), its
reads for the stores its thread made before it (R190)? -/
def State.entryBehind (s : State) (core : Nat) (e : MEnt) : Bool :=
  let busy := s.meshBusy e.owner.vf core
  match e.op with
  | .mma _ _ a b => busy a.core || busy b.core || s.storesOut e.owner
  | .neteval _ _ _ _ _ => s.storesOut e.owner
  | .drain _ d _ _ => busy (drainCore d core)
  | _ => false

/-- Can the core take a tile step now (R182, R189, R199)? -/
def State.mqReady (s : State) (core : Nat) : Bool :=
  let c := s.core core
  match c.mqHead with
  | none => false
  | some e =>
    decide (e.steps < e.op.total) && !c.mqFrozen && !s.entryBehind core e &&
    (!s.freezeAsked core || (e.op.reads && decide (0 < e.steps))) &&
    (match e.op with
     | .drain _ d _ true =>
       decide (0 < e.steps) || decide ((s.core (drainCore d core)).spawnQ.length + s.reservedWakes (drainCore d core) < 4)
     | _ => true)

/-- The core of the cluster whose step is next in the round, and the steps left to it after that one. -/
def State.matrixNext (s : State) (clu : Nat) : Option (Nat × Nat) :=
  let x := s.clu clu
  if 0 < x.mleft ∧ s.mqReady (clu * 8 + x.mcore) then some (x.mcore, x.mleft - 1)
  else
    (((List.range 8).map fun i => (x.mcore + 1 + i) % 8).find? fun k => s.mqReady (clu * 8 + k)).map fun k =>
      (k, weightOf (s.core (clu * 8 + k)).mqWeight - 1)

/-- MATRIX_TILE_STEP: one step of the core whose turn it is; under a grant, up to 7 of every 8 steps are idle and charged
to the core whose step follows them (24_device R383, R384). -/
def execMatrixTileStep (clu : Nat) (s : State) : Out :=
  .next (match s.matrixNext clu with
    | none => s
    | some (k, left) =>
      let x := s.clu clu
      let core := clu * 8 + k
      let phase := (x.mphase + 1) % 8
      if x.mphase < min 7 (s.die (clu / 48)).idle then s.setClu clu { x with mphase := phase, midle := x.midle + 1 }
      else
        let s := s.setClu clu { x with mcore := k, mleft := left, mphase := phase, midle := 0 }
        let s := s.setCore core { s.core core with throttle := (s.core core).throttle + BitVec.ofNat 64 x.midle }
        match (s.core core).mqHead with
        | some e => s.entryStep core e
        | none => s)

/-! ### Completion (R173, R186-R189) -/

/-- The pending bundle of an entry writes its registers, which depend on loads up to a moment, and the entry ends on the
timeline. -/
def Thread.entryDone (th : Thread) (m num flags : Nat) (vals : List (Reg × V512)) : Thread :=
  let th := th.writeLate m vals
  ({ th with pend := th.pend.filter fun p => decide (p.due ≠ Due.entry num) }.finish 0 num flags none).sysDepend 0x011 m

/-- What an entry writes to registers as it completes. -/
def Core.entryVals (c : Core) : MOp → List (Reg × V512)
  | .accrd tile row half d => [(.v d, c.accRow tile row half)]
  | .neteval d r _ _ _ =>
    (List.range (2 * netWidth r (netLayers r))).map fun i =>
      (.v (d + BitVec.ofNat 5 i),
       BitVec.ofNat 512 (packLanes 32 ((List.range 16).map fun l => (c.accGet 7 (16 * (i % 2) + l) (i / 2)).toNat)))
  | _ => []

/-- MATRIX_ENTRY_COMPLETE: the head has made its last step, or has been refused. DESIGN CHOICE (entry 38): of a drain
that meets poison after it has started, the rows converted stay written and their flags are dropped; and poison met by an ACCRD
or a NETEVAL comes with its reply (03_thread R61), so that it is lost, and marks no kernel (15_kernel R272), where the issuer has
ended. -/
def execMatrixEntryComplete (core : Nat) (s : State) : Out :=
  .next (let c := s.core core
    match c.mqHead with
    | none => s
    | some e =>
      if e.steps < e.op.total then s
      else
        let s := s.setCore core (c.dropEnt e)
        match e.refused with
        | some x =>
          if e.op.reads then
            (s.modOwner e.owner fun th =>
              let th := th.finish 0 e.num 0 none
              { th with pend := th.pend.map fun p =>
                  if p.due = Due.entry e.num then { p with due := Due.ready 0, vals := [], err := some x } else p }).1
          else s.finishOp e.owner 0 e.num 0 (some x)
        | none => (s.modOwner e.owner fun th => th.entryDone s.moment e.num e.flags (c.entryVals e.op)).1)

/-- DRAIN_WRITE_ACK: the target's port acknowledges the oldest drain's writes; an MDRAIN is complete. -/
def execDrainWriteAck (core : Nat) (s : State) : Out :=
  .next (let c := s.core core
    match c.mq.find? fun e => e.sent && !e.acked with
    | none => s
    | some e =>
      if e.op.wakes then s.setCore core (c.setEnt e { e with acked := true })
      else (s.setCore core (c.dropEnt e)).finishOp e.owner 0 e.num e.flags none)

/-- The lowest FREE slot of a core held by a group of the context. -/
def State.wakeSlot (s : State) (core ctx : Nat) : Option Nat :=
  ((List.range 7).map fun k => core * 8 + k).find? fun t =>
    s.isFree t && (match (s.thread t).grp with
      | some (ser, _) => decide ((s.kernel ser).ctx = ctx)
      | none => false)

/-- DRAIN_WAKE: the wake of the oldest acknowledged MDRAINW starts a task, or takes its spawn-queue entry while no slot of its
context is free or earlier wakes of that wait there (R187, R189). A core fenced for good refuses it with reason 2 (24_device R391). With no
handler installed it is refused with reason 3; DESIGN CHOICE (entry 38): the rows it has written by then stay, and its
flags are raised. -/
def execDrainWake (core : Nat) (s : State) : Out :=
  .next (let c := s.core core
    match c.mq.find? fun e => e.acked with
    | none => s
    | some e =>
      match e.op with
      | .drain tile d _ _ =>
        let h := bits d.toNat 54 52
        let tgt := drainCore d core
        let pc := tget 0 (s.ctx e.owner.ctx).handlers h
        let fenced := (s.core tgt).fenced
        let queue := (s.core tgt).spawnQ
        let slot := if queue.any fun q => decide (q.owner.ctx = e.owner.ctx) then none else s.wakeSlot tgt e.owner.ctx
        if pc ≠ 0 ∧ !fenced ∧ slot = none ∧ 4 ≤ queue.length then s
        else
        let s := s.setCore core (c.dropEnt e)
        if fenced then s.finishOp e.owner 0 e.num e.flags (some (remoteErr tgt 2))
        else if pc = 0 then s.finishOp e.owner 0 e.num e.flags (some (remoteErr tgt 3))
        else
          let args := [BitVec.ofNat 64 (core % 8), BitVec.ofNat 64 tile, BitVec.ofNat 64 (drainOff d), BitVec.ofNat 64 core]
          let s := match slot with
            | some t => s.startThread t pc args e.owner.ctx e.owner.vf
            | none =>
              let q : Spawn := { owner := e.owner, pc := pc, args := args, handler := h }
              s.setCore tgt { s.core tgt with spawnQ := (s.core tgt).spawnQ ++ [q] }
          s.finishOp e.owner 0 e.num e.flags none
      | _ => s)

/-! ### Freeze, save and restore (R199-R201) -/

/-- The bytes of a matrix save area; the queue image is the number of the image kept with the device (entry 14). An entry
whose writes are acknowledged is no longer in the queue. -/
def matrixBytes (q : List MEnt) (spill : List (BitVec 1024)) (acc : Tab (BitVec 32)) (image : Nat) : List (BitVec 8) :=
  toBytes 64 (1 + ((q.filter fun e => !e.acked).length + spill.length * 2 ^ 8) * 2 ^ 64) ++ toBytes 512 image ++
  toBytes 8192 ((spill.zipIdx.map fun (x, i) => x.toNat * 2 ^ (1024 * i)).sum) ++
  ((List.range 8192).map fun k => toBytes 4 (tget 0 acc (accKey (k / 32 % 8) (k / 256) (k % 32))).toNat).flatten

/-- Offset in a matrix save area of a pair of accumulators. -/
def accPlace (p : Nat) : Nat := 0x2240 + 4 * (256 * (p % 512 / 16) + 32 * (p / 512) + 2 * (p % 16))

/-- Write matrix state at an address of the device's memory (17_context R308); poison goes with it (24_device R386). -/
def State.matrixImage (s : State) (addr : Nat) (q : List MEnt) (spill : List (BitVec 1024)) (acc : Tab (BitVec 32))
    (bad : List Nat) : State :=
  let s := s.memWrite none addr (matrixBytes q spill acc 0)
  { s with poison := s.poison ++ bad.map fun p => addr + accPlace p }

/-- Parts of an area within pages of 4 KiB: address and bytes. -/
def pageParts (va n : Nat) : List (Nat × Nat) :=
  (List.range ((va + n + 4095) / 4096 - va / 4096)).map fun i =>
    let p := (va / 4096 + i) * 4096
    (max va p, min (va + n) (p + 4096) - max va p)

/-- Send bytes to a page of another device that has answered before, for a context: false where no OPEN endpoint leads there
now. -/
def State.farPut (s : State) (ctx node pa : Nat) (bs : List (BitVec 8)) : State × Bool :=
  match s.farEp node with
  | none => (s, false)
  | some e =>
    (s.sendOwn e { op := .put, remote := node * 2 ^ 40 + pa, len := bs.length, data := bs } (acc := some ctx), true)

/-- Write bytes at parts translated before; those of another device are sent there, its page having answered (entry 12).
The error is of the first that cannot be sent. -/
def State.putParts (s : State) (ctx : Nat) : List AreaPart → List (BitVec 8) → State × Option Err
  | [], _ => (s, none)
  | p :: r, bs =>
    let node := p.pa / 2 ^ 40
    let (s, ok) := if node = s.dev.node then (s.memWrite none (p.pa % 2 ^ 40) (bs.take p.n), true)
      else s.farPut ctx node (p.pa % 2 ^ 40) (bs.take p.n)
    let (s, e) := s.putParts ctx r (bs.drop p.n)
    (s, if ok then e else some { cause := 15, tval := BitVec.ofNat 64 p.va })

/-- The address of a byte of an area, where it is the device's own. -/
def State.placeAt (s : State) : List AreaPart → Nat → Option Nat
  | [], _ => none
  | p :: r, o =>
    if o < p.n then (if p.pa / 2 ^ 40 = s.dev.node then some (p.pa % 2 ^ 40 + o) else none) else s.placeAt r (o - p.n)

/-- Write a whole partition, with the poison that stays in it. -/
def Core.setPart (c : Core) (acc : Tab (BitVec 32)) (bad : List Nat) : Core :=
  { c with acc := acc, accPoison := bad, errs := c.errs.wrote 8 (fun _ => true) 0 }

/-- A core's matrix state is read whole: what injection left in it is found (24_device R388). -/
def State.matrixTouch (s : State) (core ctx : Nat) : State :=
  (s.core core).mq.foldl (fun s e => s.queueRead core e) (s.arrayTouch core 8 (fun _ => true) ctx)

/-- Replies are put in a core's spill ring, in front of what stands there; each is a write of its array (24_device R388). -/
def Core.putSpill (c : Core) (l : List (BitVec 1024)) : Core :=
  { (List.range l.length).foldl (fun (c : Core) k => c.wrote 6 (fun x => decide (x = k)) k) c with spill := l ++ c.spill }

/-- Entries are put in a core's queue, in front of what stands there. -/
def Core.putEntries (c : Core) (q : List MEnt) : Core :=
  { q.foldl (fun (c : Core) e => c.wrote 7 (fun k => decide (k = e.key)) e.key) c with mq := q ++ c.mq }

/-- The frozen queue is written to its area, in the step of the freeze, and stays frozen; the MSAVE is done. DESIGN CHOICE
(entry 38): replies spilled after that step are not in the image. -/
def State.saveMatrix (s : State) (core ctx : Nat) (places : List AreaPart) : State × Option Err :=
  let c := s.core core
  let n := s.dev.nextImage
  let s := { s with dev := { s.dev with
    images := tput s.dev.images n { ents := c.mq.filter fun e => !e.acked, spill := c.spill }, nextImage := n + 1 } }
  let (s, err) := s.putParts ctx places (matrixBytes c.mq c.spill c.acc n)
  let s := { s with poison := s.poison ++ c.accPoison.filterMap fun p => s.placeAt places (accPlace p) }
  (s.setCore core { s.core core with mqSaved := true }, err)

/-- An MSAVE has written parts of the device's own memory for a thread: its later loads there are performed after that
(25_ordering R394). -/
def State.wroteParts (s : State) (t : Nat) (l : List AreaPart) : State :=
  (l.filter fun p => decide (p.pa / 2 ^ 40 = s.dev.node)).foldl (fun s p =>
    (linesOf (p.pa % 2 ^ 40) p.n).foldl (fun (s : State) a => s.performedAt t (sliceOf a) s.moment) s) s

/-- MSAVEs of the core's threads that wait for the freeze are done. -/
def State.saveWaiting (s : State) (core : Nat) : State :=
  (List.range 8).foldl (fun s k =>
    let t := core * 8 + k
    match (s.thread t).pend.findSome? fun p => match p.due with | .msave l => some l | _ => none with
    | some l =>
      let (s, err) := (s.matrixTouch core (s.thread t).ctx).saveMatrix core (s.thread t).ctx l
      let s := s.wroteParts t l
      let th := s.thread t
      s.setThread t { th with pend := th.pend.map fun p => if p.due = .msave l then { p with due := .ready 0, err := err } else p }
    | none => s) s

/-- MATRIX_FREEZE: the freeze asked for takes effect at the end of a tile step, once started register writers are done
and issued drain writes acknowledged; a queue frozen for a group that is not to be saved from it any more runs on.
DESIGN CHOICE (entry 38): an MSAVE that waited writes its area in this step, so that replies spilled later are not in the
image (R201). -/
def execMatrixFreeze (core : Nat) (s : State) : Out :=
  .next (let c := s.core core
    if s.freezeAsked core && !c.mqFrozen && !c.startedBusy then
      (s.setCore core { c with mqFrozen := true }).saveWaiting core
    else if c.mqFrozen && !s.freezeAsked core && !c.mqSaved then s.setCore core { c with mqFrozen := false }
    else s)

/-- SPILL_REPLY: an operand reply after the freeze lands in the spill ring. -/
def execSpillReply (core : Nat) (data : BitVec 1024) (s : State) : Out :=
  .next (let c := s.core core
    if c.mqFrozen ∧ c.spill.length < 64 ∧ c.mq ≠ [] then
      let n := c.spill.length
      s.setCore core { c.wrote 6 (fun k => decide (k = n)) n with spill := c.spill ++ [data] }
    else s)

/-- The parts of a save area translated for an access. Of a page of another device a load reads the bytes, and a store
one byte, which tells whether the page is there (entry 12). A fault decides, no part of the device's own memory is accessed. -/
def State.areaPlaces (s : State) (t : Nat) (k : Kind) : List (Nat × Nat) → State × Got × Nat × List AreaPart
  | [] => (s, .ok [] none, 0, [])
  | (va, n) :: r =>
    let va := va % 2 ^ 72
    let go := fun (s : State) (node pa : Nat) (bs : List (BitVec 8)) =>
      match s.areaPlaces t k r with
      | (s, g, at_, l) => (s, g, at_, { pa := node * 2 ^ 40 + pa, va := va, n := n, data := bs } :: l)
    let len := if k = .store then 1 else n
    match s.sentBefore (s.asker t) .get va len with
    | some (s, .ok bs none) =>
      let at_ := (s.readPlace (s.asker t) va len).getD 0
      go s (at_ / 2 ^ 40) (at_ % 2 ^ 40) bs
    | some (s, g) => (s, g, va, [])
    | none =>
    match s.xlate (coreOf t) (s.thread t).ctx k va with
    | (s, .ok node pa _) =>
      if node = s.dev.node then go s node pa []
      else
        match (s.wentFar t).remoteAccess (s.asker t) .get node pa va len with
        | (s, .ok bs none) => go s node pa bs
        | (s, g) => (s, g, va, [])
    | (s, .ecc a) => (s, .ok [] (some (eccAt a va)), va, [])
    | (s, .hard reason) => (s, .hard reason, va, [])
    | (s, .soft c) => (s, .soft c, va, [])
    | (s, .busy) => (s, .busy, va, [])

/-- With the area translated, go on. -/
def State.onArea (s : State) (k : Kind) (a : AReg) (go : State → List AreaPart → State) : State :=
  let ea := s.cur.readA a
  if ea.toNat % 256 ≠ 0 then s.trap (misalign ea)
  else
    match s.areaPlaces s.iss.thr k (pageParts ea.toNat 41536) with
    | (s, g, va, l) => s.onGot g k va fun _ err =>
      match err with
      | some e => s.trap e
      | none => go s l

/-- MSAVE. DESIGN CHOICE (entry 38): it asks for the freeze by setting MQCTL stop, which reads 1 from then on; while the
freeze has not come, a CSRW of stop = 0 leaves the MSAVE waiting. Its thread issues nothing more
until the area is written, so that its later accesses find that done (25_ordering R394). -/
def execMsave (a : AReg) (s : State) : Out :=
  .next (s.system (s.onArea .store a fun s l =>
    let core := s.curCore
    let c := s.core core
    let s := s.setCore core { c with mqStop := true }
    let s := s.commit [] [] [] (.msave l)
    if c.mqFrozen then s.saveWaiting core else s))

/-- Bytes of parts translated for a load. -/
def State.getParts (s : State) (l : List AreaPart) : List (BitVec 8) :=
  (l.map fun p => if p.pa / 2 ^ 40 = s.dev.node then s.memGet (p.pa % 2 ^ 40) p.n else p.data).flatten

/-- The home slices of own parts have replied to a load of them, the thread's later loads there coming after it (07_memory R139,
R143). -/
def State.tookParts (s : State) (t : Nat) (l : List AreaPart) : State :=
  (l.filter fun p => decide (p.pa / 2 ^ 40 = s.dev.node)).foldl (fun s p =>
    let a := p.pa % 2 ^ 40
    (List.range ((a + p.n + 255) / 256 - a / 256)).foldl (fun (s : State) i => s.replied t ((a / 256 + i) * 256)) s) s

/-- Does an own part hold poison? -/
def State.placesPoisoned (s : State) (l : List AreaPart) : Bool :=
  l.any fun p => decide (p.pa / 2 ^ 40 = s.dev.node) && s.memPoisoned (p.pa % 2 ^ 40) p.n

/-- MRSTR: queue, spill ring and partition are loaded from the area, stop is cleared and the queue runs; wakes of the old
queue that only wait to go out still go (R201; entry 14). DESIGN CHOICE (entry 38): the reserved bits of the header's
dword 1 count as counts out of range; and the class 0 numbers and pending registers of the entries discarded stay
outstanding, as nothing says that they complete; and a started MDRAINW it brings back, whose reservation went with a queue
discarded, is not tested for room, so that its wake may wait for a spawn-queue entry (R189). -/
def execMrstr (a : AReg) (s : State) : Out :=
  .next (s.system (s.onArea .load a fun s l =>
    if s.placesPoisoned l then s.trap (eccMem (s.cur.readA a).toNat) else
    let bs := s.getParts l
    let s := s.tookParts s.iss.thr l
    let head := ofBytes (bs.take 64)
    if bits head 63 0 ≠ 1 ∨ 16 < bits head 68 64 ∨ 64 < bits head 78 72 ∨ bits head 127 79 ≠ 0 ∨ bits head 71 69 ≠ 0 then
      s.trap (mdescErr 1 0)
    else
      let image := tget {} s.dev.images (ofBytes ((bs.drop 64).take 8))
      let acc := (List.range 8192).foldl (fun m k =>
        tset (0 : BitVec 32) m (accKey (k / 32 % 8) (k / 256) (k % 32)) (BitVec.ofNat 32 (ofBytes ((bs.drop (0x2240 + 4 * k)).take 4)))) []
      let core := s.curCore
      let c := s.core core
      let c := (({ c with mq := [], spill := [] } : Core).putEntries ((c.mq.filter (·.acked)) ++ image.ents)).putSpill image.spill
      (s.setCore core { c.setPart acc [] with
        partCtx := some s.cur.ctx, mqStop := false, mqFrozen := false, mqSaved := false }).commit
        [] [] [] (.ready s.cycle)))

end Sys2Proof.Machine
end

