-- ==== Sys2Proof/Machine/Kernel.lean ====
section
/-! DEFINITION. Completion records, tags, publications and the end of a kernel (15_kernel R263-R282, 19_queue
R322-R324). -/

namespace Sys2Proof.Machine

open Sys2Proof

/-! ### Completion records -/

/-- The number a completion record holds, its time taken now (R322). -/
def recordOf (time : Nat) (r : Rec) : Nat :=
  time % 2 ^ 64 + r.status * 2 ^ 64 + r.ser % 2 ^ 32 * 2 ^ 96 + r.cause.toNat * 2 ^ 128 + r.addr.toNat * 2 ^ 160 +
    r.seq % 2 ^ 32 * 2 ^ 224

/-- A notification of 16 bytes is a send on an endpoint (23_link R375). -/
def State.sendNote (s : State) (e q head : Nat) : State :=
  s.sendOwn e { op := .send, remote := 0, len := 16, data := toBytes 16 (q + head * 2 ^ 64) }

/-- Notify of the records up to the ring's head (R324). -/
def State.notify (s : State) (q : Nat) : State :=
  let x := s.queue q
  (s.sendNote x.ep q (s.memRead (x.ering % 2 ^ 40) 8)).setQueue q { x with unnotified := 0 }

/-- Send a notification when N records have been written since the last, whatever N was as they were written (R324). -/
def State.notifyDue (s : State) (q : Nat) : State :=
  let x := s.queue q
  if x.n ≠ 0 ∧ x.n ≤ x.unnotified then s.notify q else s

/-- The command has executed: the next sequence number follows. -/
def State.cmdDone (s : State) (q : Nat) : State :=
  let x := s.queue q
  s.setQueue q { x with placed := x.placed.filter (fun n => decide (n ≠ x.next)), next := (x.next + 1) % 2 ^ 32, block := none,
                        st := if x.st = .blocked ∨ x.st = .stalled then .running else x.st, stallVa := 0 }

/-- A record has been written: its kernel has ended, its EVENT has executed, and it counts toward N (R323, R324). -/
def State.recWritten (s : State) (q : Nat) (r : Rec) : State :=
  let s := match r.kernel with
    | some k => s.setKernel k { s.kernel k with st := .ended, ending := false, killed := false }
    | none => s
  let s := if r.event then s.cmdDone q else s
  let x := s.queue q
  (s.setQueue q { x with unnotified := x.unnotified + 1, firstRec := if x.unnotified = 0 then s.cycle else x.firstRec }).notifyDue q

/-- Write a completion record of a queue, or keep it waiting for ring space behind earlier ones (R323). -/
def State.putRec (s : State) (q : Nat) (r : Rec) : State :=
  let x := s.queue q
  if x.st = .free then s
  else if x.recs ≠ [] then (s.ringHeld (x.ering % 2 ^ 40)).setQueue q { x with recs := x.recs ++ [r] }
  else
    match s.ringPut (x.ering % 2 ^ 40) (2 ^ (x.esize + 4)) (recordOf s.timens r) with
    | some s => s.recWritten q r
    | none => (s.ringHeld (x.ering % 2 ^ 40)).setQueue q { x with recs := [r], recRetry := s.cycle + 4096 }

/-- The record a destroyed queue's ring has taken: its kernel has ended. -/
def State.oldWritten (s : State) (r : Rec) : State :=
  match r.kernel with
  | some k => s.setKernel k { s.kernel k with st := .ended, ending := false, killed := false }
  | none => s

/-- The record of a kernel that ends: for its queue, or, where that has been destroyed, for the ring it had (R323). -/
def State.kernelRec (s : State) (ser : Nat) (r : Rec) : State :=
  let q := (s.kernel ser).queue
  match (s.kernel ser).ring with
  | none => s.putRec q r
  | some (base, size) =>
    match if (s.queue q).old = [] then s.ringPut base size (recordOf s.timens r) else none with
    | some s => s.oldWritten r
    | none =>
      let s := s.ringHeld base
      let o : OldRec := { base := base, size := size, r := r, retryAt := s.cycle + 4096 }
      s.setQueue q { s.queue q with old := (s.queue q).old ++ [o] }

/-- A queue is destroyed: its record reads zero; the records that wait for its ring, and those its kernels are still to
write there, are not lost (R321, R323). -/
def State.destroyQueue (s : State) (q : Nat) : State :=
  let x := s.queue q
  let base := x.ering % 2 ^ 40
  let size := 2 ^ (x.esize + 4)
  let waiting := x.recs.map fun r => ({ base := base, size := size, r := r, retryAt := x.recRetry } : OldRec)
  let s := { s with kernels := s.kernels.map fun (n, (k : Kernel)) =>
    if k.queue = q ∧ k.st ≠ KState.ended ∧ k.ring = none then (n, { k with ring := some (base, size) }) else (n, k) }
  (s.forget (.queue q)).setQueue q { old := x.old ++ waiting }

/-- The oldest record that waits for a destroyed queue's ring is tried again. -/
def State.oldRetry (s : State) (q : Nat) : State :=
  let x := s.queue q
  match x.old with
  | [] => s
  | o :: rest =>
    if s.cycle < o.retryAt then s
    else
      match s.ringPut o.base o.size (recordOf s.timens o.r) with
      | some s => (s.setQueue q { s.queue q with old := rest }).oldWritten o.r
      | none => s.setQueue q { x with old := { o with retryAt := s.cycle + 4096 } :: rest }

/-- COMPLETION_RECORD_RETRY: the oldest waiting record is tried again every 4,096 core cycles (R323). -/
def execCompletionRecordRetry (q : Nat) (s : State) : Out :=
  .next (
    let s := s.oldRetry q
    let x := s.queue q
    match x.recs with
    | [] => s
    | r :: rest =>
      if s.cycle < x.recRetry then s
      else
        match s.ringPut (x.ering % 2 ^ 40) (2 ^ (x.esize + 4)) (recordOf s.timens r) with
        | some s =>
          let s := s.setQueue q { s.queue q with recs := rest }
          s.recWritten q r
        | none => s.setQueue q { x with recRetry := s.cycle + 4096 })

/-- NOTIFY_TIMER: T µs after the first record not yet notified (R324). -/
def execNotifyTimer (q : Nat) (s : State) : Out :=
  .next (
    let x := s.queue q
    if x.st ≠ .free ∧ x.n ≠ 0 ∧ x.t ≠ 0 ∧ x.unnotified ≠ 0 ∧ x.firstRec + 1800 * x.t ≤ s.cycle then s.notify q else s)

/-! ### Buffers and tags -/

/-- x newer than y, generations modulo 2^32 (R264). -/
def newer (x y : BitVec 32) : Bool := decide (1 ≤ (x - y).toNat) && decide ((x - y).toNat ≤ 2 ^ 31)
def orNewer (x y : BitVec 32) : Bool := x == y || newer x y

/-- The home of a buffer record: its address in the device's memory, or, of one on another node, that node and the address
there. -/
def State.homeOf (s : State) (node pa : Nat) : Nat := if node = s.dev.node then pa else (node + 1) * 2 ^ 40 + pa
/-- Is the record on another node? -/
def farHome (pa : Nat) : Bool := decide (2 ^ 40 ≤ pa)

/-- The fields of a buffer record at its home slice (R263). One of another device is what that device holds in the cycle
(entry 24). -/
def State.bufRead (s : State) (pa off n : Nat) : Nat :=
  if farHome pa then (Config.farRecord pa s.cycle).toNat / 2 ^ (8 * off) % 2 ^ (8 * n) else s.memRead (pa + off) n
def State.bufGen (s : State) (pa : Nat) : BitVec 32 := BitVec.ofNat 32 (s.bufRead pa 4 4)
def State.bufDone (s : State) (pa : Nat) : BitVec 32 := BitVec.ofNat 32 (s.bufRead pa 8 4)
def State.bufTiles (s : State) (pa : Nat) : Nat := s.bufRead pa 16 3
def State.bufCoarse (s : State) (pa : Nat) : Bool := decide (s.bufRead pa 19 1 % 2 = 1)

/-- A field is written: at its home slice, or by a packet to the device that holds it (23_link R376). -/
def State.bufPut (s : State) (pa off n x : Nat) : State :=
  if farHome pa then
    match s.farEp (pa / 2 ^ 40 - 1) with
    | some e => s.sendOwn e { op := .put, remote := (pa / 2 ^ 40 - 1) * 2 ^ 40 + pa % 2 ^ 40 + off, len := n, data := toBytes n x }
    | none => s
  else s.memPut (pa + off) n x

def State.tag? (s : State) (ctx id tile : Nat) : Option TagEnt :=
  s.tags.find? fun e => decide (e.ctx = ctx) && decide (e.id = id) && decide (e.tile = tile)

/-- Publications held in the clusters' tag ports. -/
def State.heldPubs (s : State) : List HeldPub := (s.clus.map fun e => e.2.held).flatten

/-- Is a publication held for a tile that can be applied: the entry has no registrant left (R277)? -/
def State.heldReady (s : State) (ctx id tile : Nat) : Bool :=
  s.heldPubs.any fun q =>
    decide (q.ctx = ctx) && decide (q.id = id) && decide (q.tile = tile) &&
      match s.tag? ctx id tile with
      | some e => decide (e.pending = 0)
      | none => true

/-- READY, no registrants, its buffer's done generation has caught up (R274), and no held publication takes it (R277). -/
def State.reclaimable (s : State) (e : TagEnt) : Bool :=
  e.ready && decide (e.pending = 0) && orNewer (s.bufDone e.pa) e.gen && !s.heldReady e.ctx e.id e.tile

/-- Entries kept for tiles other than one that have none, and that a held publication takes: its entry was freed when the
last registrant went (R277). One whose generation has fallen back takes none (R278). -/
def State.keptTags (s : State) (but : Nat × Nat × Nat) (p : HeldPub → Bool) : Nat :=
  ((s.heldPubs.filter fun q =>
    p q && (s.tag? q.ctx q.id q.tile).isNone && !s.dev.fallen.contains (q.pa, q.gen)).map fun q =>
      (q.ctx, q.id, q.tile)).eraseDups.countP fun x => decide (x ≠ but)

/-- Room for one more entry, a tile's, of a VF within its quota, after reclaiming as many of its oldest reclaimable entries
as that takes (R274). DESIGN CHOICE (entry 47): where reclaiming cannot make the room, because the quota has been lowered below the
VF's entries, nothing is reclaimed. -/
def State.tagRoom (s : State) (vf : Nat) (tile : Nat × Nat × Nat) : Option State :=
  let mine := s.tags.filter fun e => decide (e.vf = vf)
  let excess := max (mine.length + s.keptTags tile (fun q => decide (q.vf = vf)) + 1 - (s.vf vf).tags)
    (s.tags.length + s.keptTags tile (fun _ => true) + 1 - 262144)
  let old := (mine.filter s.reclaimable).take excess
  if old.length < excess then none
  else some { s with tags := s.tags.filter fun x => !old.contains x }

/-- What an input of a group is (R275). -/
inductive InputIs where
  | satisfied | stale | waiting
  deriving DecidableEq, Repr

def State.inputIs (s : State) (ctx : Nat) (i : Input) : InputIs :=
  let e := s.tag? ctx i.id i.tile
  let at_ := match e with
    | some e => e.ready && e.gen == i.gen
    | none => false
  if at_ || orNewer (s.bufDone i.pa) i.gen then .satisfied
  else
    match e with
    | some e => if !i.noEntry && newer e.gen i.gen then .stale else .waiting
    | none => .waiting

/-- Groups whose inputs are all satisfied become READY; one with a stale input is discarded and its kernel marked
faulted with the buffer record's address (R275, R288). -/
def State.reeval (s : State) : State :=
  s.groups.foldl (fun s (key, g) =>
    let ser := key / 33554432
    match tfind s.groups key with
    | some g' =>
      if g'.st = .waiting ∧ g.st = .waiting then
        let ctx := (s.kernel ser).ctx
        match g.inputs.find? fun i => decide (s.inputIs ctx i = .stale) with
        | some i =>
          let s := { (s.unregister ctx g.inputs) with groups := terase s.groups key }
          let va := match (s.kernel ser).inputs.find? fun d => decide (d.id = i.id) with
            | some d => d.va
            | none => 0
          (s.countEnd ser 1).markFault ser 9 (BitVec.ofNat 64 va)
        | none =>
          if g.inputs.all fun i => decide (s.inputIs ctx i = .satisfied) then
            { s with groups := tput s.groups key { g with st := .ready } }
          else s
      else s
    | none => s) s

/-- What a publication does (R276-R278). -/
inductive PubIs where
  | applied (s : State)
  | held
  deriving Repr

/-- Apply a publication of a tile at a generation. DESIGN CHOICE (entry 47): one that was held before its generation fell back is
dropped in its turn, as those issued after that are (R277, R278). -/
def State.publish (s : State) (p : HeldPub) : PubIs :=
  let fall := fun (s : State) =>
    let s := s.bufPut p.pa 12 4 ((s.bufRead p.pa 12 4 + 1) % 2 ^ 32)
    let s := s.bufPut p.pa 19 1 (s.bufRead p.pa 19 1 / 2 * 2 + 1)
    { s with dev := { s.dev with fallen := (p.pa, p.gen) :: s.dev.fallen.filter fun e => decide (e ≠ (p.pa, p.gen)) } }
  if s.dev.fallen.contains (p.pa, p.gen) then .applied (fall s)
  else
    match s.tag? p.ctx p.id p.tile with
    | none =>
      match s.tagRoom p.vf (p.ctx, p.id, p.tile) with
      | some s =>
        let e : TagEnt := { ctx := p.ctx, id := p.id, tile := p.tile, vf := p.vf, gen := p.gen, ready := true, pending := 0, pa := p.pa }
        .applied ({ s with tags := s.tags ++ [e] } : State).reeval
      | none => .applied (fall s)
    | some e =>
      if p.gen = e.gen then .applied ((s.modTag p.ctx p.id p.tile fun e => some { e with ready := true }).reeval)
      else if newer p.gen e.gen then
        if e.ready ∧ e.pending = 0 then
          .applied ((s.modTag p.ctx p.id p.tile fun e => some { e with gen := p.gen, bad := false }).reeval)
        else .held
      else .applied (s.markFault p.ser 9 (BitVec.ofNat 64 p.va))

/-- Publications held for the entry of one, in every cluster's tag port. -/
def State.heldFor (s : State) (p : HeldPub) : List HeldPub :=
  s.heldPubs.filter fun q => decide (q.ctx = p.ctx) && decide (q.id = p.id) && decide (q.tile = p.tile)

/-- Publish, behind those held for the entry if it is newer than what the entry holds (R277); one of a generation that
has fallen back is dropped at once (R278). -/
def State.publishInTurn (s : State) (p : HeldPub) : PubIs :=
  let isNewer : Bool := match s.tag? p.ctx p.id p.tile with
    | some e => newer p.gen e.gen
    | none => true
  if isNewer && !(s.heldFor p).isEmpty && !s.dev.fallen.contains (p.pa, p.gen) then .held else s.publish p

/-- A bundle reads a tag entry: ECC where it carries poison, the number of its array being open (24_device R386). -/
def State.readTag (s : State) (id tile : Nat) (k : State → State) : State :=
  match s.tag? s.cur.ctx id tile with
  | some e =>
    if e.bad then
      let (v, s) := s.takeFree
      s.trap (eccArray (v.toNat % 256))
    else k s
  | none => k s

/-- TAGPUB: an output index or a tile out of range traps MDESC 44 or 45, and so does poison where the record's tiles stand
(24_device R386; entry 13); a full tag port holds it, and a generation that has fallen back searches no table (R277, R278); a
DEVICE-scope release (R279, R280). -/
def execTagpub (a b : SReg) (s : State) : Out :=
  .next (s.withOps [a, b] none fun r =>
    let bad := s.trap (mdescErr 44 3)
    match s.cur.grp with
    | none => bad
    | some (ser, _) =>
      if slotOf s.iss.thr = 7 then bad
      else
        match (s.kernel ser).outputs[bits (r a).toNat 1 0]? with
        | none => bad
        | some d =>
          let tile := bits (r b).toNat 23 0
          if !farHome d.pa ∧ s.memPoisoned (d.pa + 16) 4 then s.trap (eccMem d.va)
          else if s.bufTiles d.pa ≤ tile then s.trap (mdescErr 45 3)
          else
            let go := fun (s' : State) =>
              let clu := cluOf s'.iss.thr
              let p : HeldPub := { num := s'.births, ctx := s'.cur.ctx, vf := s'.cur.vf, ser := ser, id := d.id, pa := d.pa,
                                   va := d.va, tile := tile, gen := d.gen }
              match s'.publishInTurn p with
              | .applied s' => s'.retire [a, b]
              | .held =>
                let x := s'.clu clu
                if 64 ≤ x.held.length then s
                else (({ s' with births := s'.births + 1 }).setClu clu { x with held := x.held ++ [p] }).retire [a, b]
            s.release fun s' => if s'.dev.fallen.contains (d.pa, d.gen) then go s' else s'.readTag d.id tile go)

/-- HELD_PUBLICATION_APPLY: the oldest held publication of the cluster whose entry has no registrant left, none older
being held for that entry, is applied (R277). -/
def execHeldPublicationApply (clu : Nat) (s : State) : Out :=
  .next (
    let x := s.clu clu
    let first := fun (p : HeldPub) => (s.heldFor p).all fun q => decide (p.num ≤ q.num)
    let free := fun (p : HeldPub) =>
      match s.tag? p.ctx p.id p.tile with
      | some e => decide (e.pending = 0)
      | none => true
    match x.held.find? fun p => first p && free p with
    | none => s
    | some p =>
      let s := s.setClu clu { x with held := x.held.filter fun q => decide (q ≠ p) }
      match s.publish p with
      | .applied s => s
      | .held => s)

/-- What reading a done generation finds. -/
inductive DoneIs where
  | gen (d : BitVec 32)
  /-- it carries poison -/
  | bad
  /-- another device has answered with an error -/
  | open_
  /-- it has not answered yet -/
  | wait
  deriving DecidableEq, Repr

/-- The done generation of the record at an address with its node above it, read at its home; another device is asked
(R263, R281, 24_device R386). -/
def State.doneAt (s : State) (w : Asker) (at_ : Nat) : State × DoneIs :=
  if at_ / 2 ^ 40 = s.dev.node then
    (s, if s.memPoisoned (at_ % 2 ^ 40 + 8) 4 then .bad else .gen (s.bufDone (at_ % 2 ^ 40)))
  else
    match s.remoteAccess w .get (at_ / 2 ^ 40) (at_ % 2 ^ 40 + 8) 0 4 with
    | (s, .ok bs none) => (s, .gen (BitVec.ofNat 32 (ofBytes bs)))
    | (s, .wait) => (s, .wait)
    | (s, _) => (s, .open_)

/-- What a TAGWAIT finds: the tile READY at the generation or newer, or its buffer done; or not, with what the done
generation reads as (R281). -/
inductive Seen where
  | yes
  | no
  | bad
  | wait
  deriving DecidableEq, Repr

def State.tagSeen (s : State) (w : Asker) (ctx id at_ tile : Nat) (gen : BitVec 32) : State × Seen :=
  match s.tag? ctx id tile with
  | some e => if e.bad then (s, .bad) else if e.ready && orNewer e.gen gen then (s, .yes) else done s
  | none => done s
where
  done (s : State) : State × Seen :=
    match s.doneAt w at_ with
    | (s, .gen d) => (s, if orNewer d gen then .yes else .no)
    | (s, .bad) => (s, .bad)
    | (s, .wait) => (s, .wait)
    | (s, .open_) => (s, .no)

/-- Read the buffer record an instruction names, as a plain load at commit, then check the tile (TAGWAIT, TAGQRY); `k`
gets the buffer's id and the record's address with its node above it. -/
def State.withBuffer (s : State) (va : W64) (tile : Nat) (k : State → Nat → Nat → List (BitVec 8) → Option Err → State) : State :=
  if va.toNat % 32 ≠ 0 then s.trap { cause := 4, tval := va }
  else
    let pa := (s.readPlace (s.asker s.iss.thr) va.toNat 32).getD (match (s.xlate s.curCore s.cur.ctx .load va.toNat).2 with
      | .ok node pa _ => node * 2 ^ 40 + pa
      | _ => 0)
    let (s, g) := s.readAt s.iss.thr va.toNat 32
    s.onGot g .load va.toNat fun bs err =>
      let n := ofBytes bs
      if err.isSome then k s (bits n 31 0) pa bs err
      else if bits n 151 128 ≤ tile then s.trap (mdescErr 45 3)
      else s.readTag (bits n 31 0) tile fun s => k s (bits n 31 0) pa bs err

/-- TAGWAIT. -/
def execTagwait (a b : SReg) (s : State) : Out :=
  .next (s.withOps [a, b] none fun r =>
    let tile := bits (r b).toNat 23 0
    let gen := BitVec.ofNat 32 (bits (r b).toNat 63 32)
    s.withBuffer (r a) tile fun s id pa _ err =>
      match err with
      | some e => s.trap e
      | none =>
        match s.tagSeen (s.asker s.iss.thr) s.cur.ctx id pa tile gen with
        | (s, .yes) => (s.flushL1 s.curCore).retire [a, b]
        | (s, .no) => s.block (.tag id pa tile gen) [a, b]
        | (s, .bad) => s.trap (eccMem (r a).toNat)
        | (s, .wait) => s.waitTurn)

/-- TAGWAIT_COMPLETE. Where the entry or the record has come to carry poison, the thread issues its TAGWAIT again, which reports that as it
reads it (24_device R386). -/
def execTagwaitComplete (thr : Nat) (s : State) : Out :=
  .next (match (s.thread thr).st, (s.thread thr).wait with
    | .waiting, some x =>
      match x.w with
      | .tag id pa tile gen =>
        match s.tagSeen (.waiting thr (s.thread thr).inc) (s.thread thr).ctx id pa tile gen with
        | (s, .yes) => s.unblock thr x fun s => (s.flushL1 (coreOf thr)).done
        | (s, .bad) => s.setThread thr { s.thread thr with st := .runnable, wait := none }
        | (s, _) => s
      | _ => s
    | _, _ => s)

/-- TAGQRY: a snapshot of the entry (R282). -/
def execTagqry (d a b : SReg) (s : State) : Out :=
  .next (s.withOps [a, b] (some d) (late := true) fun r =>
    let tile := bits (r b).toNat 23 0
    s.withBuffer (r a) tile fun s id _ bs err =>
      let coarse := bits (ofBytes bs) 152 152 * 2 ^ 51
      let v := match s.tag? s.cur.ctx id tile with
        | some e => coarse + (if e.ready then 2 else 1) * 2 ^ 48 + min e.pending 65535 * 2 ^ 32 + e.gen.toNat
        | none => coarse
      s.commit [a, b] [.s d] [(.s d, BitVec.ofNat 512 v)] (.ready s.cycle) err (mem := true))

/-! ### The end of a kernel -/

/-- Apply a done update, or hold it until the generation before it is done (R266). -/
def State.doneUpdate (s : State) (pa : Nat) (gen : BitVec 32) : State :=
  if s.bufDone pa = gen - 1 then (s.bufPut pa 8 4 gen.toNat).reeval
  else { s with heldDone := s.heldDone ++ [{ pa := pa, gen := gen }] }

/-- HELD_DONE_UPDATE: the `k`-th held update, once the generation before it is done (R266). -/
def execHeldDoneUpdate (k : Nat) (s : State) : Out :=
  .next (match s.heldDone[k]? with
    | none => s
    | some h =>
      if s.bufDone h.pa = h.gen - 1 then
        (({ s with heldDone := s.heldDone.take k ++ s.heldDone.drop (k + 1) } : State).bufPut h.pa 8 4 h.gen.toNat).reeval
      else s)

/-- Has every operation the kernel's tasks issued completed (R273 step 1)? -/
def State.kernelIdle (s : State) (ser : Nat) : Bool :=
  let own := fun (o : Owner) =>
    match o.grp with
    | some (k, _) => decide (k = ser)
    | none => false
  !(s.net.any (fun m => own m.owner)) &&
  !(s.cores.any fun (_, c) => c.mq.any (fun e => own e.owner) || c.cq.any (fun e => own e.owner) ||
      c.nq.any (fun e => own e.owner) || c.spawnQ.any (fun e => own e.owner)) &&
  !(s.clus.any fun (_, c) => c.txq.any (fun e => own e.owner) || c.held.any (fun e => decide (e.ser = ser))) &&
  !(s.dies.any fun (_, d) => d.comp.any (fun e => own e.owner))

/-- KERNEL_END: the last group has ended and nothing is outstanding: A and D written back, done generations updated,
the record written (R273). -/
def execKernelEnd (ser : Nat) (s : State) : Out :=
  .next (
    let k := s.kernel ser
    if k.st = .ended ∨ k.killed ∨ k.ending ∨ k.done < k.groups ∨ !s.kernelIdle ser then s
    else
      let s := s.harvest fun t => decide (t.ctx = k.ctx)
      let s := k.outputs.foldl (fun s d => s.doneUpdate d.pa d.gen) s
      let s := s.setKernel ser { k with ending := true }
      let status := match k.st with
        | .faulting => 1
        | .stopping => 3
        | _ => 0
      let cause := if k.st = .faulting then BitVec.ofNat 32 (k.cause + k.faults * 256) else 0
      let addr := if k.st = .faulting then k.addr else 0
      s.kernelRec ser { status := status, ser := ser, cause := cause, addr := addr, seq := k.seq, kernel := some ser })

/-- Is a store or an atomic of a context, issued before it was killed, still on its way to another device (18_program_trap R316)? -/
def State.storesFar (s : State) (c : Nat) : Bool :=
  s.eps.any fun (_, e) => e.pkts.any fun p => decide (p.acc = some c) && decide (p.msg.op = HOp.put ∨ p.msg.op = HOp.amo)

/-- KILL_FINISH: every thread of the dead context has stopped, and its stores are performed, so each of its kernels ends KILLED, its A and D bits written
back as at any kernel's end (17_context R306 step 5, R307, 12_page R231). -/
def execKillFinish (c : Nat) (s : State) : Out :=
  .next (
    let x := s.ctx c
    if x.st ≠ .dead ∨ x.killDone ∨ s.storesFar c then s
    else
      let mine := s.kernels.filter fun (_, k) => decide (k.ctx = c) && decide (k.st ≠ .ended) && k.killed
      let s := if mine = [] then s else s.harvest fun t => decide (t.ctx = c)
      let s := s.setCtx c { s.ctx c with killDone := true }
      mine.foldl (fun s (ser, k) =>
        let (cause, addr) : BitVec 32 × W64 := match x.note with
          | some n =>
            if n.ser = ser then
              (BitVec.ofNat 32 (n.bytes.getD 0 0 + n.bytes.getD 1 0 * 2 ^ 8 + n.bytes.getD 2 0 * 2 ^ 16 + n.bytes.getD 3 0 * 2 ^ 24),
               n.addr)
            else (0, 0)
          | none => (0, match x.killer with | some t => BitVec.ofNat 64 t | none => 0)
        let s := s.setKernel ser { k with ending := true, killed := true }
        s.kernelRec ser { status := 2, ser := ser, cause := cause, addr := addr, seq := k.seq, kernel := some ser }) s)

/-- The kill has finished: every KILLED record has been written (R306). -/
def State.killFinished (s : State) (c : Nat) : Bool :=
  (s.ctx c).killDone && !(s.kernels.any fun (_, k) => decide (k.ctx = c) && k.killed)

end Sys2Proof.Machine
end

