-- ==== Sys2Proof/Machine/Lod.lean ====
section
/-! DEFINITION. Level-of-detail loads: descriptors, geometry and maps, the choice of a level, filters, feedback records
and their ring (14_lod R244-R262). -/

namespace Sys2Proof.Machine

open Sys2Proof

/-! ### Descriptors (R244, R245) -/

structure LodDesc where
  kind : Nat
  wrap : Bool
  layout : Nat
  levels : Nat
  lgh : Nat
  lgw : Nat
  base : Nat
  resmap : Nat
  minmap : Nat
  entries : List Nat
  blocks : Nat
  id : Nat
  deriving DecidableEq, Repr

def lodDesc (d : Nat) : LodDesc :=
  { kind := bits d 2 0, wrap := decide (bits d 3 3 = 1), layout := bits d 5 4, levels := bits d 9 6, lgh := bits d 13 10,
    lgw := bits d 17 14, base := bits d 103 32, resmap := bits d 175 104, minmap := bits d 247 176,
    entries := (List.range 8).map fun l => bits d (5 * l + 260) (5 * l + 256), blocks := bits d 335 304, id := bits d 351 336 }

def LodDesc.tail (x : LodDesc) : Nat := x.levels - 1

/-- Reasons 30 to 33. -/
def lodCheck (d : Nat) (tensor : Bool) : Option Err :=
  let x := lodDesc d
  let zeros := bits d 511 352 + bits d 303 296 + bits d 255 248 + bits d 31 18 +
    (if x.kind = 2 then bits d 5 3 else if x.kind = 1 then bits d 295 256 else 0)
  if zeros ≠ 0 ∨ (x.kind ≠ 1 ∧ x.kind ≠ 2) then some (engErr 30)
  else if tensor = decide (x.kind = 1) then some (engErr 31)
  else if (if tensor then decide (x.lgw ≠ 0 ∨ x.lgh ≠ 0 ∨ x.levels = 0 ∨ 8 < x.levels ∨ x.blocks = 0)
           else decide (x.blocks ≠ 0 ∨ 11 < x.lgw ∨ 11 < x.lgh ∨ x.levels = 0 ∨ 1 + max x.lgw x.lgh < x.levels)) then
    some (engErr 32)
  else if x.base % 4096 ≠ 0 ∨ x.resmap % 8 ≠ 0 ∨ x.minmap % 8 ≠ 0 then some (engErr 33)
  else none
where
  engErr (reason : Nat) : Err := mdescErr reason 3

/-! ### Geometry (R246, R247) -/

def LodDesc.width (x : LodDesc) (l : Nat) : Nat := max 1 (2 ^ x.lgw / 2 ^ l)
def LodDesc.height (x : LodDesc) (l : Nat) : Nat := max 1 (2 ^ x.lgh / 2 ^ l)
def LodDesc.texel (x : LodDesc) : Nat := if x.layout = 1 then 8 else 4
/-- Rows of texels in a page. -/
def LodDesc.rows (x : LodDesc) : Nat := if x.layout = 1 then 16 else 32
def LodDesc.across (x : LodDesc) (l : Nat) : Nat := (x.width l + 31) / 32
def LodDesc.texPages (x : LodDesc) (l : Nat) : Nat := x.across l * ((x.height l + x.rows - 1) / x.rows)

/-- Pages of the levels before `l`. -/
def firstPage (pages : Nat → Nat) (l : Nat) : Nat := ((List.range l).map pages).sum

/-- A page a level needs: its number, and its place in the level. -/
structure LodPage where
  num : Nat
  px : Nat
  py : Nat
  deriving DecidableEq, Repr

def LodDesc.pageOf (x : LodDesc) (l tx ty : Nat) : LodPage :=
  { num := firstPage x.texPages l + ty / x.rows * x.across l + tx / 32, px := tx / 32, py := ty / x.rows }

/-! ### Maps and data (R248, R249, R255) -/

/-- An access of the bundle has met an error and goes on: its reply brings the first such. -/
def State.metError (s : State) (e : Err) : State := { s with iss := { s.iss with late := s.iss.late.or (some e) } }

/-- Translate for a read of the LOD unit; anything but a readable present page counts as absent, poison besides being
reported (24_device R386). The first miss that finds no walker waits for one, and the load with it, as does an access that
must wait (`lodEnd`). -/
def State.lodXlate (s : State) (va : Nat) : State × Option (Nat × Nat) :=
  let va := va % 2 ^ 72
  let w := s.lodAsker s.iss.thr
  let far := fun (s : State) (g : Got) (at_ : Nat × Nat) =>
    match g with
    | .ok _ _ => (s, some at_)
    | .wait => (s.waitTurn, none)
    | _ => (s, none)
  if s.iss.turn = .walking then (s, none)
  else
  match s.sentBefore w .get va 1 with
  | some (s, g) =>
    let at_ := (s.readPlace w va 1).getD 0
    far s g (at_ / 2 ^ 40, at_ % 2 ^ 40)
  | none =>
  match s.xlate s.curCore s.cur.ctx .load va with
  | (s, .ok node pa _) =>
    if node = s.dev.node then (s, some (node, pa))
    else
      match s.remoteAccess w .get node pa va 1 with
      | (s, g) => far s g (node, pa)
  | (s, .busy) => (s.waitWalk s.curCore s.cur.ctx va, none)
  | (s, .ecc a) => (s.metError (eccAt a va), none)
  | (s, _) => (s, none)

/-- An LOD load that had to wait has done nothing but ask for the walk, or for another device's answer: `s` before, `t`
after. -/
def State.lodEnd (s t : State) (k : State → State) : State :=
  if t.iss.turn = .walking then
    let clu := s.curCore / 8
    { (s.setClu clu { s.clu clu with walks := (t.clu clu).walks }) with
      iss := { s.iss with turn := .walking }, eps := t.eps, out := t.out, free := t.free, dev := t.dev }
  else k t

/-- Bytes at a translated place, of this device or another, and the error another answers. -/
def State.lodBytes (s : State) (at_ : Nat × Nat) (va n : Nat) : State × Nat × Option Err :=
  if at_.1 = s.dev.node then
    (s.replied s.iss.thr at_.2, s.memRead at_.2 n, if s.memPoisoned at_.2 n then some (eccMem va) else none)
  else
    if s.iss.turn = .walking then (s, 0, none)
    else
    let w := s.lodAsker s.iss.thr
    match s.orSent w .get va n (s.remoteAccess w .get at_.1 at_.2 va n) with
    | (s, .ok bs err) => (s, ofBytes bs, err)
    | (s, .wait) => (s.waitTurn, 0, none)
    | (s, _) => (s, 0, none)

/-- A byte of a map that lies in a cached line, poison in it reported (24_device R386). -/
def State.lineByte (s : State) (l : MapLine) (va : Nat) : State × Option Nat :=
  (if l.bad.contains (va % 64 / 8) then s.metError (eccMem va) else s, some (l.data.toNat / 2 ^ (8 * (va % 64)) % 256))

/-- A byte of a map, through the unit's cached lines; none where it cannot be read. -/
def State.mapByte (s : State) (va : Nat) : State × Option Nat :=
  let va := va % 2 ^ 72
  let c := s.core s.curCore
  match c.lod.lines.find? fun l => decide (l.ctx = s.cur.ctx) && decide (l.va = va / 64) with
  | some l => s.lineByte l va
  | none =>
    match s.lodXlate va with
    | (s, none) => (s, none)
    | (s, some (node, pa)) =>
      let (s, x, err) := s.lodBytes (node, pa / 64 * 64) va 64
      let own := decide (node = s.dev.node)
      let bad := (List.range 8).filter fun i => own && s.memPoisoned (pa / 64 * 64 + 8 * i) 8
      let s := match own, err with
        | false, some e => s.metError e
        | _, _ => s
      let l : MapLine := { ctx := s.cur.ctx, va := va / 64, data := BitVec.ofNat 512 x, bad := bad }
      let c := s.core s.curCore
      (s.setCore s.curCore { c with lod := { c.lod with lines := c.lod.lines ++ [l] } }).lineByte l va

def State.resident (s : State) (x : LodDesc) (p : Nat) : State × Bool :=
  match s.mapByte (x.resmap + p / 8) with
  | (s, some b) => (s, decide (b / 2 ^ (p % 8) % 2 = 1))
  | (s, none) => (s, false)

def State.minLevel (s : State) (x : LodDesc) (region : Nat) : State × Nat :=
  match s.mapByte (x.minmap + region / 2) with
  | (s, some b) => (s, min x.tail (if region % 2 = 0 then b % 16 else b / 16))
  | (s, none) => (s, x.tail)

/-! ### Feedback (R252-R254) -/

/-- Log a wanted page: filtered, or sent. DESIGN CHOICE (entry 19): of a tensor's page index of 2^20 or more the record holds the
low 20 bits, and the filter's key the whole (R252). -/
def State.logPage (s : State) (x : LodDesc) (l : Nat) (p : LodPage) (code : Nat) : State :=
  let core := s.curCore
  let c := s.core core
  let key : FbKey := { ctx := s.cur.ctx, id := x.id, level := l, px := p.px, py := p.py }
  if c.lod.filter.contains key then s
  else
    let kept := if c.lod.filter.length < 64 then c.lod.filter else c.lod.filter.drop 1
    let r : BitVec 128 := BitVec.ofNat 128 (x.id + l * 2 ^ 16 + code * 2 ^ 20 + p.px % 2 ^ 20 * 2 ^ 32 + p.py % 2 ^ 12 * 2 ^ 64 + core * 2 ^ 80)
    s.setCore core { c with lod := { c.lod with filter := kept ++ [key], recs := c.lod.recs ++ [(s.cur.ctx, r)] } }

/-- The largest value of the form 2^k − 1 up to a mask (R253). -/
def ringMask (m : Nat) : Nat := 2 ^ Nat.log2 (m + 1) - 1

/-- A record is written, or dropped and counted. DESIGN CHOICE (entry 42): a base on another node or beyond the device's memory
is no ring, and its records are dropped uncounted; the header's 64 bytes alone are tested, and a record of a ring that runs past
the end of the memory is written where it stands (R253). -/
def State.feedback (s : State) (ctx : Nat) (r : BitVec 128) : State :=
  let c := s.ctx ctx
  let base := bits c.fbring.toNat 51 12 * 4096
  if base = 0 ∨ ¬s.ownAddr base 64 then s
  else
    let b := base % 2 ^ 40
    let mask := ringMask (bits c.fbmask.toNat 19 0)
    let head := s.memRead b 8
    let tail := s.memRead (b + 8) 8
    if (head + 2 ^ 64 - tail) % 2 ^ 64 ≤ mask then
      (s.memPut (b + 64 + 16 * (head % (mask + 1))) 16 r.toNat).memPut b 8 ((head + 1) % 2 ^ 64)
    else
      let s := s.memPut (b + 16) 4 (min (s.memRead (b + 16) 4 + 1) (2 ^ 32 - 1))
      s.memPut (b + 20) 1 (s.memRead (b + 20) 1 / 2 * 2 + 1)

/-- The records sent for a context are written, for every core in its order, before the context is released (19_queue
R327). -/
def State.feedbackAll (s : State) (ctx : Nat) : State :=
  s.cores.foldl (fun s (k, (c : Core)) =>
    let mine := fun (r : Nat × BitVec 128) => decide (r.1 = ctx)
    let x := s.core k
    (c.lod.recs.filter mine).foldl (fun s r => s.feedback ctx r.2)
      (s.setCore k { x with lod := { x.lod with recs := x.lod.recs.filter fun r => !mine r } })) s

/-- FEEDBACK_RECORD_WRITE: the oldest record a core has sent. -/
def execFeedbackRecordWrite (core : Nat) (s : State) : Out :=
  .next (let c := s.core core
    match c.lod.recs with
    | [] => s
    | (ctx, r) :: rest => (s.setCore core { c with lod := { c.lod with recs := rest } }).feedback ctx r)

/-! ### Choosing the level (R250) -/

/-- Translations of the needed pages, and those that are wanted; residency is not consulted at the tail. DESIGN CHOICE (entry
19): a page whose residency bit is clear is translated all the same, which gathers A (12_page R231). -/
def State.tryLevel (s : State) (x : LodDesc) (atTail : Bool) : List LodPage → State × List (Nat × Nat × Nat) × List LodPage
  | [] => (s, [], [])
  | p :: r =>
    let (s, ok) := if atTail then (s, true) else s.resident x p.num
    let (s, at_) := s.lodXlate (x.base + 4096 * p.num)
    let (s, l, bad) := s.tryLevel x atTail r
    match ok, at_ with
    | true, some (node, pa) => (s, (p.num, node, pa) :: l, bad)
    | _, _ => (s, l, p :: bad)

/-- The outcome of a walk: level, code, and where its pages lie. -/
structure Found where
  level : Nat
  code : Nat
  pages : List (Nat × Nat × Nat)
  deriving DecidableEq, Repr

def State.walkLevels (s : State) (x : LodDesc) (need : Nat → List LodPage) (want lc : Nat) : Nat → Nat → Bool → State × Found
  | 0, lvl, _ => (s, { level := lvl, code := 4, pages := [] })
  | n + 1, lvl, moved =>
    let atTail := decide (x.tail ≤ lvl)
    let (s, l, bad) := s.tryLevel x atTail (need lvl)
    if bad = [] then
      (s, { level := lvl, code := if atTail ∧ lvl ≠ want then 3 else if moved then 2 else if want < lc then 1 else 0, pages := l })
    else
      let s := bad.foldl (fun s p => s.logPage x lvl p (if atTail then 4 else 2)) s
      if atTail then (s, { level := lvl, code := 4, pages := [] })
      else s.walkLevels x need want lc n (lvl + 1) true

def State.choose (s : State) (x : LodDesc) (need : Nat → List LodPage) (want low : Nat) : State × Found :=
  let lc := max want low
  s.walkLevels x need want lc 16 lc false

/-! ### Sampling (R251) -/

/-- Coordinates on a grid of 2^-200: finite, or an end under clamp. -/
inductive Coord where
  | at_ (x : Int)
  | low | high
  deriving DecidableEq, Repr

def lodOne : Int := 2 ^ 200

def coordOf (wrap : Bool) (v : Val) : Coord :=
  match v with
  | .nan => .at_ 0
  | .inf s => if wrap then .at_ 0 else if s then .low else .high
  | .fin s m e _ =>
    let x : Int := (m * 2 ^ (e + 200).toNat : Nat)
    .at_ (if s then -x else x)

/-- An index on an axis of `n` texels. -/
def texIndex (wrap : Bool) (n : Nat) (i : Int) : Nat := if wrap then (i % n).toNat else (min (max i 0) (n - 1 : Int)).toNat

/-- A fraction of the grid to a multiple of 2^-8, ties to even: 0 to 256. -/
def toEighth (x : Int) : Nat := (roundAt .rne false x.toNat (-200) false (-8)).1

/-- Texel indices of an axis with weights in 256ths. -/
def axisTaps (bilinear wrap : Bool) (n : Nat) (c : Coord) : List (Nat × Nat) :=
  match c with
  | .low => if bilinear then [(0, 256), (0, 0)] else [(0, 256)]
  | .high => if bilinear then [(n - 1, 256), (n - 1, 0)] else [(n - 1, 256)]
  | .at_ u =>
    if bilinear then
      let x := u * n - lodOne / 2
      let i := x / lodOne
      let f := toEighth (x % lodOne)
      [(texIndex wrap n i, 256 - f), (texIndex wrap n (i + 1), f)]
    else [(texIndex wrap n (u * n / lodOne), 256)]

/-- Texels a filter reads at a level, with weights in 65,536ths. -/
def LodDesc.taps (x : LodDesc) (bilinear : Bool) (u v : Coord) (l : Nat) : List (Nat × Nat × Nat) :=
  ((axisTaps bilinear x.wrap (x.width l) u).map fun a =>
    (axisTaps bilinear x.wrap (x.height l) v).map fun b => (a.1, b.1, a.2 * b.2)).flatten

/-- Values of the four channels of a texel; RGBA8 in 255ths. -/
def texelVals (layout raw : Nat) : List Val :=
  let half := fun (i : Nat) => decodeVal (fmtOf 0x101F0A59#64) (raw / 2 ^ (16 * i))
  let zro := Val.fin false 0 0
  let one := Val.fin false 1 0
  if layout = 0 then (List.range 4).map fun i => Val.fin false (raw / 2 ^ (8 * i) % 256) 0
  else if layout = 1 then (List.range 4).map half
  else if layout = 2 then [half 0, half 1, zro, one]
  else [val32 (BitVec.ofNat 32 raw), zro, zro, one]

/-- A sum of weighted values, rounded once; weight 0 contributes nothing; RGBA8 sums are divided by 255. -/
def channel (layout : Nat) (terms : List (Val × Nat)) : BitVec 32 :=
  let ts : List Val := (terms.filter fun t => decide (t.2 ≠ 0)).map fun (t : Val × Nat) => (t.1.mul (.fin false t.2 (-24))).1
  let sum : Val := ts.foldl (fun (x y : Val) => (x.add y).1) (.fin false 0 0)
  match sum with
  | .fin s m e _ => if layout = 0 then rne32 (.fin s (m * 2 ^ 64 / 255) (e - 64) (decide (m * 2 ^ 64 % 255 ≠ 0))) else rne32 sum
  | v => rne32 v

/-- Read the texels of a level, each with its factor in 2^24ths. -/
def State.readTexels (s : State) (x : LodDesc) (f : Found) (factor : Nat) :
    List (Nat × Nat × Nat) → State × List (List Val × Nat) × Option Err
  | [] => (s, [], none)
  | (tx, ty, w) :: r =>
    let p := x.pageOf f.level tx ty
    let off := (ty % x.rows * 32 + tx % 32) * x.texel
    match f.pages.find? fun e => decide (e.1 = p.num) with
    | some (_, node, pa) =>
      let (s, raw, bad) := s.lodBytes (node, pa + off) (x.base + 4096 * p.num + off) x.texel
      let (s, l, err) := s.readTexels x f factor r
      (s, (texelVals x.layout raw, w * factor) :: l, bad.or err)
    | none => s.readTexels x f factor r

/-- One lane: four channels and the status. DESIGN CHOICE (entry 19): t is rounded to its multiple of 2^-8 with ties to even,
as fx and fy are (R251). -/
def State.sample (s : State) (x : LodDesc) (filter : Nat) (u v lod : BitVec 32) : State × List (BitVec 32) × Option Err :=
  let bil := decide (filter ≠ 0)
  let cu := coordOf x.wrap (val32 u)
  let cv := coordOf x.wrap (val32 v)
  let lam : Int := match coordOf false (val32 lod) with
    | .at_ y => max y 0
    | .low => 0
    | .high => 64 * lodOne
  let want := min x.tail ((if filter = 2 then lam / lodOne else (lam + lodOne / 2) / lodOne)).toNat
  let edge := fun (c : Coord) (n : Nat) => match c with
    | .low => 0
    | .high => n - 1
    | .at_ y => texIndex false n (y * n / lodOne)
  let region := edge cv (2 ^ x.lgh) / 32 * ((2 ^ x.lgw + 31) / 32) + edge cu (2 ^ x.lgw) / 32
  let (s, low) := s.minLevel x region
  let need := fun (l : Nat) => ((x.taps bil cu cv l).map fun t => x.pageOf l t.1 t.2.1).eraseDups
  let (s, f) := s.choose x need want low
  let status := fun (f : Found) => BitVec.ofNat 32 (f.level + f.code * 256)
  if f.code = 4 then (s, [0, 0, 0, 0, status f], s.iss.late)
  else
    let blend := filter = 2 ∧ f.level = want ∧ want < x.tail
    let (s, g) := if blend then s.choose x need (want + 1) low else (s, { level := 0, code := 4, pages := [] })
    let t := if blend ∧ g.code ≠ 4 then toEighth (lam - want * lodOne) else 0
    let (s, l1, e1) := s.readTexels x f (256 - t) (x.taps bil cu cv f.level)
    let (s, l2, e2) := if t = 0 then (s, [], none) else s.readTexels x g t (x.taps bil cu cv g.level)
    let all := l1 ++ l2
    (s, ((List.range 4).map fun c => channel x.layout (all.map fun e => (e.1.getD c .nan, e.2))) ++ [status f], s.iss.late.or (e1.or e2))

/-! ### TEXLD, LDLOD (R259, R260) -/

/-- The descriptor an LOD load names, checked. -/
def State.onDesc (s : State) (off : W64) (tensor : Bool) (k : LodDesc → State) : State :=
  match localCheck off 64 64 Config.localBytes with
  | some e => s.trap e
  | none =>
    let s := s.lsTouch s.curCore off.toNat 64 s.cur.ctx
    let d := s.lsRead s.curCore off.toNat 64
    if s.lsPoisoned s.curCore off.toNat 64 then s.trap (eccLocal off.toNat)
    else
      match lodCheck d tensor with
      | some e => s.trap e
      | none => k (lodDesc d)

/-- TEXLD with a filter: 0 nearest, 1 bilinear, 2 trilinear. -/
def texld (filter : Nat) (d a : VReg) (b : SReg) (m : MReg) (s : State) : State :=
  s.withOps [b] none fun r => s.onDesc (r b) false fun x =>
    let th := s.cur
    let lane := fun (k i : Nat) => BitVec.ofNat 32 (laneOf 32 (th.readV (a + BitVec.ofNat 5 k)) i)
    let outs := (List.range 5).map fun k => th.readV (d + BitVec.ofNat 5 k)
    let (t, outs, err) := ((List.range 16).filter fun i => (th.readM m).getLsbD i).foldl
      (fun (acc : State × List V512 × Option Err) i =>
        let (s, l, e) := acc.1.sample x filter (lane 0 i) (lane 1 i) (lane 2 i)
        (s, acc.2.1.zipIdx.map fun (v, k) => putAt v (32 * i) 32 (l.getD k 0).toNat, acc.2.2.or e)) (s, outs, none)
    let regs := (List.range 5).map fun k => Reg.v (d + BitVec.ofNat 5 k)
    s.lodEnd t fun s => s.commit [b] regs (regs.zip outs) (.ready s.cycle) err (lod := true)

/-- TEXLD.nearest. -/
def execTexldNearest (d a : VReg) (b : SReg) (m : MReg) (s : State) : Out := .next (texld 0 d a b m s)
/-- TEXLD.bilinear. -/
def execTexldBilinear (d a : VReg) (b : SReg) (m : MReg) (s : State) : Out := .next (texld 1 d a b m s)
/-- TEXLD.trilinear. -/
def execTexldTrilinear (d a : VReg) (b : SReg) (m : MReg) (s : State) : Out := .next (texld 2 d a b m s)

/-- LDLOD. -/
def execLdlod (d : VReg) (a b : SReg) (s : State) : Out :=
  .next (s.withOps [a, b] none fun r => s.onDesc (r b) true fun x =>
    let i := (r a).toNat
    if i % 32 ≠ 0 then s.trap { cause := 4, tval := r a }
    else if 32 * x.blocks ≤ i then s.trap (mdescErr 34 3)
    else
      let fmts := (x.entries.take x.levels).map fun e => s.snap s.cur.ctx e
      match fmts.findSome? fun f => (acceptMatrix f.entry f.word).map fun k => fmtErr k f.entry with
      | some e => s.trap e
      | none =>
        let w := fun (l : Nat) => match fmts[l]? with | some f => f.fmt.W | none => 8
        let pages := fun (l : Nat) => (32 * x.blocks * w l + 32767) / 32768
        let need := fun (l : Nat) =>
          let p := i * w l / 8 / 4096
          [({ num := firstPage pages l + p, px := p, py := 0 } : LodPage)]
        let (t, low) := s.minLevel x (i * w 0 / 8 / 65536)
        let (t, f) := t.choose x need 0 low
        let off := i * w f.level / 8 % 4096
        let n := 4 * w f.level
        let (t, v, err) := match f.code, f.pages with
          | 4, _ => (t, 0, none)
          | _, (p, node, pa) :: _ => t.lodBytes (node, pa + off) (x.base + 4096 * p + off) n
          | _, [] => (t, 0, none)
        let st := f.level + f.code * 256 + x.entries.getD f.level 0 * 65536
        s.lodEnd t fun s =>
          s.commit [a, b] [.v d, .v (d + 1)] [(.v d, BitVec.ofNat 512 v), (.v (d + 1), BitVec.ofNat 512 st)] (.ready s.cycle)
            (s.iss.late.or err) (lod := true) (snaps := fmts))

/-! ### TEXFENCE, FBFLUSH (R261, R262) -/

/-- Does a level-of-detail load access another device? -/
def Asker.isLod : Asker → Bool
  | .lod _ _ => true
  | _ => false

/-- Is an LOD load of the context outstanding, on any core: committed, or with an access of another device on its way or
answered? One whose error has come has completed. -/
def State.lodOut (s : State) (ctx : Nat) : Bool :=
  (s.thr.any fun (_, th) => decide (th.ctx = ctx) && th.pend.any fun p => p.lod && p.err.isNone) ||
  (s.eps.any fun (_, e) => e.pkts.any fun p => p.asker.any Asker.isLod && decide (p.acc = some ctx)) ||
  s.dev.answers.any fun a => a.who.isLod && decide (s.askerCtx a.who = ctx)

/-- TEXFENCE: held until the LOD loads of the context issued before have completed; a release; then the map lines of the
context go from every LOD unit. -/
def execTexfence (s : State) : Out :=
  .next (s.system (if s.lodOut s.cur.ctx then s else s.release fun s =>
    let c := s.cur.ctx
    let s : State := { s with cores := s.cores.map fun (k, (x : Core)) =>
      (k, { x with lod := { x.lod with lines := x.lod.lines.filter fun l => decide (l.ctx ≠ c) } }) }
    s.retire []))

/-- FBFLUSH: held until the core's records of the context are out; then the filter forgets the context's keys. -/
def execFbflush (s : State) : Out :=
  .next (let core := s.curCore
    let x := s.core core
    if x.lod.recs.any fun r => decide (r.1 = s.cur.ctx) then s
    else
      let s := s.setCore core { x with lod := { x.lod with filter := x.lod.filter.filter fun k => decide (k.ctx ≠ s.cur.ctx) } }
      (s.flushL1 core).retire [])

end Sys2Proof.Machine
end

