-- ==== Sys2Proof/Machine/Queue.lean ====
section
/-! DEFINITION. Queues, commands, management and the reset of a VF (19_queue R317-R330, 17_context R300). -/

namespace Sys2Proof.Machine

open Sys2Proof

/-! ### Arrival (R320, R326, R329) -/

/-- Placed and unexecuted commands of a VF. -/
def State.vfPlaced (s : State) (v : Nat) : Nat :=
  (s.queues.map fun (_, q) => if q.vf = v then q.placed.length else 0).sum

/-- Write a command into its slot of the ring, its sequence number in bytes 4 to 7. -/
def State.placeCmd (s : State) (q seq : Nat) (cmd : Nat) : State :=
  let x := s.queue q
  let c := cmd % 2 ^ 32 + seq * 2 ^ 32 + cmd / 2 ^ 64 * 2 ^ 64
  (s.memPut (x.cring % 2 ^ 40 + 64 * (seq % 2 ^ (x.csize + 4))) 64 c).setQueue q { x with placed := x.placed ++ [seq] }

/-- A command reaches a host-fed queue: placed, a duplicate, or refused with false (R320). -/
def State.commandIn (s : State) (q : Nat) (cmd : BitVec 512) : State × Bool :=
  let x := s.queue q
  let seq := bits cmd.toNat 63 32
  let ahead := (seq + 2 ^ 32 - x.next) % 2 ^ 32
  if x.st = .free ∨ x.st = .halted ∨ x.devFed then (s, false)
  else if 2 ^ 31 ≤ ahead ∨ x.placed.contains seq then (s, true)
  else if ahead < 2 ^ (x.csize + 4) ∧ s.vfPlaced x.vf < (s.vf x.vf).slots then (s.placeCmd q seq cmd.toNat, true)
  else (s, false)

/-- COMMAND_ARRIVE: Halyard hands a command to a queue, and the sender hears of it. -/
def execCommandArrive (q : Nat) (cmd : BitVec 512) (s : State) : Out :=
  .next (
    let (s, ok) := s.commandIn q cmd
    { s with out := s.out ++ [OutMsg.command q (bits cmd.toNat 63 32) ok] })

/-- The queue a QPUSH or EVPOST may name (R329, R330). -/
def State.queueCheck (s : State) (q : Nat) (devOnly : Bool) : Option Err :=
  let x := s.queue q
  if x.st = .free ∨ x.ctx ≠ s.cur.ctx ∨ (devOnly ∧ !x.devFed) then some (queueErr 0 4) else none

/-- QPUSH: held while the ring or the quota is full; a HALTED queue discards the command (R329). -/
def execQpush (a b : SReg) (s : State) : Out :=
  .next (s.withOps [a, b] none fun r => let held := s; s.release fun s =>
    let q := bits (r a).toNat 9 0
    match localCheck (r b) 64 64 Config.localBytes with
    | some e => s.trap e
    | none =>
      match s.queueCheck q true with
      | some e => s.trap e
      | none =>
        let x := s.queue q
        let o := (r b).toNat
        let s := s.lsTouch s.curCore o 64 s.cur.ctx
        if s.lsPoisoned s.curCore o 64 then s.trap (eccLocal o)
        else if x.st = .halted then s.retire [a, b]
        else if 2 ^ (x.csize + 4) ≤ x.placed.length ∨ (s.vf x.vf).slots ≤ s.vfPlaced x.vf then held
        else
          let seq := (x.next + x.placed.length) % 2 ^ 32
          (s.placeCmd q seq (s.lsRead s.curCore o 64)).retire [a, b])

/-- EVPOST (R330). -/
def execEvpost (a b : SReg) (s : State) : Out :=
  .next (s.withOps [a, b] none fun r => s.release fun s =>
    let q := bits (r a).toNat 9 0
    match s.queueCheck q false with
    | some e => s.trap e
    | none =>
      let s := if (s.queue q).st = .halted then s
        else s.putRec q { status := 0, ser := 0xFFFFFFFF, cause := 0, addr := r b, seq := 0xFFFFFFFF }
      s.retire [a, b])

/-! ### Executing commands (R318, R319) -/

/-- The command a queue executes next, if it is RUNNING and the command is placed. -/
def State.nextCmd (s : State) (q : Nat) : Option Nat :=
  let x := s.queue q
  if x.st = .running ∧ x.placed.contains x.next then
    some (s.memRead (x.cring % 2 ^ 40 + 64 * (x.next % 2 ^ (x.csize + 4))) 64)
  else none

/-- The command fails: a FAULTED record, and the queue goes on (R319). -/
def State.cmdFail (s : State) (q cause : Nat) (addr : W64) : State :=
  (s.putRec q { status := 1, ser := 0xFFFFFFFF, cause := BitVec.ofNat 32 (cause + 256), addr := addr,
                seq := (s.queue q).next }).cmdDone q

/-- The command writes an OK record with a user value. -/
def State.cmdOk (s : State) (q : Nat) (value : W64) : State :=
  (s.putRec q { status := 0, ser := 0xFFFFFFFF, cause := 0, addr := value, seq := (s.queue q).next }).cmdDone q

def State.cmdBlock (s : State) (q : Nat) (b : Block) : State :=
  s.setQueue q { s.queue q with st := .blocked, block := some b }

/-- A soft fault of the command's reads or writes: STALLED, retried every 4,096 core cycles (R320). -/
def State.cmdStall (s : State) (q va : Nat) : State :=
  s.setQueue q { s.queue q with st := .stalled, stallVa := va % 2 ^ 72, retryAt := s.cycle + 4096 }

/-- Has every kernel launched by the queue ended, its record written? -/
def State.drained (s : State) (q : Nat) : Bool := !(s.kernels.any fun (_, k) => decide (k.queue = q) && decide (k.st ≠ .ended))

/-- Reserved bytes and flags of a command (R318, R319): false where it is ILLEGAL. -/
def cmdFormOk (c : Nat) : Bool :=
  let op := bits c 7 0
  let flags := bits c 15 8
  let zeroFrom := fun (byte : Nat) => decide (c / 2 ^ (8 * byte) = 0)
  decide (bits c 31 16 = 0) && decide (flags < 4) && (decide (flags < 2) || decide (op = 1)) &&
  match op with
  | 0 => zeroFrom 8
  | 1 => zeroFrom 48
  | 2 => zeroFrom 24
  | 3 => zeroFrom 24
  | 4 => zeroFrom 16
  | 5 => decide (bits c 127 72 = 0) && zeroFrom 40
  | _ => false

/-- Execute the queue's next command with `k`, if `mine` recognises it: the drain flag holds any command; then an
ill-formed one fails, its content being checked as it executes (R318, R329). -/
def State.command (s : State) (q : Nat) (mine : Nat → Bool) (k : Nat → State) : State :=
  match s.nextCmd q with
  | none => s
  | some c =>
    if !mine c then s
    else if bits c 8 8 = 1 ∧ !s.drained q then s.cmdBlock q .drain
    else if !cmdFormOk c then s.cmdFail q 1 0
    else k c

def opIs (n : Nat) (c : Nat) : Bool := decide (bits c 7 0 = n)
def mgmtIs (n : Nat) (c : Nat) : Bool := decide (bits c 7 0 = 5) && decide (bits c 71 64 = n)
def argA (c : Nat) : Nat := bits c 191 128
def argB (c : Nat) : Nat := bits c 255 192
def argC (c : Nat) : Nat := bits c 319 256

/-- NOP; and every command that has no row of its own, which fails: a reserved opcode ILLEGAL, a reserved MGMT subcode
PRIV or MDESC (R319). -/
def execNop (q : Nat) (s : State) : Out :=
  .next (s.command q (fun c => decide (bits c 7 0 = 0) || decide (5 < bits c 7 0) ||
      (decide (bits c 7 0 = 5) && (decide (bits c 71 64 = 0) || decide (12 < bits c 71 64))))
    fun c =>
      if bits c 7 0 = 0 then s.cmdDone q
      else if (s.queue q).vf ≠ 0 then s.cmdFail q 2 0
      else s.cmdFail q 12 (BitVec.ofNat 64 (argA c)))

/-- A command's access ends: a hard fault, or an error another device answers, fails it; a soft fault stalls the queue
(R319, R320, 12_page R227). -/
def State.cmdGot (s : State) (q va : Nat) (g : EGot) (hard : State → State) (go : State → List (BitVec 8) → State) : State :=
  match g with
  | .ok bs => go s bs
  | .err _ => hard s
  | .soft _ _ _ => s.cmdStall q va
  | .wait => s

/-- The bytes a command reads. -/
def State.cmdRead (s : State) (q va n : Nat) (hard : State → State) (go : State → List (BitVec 8) → State) : State :=
  match s.sentBefore (.queue q) .get va n with
  | some (s, g) => s.cmdGot q va (g.engine va 0) hard go
  | none =>
    match s.xlateDev (s.queue q).ctx .load va with
    | (s, .ok node pa _) =>
      if node = s.dev.node then go s (s.memGet pa n)
      else
        match s.remoteAccess (.queue q) .get node pa va n with
        | (s, g) => s.cmdGot q va (g.engine va 0) hard go
    | (s, x) => s.cmdGot q va (x.engine va 0) hard go

/-- The bytes a command writes. -/
def State.cmdWrite (s : State) (q va : Nat) (bs : List (BitVec 8)) (hard go : State → State) : State :=
  match s.sentBefore (.queue q) .put va bs.length bs with
  | some (s, g) => s.cmdGot q va (g.engine va 1) hard fun s _ => go s
  | none =>
    match s.xlateDev (s.queue q).ctx .store va with
    | (s, .ok node pa _) =>
      if node = s.dev.node then go (s.memWrite none pa bs)
      else
        match s.remoteAccess (.queue q) .put node pa va bs.length bs with
        | (s, g) => s.cmdGot q va (g.engine va 1) hard fun s _ => go s
    | (s, x) => s.cmdGot q va (x.engine va 1) hard fun s _ => go s

/-- WAIT: executed when the dword, read unsigned, is at least the value. -/
def execWait (q : Nat) (s : State) : Out :=
  .next (s.command q (opIs 2) fun c =>
    let va := bits c 127 64
    if va % 8 ≠ 0 then s.cmdFail q 4 (BitVec.ofNat 64 va)
    else
      s.cmdRead q va 8 (fun s => s.cmdFail q 5 (BitVec.ofNat 64 va)) fun s bs =>
        if bits c 191 128 ≤ ofBytes bs then s.cmdDone q else s.cmdBlock q .wait)

/-- WRITE. -/
def execWrite (q : Nat) (s : State) : Out :=
  .next (s.command q (opIs 3) fun c =>
    let va := bits c 127 64
    if va % 8 ≠ 0 then s.cmdFail q 4 (BitVec.ofNat 64 va)
    else
      s.cmdWrite q va (toBytes 8 (bits c 191 128)) (fun s => s.cmdFail q 5 (BitVec.ofNat 64 va)) fun s => s.cmdDone q)

/-- EVENT: it has executed when its record is written, and until then the queue is BLOCKED (R318, R320). -/
def execEvent (q : Nat) (s : State) : Out :=
  .next (s.command q (opIs 4) fun c =>
    let r : Rec := { status := 0, ser := 0xFFFFFFFF, cause := 0, addr := BitVec.ofNat 64 (bits c 127 64), seq := (s.queue q).next,
                     event := true }
    let s := s.putRec q r
    if (s.queue q).recs.contains r then s.cmdBlock q .record else s)

/-! ### LAUNCH (15_kernel R265, R269; 17_context R301) -/

/-- The fields of a kernel object's header (R267): every one in range. -/
def objectOk (o : Nat) : Bool :=
  let inputs := bits o 115 112
  let outputs := bits o 118 116
  let w := bits o 99 96
  let p := bits o 103 100
  let n := bits o 106 104
  let unused := fun (base i : Nat) => decide (bits o (8 * (base + 16 * i) + 127) (8 * (base + 16 * i)) = 0)
  let used := fun (base i : Nat) =>
    let d := bits o (8 * (base + 16 * i) + 127) (8 * (base + 16 * i))
    decide (bits d 79 72 = 0) && decide (1 ≤ bits d 127 120)
  decide (bits o 511 160 = 0) && decide (bits o 127 119 = 0) && decide (bits o 111 111 = 0) &&
  decide (bits o 159 128 % 64 = 0) && decide (bits o 159 128 ≤ 0x60000) && decide (outputs ≤ 4) && decide (inputs ≤ 8) &&
  decide (1 ≤ n) && decide (1 ≤ p) && decide (p ≤ 8) && decide (1 ≤ w) && decide (w ≤ 8) && decide (w * p ≤ 8) &&
  decide (1 ≤ bits o 95 64) && decide (bits o 95 64 ≤ 2 ^ 24) && decide (bits o 0 0 = 0) &&
  (List.range 8).all (fun i => if i < inputs then used 64 i else unused 64 i) &&
  (List.range 4).all (fun i => if i < outputs then used 192 i else unused 192 i)

/-- Where a declaration's buffer record stands: misaligned, above 2^64 or not translated (41), stalled, to be asked for
again, or found, with what it holds. -/
inductive RecAt where
  | bad | stall (va : Nat) | wait | at_ (pa recd : Nat)
  deriving DecidableEq, Repr

/-- A record is read, and an output's is to be updated by an atomic step, which needs R and W (R265, 12_page R227); one of
another device is asked for (23_link R376; entry 24). -/
def State.recordAt (s : State) (q ctx va : Nat) (output : Bool) : State × RecAt :=
  if va % 32 ≠ 0 ∨ 2 ^ 64 ≤ va then (s, .bad)
  else
    match s.xlateDev ctx .load va with
    | (s, .ok node pa _) =>
      match if output then (s.xlateDev ctx .atomic va).2 else .ok node pa 0 with
      | .soft _ => (s, .stall va)
      | .ok _ _ _ =>
        if node = s.dev.node then (s, .at_ pa (s.memRead pa 32))
        else
          match s.remoteAccess (.queue q) .get node pa va 32 with
          | (s, .ok bs none) => (s, .at_ (s.homeOf node pa) (ofBytes bs))
          | (s, .soft _) => (s, .stall va)
          | (s, .wait) => (s, .wait)
          | (s, _) => (s, .bad)
      | _ => (s, .bad)
    | (s, .soft _) => (s, .stall va)
    | (s, _) => (s, .bad)

/-- The declarations of an object, inputs first: record address, mul, add and count. -/
def declsOf (o base n : Nat) : List (Nat × Nat × Nat × Nat) :=
  (List.range n).map fun i =>
    let d := bits o (8 * (base + 16 * i) + 127) (8 * (base + 16 * i))
    (bits d 71 0, bits d 95 80, bits d 119 96, bits d 127 120)

/-- Place the declarations' records, `n` inputs before the outputs: the first failure, or all homes and contents. -/
def State.recordsAt (s : State) (q ctx : Nat) :
    Nat → List (Nat × Nat × Nat × Nat) → List (Nat × Nat) → State × Except RecAt (List (Nat × Nat))
  | _, [], acc => (s, .ok acc.reverse)
  | n, (va, _) :: r, acc =>
    match s.recordAt q ctx va (decide (n = 0)) with
    | (s, .at_ pa x) => s.recordsAt q ctx (n - 1) r ((pa, x) :: acc)
    | (s, x) => (s, .error x)

/-- Unended kernels that produced the generation of an input (16_group R293). -/
def State.producersOf (s : State) (ins : List Decl) : List Nat :=
  (s.kernels.filter fun (_, k) => decide (k.st ≠ .ended) && k.outputs.any fun d => ins.any fun i => decide (i.pa = d.pa ∧ i.gen = d.gen)).map (·.1)

/-- An output's record as a launch leaves it: its generation is 1 more, and coarse 0 (R265); another device is asked for
that by an addition and a write. -/
def State.bufLaunch (s : State) (ctx va pa : Nat) : State :=
  let s := (s.xlateDev ctx .atomic va).1
  if farHome pa then
    let s := match s.farEp (pa / 2 ^ 40 - 1) with
      | some e => s.sendOwn e { op := .amo, remote := (pa / 2 ^ 40 - 1) * 2 ^ 40 + pa % 2 ^ 40, len := 8, operand := 2 ^ 32 }
      | none => s
    s.bufPut pa 19 1 0
  else
    let s := s.memPut (pa + 4) 4 (s.bufGen pa + 1).toNat
    s.memPut (pa + 19) 1 (s.memRead (pa + 19) 1 / 2 * 2)

/-- The launch step: generations, the serial, the kernel (R265, R271). What an earlier launch's fallback left for a
generation is over (R278), and no instruction cache holds a word older than the launch (02_encoding R45; entry 35). -/
def State.launch (s : State) (q : Nat) (c o : Nat) (pas : List (Nat × Nat)) : State :=
  let x := s.queue q
  let ni := bits o 115 112
  let all := (declsOf o 64 ni ++ declsOf o 192 (bits o 118 116)).zip pas
  let mk := fun (up : BitVec 32) (d : (Nat × Nat × Nat × Nat) × Nat × Nat) =>
    ({ va := d.1.1, pa := d.2.1, id := bits d.2.2 31 0, gen := BitVec.ofNat 32 (bits d.2.2 63 32) + up, mul := d.1.2.1,
       add := d.1.2.2.1, count := d.1.2.2.2 } : Decl)
  let ins := (all.take ni).map (mk 0)
  let outs := (all.drop ni).map (mk 1)
  let s := outs.foldl (fun s d =>
    let s := s.bufLaunch x.ctx d.va d.pa
    { s with dev := { s.dev with fallen := s.dev.fallen.filter fun e => decide (e ≠ (d.pa, d.gen)) } }) s
  let k : Kernel :=
    { ctx := x.ctx, vf := x.vf, queue := q, seq := x.next, code := BitVec.ofNat 64 (bits o 63 0), groups := bits o 95 64,
      w := bits o 99 96, p := bits o 103 100, n := bits o 106 104, restart := decide (bits o 107 107 = 1), prio := bits o 110 108,
      b := bits o 159 128,
      args := [BitVec.ofNat 64 (bits c 191 128), BitVec.ofNat 64 (bits c 255 192), BitVec.ofNat 64 (bits c 319 256),
               BitVec.ofNat 64 (bits c 383 320)],
      sys := decide (bits c 9 9 = 1), inputs := ins, outputs := outs, producers := s.producersOf ins, st := .active }
  let s := { s with cores := s.cores.map fun (n, (r : Core)) => (n, { r with icache := [] }) }
  ({ (s.setKernel s.nextSer k) with nextSer := s.nextSer + 1 } : State).cmdDone q

/-- LAUNCH: refused with PRIV, or MDESC 41, 40, 41, 42, 43 in that order, or launched. The record of a refusal holds
the cause and the object's address (R269). -/
def execLaunch (q : Nat) (s : State) : Out :=
  .next (s.command q (opIs 1) fun c =>
    let va := bits c 127 64
    let x := s.queue q
    let refuse := fun (s : State) => s.cmdFail q 12 (BitVec.ofNat 64 va)
    if bits c 9 9 = 1 ∧ !(s.ctx x.ctx).sysok then s.cmdFail q 2 (BitVec.ofNat 64 va)
    else if va % 256 ≠ 0 then refuse s
    else
      s.cmdRead q va 256 refuse fun s bs =>
        let o := ofBytes bs
        if !objectOk o then refuse s
        else
          let ins := declsOf o 64 (bits o 115 112)
          let outs := declsOf o 192 (bits o 118 116)
          match s.recordsAt q x.ctx ins.length (ins ++ outs) [] with
          | (s, .error (.stall va)) => s.cmdStall q va
          | (s, .error .wait) => s
          | (s, .error _) => refuse s
          | (s, .ok pas) =>
            let last := bits o 95 64 - 1
            let ids := pas.map fun x => bits x.2 31 0
            let past := ((ins ++ outs).zip pas).any fun (d, x) =>
              decide (bits x.2 151 128 ≤ last * d.2.1 + d.2.2.1 + d.2.2.2 - 1)
            let inIds := ids.take ins.length
            let outIds := ids.drop ins.length
            if past then refuse s
            else if outIds.any inIds.contains ∨ !outIds.Nodup then refuse s
            else s.launch q c o pas)

/-! ### Blocked and stalled queues -/

/-- QUEUE_STALL_RETRY: the command of a STALLED queue is tried again every 4,096 core cycles (R320). -/
def execQueueStallRetry (q : Nat) (s : State) : Out :=
  .next (
    let x := s.queue q
    if x.st = .stalled ∧ x.retryAt ≤ s.cycle then s.setQueue q { x with st := .running, stallVa := 0 } else s)

/-- Does the dword of the WAIT a queue is BLOCKED on hold the value, or can it no longer be read? -/
def State.waitMet (s : State) (q : Nat) : Bool :=
  let x := s.queue q
  let c := s.memRead (x.cring % 2 ^ 40 + 64 * (x.next % 2 ^ (x.csize + 4))) 64
  match (s.xlateDev x.ctx .load (bits c 127 64)).2 with
  | .ok node pa _ => if node = s.dev.node then decide (bits c 191 128 ≤ s.memRead pa 8) else true
  | _ => true

/-- BLOCK_CLEAR: what the command of a BLOCKED queue waits for has happened: a drain or a WAIT is executed again; a kill
(one whose context has been released since has finished),
a suspend that a kill has ended, a VF reset, and an endpoint's close complete (R321, R325, 23_link R367). -/
def execBlockClear (q : Nat) (s : State) : Out :=
  .next (
    let x := s.queue q
    if x.st ≠ .blocked then s
    else
      match x.block with
      | some .drain => if s.drained q then s.setQueue q { x with st := .running, block := none } else s
      | some .wait => if s.waitMet q then s.setQueue q { x with st := .running, block := none } else s
      | some (.kill c) => if s.killFinished c ∨ (s.ctx c).st ≠ .dead then s.cmdOk q 0 else s
      | some (.suspend c) => if (s.ctx c).suspending.isSome then s else s.cmdOk q 0
      | some (.vf _) => if s.dev.vfPhase ≠ 0 ∧ s.dev.vfQueue = some q then s else s.cmdOk q 0
      | some (.close e) =>
        if s.cores.any fun (_, c) => c.nq.any fun t => decide (t.ep = e) then s
        else ((if (s.ep e).st = .free then s.setEp e {} else s) : State).cmdOk q 0
      | _ => s)

/-- The work a BLOCKED queue's command waited for is done: the command completes, unless the queue has been stopped or
halted since (R321). -/
def State.workDone (s : State) (q : Nat) (b : Block) : State :=
  if (s.queue q).st = .blocked ∧ (s.queue q).block = some b then s.cmdOk q 0 else s

/-! ### Management commands (R325) -/

/-- Execute MGMT subcode `n`: PRIV outside VF 0; the action answers none where it is refused with MDESC and A. -/
def State.mgmt (s : State) (q n : Nat) (act : Nat → Option State) : State :=
  s.command q (mgmtIs n) fun c =>
    if (s.queue q).vf ≠ 0 then s.cmdFail q 2 0
    else
      match act c with
      | some s => s
      | none => s.cmdFail q 12 (BitVec.ofNat 64 (argA c))

/-- Reserved bits of the registers an image gives: PTROOT, FRING, FBRING and FBMASK (12_page R222, R234, 14_lod R253); and
bit 0 of a handler's address (07_memory R158). -/
def imageReserved (n : Nat) : Bool :=
  decide (bits n 63 52 ≠ 0) || decide (bits n 14 0 ≠ 0) || decide (bits n 127 116 ≠ 0) || decide (bits n 75 68 ≠ 0) ||
  decide (bits n 191 180 ≠ 0) || decide (bits n 139 128 ≠ 0) || decide (bits n 255 212 ≠ 0) ||
  (List.range 7).any fun i => decide (bits n (576 + 64 * i) (576 + 64 * i) ≠ 0)

/-- The context an image of 256 bytes describes; none where a reserved bit is set or an address is wrong (R299, R325). -/
def State.ctxOfImage (s : State) (n : Nat) : Option Ctx :=
  let pool := bits n 575 512
  let mc := bits n 511 448
  let img := bits n 447 384
  if bits n 2047 1112 ≠ 0 ∨ bits n 1099 1097 ≠ 0 ∨ bits n 1095 1092 ≠ 0 ∨ imageReserved n then none
  else if pool % 4096 ≠ 0 ∨ mc % 16384 ≠ 0 ∨ img % 65536 ≠ 0 then none
  else if !(s.ownAddr pool 1 && s.ownAddr mc 16384 && s.ownAddr img 65536) then none
  else
    some { st := .live, sysok := decide (bits n 1096 1096 = 1), vf := bits n 1091 1088,
           handlers := (List.range 7).foldl (fun m i => tset 0 m (i + 1) (BitVec.ofNat 64 (bits n (639 + 64 * i) (576 + 64 * i)))) [],
           tvec1 := BitVec.ofNat 64 (bits n 319 256), tvec2 := BitVec.ofNat 64 (bits n 383 320),
           fbmask := BitVec.ofNat 64 (bits n 255 192), fbring := BitVec.ofNat 64 (bits n 191 128),
           fring := BitVec.ofNat 64 (bits n 127 64), ptroot := BitVec.ofNat 64 (bits n 63 0),
           saveSize := bits n 1087 1056, saveCount := bits n 1055 1024, pool := pool, multicast := mc, image := img }

/-- CONTEXT_CREATE. -/
def execContextCreate (q : Nat) (s : State) : Out :=
  .next (s.mgmt q 1 fun c =>
    let a := argA c
    if 256 ≤ a ∨ (s.ctx a).st ≠ .free ∨ !s.ownAddr (argB c) 256 then none
    else (s.ctxOfImage (s.memRead (argB c % 2 ^ 40) 256)).map fun x => (s.setCtx a x).cmdOk q 0)

/-- CONTEXT_SUSPEND: the context's queues stop, its placed groups are to be saved, and the command stays BLOCKED until
SUSPEND_COMPLETE (17_context R300, R308). -/
def execContextSuspend (q : Nat) (s : State) : Out :=
  .next (s.mgmt q 2 fun c =>
    let a := argA c
    let x := s.ctx a
    if 256 ≤ a ∨ x.st ≠ .live then none
    else if x.suspending.isSome then some (s.cmdBlock q (.suspend a))
    else
      let qs := s.queues.filter fun (k, y) => decide (y.ctx = a) && decide (k ≠ q)
      let s := qs.foldl (fun s e => s.stopQueue e.1) s
      some ((s.setCtx a { x with suspending := some q }).cmdBlock q (.suspend a)))

/-- Is every group of the context SAVED or ENDED (17_context R300)? -/
def State.allSaved (s : State) (c : Nat) : Bool :=
  s.kernels.all fun (ser, k) =>
    decide (k.ctx ≠ c) || decide (k.st = .ended) ||
      decide (k.groups ≤ k.done + (s.groups.filter fun (key, g) => decide (key / 33554432 = ser) && decide (g.st = .saved)).length)

/-- SUSPEND_COMPLETE: every group of the context is SAVED or ENDED: the format image is written, the state SUSPENDED. -/
def execSuspendComplete (c : Nat) (s : State) : Out :=
  .next (match (s.ctx c).suspending with
    | none => s
    | some q =>
      if !s.allSaved c then s
      else
        let s := s.fmtImageWrite c
        let s := s.setCtx c { s.ctx c with st := .suspended, suspending := none }
        let s := s.workDone q (.suspend c)
        if (s.queue q).ctx = c then s.stopQueue q else s)

/-- CONTEXT_RESUME. -/
def execContextResume (q : Nat) (s : State) : Out :=
  .next (s.mgmt q 3 fun c =>
    let a := argA c
    if 256 ≤ a then none
    else
      match (s.ctx a).st with
      | .live => some (s.cmdOk q 0)
      | .suspended =>
        let s := s.fmtImageRead a
        let s := s.setCtx a { s.ctx a with st := .live }
        let qs := s.queues.filter fun (_, y) => decide (y.ctx = a) && decide (y.st = .stopped)
        some ((qs.foldl (fun s e => s.restartQueue e.1) s).cmdOk q 0)
      | _ => none)

/-- CONTEXT_KILL: BLOCKED until the kill has finished. -/
def execContextKill (q : Nat) (s : State) : Out :=
  .next (s.mgmt q 4 fun c =>
    let a := argA c
    if 256 ≤ a then none
    else
      match (s.ctx a).st with
      | .free => none
      | .dead => some (s.cmdOk q 0)
      | _ =>
        let s := s.kill a none none
        some (if (s.queue q).st = .halted then s else s.cmdBlock q (.kill a)))

/-- A context's record is zeroed and its id freed. Records sent for it are still written, fault records to the ring it had
(19_queue R327, 17_context R306); a region or a partition it held last is zeroed for the next context of the id (16_group
R286, 10_matrix R171). -/
def State.freeCtx (s : State) (c : Nat) : State :=
  let ring := s.faultRing c
  let s := s.feedbackAll c
  let s : State := { s with
    clus := s.clus.map fun (k, (x : Cluster)) => (k, { x with frecs := x.frecs.map fun r =>
      if r.ctx = c ∧ r.ring = none then { r with ring := ring } else r })
    cores := s.cores.map fun (k, (x : Core)) => (k, { x with
      lsCtx := if x.lsCtx = some c then some 256 else x.lsCtx
      partCtx := if x.partCtx = some c then some 256 else x.partCtx }) }
  s.setCtx c {}

/-- CONTEXT_RELEASE: refused until the kill has finished; then the record is zeroed and the id free. -/
def execContextRelease (q : Nat) (s : State) : Out :=
  .next (s.mgmt q 5 fun c =>
    let a := argA c
    if 256 ≤ a then none
    else
      match (s.ctx a).st with
      | .free => some (s.cmdOk q 0)
      | .dead => if s.killFinished a then some ((s.freeCtx a).cmdOk q 0) else none
      | _ => none)

/-- QUEUE_CREATE. -/
def execQueueCreate (q : Nat) (s : State) : Out :=
  .next (s.mgmt q 6 fun c =>
    let a := argA c
    let id := bits a 9 0
    let ctx := bits a 17 10
    let vf := bits a 21 18
    let cs := bits a 31 28
    let es := bits a 35 32
    let mine := (s.queues.filter fun (_, y) => decide (y.st ≠ .free) && decide (y.vf = vf)).length
    if bits a 63 36 ≠ 0 ∨ bits a 27 23 ≠ 0 ∨ 8 < cs ∨ 8 < es ∨ (s.ctx ctx).st ≠ .live ∨ (s.queue id).st ≠ .free ∨
        (s.vf vf).queues ≤ mine ∨ (s.ctx ctx).vf ≠ vf ∨ argB c % 4096 ≠ 0 ∨ argC c % 4096 ≠ 0 ∨
        !s.ownAddr (argB c) (64 * 2 ^ (cs + 4)) ∨ !s.ownAddr (argC c) (64 + 32 * 2 ^ (es + 4)) then none
    else
      let s := s.memPut (argC c % 2 ^ 40) 16 0
      let x : Queue := { st := .running, ctx := ctx, vf := vf, devFed := decide (bits a 22 22 = 1), csize := cs, esize := es,
                         cring := argB c, ering := argC c, old := (s.queue id).old }
      some ((s.setQueue id x).cmdOk q 0))

/-- QUEUE_SET: T, N and endpoint. -/
def execQueueSet (q : Nat) (s : State) : Out :=
  .next (s.mgmt q 7 fun c =>
    let a := argA c
    let b := argB c
    if 1024 ≤ a ∨ (s.queue a).st = .free ∨ bits b 63 48 ≠ 0 ∨ bits b 31 24 ≠ 0 ∨ bits b 15 12 ≠ 0 then none
    else
      some (((s.setQueue a { s.queue a with ep := bits b 11 0, n := bits b 23 16, t := bits b 47 32 }).notifyDue a).cmdOk q 0))

/-- QUEUE_DESTROY: STOPPED or HALTED queues only. -/
def execQueueDestroy (q : Nat) (s : State) : Out :=
  .next (s.mgmt q 8 fun c =>
    let a := argA c
    if 1024 ≤ a then none
    else
      match (s.queue a).st with
      | .stopped | .halted => some ((s.destroyQueue a).cmdOk q 0)
      | _ => none)

/-- VF_SET: quotas and weight. -/
def execVfSet (q : Nat) (s : State) : Out :=
  .next (s.mgmt q 9 fun c =>
    let a := argA c
    let b := argB c
    let w := bits b 52 48
    let tags := bits b 42 24
    let others := ((List.range 16).map fun v => if v = a then 0 else (s.vf v).tags).sum
    if 16 ≤ a ∨ bits b 63 53 ≠ 0 ∨ bits b 47 43 ≠ 0 ∨ w = 0 ∨ 16 < w ∨ bits (argC c) 63 11 ≠ 0 ∨ 262144 < tags + others then none
    else
      some (({ s with vfs := tput s.vfs a { slots := bits b 23 0, tags := tags, queues := argC c, weight := w } } : State).cmdOk q 0))

/-- VF_RESET: ignored with an OK record while a reset is in progress; else BLOCKED until phase 4 ends (R327). -/
def execVfReset (q : Nat) (s : State) : Out :=
  .next (s.mgmt q 10 fun c =>
    let a := argA c
    if a = 0 ∨ 16 ≤ a ∨ bits (argB c) 63 16 ≠ 0 then none
    else if s.dev.vfPhase ≠ 0 then some (s.cmdOk q 0)
    else some ((s.vfStart a (argB c) (some q)).cmdBlock q (.vf a)))

/-- VF_RESET_GRACE_EXPIRE: phase 2 starts: every context of the VF is killed. -/
def execVfResetGraceExpire (s : State) : Out :=
  .next (
    if s.dev.vfPhase = 1 ∧ s.dev.vfGrace ≤ s.cycle then
      let mine := s.ctxs.filter fun (_, x) => decide (x.vf = s.dev.vfNo) && decide (x.st = .live ∨ x.st = .suspended)
      let s := mine.foldl (fun s e => s.kill e.1 none none) s
      { s with dev := { s.dev with vfPhase := 2 } }
    else s)

/-- Contexts of a VF that are not FREE. -/
def State.vfCtxs (s : State) (v : Nat) : List Nat :=
  (s.ctxs.filter fun (_, x) => decide (x.vf = v) && decide (x.st ≠ .free)).map (·.1)

/-- Phase 3 of a VF reset: the cores that last held a group of the VF are zeroed, and its format tables go INVALID, their
values zeroed where they stand (R327, 05_formats R97). -/
def State.vfScrub (s : State) (v : Nat) : State :=
  let s : State := { s with
    cores := s.cores.map fun (k, (c : Core)) =>
      if s.scrubs v k then (k, ({ (c.wrote 5 (fun _ => true) 1).wrote 8 (fun _ => true) 0 with
        ls := [], lsPoison := [], acc := [], accPoison := [], lastVf := none
        errs := (((c.errs.wrote 5 (fun _ => true) 1).wrote 8 (fun _ => true) 0).wrote 0 (fun _ => true) 0) } : Core))
      else (k, c) }
  (s.vfCtxs v).foldl State.scrubFmts s

/-- Phase 4: tag entries, contexts and queues are freed, and the command that asked for the reset completes (R327). -/
def State.vfFree (s : State) (v : Nat) : State :=
  let s : State := { s with tags := s.tags.filter fun e => decide (e.vf ≠ v) }
  let s := (s.vfCtxs v).foldl State.freeCtx s
  let qs := s.queues.filter fun (_, x) => decide (x.vf = v) && decide (x.st ≠ .free)
  let s := qs.foldl (fun s e => s.destroyQueue e.1) s
  let back := s.dev.vfQueue
  let s := { s with dev := { s.dev with vfPhase := 0, vfQueue := none } }
  match back with
  | some q => s.workDone q (.vf v)
  | none => s

/-- VF_RESET_DRAIN_DONE: nothing of the VF is in flight and its kills have finished: phase 3 is entered; done again, the
phase in progress is carried out and the next entered, until phase 4 has ended (R327, R328). -/
def execVfResetDrainDone (s : State) : Out :=
  .next (
    let v := s.dev.vfNo
    let enter := fun (n : Nat) (s : State) => ({ s with dev := { s.dev with vfPhase := n } } : State)
    match s.dev.vfPhase with
    | 2 => if s.vfCount v = 0 ∧ (s.vfCtxs v).all s.killFinished then enter 3 s else s
    | 3 => enter 4 (s.vfScrub v)
    | 4 => s.vfFree v
    | _ => s)

end Sys2Proof.Machine
end

