-- ==== Sys2Proof/Machine/Group.lean ====
section
/-! DEFINITION. Groups and the dispatcher: admission, placement, the end of a group, pre-emption and restore
(16_group R283-R296, 17_context R308, R310). -/

namespace Sys2Proof.Machine

open Sys2Proof

/-! ### Admission (R289, R275, R276) -/

/-- Register one input tile at the kernel's input generation. DESIGN CHOICE (entry 47): a pending count of 65,535 counts on, and
TAGQRY shows 65,535 (15_kernel R274). -/
def State.register (s : State) (ctx vf : Nat) (d : Decl) (tile : Nat) : State × Input :=
  let i : Input := { id := d.id, pa := d.pa, tile := tile, gen := d.gen, counted := false, noEntry := false }
  match s.tag? ctx d.id tile with
  | none =>
    match s.tagRoom vf (ctx, d.id, tile) with
    | some s =>
      let e : TagEnt := { ctx := ctx, id := d.id, tile := tile, vf := vf, gen := d.gen, ready := false, pending := 1, pa := d.pa }
      ({ s with tags := s.tags ++ [e] }, { i with counted := true })
    | none => (s, { i with noEntry := true })
  | some e =>
    if e.gen = d.gen then
      (s.modTag ctx d.id tile fun e => some { e with pending := e.pending + 1 }, { i with counted := true })
    else (s, i)

/-- The `n`-th group of a kernel that belongs to a die: (serial + index) mod 4 is the die. -/
def groupIndex (ser die n : Nat) : Nat := (die + 4 - ser % 4) % 4 + 4 * n

def dieOfGroup (ser g : Nat) : Nat := (ser + g) % 4

/-- GROUP_ADMIT: the die's dispatcher admits the kernel's next group, at most 64 admitted and unplaced, once no publication
held for one of its tiles can be applied first (15_kernel R277). -/
def execGroupAdmit (die ser : Nat) (s : State) : Out :=
  .next (
    let k := s.kernel ser
    let n := tget 0 k.admitted die
    let g := groupIndex ser die n
    let held := (s.groups.filter fun (key, x) =>
      decide (key / 33554432 = ser) && decide (dieOfGroup ser (key % 33554432) = die) && decide (x.st = .waiting ∨ x.st = .ready)).length
    let tiles := (k.inputs.map fun d => (List.range d.count).map fun j => (d, g * d.mul + d.add + j)).flatten
    if 4 ≤ die ∨ k.st ≠ .active ∨ k.killed ∨ k.groups ≤ g ∨ 64 ≤ held ∨ (tiles.any fun x => s.heldReady k.ctx x.1.id x.2) then s
    else
      let (s, ins) := tiles.foldl (fun (acc : State × List Input) (d, tile) =>
        let (s, i) := acc.1.register k.ctx k.vf d tile
        (s, acc.2 ++ [i])) (s, [])
      let s := s.setKernel ser { k with admitted := tput k.admitted die (n + 1) }
      (s.setGroup ser g { inputs := ins }).reeval)

/-! ### Placement (R291-R293, R286) -/

/-- Is a slot a home slot of a saved group that a group of priority `prio` may not take (R296)? `but`: the key of the
saved group that is to be placed. -/
def State.reserved (s : State) (prio t : Nat) (but : Option Nat := none) : Bool :=
  s.groups.any fun (key, g) =>
    decide (but ≠ some key) && decide (g.st = .saved) && decide (prio ≤ (s.kernel (key / 33554432)).prio) && g.threads.contains t

/-- Does a placed group with a region hold the core, or is it a home core of a saved group (R286, R296)? -/
def State.regionHeld (s : State) (core : Nat) (but : Option Nat := none) : Bool :=
  s.groups.any fun (key, g) =>
    decide (but ≠ some key) &&
      (decide (g.st = .saved) || (decide (g.st = .placed) && decide (0 < (s.kernel (key / 33554432)).b))) && g.homes core

/-- Slots of a core a group of priority `prio` may take, lowest first. -/
def State.freeSlots (s : State) (core prio : Nat) : List Nat :=
  (List.range 7).filter fun k =>
    let t := core * 8 + k
    s.isFree t && decide ((s.thread t).grp = none) && !s.reserved prio t

/-- Is a core's local store named by outstanding engine or matrix work, or transfers, of another context (10_matrix R177,
11_engines R210, R213, 23_link R370)? DESIGN CHOICE (entry 38): an entry of a saved queue is no outstanding fetch. -/
def State.lsInUse (s : State) (core ctx : Nat) : Bool :=
  let other := fun (o : Owner) => decide (o.ctx ≠ ctx)
  (s.cores.any fun (k, c) =>
    (c.mq.any fun e => other e.owner && e.names k core) || (c.cq.any fun e => other e.owner && e.names core) ||
    (c.nq.any fun e => other e.owner && e.names core)) ||
  s.clus.any fun (_, c) => c.txq.any fun e => other e.owner && e.names core

/-- Is a core still to be scrubbed of the VF that is being reset, or does a group of that VF still hold it (19_queue R327)? -/
def State.unscrubbed (s : State) (core : Nat) : Bool :=
  decide (s.dev.vfPhase ≠ 0) && (s.scrubs s.dev.vfNo core ||
    s.groups.any fun (key, g) =>
      decide (g.st = .placed) && g.homes core && decide ((s.kernel (key / 33554432)).vf = s.dev.vfNo))

/-- A group of a VF leaves its cores: it is the last that held them (R327). -/
def State.left (s : State) (cores : List Nat) (vf : Nat) : State :=
  cores.foldl (fun s c => s.setCore c { s.core c with lastVf := some vf }) s

/-- May one core take `n` slots of a group (R292, R286)? -/
def State.coreQualifies (s : State) (core : Nat) (k : Kernel) : Bool :=
  !(s.core core).fenced && decide (k.n ≤ (s.freeSlots core k.prio).length) &&
  (decide (k.b = 0) || (!s.regionHeld core && !s.lsInUse core k.ctx)) &&
  !s.unscrubbed core

/-- The lowest run of a cluster's cores that qualifies for a kernel's shape. -/
def State.runIn (s : State) (clu : Nat) (k : Kernel) : Option Nat :=
  let m := k.w * k.p
  (List.range (9 - m)).find? fun f => (List.range m).all fun c => s.coreQualifies (clu * 8 + f + c) k

/-- Occupied slots 0 to 6 of a cluster. DESIGN CHOICE (entry 31): a slot that a placed group holds while it is FREE is not
occupied (R292). -/
def State.occupied (s : State) (clu : Nat) : Nat :=
  ((List.range 8).map fun c => ((List.range 7).filter fun k => decide ((s.thread ((clu * 8 + c) * 8 + k)).st ≠ .free)).length).sum

/-- The qualifying cluster of a die with the fewest occupied slots, lowest id first, with its run (R292). -/
def State.choosePlace (s : State) (die : Nat) (k : Kernel) : Option (Nat × Nat) :=
  ((List.range 48).filterMap fun i => (s.runIn (die * 48 + i) k).map fun f => (die * 48 + i, f)).foldl (fun best (c, f) =>
    match best with
    | none => some (c, f)
    | some b => if s.occupied c < s.occupied b.1 then some (c, f) else some b) none

/-- Kernels that have not ended in the dependence chains of `front`, with those found so far (R293). -/
def State.chainFrom (s : State) : Nat → List Nat → List Nat → List Nat
  | 0, seen, _ => seen
  | n + 1, seen, front =>
    let ps := (front.map fun k => (s.kernel k).producers).flatten.filter fun p =>
      decide ((s.kernel p).st ≠ .ended) && !seen.contains p
    if ps = [] then seen else s.chainFrom n (seen ++ ps.eraseDups) ps.eraseDups

/-- The dependence chain of a kernel: each round of its search finds a kernel launched, so there are no more rounds than
those. -/
def State.chain (s : State) (ser : Nat) : List Nat := s.chainFrom s.nextSer [] [ser]

/-- Does a kernel still have READY or PENDING groups on a die? -/
def State.unplacedOn (s : State) (die ser : Nat) : Bool :=
  let k := s.kernel ser
  decide (groupIndex ser die (tget 0 k.admitted die) < k.groups) ||
  s.groups.any fun (key, g) =>
    decide (key / 33554432 = ser) && decide (g.st = .ready) && decide (dieOfGroup ser (key % 33554432) = die)

/-- Zero the first `b` bytes of a local store, a write of the array (24_device R388). -/
def Core.zeroRegion (c : Core) (b : Nat) : Core :=
  { c with ls := c.ls.filter (fun e => decide (b ≤ e.1)), lsPoison := c.lsPoison.filter (fun d => decide (b ≤ d)),
           errs := c.errs.wrote 0 (fun k => decide (k < b)) 0 }
/-- Place a READY group on the run of cores from `f` of a cluster (R283-R286). -/
def State.place (s : State) (ser g clu f : Nat) : State :=
  let k := s.kernel ser
  match s.group? ser g with
  | none => s
  | some grp =>
    let slots := (List.range (k.w * k.p)).map fun c => (s.freeSlots (clu * 8 + f + c) k.prio).take k.n
    let x : Group := { grp with st := .placed, clu := clu, first := f, slots := slots, placedAt := s.cycle, failing := none }
    let s := s.unregister k.ctx grp.inputs
    let s := s.setGroup ser g x
    let s := (List.range (k.w * k.p)).foldl (fun s i =>
      let core := clu * 8 + f + i
      let c := s.core core
      let c : Core := if 0 < k.b then { (if c.lsCtx = some k.ctx then c else c.zeroRegion k.b) with lsCtx := some k.ctx } else c
      let c : Core := if c.partCtx = some k.ctx then c else c.setPart [] []
      s.setCore core { c with partCtx := some k.ctx, lastVf := some k.vf }) s
    let s := x.threads.foldl (fun s t => s.setThread t { grp := some (ser, g) }) s
    let low := fun (c : Nat) => (clu * 8 + f + c) * 8 + ((slots.getD c []).headD 0)
    let links := ((List.range k.w).map fun l => (List.range (k.p - 1)).map fun st =>
      ({ ctx := k.ctx, src := low (st * k.w + l), dst := low ((st + 1) * k.w + l) } : Link)).flatten
    let s := { s with links := s.links ++ links }
    let t := low 0
    let s := s.startThread t k.code k.args k.ctx k.vf
    if k.sys then s.setThread t { s.thread t with tstate := 4, startSys := true } else s

/-- Is a placement of the kernel's shape still possible for every older kernel of its chain (R293)? -/
def State.reserveOk (s : State) (die ser : Nat) : Bool :=
  (s.chain ser).all fun p => !(decide (p < ser) && s.unplacedOn die p) || (s.choosePlace die (s.kernel p)).isSome

/-- Poison that has struck a group's save area in memory goes with what is restored from there (17_context R308, 24_device R386): to
the registers and the regions, to the matrix state, and, of a chain link or a queued wake, to the thread that owns it. DESIGN
CHOICE (entry 38): struck header or queue bytes of a matrix image poison every entry of that queue. -/
def State.restorePoison (s : State) (ser g : Nat) (grp : Group) : State :=
  let k := s.kernel ser
  let c := s.ctx k.ctx
  let base := c.pool % 2 ^ 40 + grp.save.area * c.saveSize * 4096
  let (mo, _, lo, qo, _) := saveOffsets k grp
  if s.poison = [] then s
  else
    let spoil := fun (s : State) (o : Owner) (a : Nat) => (s.modOwner o fun th => { th with poison := th.poison.or (some a) }).1
    let s := grp.threads.zipIdx.foldl (fun (s : State) (t, i) =>
      if s.memPoisoned (base + 0x100 + 3072 * i) 3072 ∧ (s.thread t).st ≠ .free then spoil s (s.owner t 0) 5 else s) s
    let s := grp.cores.foldl (fun (s : State) core =>
      let a := s.regionAddr ser grp core
      let c := s.core core
      let new := ((s.poison.filter fun d => decide (a ≤ d ∧ d < a + k.b)).map fun d => d - a).filter fun d => !c.lsPoison.contains d
      s.setCore core { c with lsPoison := c.lsPoison ++ new }) s
    let s := grp.save.mstate.zipIdx.foldl (fun (s : State) ((core, q, _), i) =>
      let a := base + mo + 41728 * i
      let c := s.core core
      let ents := if s.memPoisoned a 0x240 then q.map fun e => (7, e.key) else []
      let replies := ((List.range 64).filter fun n => s.memPoisoned (a + 0x240 + 128 * n) 128).map fun n => (6, n)
      let pairs := if s.memPoisoned (a + 0x2240) 32768 then
        (List.range 4096).filter fun p => s.poison.contains (a + accPlace p) && !c.accPoison.contains p else []
      s.setCore core { c with bad := c.bad ++ ents ++ replies, accPoison := c.accPoison ++ pairs }) s
    let lanes := ((List.range k.w).map fun l => (List.range (k.p - 1)).map fun st => grp.clu * 8 + grp.first + st * k.w + l).flatten
    let s := lanes.zipIdx.foldl (fun (s : State) (core, i) =>
      match s.links.find? fun l => l.saved && decide (coreOf l.src = core) && decide (l.grp = groupKey ser g) with
      | some l =>
        if s.memPoisoned (base + lo + 256 * i) 256 then
          let (v, s) := s.takeFree
          spoil s (s.owner l.dst 0) (v.toNat % 256)
        else s
      | none => s) s
    (List.range grp.slots.length).foldl (fun (s : State) i =>
      ((grp.save.spawns.filter fun e => decide (e.1 = grp.clu * 8 + grp.first + i)).zipIdx).foldl (fun (s : State) (e, j) =>
        if s.memPoisoned (base + qo + 256 * i + 64 * j) 64 then
          let (v, s) := s.takeFree
          spoil s e.2.owner (v.toNat % 256)
        else s) s) s

/-- Restore a saved group in its home (R296): what its threads load from now on is performed after the restore
(25_ordering R394), and poison in the area it comes from goes with it. DESIGN CHOICE (entry 38): a saved queue goes in front of what
stands in the core's queue, for which there is room (`homeFree`), and its partition in the place of the core's (10_matrix R172); on a
core whose matrix state was not saved with the group the partition stays as it is, whichever context used it last (R171). -/
def State.restore (s : State) (ser g : Nat) (grp : Group) : State :=
  let k := s.kernel ser
  let sv := grp.save
  let cx := s.ctx k.ctx
  let s := s.setCtx k.ctx { cx with areas := cx.areas.filter fun a => decide (a ≠ sv.area) }
  let s := s.setGroup ser g { grp with st := .placed, saving := false, placedAt := s.cycle, save := {} }
  let s := grp.threads.foldl (fun s t => s.setThread t { grp := some (ser, g) }) s
  let s := sv.threads.foldl (fun s (t, th) => (s.slotWritten t).setThread t { th with base := s.moment }) s
  let s := sv.regions.foldl (fun s (core, m) =>
    let c := s.core core
    let c := if 0 < k.b then { c.zeroRegion k.b with lsCtx := some k.ctx } else c
    s.setCore core { c with ls := m.foldl (fun l e => tset 0 l e.1 e.2) c.ls, lsPoison := c.lsPoison ++ sv.poisonOf core,
                            lastVf := some k.vf }) s
  let s := sv.spawns.foldl (fun s (core, e) => s.setCore core { s.core core with spawnQ := (s.core core).spawnQ ++ [e] }) s
  let s := sv.mstate.foldl (fun s (core, q, acc) =>
    let bad := ((sv.mpoison.find? fun e => decide (e.1 = core)).map (·.2)).getD []
    let spill := ((sv.mspill.find? fun e => decide (e.1 = core)).map (·.2)).getD []
    s.setCore core { (((s.core core).setPart acc bad).putEntries q).putSpill spill with partCtx := some k.ctx }) s
  let s := s.restorePoison ser g grp
  let key := groupKey ser g
  { s with links := s.links.map fun l => if l.saved && decide (l.grp = key) then { l with saved := false } else l }

/-- The candidates of a die's dispatcher in the order R291 considers them by: rank, smaller first, serial and index. The VFs of one
priority and the queues of one VF in it go round-robin, each priority for itself (entry 31). -/
def State.candidates (s : State) (die : Nat) : List (Nat × Nat × Nat) :=
  let d := s.die die
  s.groups.filterMap fun (key, g) =>
    let ser := key / 33554432
    let i := key % 33554432
    let k := s.kernel ser
    let c := s.ctx k.ctx
    let here := if g.st = .saved then decide (g.clu / 48 = die) else decide (dieOfGroup ser i = die)
    if here && decide (g.st = .ready ∨ g.st = .saved) && decide (c.st = .live) && decide (c.suspending = none) &&
        !(decide (s.dev.vfPhase ≠ 0) && decide (k.vf = s.dev.vfNo)) then
      let (v, n) := tget (0, 0) d.rrVf k.prio
      let vr := if n < (s.vf v).weight then (k.vf + 16 - v) % 16 else (k.vf + 15 - v) % 16
      let qr := (k.queue + 1024 - tget 0 d.rrQueue (k.prio * 16 + k.vf)) % 1024
      some ((((7 - k.prio) * 16 + vr) * 1024 + qr) * 2 ^ 60 + key, ser, i)
    else none

/-- Is there room on a core for the matrix state a group has saved there: its entries within the 16 of the queue, its replies in a
spill ring that holds no others (10_matrix R172, R199)? -/
def State.matrixRoom (s : State) (grp : Group) (core : Nat) : Bool :=
  let c := s.core core
  let q := ((grp.save.mstate.find? fun e => decide (e.1 = core)).map (·.2.1)).getD []
  let spill := ((grp.save.mspill.find? fun e => decide (e.1 = core)).map (·.2)).getD []
  decide (c.mqCount + (q.filter fun e => !e.sent).length ≤ 16) && (spill.isEmpty || c.spill.isEmpty)

/-- Can a saved group return to its home: its slots FREE and held by no group, none of them another saved group's, no
other region on its cores, room for its queued wakes and its matrix state, and its producers' reserve kept (R286, R293, R296,
10_matrix R172, R189)? -/
def State.homeFree (s : State) (ser g : Nat) (grp : Group) : Bool :=
  let k := s.kernel ser
  let key := some (groupKey ser g)
  (grp.threads.all fun t => s.isFree t && decide ((s.thread t).grp = none) && !s.reserved k.prio t key) &&
    grp.cores.all fun core =>
      let wakes := (grp.save.spawns.filter fun e => decide (e.1 = core)).length
      !(s.core core).fenced && !s.unscrubbed core && s.matrixRoom grp core &&
        (decide (k.b = 0) || (!s.lsInUse core k.ctx && !s.regionHeld core key)) &&
        (decide (wakes = 0) || decide ((s.core core).spawnQ.length + s.reservedWakes core + wakes ≤ 4))

/-- Can the candidate be placed, and what becomes of the state? -/
def State.tryPlace (s : State) (die ser g : Nat) : Option State :=
  match s.group? ser g with
  | none => none
  | some grp =>
    if grp.st = .saved then
      if s.homeFree ser g grp then
        let s' := s.restore ser g grp
        if s'.reserveOk die ser then some s' else none
      else none
    else
      match s.choosePlace die (s.kernel ser) with
      | none => none
      | some (clu, f) =>
        let s' := s.place ser g clu f
        if s'.reserveOk die ser then some s' else none

/-- The first candidate, by rank, that can be placed; READY ones that fail R292 note since when, and those that only the
producer reserve holds back do not. -/
def State.placeFirst (s : State) (die : Nat) : List (Nat × Nat × Nat) → State
  | [] => s
  | (_, ser, g) :: r =>
    match s.tryPlace die ser g with
    | some s' =>
      let k := s.kernel ser
      let d := s'.die die
      let (v, n) := tget (0, 0) d.rrVf k.prio
      s'.setDie die { d with
        placedAt := some s.cycle
        rrVf := tput d.rrVf k.prio (k.vf, if k.vf = v ∧ n < (s.vf v).weight then n + 1 else 1)
        rrQueue := tput d.rrQueue (k.prio * 16 + k.vf) ((k.queue + 1) % 1024) }
    | none =>
      match s.group? ser g with
      | some grp =>
        let fails := (s.choosePlace die (s.kernel ser)).isNone
        if grp.st = .ready then
          (s.setGroup ser g { grp with failing := if fails then (grp.failing.or (some s.cycle)) else none }).placeFirst die r
        else s.placeFirst die r
      | none => s.placeFirst die r

/-- Insert by rank. -/
def rankInsert (x : Nat × Nat × Nat) : List (Nat × Nat × Nat) → List (Nat × Nat × Nat)
  | [] => [x]
  | y :: r => if x.1 < y.1 then x :: y :: r else y :: rankInsert x r

/-- GROUP_PLACE: at most one placement of a die every 16 core cycles (R291); what another device holds of an input's
buffer is looked at first (15_kernel R275). -/
def execGroupPlace (die : Nat) (s : State) : Out :=
  .next (
    let ok := match (s.die die).placedAt with
      | some t => decide (t + 16 ≤ s.cycle)
      | none => true
    let far := s.groups.any fun e => decide (e.2.st = .waiting) && e.2.inputs.any fun i => farHome i.pa
    if 4 ≤ die ∨ !ok then s
    else
      let s := if far then s.reeval else s
      s.placeFirst die ((s.candidates die).foldr rankInsert []))

/-! ### The end of a group (R294) -/

/-- The area a group was saved to, or has reserved, is free again (17_context R308). -/
def State.freeArea (s : State) (ser : Nat) (grp : Group) : State :=
  let c := (s.kernel ser).ctx
  let x := s.ctx c
  s.setCtx c { x with areas := x.areas.filter fun a => decide (a ≠ grp.save.area) }

/-- The group ends: slots, links, region and save area released, the end counted. -/
def State.endGroup (s : State) (ser g : Nat) (grp : Group) : State :=
  let mine := grp.threads
  let s := if grp.st = .placed then
      mine.foldl (fun s t => if (s.thread t).grp = some (ser, g) then s.setThread t { s.thread t with grp := none } else s)
        (s.left grp.cores (s.kernel ser).vf)
    else s
  let s := if grp.st = .saved ∨ grp.saving then s.freeArea ser grp else s
  let key := groupKey ser g
  let saved := decide (grp.st = GState.saved)
  let s := { s with
    links := s.links.filter fun l =>
      !((l.saved == saved) && (if saved then decide (l.grp = key) else mine.contains l.src || mine.contains l.dst))
    dies := s.dies.map fun (n, (d : Die)) => if d.preempt = some (ser, g) then (n, { d with preempt := none }) else (n, d) }
  (s.dropGroup ser g).countEnd ser 1

/-- GROUP_END: every slot a placed group holds is FREE and no spawn-queue entry is for them; or every saved thread has
been ended by ABORT, its saved wakes going with its save (R288, R294); one saved with no thread and a wake waits for that. -/
def execGroupEnd (ser g : Nat) (s : State) : Out :=
  .next (match s.group? ser g with
    | none => s
    | some grp =>
      match grp.st with
      | .placed =>
        let ctx := (s.kernel ser).ctx
        let queued := grp.cores.any fun core => (s.core core).spawnQ.any fun e => decide (e.owner.ctx = ctx)
        if grp.threads.all s.isFree && !queued then s.endGroup ser g grp else s
      | .saved =>
        if grp.save.threads.all (fun e => decide (e.2.st = .free)) && (grp.save.spawns.isEmpty || grp.save.aborted) then
          s.endGroup ser g grp
        else s
      | _ => s)

/-! ### Pre-emption (R295, R308, R310) -/

/-- A thread as it is saved: a waiting bundle is reissued, a sleep has completed, a waiting FMTSET is abandoned. -/
def Thread.toSave (th : Thread) : Thread :=
  let st := match th.st with
    | .free => SlotState.free
    | .dropped => .dropped
    | _ => .runnable
  let (pc, past) := match th.pend.find? fun p => match p.due with | .format _ _ _ _ => true | _ => false with
    | some p => (p.b.pc, false)
    | none => (th.pc, th.past)
  { th with st := st, pc := pc, past := past, wait := none, sleepEnd := none, gang := none,
            pend := th.pend.filter fun p => match p.due with | .format _ _ _ _ => false | _ => true }

/-- Write a group's save area to memory (R308); poison goes with what it marks (24_device R386). -/
def State.writeSave (s : State) (ser g : Nat) (grp : Group) : State :=
  let k := s.kernel ser
  let c := s.ctx k.ctx
  let base := c.pool % 2 ^ 40 + grp.save.area * c.saveSize * 4096
  let (mo, ro, lo, qo, _) := saveOffsets k grp
  let mbits := (grp.save.mcores.map fun core => 2 ^ (core % 8 - grp.first)).sum
  let s := s.memPut base 256 (layout [(8, 1), (8, ser), (8, g), (8, k.w + k.p * 2 ^ 8 + k.n * 2 ^ 16 + k.b * 2 ^ 32),
    (8, grp.clu + grp.first * 2 ^ 8), (8, mbits)])
  let s := grp.threads.zipIdx.foldl (fun s (t, i) =>
    let th := match grp.save.threads.find? fun e => decide (e.1 = t) with | some e => e.2 | none => {}
    s.memPut (base + 0x100 + 3072 * i) 3072 (threadImage th (grp.save.waiting.contains t))) s
  let s := grp.save.mstate.zipIdx.foldl (fun s ((core, q, acc), i) =>
    s.matrixImage (base + mo + 41728 * i) q (((grp.save.mspill.find? fun e => decide (e.1 = core)).map (·.2)).getD []) acc
      (((grp.save.mpoison.find? fun e => decide (e.1 = core)).map (·.2)).getD [])) s
  let s := (List.range grp.slots.length).foldl (fun s i =>
    let core := grp.clu * 8 + grp.first + i
    let m := grp.save.region core
    let s := s.memWrite none (base + ro + k.b * i) ((List.range k.b).map fun o => tget 0 m o)
    { s with poison := s.poison ++ (grp.save.poisonOf core).map fun d => base + ro + k.b * i + d }) s
  let order := ((List.range k.w).map fun l => (List.range (k.p - 1)).map fun st => grp.clu * 8 + grp.first + st * k.w + l).flatten
  let s := order.zipIdx.foldl (fun s (core, i) =>
    match s.links.find? fun l => l.saved && decide (coreOf l.src = core) && decide (l.grp = groupKey ser g) with
    | some l => s.memPut (base + lo + 256 * i) 256
        (layout ([(8, l.vals.length), (8, if l.srcEnded then 1 else 0)] ++ l.vals.map fun v => (8, v.toNat)))
    | none => s.memPut (base + lo + 256 * i) 256 0) s
  (List.range grp.slots.length).foldl (fun s i =>
    let es := (grp.save.spawns.filter fun e => decide (e.1 = grp.clu * 8 + grp.first + i)).map (·.2)
    let img := (es.zipIdx.map fun (e, j) =>
      layout ([(8, e.pc.toNat)] ++ (e.args.map fun a => (8, a.toNat)) ++
        [(8, e.handler), (8, e.owner.thr)] ++ (if j = 0 then [(8, es.length)] else [])) * 2 ^ (512 * j)).sum
    s.memPut (base + qo + 256 * i) 256 img) s

/-- A READY group has failed R292 for 50 µs and a placed group is at least two priorities lower: of those that a save
area is free for, the most recently placed one of the lowest priority is to be saved, and takes the area (R295, R308). -/
def State.preempt (s : State) (die : Nat) : State :=
    let onDie := fun (e : Nat × Group) => decide (e.2.clu / 48 = die)
    let prioOf := fun (key : Nat) => (s.kernel (key / 33554432)).prio
    let wants := s.groups.filter fun (key, g) =>
      decide (g.st = .ready) && decide (dieOfGroup (key / 33554432) (key % 33554432) = die) &&
        (match g.failing with | some t => decide (t + 90000 ≤ s.cycle) | none => false)
    let placed := s.groups.filter fun e => decide (e.2.st = .placed) && onDie e && !e.2.saving &&
      (s.saveArea (e.1 / 33554432) (e.1 % 33554432) e.2).isSome
    let low := placed.filter fun e =>
      placed.all (fun f => decide (prioOf e.1 ≤ prioOf f.1)) && wants.any fun w => decide (prioOf e.1 + 2 ≤ prioOf w.1)
    let last := low.foldl (fun best e =>
      match best with
      | none => some e
      | some (b : Nat × Group) => if b.2.placedAt < e.2.placedAt then some e else some b) none
    match (s.die die).preempt, last with
    | none, some (key, g) =>
      let ser := key / 33554432
      let area := (s.saveArea ser (key % 33554432) g).getD 0
      let c := (s.kernel ser).ctx
      let s := s.setCtx c { s.ctx c with areas := area :: (s.ctx c).areas }
      let s : State := { s with groups := tput s.groups key { g with saving := true, save := { area := area } } }
      s.setDie die { s.die die with preempt := some (ser, key % 33554432) }
    | _, _ => s

/-- PREEMPTION_TRIGGER. -/
def execPreemptionTrigger (die : Nat) (s : State) : Out := .next (s.preempt die)

/-- Has everything R295 waits for completed? An error that has come with a reply and is not raised yet is saved with its
thread, and raised after the restore; a result that a full link holds up is saved with it too, and pushed after the
restore (entry 28). An access of another device that has been sent is waited for as well. -/
def State.saveReady (s : State) (ser g : Nat) (grp : Group) : Bool :=
  let mine := fun (o : Owner) => decide (o.grp = some (ser, g))
  let sole := s.soleCores ser g grp
  (grp.threads.all fun t => (s.thread t).pend.all fun p => match p.due with
    | .format _ _ _ _ => true
    | .entry _ => sole.contains (coreOf t)
    | .ready _ => p.err.isSome || s.stuckPush t p
    | _ => false) &&
  (grp.threads.all fun t => !(s.askers t).any s.asked && !s.hasAnswer t) &&
  !((s.clu grp.clu).txq.any fun e => mine e.owner && decide (e.stall = none)) &&
  (List.range grp.slots.length).all fun i =>
    let core := grp.clu * 8 + grp.first + i
    let c := s.core core
    !(c.sfu.any fun e => mine e.owner) && !(c.cq.any fun e => mine e.owner && decide (e.stall = none)) &&
    !(c.nq.any fun e => mine e.owner && decide (e.stall = none)) &&
    (if sole.contains core then c.mqFrozen && !c.startedBusy else !(c.mq.any fun e => mine e.owner))

/-- The pre-emption of a group is over: its die may choose another. -/
def State.preempted (s : State) (ser g : Nat) (grp : Group) : State :=
  let die := grp.clu / 48
  if (s.die die).preempt = some (ser, g) then s.setDie die { s.die die with preempt := none } else s

/-- A saved group that can never be restored, since a core of its home has been fenced for good, ends: its save
discarded, its area freed, its kernel faulted (24_device R391). -/
def State.loseSaved (s : State) (core ser g : Nat) (grp : Group) : State :=
  let key := groupKey ser g
  let s := s.freeArea ser grp
  let s : State := { s with
    groups := terase s.groups key
    links := s.links.filter fun l => !(l.saved && decide (l.grp = key)) }
  (s.countEnd ser 1).markFault ser 15 (BitVec.ofNat 64 core)

/-- What a save reads of its cores' arrays is found there (24_device R388): of each core the region and the group's
registers, of one the group alone holds the matrix state. A poisoned register goes with its thread (R386). -/
def State.saveTouch (s : State) (ctx b : Nat) (sole : List Nat) (grp : Group) : State :=
  let s := grp.cores.foldl (fun (s : State) core =>
    let s := s.arrayTouch core 0 (fun k => decide (k < b)) ctx
    let s := s.arrayTouch core 5 (fun k => grp.threads.contains (core * 8 + k / 128)) ctx
    if sole.contains core then s.matrixTouch core ctx else s) s
  grp.threads.foldl (fun (s : State) t =>
    let c := s.core (coreOf t)
    let here := fun (x : Nat × Nat) => decide (x.1 = 5) && decide (x.2 / 128 = slotOf t)
    if c.bad.any here then
      (s.setCore (coreOf t) { c with bad := c.bad.filter fun x => !here x }).setThread t
        { s.thread t with poison := (s.thread t).poison.or (some 5) }
    else s) s

/-- A group is saved to an area, and its slots and region are released (R295, R308). -/
def State.saveGroup (s : State) (ser g : Nat) (grp : Group) (area : Nat) : State :=
  let k := s.kernel ser
  let cx := s.ctx k.ctx
  let sole := s.soleCores ser g grp
  let cores := grp.cores
  let mine := grp.threads
  let s := s.saveTouch k.ctx k.b sole grp
  let sv : Saved :=
    { area := area, threads := mine.map (fun t => (t, (s.thread t).toSave)),
      waiting := mine.filter fun t => decide ((s.thread t).st = .waiting),
      regions := cores.map (fun c => (c, (s.core c).ls.filter fun e => decide (e.1 < k.b))),
      poison := cores.map (fun c => (c, (s.core c).lsPoison.filter fun d => decide (d < k.b))),
      mpoison := sole.map (fun c => (c, (s.core c).accPoison)),
      spawns := (cores.map fun c => ((s.core c).spawnQ.filter fun e => decide (e.owner.ctx = k.ctx)).map fun e => (c, e)).flatten,
      mcores := sole, mstate := sole.map (fun c => (c, (s.core c).mq, (s.core c).acc)),
      mspill := sole.map fun c => (c, (s.core c).spill) }
  let s := s.setCtx k.ctx { cx with areas := area :: cx.areas.filter fun a => decide (a ≠ area) }
  let s : State := { s with
    links := s.links.map fun (l : Link) =>
      if (mine.contains l.src || mine.contains l.dst) && !l.saved then ({ l with saved := true, grp := groupKey ser g } : Link) else l }
  let grp : Group := { grp with st := .saved, saving := false, save := sv }
  let s := s.setGroup ser g grp
  let s := s.writeSave ser g grp
  let s := mine.foldl (fun s t => s.setThread t {}) s
  let s := cores.foldl (fun s c =>
    let x := s.core c
    let x := { x with spawnQ := x.spawnQ.filter fun e => decide (e.owner.ctx ≠ k.ctx) }
    s.setCore c (if sole.contains c then { x with mq := [], spill := [], mqFrozen := x.mqStop } else x)) s
  let s := (s.left cores k.vf).preempted ser g grp
  match cores.find? fun c => (s.core c).fenced with
  | some c => s.loseSaved c ser g grp
  | none => s

/-- GROUP_SAVE_COMPLETE: everything the group had committed has completed: it is saved (R295). One chosen whose layout no
longer fits its area runs on (R308). -/
def execGroupSaveComplete (ser g : Nat) (s : State) : Out :=
  .next (match s.group? ser g with
    | none => s
    | some grp =>
      if !s.toBeSaved ser g grp then s
      else
        match s.areaFor ser g grp with
        | some area => if s.saveReady ser g grp then s.saveGroup ser g grp area else s
        | none => ((s.freeArea ser grp).setGroup ser g { grp with saving := false, save := {} }).preempted ser g grp)

/-- SPAWN_QUEUE_SERVE: of the wakes in the core's spawn queue, in arrival order, the first with a slot of its context free
starts a task (10_matrix R187). -/
def execSpawnQueueServe (core : Nat) (s : State) : Out :=
  .next (
    let c := s.core core
    match c.spawnQ.find? fun e => (s.wakeSlot core e.owner.ctx).isSome with
    | none => s
    | some e =>
      match s.wakeSlot core e.owner.ctx with
      | none => s
      | some t => (s.setCore core { c with spawnQ := c.spawnQ.erase e }).startThread t e.pc e.args e.owner.ctx e.owner.vf)

end Sys2Proof.Machine
end

