-- ==== Sys2Proof/Machine/Layer.lean ====
section
/-! DEFINITION. Layers and the compositor (21_layer R333-R346, R352-R358, 22_program_topsail R362, R363). -/

namespace Sys2Proof.Machine

open Sys2Proof

/-! ### The layer table (R333-R337) -/

/-- LAYER: layer, reason, field (R346). -/
def layerErr (id reason : Nat) (field : Nat := 0) : Err :=
  { cause := 16, tval := BitVec.ofNat 64 (id % 65536 + reason * 65536 + field * 2 ^ 24) }

def LayerState.code : LayerState → Nat
  | .empty => 0 | .rendering => 1 | .fresh => 2 | .aging => 3 | .requested => 4 | .retired => 5

/-- Bits of a field; none of the reserved ids 27 and up (R334). -/
def layerBits (i : Nat) : Nat :=
  [3, 12, 12, 16, 32, 32, 15, 15, 32, 32, 32, 32, 16, 16, 8, 16, 16, 64, 64, 16, 64, 64, 32, 64, 16, 32, 2].getD i 0

/-- Fields a program may write. -/
def layerWritable (i : Nat) : Bool := decide (i ≤ 26) && !([0, 3, 4, 24, 25].contains i)

def Layer.get (x : Layer) (i : Nat) : Nat := if i = 0 then x.st.code else (tget 0 x.f i).toNat
def Layer.set (x : Layer) (i v : Nat) : Layer := { x with f := tset 0 x.f i (BitVec.ofNat 64 (v % 2 ^ layerBits i)) }

/-- What LAYNEW sets (R334). -/
def Layer.fresh (ctx : Nat) : Layer :=
  { st := .empty, owner := ctx, f := [(19, 0xFFFF), (21, 0xFFFFFFFFFFFFFFFF), (24, 0xFFFF)] }

/-- A written value out of range (R346 reason 3). -/
def layerBad (i v : Nat) : Bool :=
  let v := v % 2 ^ layerBits i
  if i = 1 ∨ i = 2 then decide (2048 < v)
  else if i = 17 ∨ i = 18 then decide (v % 64 ≠ 0)
  else if i = 23 then decide (v % 32 ≠ 0)
  else false

/-- An EMPTY layer with a nonzero front becomes FRESH (R335, R337). -/
def Layer.settle (x : Layer) : Layer :=
  if x.st = .empty ∧ x.get 17 ≠ 0 then { ((x.set 3 0).set 4 0) with st := .fresh } else x

/-- Is the layer one of the context's, and not RETIRED? -/
def State.layerMine (s : State) (ctx id : Nat) : Bool :=
  decide ((s.layer id).st ≠ .retired) && decide ((s.layer id).owner = ctx)

/-- A RETIRED layer whose id no command in flight keeps (R356). -/
def State.layerFree (s : State) (x : Layer) : Bool :=
  decide (x.st = .retired) && x.waits.all fun w =>
    !(s.dies.any fun (_, d) => d.comp.any fun c => decide (c.owner.inc = w.1) && decide (c.num = w.2))

/-- The lowest free id from `k` on, past the layers listed. -/
def State.freeFrom (s : State) : Tab Layer → Nat → Option Nat
  | [], k => if k < 65536 then some k else none
  | (i, x) :: r, k => if k < i then some k else if s.layerFree x then some i else s.freeFrom r (i + 1)

/-- LAYNEW: the lowest free id, or -1 (R352). -/
def execLaynew (d : SReg) (s : State) : Out :=
  .next (s.withOps [] (some d) (late := true) fun _ =>
    match s.freeFrom s.layers 0 with
    | some id =>
      (s.setLayer id (Layer.fresh s.cur.ctx)).commit [] [.s d] [(.s d, BitVec.ofNat 512 id)] (.ready s.cycle)
    | none => s.commit [] [.s d] [(.s d, BitVec.allOnes 512)] (.ready s.cycle))

/-- Plain loads of `n` lines in address order. -/
def State.onLines (s : State) (va : Nat) : Nat → (State → List (BitVec 8) → Option Err → State) → State
  | 0, k => k s [] none
  | n + 1, k =>
    let (s, g) := s.readAt s.iss.thr va 64
    s.onGot g .load va fun bs err => s.onLines (va + 64) n fun s bs' err' => k s (bs ++ bs') (err.or err')

/-- LAYSET: one field, or with field 31 every writable field from an image (R335, R353). -/
def execLayset (d a b : SReg) (s : State) : Out :=
  .next (s.withOps [d, a, b] none fun r =>
    let id := bits (r a).toNat 15 0
    let i := bits (r b).toNat 7 0
    if !s.layerMine s.cur.ctx id then s.trap (layerErr id 1 i)
    else if i = 31 then
      if (r d).toNat % 64 ≠ 0 then s.trap { cause := 4, tval := r d }
      else
        s.onLines (r d).toNat 4 fun s bs err =>
          let n := ofBytes bs
          let fields := (List.range 27).filter layerWritable
          let value := fun (k : Nat) => n / 2 ^ (64 * k) % 2 ^ 64
          match err, fields.find? fun k => layerBad k (value k) with
          | some e, _ => s.trap e
          | none, some k => s.trap (layerErr id 3 k)
          | none, none =>
            (s.setLayer id (fields.foldl (fun (x : Layer) k => x.set k (value k)) (s.layer id)).settle).retire [d, a, b]
    else if !layerWritable i then s.trap (layerErr id 2 i)
    else if layerBad i (r d).toNat then s.trap (layerErr id 3 i)
    else (s.setLayer id ((s.layer id).set i (r d).toNat).settle).retire [d, a, b])

/-- LAYGET (R353). -/
def execLayget (d a b : SReg) (s : State) : Out :=
  .next (s.withOps [a, b] (some d) (late := true) fun r =>
    let id := bits (r a).toNat 15 0
    let i := bits (r b).toNat 7 0
    if !s.layerMine s.cur.ctx id then s.trap (layerErr id 1 i)
    else if 26 < i then s.trap (layerErr id 2 i)
    else s.commit [a, b] [.s d] [(.s d, BitVec.ofNat 512 ((s.layer id).get i))] (.ready s.cycle))

/-- LAYRET (R356). -/
def execLayret (a : SReg) (s : State) : Out :=
  .next (s.withOps [a] none fun r =>
    let id := bits (r a).toNat 15 0
    if !s.layerMine s.cur.ctx id then s.trap (layerErr id 1)
    else (s.retireLayer id).retire [a])

/-! ### Commands of a compositor (R338, R339) -/

/-- The compositor of the issuer's die has its 16 commands (R338). -/
def State.compFull (s : State) : Bool := decide (16 ≤ (s.die (dieOf s.iss.thr)).comp.length)

/-- A command enters the queue of the issuer's die with its class 4 number. -/
def State.compPut (s : State) (op : CompOp) : State :=
  let (s, n) := s.number 4
  let die := dieOf s.iss.thr
  let d := s.die die
  s.setDie die { d with comp := d.comp ++ [{ owner := s.owner s.iss.thr s.iss.b.pc, num := n, op := op }] }

/-- A composite record is valid (R346 reason 6). -/
def composeOk (r n : Nat) : Bool :=
  let fw := bits r 271 256
  let fh := bits r 287 272
  let stride := bits r 319 288
  decide (r / 2 ^ 448 = 0) && decide (bits r 255 200 = 0) && decide (bits r 127 72 = 0) &&
  decide (1 ≤ fw) && decide (fw ≤ 4096) && decide (1 ≤ fh) && decide (fh ≤ 4096) &&
  decide (stride % 4 = 0) && decide (4 * fw ≤ stride) && decide (bits r 199 128 % 2 = 0) && decide (bits r 71 0 % 4 = 0) &&
  decide (1 ≤ n) && decide (n ≤ 1024) &&
  (decide (bits r 383 383 = 0) ||
    decide (bits r 371 352 % 16 = 0 ∧ bits r 371 352 + 16 ≤ Config.localBytes ∧ bits r 382 372 < Config.cores))

/-- COMPOSE: held while the queue is full (R354). -/
def execCompose (a b : SReg) (s : State) : Out :=
  .next (if s.compFull then s else s.withOps [a, b] none fun r =>
    match localCheck (r a) 64 64 Config.localBytes with
    | some e => s.trap e
    | none =>
      let o := (r a).toNat
      let n := bits (r b).toNat 10 0
      let d := s.lsRead s.curCore o 64
      let s := s.lsTouch s.curCore o 64 s.cur.ctx
      if s.lsPoisoned s.curCore o 64 then s.trap (eccLocal o)
      else if !composeOk d n then s.trap (layerErr 0 6)
      else (s.compPut (.compose o n (BitVec.ofNat 512 d))).retire [a, b])

/-- LAYSPLIT: held while the queue is full; the child is made at once, the copy is the compositor's (R357). -/
def execLaysplit (d a b : SReg) (s : State) : Out :=
  .next (if s.compFull then s else s.withOps [a, b] (some d) (late := true) fun r =>
    let id := bits (r a).toNat 15 0
    match localCheck (r b) 32 32 Config.localBytes with
    | some e => s.trap e
    | none =>
      let o := (r b).toNat
      let n := s.lsRead s.curCore o 32
      let (x, y, w, h) := (bits n 15 0, bits n 31 16, bits n 47 32, bits n 63 48)
      let p := s.layer id
      let s := s.lsTouch s.curCore o 32 s.cur.ctx
      if s.lsPoisoned s.curCore o 32 then s.trap (eccLocal o)
      else if !s.layerMine s.cur.ctx id then s.trap (layerErr id 1)
      else if bits n 127 64 % 64 ≠ 0 then s.trap (layerErr id 3 17)
      else if bits n 191 128 % 64 ≠ 0 then s.trap (layerErr id 3 18)
      else if p.st = .empty then s.trap (layerErr id 4)
      else if w = 0 ∨ h = 0 ∨ p.get 1 < x + w ∨ p.get 2 < y + h then s.trap (layerErr id 5)
      else
        match s.freeFrom s.layers 0 with
        | none => s.commit [a, b] [.s d] [(.s d, BitVec.allOnes 512)] (.ready s.cycle)
        | some c =>
          let copied := [3, 4, 5, 6, 7, 8, 9, 10, 11, 12, 13, 14, 19, 20, 26].map fun i => (i, p.get i)
          let own := [(1, w), (2, h), (15, p.get 15 + x), (16, p.get 16 + y), (17, bits n 127 64), (18, bits n 191 128), (24, id)]
          let child := (copied ++ own).foldl (fun (l : Layer) e => l.set e.1 e.2) (Layer.fresh s.cur.ctx)
          let child := { child with st := if p.get 3 = 0 then .fresh else .aging }
          ((s.setLayer c child).compPut (.split id c x y w h)).commit [a, b] [.s d] [(.s d, BitVec.ofNat 512 c)] (.ready s.cycle))

/-- LAYMERGE: held while the queue is full (R358). -/
def execLaymerge (a b : SReg) (s : State) : Out :=
  .next (if s.compFull then s else s.withOps [a, b] none fun r =>
    let t := bits (r a).toNat 15 0
    let u := bits (r b).toNat 15 0
    if !s.layerMine s.cur.ctx t then s.trap (layerErr t 1)
    else if !s.layerMine s.cur.ctx u then s.trap (layerErr u 1)
    else if (s.layer t).st = .empty then s.trap (layerErr t 4)
    else if (s.layer u).st = .empty then s.trap (layerErr u 4)
    else if t = u then s.trap (layerErr t 5)
    else (s.compPut (.merge t u)).retire [a, b])

/-- REQPOP: the oldest request of a queue of the context, or 0 (R355). -/
def execReqpop (d a : SReg) (s : State) : Out :=
  .next (s.withOps [a] (some d) (late := true) fun r =>
    let q := bits (r a).toNat 9 0
    match s.queueCheck q false with
    | some e => s.trap e
    | none =>
      let s := s.flushL1 s.curCore
      match (s.queue q).reqs with
      | [] => s.commit [a] [.s d] [(.s d, 0)] (.ready s.cycle)
      | e :: rest =>
        let s : State := { s with queues := tput s.queues q { s.queue q with reqs := rest } }
        let x := s.layer e.id
        let s := if x.st = .requested then s.setLayer e.id { x with st := .rendering } else s
        s.commit [a] [.s d] [(.s d, BitVec.ofNat 512 (e.e * 2 ^ 32 + e.age * 2 ^ 16 + e.id))] (.ready s.cycle))

/-! ### Requests (R341, R342) -/

/-- A field read as a signed number of `n` bits. -/
def signedOf (n v : Nat) : Int := if v < 2 ^ (n - 1) then v else (v : Int) - (2 ^ n : Nat)

def Layer.speed (x : Layer) : Nat := (signedOf 15 (x.get 6)).natAbs + (signedOf 15 (x.get 7)).natAbs

/-- ⌊(zmax − zmin) × 256⌋ clamped to 16 bits; 0 for a NaN or an infinity. -/
def depthSpan (zmax zmin : Nat) : Nat :=
  match val32 (BitVec.ofNat 32 zmax), val32 (BitVec.ofNat 32 zmin) with
  | .fin s m e _, .fin t n f _ =>
    let fix := fun (s : Bool) (m : Nat) (e : Int) => (if s then -1 else 1) * ((m * 2 ^ (e + 149).toNat : Nat) : Int)
    let d := (fix s m e - fix t n f) * 256
    if d ≤ 0 then 0 else min (d.toNat / 2 ^ 149) 65535
  | _, _ => 0

/-- E (R341). -/
def State.layerError (s : State) (x : Layer) : Nat :=
  let age := x.get 3
  let m := x.get 12 * x.speed * age * depthSpan (x.get 10) (x.get 9) / 2 ^ 24
  let d := x.get 13 * x.get 11 * age / 2 ^ 8
  let c := ((List.range 4).map fun k =>
    let id := bits (x.get 21) (16 * k + 15) (16 * k)
    let y := s.layer id
    if id = 0xFFFF ∨ y.st = .retired ∨ y.owner ≠ x.owner then 0
    else bits (x.get 22) (8 * k + 7) (8 * k) * y.speed * y.get 3).sum
  min (m + d + c) 0xFFFFFFFF

/-- The queue a layer's request may go to: of its context, with room for one more beside `more` about to be posted;
a muted layer has none (R342). -/
def State.requestQueue (s : State) (x : Layer) (more : List Post) : Option Nat :=
  let q := x.get 19
  let y := s.queue q
  let coming := (s.dies.map fun (_, d) => (d.comp.map fun c => (c.posts.filter fun p => decide (p.queue = q)).length).sum).sum +
    (more.filter fun p => decide (p.queue = q)).length
  if 1024 ≤ q ∨ y.st = .free ∨ y.ctx ≠ x.owner ∨ (x.get 26) / 2 % 2 = 1 ∨ 64 ≤ y.reqs.length + coming then none else some q

/-- A request enters its queue's list, if the queue is still the context's. -/
def State.post (s : State) (ctx : Nat) (p : Post) : State :=
  let y := s.queue p.queue
  if y.st = .free ∨ y.ctx ≠ ctx then s
  else { s with queues := tput s.queues p.queue { y with reqs := y.reqs ++ [{ id := p.id, e := p.e, age := p.age }] } }

/-! ### The head of a compositor's queue -/

def State.setComp (s : State) (die : Nat) (q : CompReq) : State :=
  let d := s.die die
  s.setDie die { d with comp := q :: d.comp.drop 1 }

/-- The command ends: what it is to post is posted, then its number is done (R362, R344). -/
def State.endComp (s : State) (die : Nat) (q : CompReq) (err : Option Err) : State :=
  let d := s.die die
  let s := s.setDie die { d with comp := d.comp.drop 1 }
  (q.posts.foldl (fun (s : State) p => s.post q.owner.ctx p) s).finishOp q.owner 4 q.num 0 err

/-- An access of the compositor: an error ends the command, a soft fault stalls it (R344, R210). -/
def State.compGot (s : State) (die : Nat) (q : CompReq) (g : EGot) (k : State → List (BitVec 8) → State) : State :=
  match g with
  | .ok bs => k s bs
  | .err e => s.endComp die q (some e)
  | .soft cause kind va =>
    match s.engFault q.owner 4 cause kind va q.stall with
    | (s, .ok st) => s.setComp die { q with stall := some st }
    | (s, .error e) => s.endComp die q (some e)
  | .wait => s

/-! ### COMPOSITE (R340, R343, R344) -/

/-- A listed id that is RETIRED, of another context, or listed before. -/
def State.listError (s : State) (ctx : Nat) : List Nat → List Nat → Option Err
  | [], _ => none
  | id :: r, seen =>
    if !s.layerMine ctx id then some (layerErr id 1)
    else if seen.contains id then some (layerErr id 8)
    else s.listError ctx r (id :: seen)

/-- Is the generation of the buffer record newer than the layer's, and every tile published or the generation done? -/
def State.swapReady (s : State) (ctx : Nat) (x : Layer) (rcd : Nat) : Bool :=
  let g := BitVec.ofNat 32 (bits rcd 63 32)
  newer g (BitVec.ofNat 32 (x.get 25)) &&
    (orNewer (BitVec.ofNat 32 (bits rcd 95 64)) g ||
      (List.range (bits rcd 151 128)).all fun t =>
        match s.tag? ctx (bits rcd 31 0) t with
        | some e => e.ready && orNewer e.gen g
        | none => false)

/-- Does a swap test of a layer read a tag entry that carries poison (24_device R386)? It reads those of every tile, unless the
generation is no newer, or done. -/
def State.swapBad (s : State) (ctx : Nat) (x : Layer) (rcd : Nat) : Bool :=
  let g := BitVec.ofNat 32 (bits rcd 63 32)
  decide (x.get 23 ≠ 0) && newer g (BitVec.ofNat 32 (x.get 25)) && !orNewer (BitVec.ofNat 32 (bits rcd 95 64)) g &&
    (List.range (bits rcd 151 128)).any fun t => (s.tag? ctx (bits rcd 31 0) t).any (·.bad)

/-- The buffer records the layers' tagbuf fields name, in list order: those read, and what stopped the reading.
All are read before a layer changes, so that the composite's work on a layer is one step (R338, R363). -/
def State.tagRecords (s : State) (w : Asker) (ctx : Nat) : List Nat → State × List (Nat × Nat) × EGot
  | [] => (s, [], .ok [])
  | id :: rest =>
    let at_ := (s.layer id).get 23
    match (if at_ = 0 then (s, EGot.ok []) else s.devRead w ctx [(at_, 32)]) with
    | (s, .ok bs) =>
      match s.tagRecords w ctx rest with
      | (s, rs, g) => (s, (id, ofBytes bs) :: rs, g)
    | (s, g) => (s, [], g)

/-- The first loop of R340 for one layer with its buffer record: the layers swapped so far, and this one where it
swaps. -/
def State.ageLayer (s : State) (ctx : Nat) (swapped : List Nat) (id rcd : Nat) : State × List Nat :=
  let x := s.layer id
  if x.get 23 ≠ 0 ∧ s.swapReady ctx x rcd then
    let y := ((((x.set 17 (x.get 18)).set 18 (x.get 17)).set 25 (bits rcd 63 32)).set 3 0).set 4 0
    ((s.unrequest id).setLayer id { y with st := .fresh }, id :: swapped)
  else if x.st = .empty then (s, swapped)
  else (s.setLayer id (x.set 3 (min (x.get 3 + 1) 65535)), swapped)

/-- The first loop of R340 over the layers whose records were read. -/
def State.ageLayers (s : State) (ctx : Nat) (rs : List (Nat × Nat)) : State × List Nat :=
  rs.foldl (fun acc r => acc.1.ageLayer ctx acc.2 r.1 r.2) (s, [])

/-- The second loop of R340 for one layer: its error, its state, its request. -/
def State.judge (s : State) (posts : List Post) (id : Nat) : State × List Post :=
  let x := s.layer id
  if x.st = .empty ∨ x.st = .retired then (s, posts)
  else
    let x := x.set 4 (s.layerError x)
    let x := if x.st = .fresh then { x with st := .aging } else x
    match s.requestQueue x posts with
    | some q =>
      if x.get 5 < x.get 4 ∧ x.st ≠ .requested ∧ x.st ≠ .rendering then
        (s.setLayer id { x with st := .requested }, posts ++ [{ queue := q, id := id, e := x.get 4, age := x.get 3 }])
      else (s.setLayer id x, posts)
    | none => (s.setLayer id x, posts)

/-- Layer updates of a composite: the list, then every record, then both loops in one step. A soft fault stalls it
before any layer changes; an error, a poisoned tag entry's among them, ends it after the first loop's steps of the layers listed
earlier, which remain (R344; the number of the entry's array is open). -/
def State.composeSteps (s : State) (die : Nat) (q : CompReq) (n list : Nat) : State :=
  match s.devRead (.engine q.owner) q.owner.ctx (pieces list (2 * n)) with
  | (s, g) =>
    s.compGot die q g fun s bs =>
      let ids := (List.range n).map fun i => ofBytes ((bs.drop (2 * i)).take 2)
      match s.listError q.owner.ctx ids [] with
      | some e => s.endComp die q (some e)
      | none =>
        match s.tagRecords (.engine q.owner) q.owner.ctx ids with
        | (s, rs, g) =>
          match rs.findIdx? (fun r => s.swapBad q.owner.ctx (s.layer r.1) r.2), g with
          | some k, _ =>
            let (v, s) := s.takeFree
            (s.ageLayers q.owner.ctx (rs.take k)).1.endComp die q (some (eccArray (v.toNat % 256)))
          | none, .err e => (s.ageLayers q.owner.ctx rs).1.endComp die q (some e)
          | none, g =>
            s.compGot die q g fun s _ =>
            let (s, swapped) := s.ageLayers q.owner.ctx rs
            let (s, posts) := (ids.filter fun id => !swapped.contains id).foldl
              (fun (acc : State × List Post) id => acc.1.judge acc.2 id) (s, [])
            s.setComp die { q with stepped := true, stall := none, posts := posts, snap := ids.map fun id => (id, s.layer id) }

/-- x / 256 rounded to nearest, halves away from zero. -/
def roundAway (x : Int) : Int := if x < 0 then -(((x.natAbs + 128) / 256 : Nat) : Int) else ((x.natAbs + 128) / 256 : Nat)

/-- A sample of a frame pixel: column, colour, and the keys it sorts by. -/
structure Sample where
  x : Nat
  colour : Nat
  nan : Bool
  depth : Int
  prio : Nat
  id : Nat
  deriving DecidableEq, Repr

/-- Depth ascending with -0 = +0 and NaN last, priority descending, id ascending (R343). -/
def Sample.before (a b : Sample) : Bool :=
  if a.nan ≠ b.nan then b.nan
  else if !a.nan ∧ a.depth ≠ b.depth then decide (a.depth < b.depth)
  else if a.prio ≠ b.prio then decide (b.prio < a.prio)
  else decide (a.id < b.id)

def insertSample (a : Sample) : List Sample → List Sample
  | [] => [a]
  | b :: r => if a.before b then a :: b :: r else b :: insertSample a r

/-- The order of FP32 codes as numbers. -/
def depthKey (d : BitVec 32) : Int :=
  if d.getLsbD 31 then -((bits d.toNat 30 0 : Nat) : Int) else (bits d.toNat 30 0 : Nat)

/-- Samples of one layer on frame row `y`. -/
def State.rowOf (s : State) (who : Asker) (ctx fw y id : Nat) (l : Layer) : State × EGot × List Sample :=
  let w := l.get 1
  let h := l.get 2
  let age := l.get 3
  let ox := signedOf 16 (l.get 15) + roundAway (signedOf 15 (l.get 6) * age)
  let oy := signedOf 16 (l.get 16) + roundAway (signedOf 15 (l.get 7) * age)
  let j := (y : Int) - oy
  let i0 := max 0 (-ox)
  let i1 := min (w : Int) ((fw : Int) - ox)
  if l.st = .empty ∨ l.st = .retired ∨ l.get 26 % 2 = 1 ∨ j < 0 ∨ (h : Int) ≤ j ∨ i1 ≤ i0 then (s, .ok [], [])
  else
    let base := l.get 17 + 4 * (j.toNat * w)
    match s.devRead who ctx (pieces (base + 4 * i0.toNat) (4 * (i1 - i0).toNat)) with
    | (s, .ok bs) =>
      let seen := ((List.range (i1 - i0).toNat).map fun k => (k, ofBytes ((bs.drop (4 * k)).take 4))).filter fun e =>
        decide (0 < e.2 / 2 ^ 24)
      match s.devRead who ctx (seen.map fun e => (base + 4 * (w * h) + 4 * (i0.toNat + e.1), 4)) with
      | (s, .ok ds) =>
        let dz := ((val32 (BitVec.ofNat 32 (l.get 8))).mul (.fin false age 0)).1
        (s, .ok [], seen.zipIdx.map fun (e, k) =>
          let z := rne32 ((val32 (BitVec.ofNat 32 (ofBytes ((ds.drop (4 * k)).take 4)))).add dz).1
          { x := ((i0 + e.1) + ox).toNat, colour := e.2, nan := decide (0x7F800000 < bits z.toNat 30 0), depth := depthKey z,
            prio := l.get 14, id := id })
      | (s, g) => (s, g, [])
    | (s, g) => (s, g, [])

/-- Samples of every layer of the composite on a row. -/
def State.rowSamples (s : State) (w : Asker) (ctx fw y : Nat) : List (Nat × Layer) → State × EGot × List Sample
  | [] => (s, .ok [], [])
  | (id, l) :: r =>
    match s.rowOf w ctx fw y id l with
    | (s, .ok _, a) =>
      match s.rowSamples w ctx fw y r with
      | (s, g, b) => (s, g, a ++ b)
    | (s, g, _) => (s, g, [])

/-- Blend colours front to back (R343). -/
def blend (cs : List Nat) : Nat :=
  let out := cs.foldl (fun (c : List Nat) w =>
    let a0 := c.getD 3 0
    c.zipIdx.map fun (v, k) => min (v + ((255 - a0) * (w / 2 ^ (8 * k) % 256) + 127) / 255) 255) [0, 0, 0, 0]
  ofBytes (out.map (BitVec.ofNat 8))

/-- One frame row: samples, the first 8 of each pixel, the clear colour behind them. -/
def State.composeRow (s : State) (die : Nat) (q : CompReq) (r : Nat) : State :=
  let fw := bits r 271 256
  let y := q.at_
  match s.rowSamples (.engine q.owner) q.owner.ctx fw y q.snap with
  | (s, g, all) =>
    s.compGot die q g fun s _ =>
      let px := (List.range fw).map fun x => (all.filter fun e => decide (e.x = x)).foldr insertSample []
      let bs := (px.map fun l => toBytes 4 (blend ((l.take 8).map (·.colour) ++ [bits r 351 320]))).flatten
      match s.devWrite (.engine q.owner) q.owner.ctx ((bits r 71 0 + y * bits r 319 288) % 2 ^ 72) bs with
      | (s, g) =>
        s.compGot die q g fun s _ =>
          s.setComp die { q with at_ := y + 1, stall := none, dropped := q.dropped + (px.map fun l => l.length - 8).sum }

/-- The end of a composite: requests posted, result fields written, the credit. -/
def State.composeEnd (s : State) (die : Nat) (q : CompReq) (off r : Nat) : State :=
  let open_ := q.posts.filter fun p => decide ((s.queue p.queue).st ≠ .free) && decide ((s.queue p.queue).ctx = q.owner.ctx)
  match s.engLocalWrite q.owner (coreOf q.owner.thr) (off + 48) (toBytes 8 (q.dropped % 2 ^ 32 + open_.length * 2 ^ 32)) with
  | (s, .ok _) =>
    if bits r 383 383 = 1 then
      match s.credit q.owner.ctx (bits r 382 372) (bits r 371 352) 1 q.owner.grp with
      | (s, true) => s.endComp die q none
      | (s, false) => s.endComp die q (some (remoteErr (bits r 382 372) 2))
    else s.endComp die q none
  | (s, .err e) => s.endComp die q (some e)
  | (s, .soft _ _ _) => s
  | (s, .wait) => s

/-- One step of a composite. -/
def State.composeRun (s : State) (die : Nat) (q : CompReq) (off n r : Nat) : State :=
  if !q.stepped then s.composeSteps die q n (bits r 199 128)
  else if q.at_ < bits r 287 272 then s.composeRow die q r
  else s.composeEnd die q off r

/-! ### LAYSPLIT_COPY, LAYMERGE_FOLD (R357, R358) -/

/-- Write parts in order. -/
def State.writeParts (s : State) (w : Asker) (ctx : Nat) : List (Nat × List (BitVec 8)) → State × EGot
  | [] => (s, .ok [])
  | (va, bs) :: r =>
    match s.devWrite w ctx (va % 2 ^ 72) bs with
    | (s, .ok _) => s.writeParts w ctx r
    | x => x

/-- The layers a split works on, as they are when it starts; RETIRED ones end it with a LAYER error. -/
def State.withPair (s : State) (die : Nat) (q : CompReq) (a b : Nat) (k : CompReq → Layer → Layer → State) : State :=
  match q.snap with
  | [(_, x), (_, y)] => k q x y
  | _ =>
    if !s.layerMine q.owner.ctx a then s.endComp die q (some (layerErr a 1))
    else if !s.layerMine q.owner.ctx b then s.endComp die q (some (layerErr b 1))
    else k { q with snap := [(a, s.layer a), (b, s.layer b)] } (s.layer a) (s.layer b)

/-- One row of a split: the parent's colours and depths to the child, then the parent's colours zeroed. -/
def State.splitRun (s : State) (die : Nat) (q : CompReq) (parent child x y w h : Nat) : State :=
  s.withPair die q parent child fun q p c =>
    let j := q.at_
    if h ≤ j then s.endComp die q none
    else
      let src := p.get 17 + 4 * ((y + j) * p.get 1 + x)
      let depth := src + 4 * (p.get 1 * p.get 2)
      let dst := c.get 17 + 4 * (j * w)
      match s.devRead (.engine q.owner) q.owner.ctx (pieces src (4 * w) ++ pieces depth (4 * w)) with
      | (s, g) =>
        s.compGot die q g fun s bs =>
          match s.writeParts (.engine q.owner) q.owner.ctx [(dst, bs.take (4 * w)), (dst + 4 * (w * h), bs.drop (4 * w)), (src, List.replicate (4 * w) 0)] with
          | (s, g) => s.compGot die q g fun s _ => s.setComp die { q with at_ := j + 1, stall := none }

/-- The table steps of a merge: requests, ages, errors, states, and the layers' fields as its rows go by. DESIGN CHOICE (entry 25):
its work on both layers is one indivisible step (R338), made before the first row, the request going out as the merge ends. -/
def State.mergeSteps (s : State) (die : Nat) (q : CompReq) (t u : Nat) : State :=
  let s := (s.unrequest t).unrequest u
  let x := s.layer t
  let y := s.layer u
  let x' := (x.set 3 (max (x.get 3) (y.get 3))).set 4 (max (x.get 4) (y.get 4))
  let to_ := s.requestQueue x' []
  let posts := to_.toList.map fun c => ({ queue := c, id := t, e := max (x'.get 4) 1, age := x'.get 3 } : Post)
  ((s.setLayer t { x' with st := if to_.isSome then .requested else .aging }).retireLayer u).setComp die
    { q with stepped := true, snap := [(t, x), (u, y)], posts := posts }

/-- A merge: first its table steps, or the LAYER error of a layer that is RETIRED; then, a row at a time, every source pixel with
alpha > 0 into the target, clipped. -/
def State.mergeRun (s : State) (die : Nat) (q : CompReq) (t u : Nat) : State :=
  match q.snap with
  | [(_, x), (_, y)] =>
    let j := q.at_
    let w := y.get 1
    if y.get 2 ≤ j then s.endComp die q none
    else
      let src := y.get 17 + 4 * (j * w)
      match s.devRead (.engine q.owner) q.owner.ctx (pieces src (4 * w)) with
      | (s, g) =>
        s.compGot die q g fun s bs =>
          let tx := fun (i : Nat) => (i : Int) + signedOf 16 (y.get 15) - signedOf 16 (x.get 15)
          let ty := (j : Int) + signedOf 16 (y.get 16) - signedOf 16 (x.get 16)
          let px := (List.range w).filter fun i =>
            decide (0 < ofBytes ((bs.drop (4 * i + 3)).take 1)) && decide (0 ≤ tx i) && decide (tx i < (x.get 1 : Int)) &&
              decide (0 ≤ ty) && decide (ty < (x.get 2 : Int))
          match s.devRead (.engine q.owner) q.owner.ctx (px.map fun i => (src + 4 * (w * y.get 2) + 4 * i, 4)) with
          | (s, g) =>
            s.compGot die q g fun s ds =>
              let parts := (px.zipIdx.map fun (i, k) =>
                let at_ := x.get 17 + 4 * (ty.toNat * x.get 1 + (tx i).toNat)
                [(at_, (bs.drop (4 * i)).take 4), (at_ + 4 * (x.get 1 * x.get 2), (ds.drop (4 * k)).take 4)]).flatten
              match s.writeParts (.engine q.owner) q.owner.ctx parts with
              | (s, g) => s.compGot die q g fun s _ => s.setComp die { q with at_ := j + 1, stall := none }
  | _ =>
    if !s.layerMine q.owner.ctx t then s.endComp die q (some (layerErr t 1))
    else if !s.layerMine q.owner.ctx u then s.endComp die q (some (layerErr u 1))
    else s.mergeSteps die q t u

/-- Run the command at the head of a compositor's queue. -/
def State.compRun (s : State) (die : Nat) (q : CompReq) : State :=
  match q.op with
  | .compose off n r => s.composeRun die q off n r.toNat
  | .split p c x y w h => s.splitRun die q p c x y w h
  | .merge t u => s.mergeRun die q t u

/-- Run the head of a die's compositor where `mine` recognises it, it is not stalled, and its reads come after its thread's earlier
stores (R344). -/
def State.compositor (s : State) (die : Nat) (mine : CompOp → Bool) : State :=
  match (s.die die).comp with
  | q :: _ => if mine q.op && q.stall.isNone && !s.storesOut q.owner then s.compRun die q else s
  | [] => s

/-- COMPOSITE: one step: the layer updates, a frame row, or the end. -/
def execComposite (die : Nat) (s : State) : Out :=
  .next (s.compositor die fun o => match o with | .compose _ _ _ => true | _ => false)
/-- LAYSPLIT_COPY: one row, or the end. -/
def execLaysplitCopy (die : Nat) (s : State) : Out :=
  .next (s.compositor die fun o => match o with | .split _ _ _ _ _ _ => true | _ => false)
/-- LAYMERGE_FOLD: the table steps, one row, or the end. -/
def execLaymergeFold (die : Nat) (s : State) : Out :=
  .next (s.compositor die fun o => match o with | .merge _ _ => true | _ => false)

end Sys2Proof.Machine
end

