-- ==== Sys2Proof/Machine/Link.lean ====
section
/-! DEFINITION. Ports, endpoints and the transfers of Halyard (23_link R364-R379). -/

namespace Sys2Proof.Machine

open Sys2Proof

/-! ### Ports (R365) -/

/-- A port leaves UP: its unacknowledged packets are sent again on other paths. -/
def State.dropPort (s : State) (n : Nat) (p : Port) : State :=
  let s : State := { s with ports := tset .down s.ports n p }
  s.eps.foldl (fun (s : State) (k, _) =>
    let x := s.ep k
    let (s, pkts, c) := x.pkts.foldl (fun (acc : State × List OutPkt × Nat) p =>
      if p.port = some n ∧ p.reply = none then
        let (s, p) := acc.1.resend k p
        (s, acc.2.1 ++ [{ p with tries := p.tries + 1 }], acc.2.2 + 1)
      else (acc.1, acc.2.1 ++ [p], acc.2.2)) (s, [], 0)
    s.setEp k { x with pkts := pkts, retrans := x.retrans + c }) s

/-- TRAINING_SUCCEEDS: a DOWN port comes UP. -/
def execTrainingSucceeds (port : Nat) (s : State) : Out :=
  .next (if port < 12 ∧ s.port port = .down then { s with ports := tset .down s.ports port .up } else s)
/-- SIGNAL_LOST: an UP port goes DOWN. -/
def execSignalLost (port : Nat) (s : State) : Out :=
  .next (if port < 12 ∧ s.port port = .up then s.dropPort port .down else s)
/-- PORT_DISABLE. -/
def execPortDisable (port : Nat) (s : State) : Out :=
  .next (if 12 ≤ port then s
    else
      match s.port port with
      | .up => s.dropPort port .disabled
      | .down => { s with ports := tset .down s.ports port .disabled }
      | .disabled => s)
/-- PORT_ENABLE: a DISABLED port goes DOWN and trains. -/
def execPortEnable (port : Nat) (s : State) : Out :=
  .next (if port < 12 ∧ s.port port = .disabled then { s with ports := tset .down s.ports port .down } else s)

/-! ### Endpoints (R366, R367) -/

/-- Has the endpoint transfers not yet completed? -/
def State.epBusy (s : State) (e : Nat) : Bool := s.cores.any fun (_, c) => c.nq.any fun t => decide (t.ep = e)

/-- ENDPOINT_OPEN, MGMT 11: waits while the transfers of a close before it drain (entry 27). -/
def execEndpointOpen (q : Nat) (s : State) : Out :=
  .next (s.mgmt q 11 fun c =>
    let a := argA c
    let e := bits a 11 0
    let (v, s') := s.takeFree
    let ctx := bits a 19 12
    let cmds := decide (bits a 21 21 = 1)
    let y := s.queue (bits a 31 22)
    if (s.ep e).st ≠ .free ∨ (s.ctx ctx).st ≠ .live ∨ (cmds ∧ (y.st = .free ∨ y.devFed ∨ y.ctx ≠ ctx)) ∨ !s.ownAddr (argB c) 64 then none
    else
      let peer := s.memRead (argB c % 2 ^ 40) 64
      if peer / 2 ^ 192 ≠ 0 then none
      else if s.epBusy e then some s
      else
        let x : Endpoint := { window := v.toNat % 2 ^ 64, st := .opened, ctx := ctx, rod := decide (bits a 20 20 = 1), cmds := cmds,
                              queue := if cmds then bits a 31 22 else 0, security := bits a 47 32, peer := BitVec.ofNat 512 peer }
        some ((s'.setEp e x).cmdOk q 0))

/-- ENDPOINT_CLOSE, MGMT 12: FREE at once; the command is BLOCKED until the outstanding transfers have completed. -/
def execEndpointClose (q : Nat) (s : State) : Out :=
  .next (s.mgmt q 12 fun c =>
    let e := bits (argA c) 11 0
    let x := s.ep e
    match x.st with
    | .free => none
    | .failed => some (((s.forget (.packet e)).setEp e {}).cmdOk q 0)
    | .opened =>
      let s := s.forget (.packet e)
      let s := if s.epBusy e then s.setEp e { s.ep e with st := .free } else (s.failAsks x.pkts).setEp e {}
      some (if s.epBusy e then s.cmdBlock q (.close e) else s.cmdOk q 0))

/-! ### Transfers (R368-R371, R377) -/

/-- REMOTE with a network reason (R368). -/
def netErr (ep reason : Nat) : Err := { cause := 15, tval := BitVec.ofNat 64 (reason * 2 ^ 12 + ep * 2 ^ 16) }
/-- NETDESC (R368). -/
def netDesc (reason ep : Nat) : Err := { cause := 17, tval := BitVec.ofNat 64 (reason + ep * 256) }

/-- Bytes of a transfer. -/
def netLen (d : Nat) : Nat := bits d 287 256
def netLocal (d : Nat) : Loc := placeOf (bits d 71 0) (bits d 288 288 = 1)
def netEp (d : Nat) : Nat := bits d 499 488

/-- The checks of R368 in the order of its reasons. -/
def State.netCheck (s : State) (ctx : Nat) (op : HOp) (d : Nat) : Option Err :=
  let e := netEp d
  let x := s.ep e
  let isAmo := decide (op = .amo)
  let amo := bits d 307 304
  let zeros := bits d 511 500 + bits d 487 481 + bits d 319 308 + bits d 303 289 + bits d 255 200 + bits d 127 72 +
    (if (netLocal d).isLocal then bits d 71 31 else 0) + (if isAmo ∧ amo = 2 then 0 else bits d 447 384) +
    (if isAmo then 0 else bits d 383 320 + amo) + (if op = .send then bits d 199 128 else 0)
  let n := netLen d
  let lenOk := match op with
    | .put | .get => decide (1 ≤ n) && decide (n ≤ 2 ^ 24)
    | .amo => decide (n = 8) && decide ((netLocal d).base % 8 = 0) && decide (bits d 199 128 % 8 = 0)
    | .send => decide (n = 64)
  if zeros ≠ 0 ∨ (isAmo ∧ 2 < amo) ∨ (bits d 479 479 = 1 ∧ op ≠ .put) then some (netDesc 1 e)
  else if x.st = .free ∨ x.ctx ≠ ctx ∨ x.cmds ≠ decide (op = .send) then some (netDesc 2 e)
  else if !lenOk then some (netDesc 3 e)
  else if ((netLocal d).isLocal ∧ ((Config.localBytes : Int) < (netLocal d).base + n ∨ Config.cores ≤ (netLocal d).coreId)) ∨
      Config.cores ≤ bits d 478 468 ∨ Config.localBytes ≤ bits d 467 448 then some (netDesc 4 e)
  else if bits d 467 448 % 16 ≠ 0 then some (netDesc 5 e)
  else none

/-- Transfers of a core's network queue that have packets to send (R370). -/
def Core.netQueued (c : Core) : List NetReq := c.nq.filter fun q => decide (q.sent < netLen q.desc.toNat)
def State.netFull (s : State) : Bool := decide (16 ≤ (s.core s.curCore).netQueued.length)

/-- A transfer instruction: held while the queue is full, and until its reads observe the thread's earlier stores to other
cores (R374); at a FAILED endpoint it is numbered and completes at once. -/
def transfer (op : HOp) (a : SReg) (s : State) : State :=
  if s.netFull then s
  else
    s.withOps [a] none fun r =>
      match localCheck (r a) 64 64 Config.localBytes with
      | some e => s.trap e
      | none =>
        let core := s.curCore
        let o := (r a).toNat
        let d := s.lsRead core o 64
        let s := s.lsTouch core o 64 s.cur.ctx
        if s.lsPoisoned core o 64 then s.trap (eccLocal o)
        else
          match s.netCheck s.cur.ctx op d with
          | some e => s.trap e
          | none =>
            let own := s.owner s.iss.thr s.iss.b.pc
            let (s, n) := s.number 3
            let e := netEp d
            let s := if (s.ep e).st = .failed then
                (s.setEp e { s.ep e with err := 5 }).finishOp own 3 n 0 (some (netErr e 5))
              else
                let q : NetReq := { owner := own, num := n, op := op, ep := e, desc := BitVec.ofNat 512 d, order := s.dev.nextXfer }
                let s : State := { s with dev := { s.dev with nextXfer := s.dev.nextXfer + 1 } }
                s.setCore core { s.core core with nq := (s.core core).nq ++ [q] }
            s.retire [a]

/-- HPUT. -/
def execHput (a : SReg) (s : State) : Out := .next (transfer .put a s)
/-- HGET. -/
def execHget (a : SReg) (s : State) : Out := .next (transfer .get a s)
/-- HAMO. -/
def execHamo (a : SReg) (s : State) : Out := .next (transfer .amo a s)
/-- HSEND. -/
def execHsend (a : SReg) (s : State) : Out := .next (transfer .send a s)

/-- Put a transfer back, changed; it is known by its order. -/
def State.setXfer (s : State) (core : Nat) (q : NetReq) : State :=
  let c := s.core core
  s.setCore core { c with nq := c.nq.map fun t => if t.order = q.order then q else t }

/-- A transfer completes: it leaves the queue, and its packets are forgotten. -/
def State.endXfer (s : State) (core : Nat) (q : NetReq) (err : Option Err) : State :=
  let c := s.core core
  let s := s.setCore core { c with nq := c.nq.filter fun t => decide (t.order ≠ q.order) }
  let x := s.ep q.ep
  (s.setEp q.ep { x with pkts := x.pkts.filter fun p => decide (p.order ≠ q.order) }).finishOp q.owner 3 q.num 0 err

/-- A local access of a transfer: an error completes it, a soft fault stalls it (R370, R210). -/
def State.netGot (s : State) (core : Nat) (q : NetReq) (g : EGot) (k : State → List (BitVec 8) → State) : State :=
  match g with
  | .ok bs => k s bs
  | .err e => s.endXfer core q (some e)
  | .soft cause kind va =>
    match s.engFault q.owner 3 cause kind va q.stall with
    | (s, .ok st) => s.setXfer core { q with stall := some st }
    | (s, .error e) => s.endXfer core q (some e)
  | .wait => s

/-- The local places of what a read or an atomic returns, translated before it is asked for. -/
def State.netPlaces (s : State) (q : NetReq) (off n : Nat) : State × EGot :=
  match netLocal q.desc.toNat with
  | .dev va =>
    match s.devPlaces (.engine q.owner) q.owner.ctx none (pieces ((va + off) % 2 ^ 72) n) with
    | (s, g, _) => (s, match g with | .ok _ => .ok [] | g => g)
  | .loc _ _ => (s, .ok [])

/-- Bytes of the next packet of a transfer: at most 4,096, never across a 4 KiB boundary of the remote address. -/
def NetReq.packetLen (q : NetReq) : Nat :=
  let d := q.desc.toNat
  if q.op = .put ∨ q.op = .get then min (netLen d - q.sent) (4096 - (bits d 199 128 + q.sent) % 4096) else netLen d

/-- Send the next packet of a transfer. -/
def State.sendPacket (s : State) (core : Nat) (q : NetReq) : State :=
  let d := q.desc.toNat
  let remote := bits d 199 128 + q.sent
  let n := q.packetLen
  let (s, g) := if q.op = .put ∨ q.op = .send then s.locRead q.owner (netLocal d) q.sent n else s.netPlaces q q.sent n
  s.netGot core q g fun s bs =>
    let credit := if bits d 480 480 = 1 ∧ bits d 479 479 = 1 then some (bits d 478 468, bits d 467 448) else none
    let m : NetMsg := { op := q.op, remote := remote % 2 ^ 72, len := n, data := bs, amo := bits d 307 304,
                        operand := BitVec.ofNat 64 (bits d 383 320), compare := BitVec.ofNat 64 (bits d 447 384), credit := credit }
    let (s, p) := s.resend q.ep { order := q.order, off := q.sent, msg := m, port := none }
    let x := s.ep q.ep
    (s.setEp q.ep { x with pkts := x.pkts ++ [p] }).setXfer core { q with started := true, sent := q.sent + n, stall := none }

/-- Transfers of an endpoint that `f` picks, on every core. -/
def State.xfersOf (s : State) (e : Nat) (f : NetReq → Bool) : Nat :=
  (s.cores.map fun (_, c) => (c.nq.filter fun t => decide (t.ep = e) && f t).length).sum

/-- May a transfer send its next packet: every earlier one of its endpoint has started, under ROD has sent every packet;
fewer than 256 are outstanding when it starts; and the packet fits the congestion window, or nothing is in flight (R364,
R370, R372)? -/
def State.mayStart (s : State) (q : NetReq) : Bool :=
  let x := s.ep q.ep
  decide (s.xfersOf q.ep (fun t => decide (t.order < q.order) &&
    (!t.started || (x.rod && decide (t.sent < netLen t.desc.toNat)))) = 0) &&
  (q.started || decide (s.xfersOf q.ep (·.started) < 256)) &&
  (decide (x.inFlight = 0) || decide (x.inFlight + q.packetLen ≤ x.window))

/-- Does what a transfer reads come after a store of its thread that is still on its way (R370, 11_engines R212)? -/
def State.netBehind (s : State) (q : NetReq) : Bool := decide (q.op = .put ∨ q.op = .send) && s.storesOut q.owner

/-- TRANSFER_PACKET_SEND: the first transfer of the queue that can send does so; none passes a stalled one (R370,
R210). -/
def execTransferPacketSend (core : Nat) (s : State) : Out :=
  .next (match ((s.core core).nq.takeWhile fun q => q.stall.isNone).find? fun q =>
      decide (q.sent < netLen q.desc.toNat) && s.mayStart q && !s.netBehind q with
    | some q => s.sendPacket core q
    | none => s)

/-- A packet's bytes are acknowledged; with the last the transfer completes, its own credit performed (R371, R373). -/
def State.netAcked (s : State) (core : Nat) (q : NetReq) (n : Nat) : State :=
  let d := q.desc.toNat
  let q := { q with acked := q.acked + n, stall := none }
  let credit := fun (s : State) (n : Nat) (k : State → State) =>
    if bits d 480 480 = 1 ∧ bits d 479 479 = 0 then
      match s.credit q.owner.ctx (bits d 478 468) (bits d 467 448) (BitVec.ofNat 32 n) q.owner.grp with
      | (s, true) => k s
      | (s, false) => s.endXfer core q (some (remoteErr (bits d 478 468) 2))
    else k s
  let last := decide (netLen d ≤ q.acked)
  let go := fun (s : State) => if last then s.endXfer core q none else s.setXfer core q
  if q.op = .get then credit s n go
  else if last then credit s (netLen d) go
  else go s

/-- The answer a packet holds is placed; one that waits for another device is tried again as after a stall. -/
def State.netPlace (s : State) (core : Nat) (q : NetReq) (k : Nat) (p : OutPkt) (bs : List (BitVec 8)) : State :=
  match s.locWrite q.owner (netLocal q.desc.toNat) p.off bs with
  | (s, .wait) => s.setXfer core { q with stall := q.stall.or (some { retry := s.cycle, va := 2 ^ 72, cause := 0, kind := 0 }) }
  | (s, g) =>
    s.netGot core q g fun s _ =>
      let x := s.ep q.ep
      (s.setEp q.ep { x with pkts := x.pkts.eraseIdx k }).netAcked core q p.msg.len

/-- The core and the transfer a packet belongs to. -/
def State.xferOf (s : State) (p : OutPkt) : Option (Nat × NetReq) :=
  s.cores.findSome? fun (k, c) => (c.nq.find? fun t => decide (t.order = p.order)).map fun t => (k, t)

/-- The peer answers a packet that belongs to no transfer, `x` the endpoint without it: an access has its answer (R376). One
that does not hold the bytes asked for is none. -/
def State.accessAck (s : State) (ep : Nat) (x : Endpoint) (p : OutPkt) (r : Reply) : State :=
  let short := match r with
    | .done bs => decide (p.msg.op = HOp.get ∨ p.msg.op = HOp.amo) && decide (bs.length ≠ p.msg.len) && p.asker.isSome
    | _ => false
  if short then s
  else
    let x := match r with
      | .refused reason => { x with err := reason.toNat }
      | _ => x
    let s := s.setEp ep x
    match p.asker with
    | some w => if s.asks w then { s with dev := { s.dev with answers := s.dev.answers ++ [{ who := w, va := p.va, msg := p.msg, reply := r }] } } else s
    | none => s

/-- PACKET_ACK: the peer answers a packet (R371-R373, R376); under ROD in the order of issue. An answer sets the congestion
window anew; to what is open. A packet that no port has taken has no answer. DESIGN CHOICE (entry 27): a packet of a transfer that is answered absent is sent again, as one
answered "retry". -/
def execPacketAck (ep k : Nat) (r : Reply) (s : State) : Out :=
  .next (
    match (s.ep ep).pkts[k]? with
    | none => s
    | some p =>
      if p.reply ≠ none ∨ p.port = none ∨ ((s.ep ep).rod ∧ k ≠ 0 ∧ r ≠ .retry) then s
      else
        let (v, s') := s.takeFree
        let x := { s.ep ep with window := v.toNat % 2 ^ 64 }
        match r, s.xferOf p with
        | .retry, _ | .absent, some _ => s'.setEp ep { x with pkts := x.pkts.set k { p with backoff := true } }
        | r, none => s'.accessAck ep { x with pkts := x.pkts.eraseIdx k } p r
        | .refused reason, some (core, q) =>
          if q.stall ≠ none then s
          else (s'.setEp ep { x with err := reason.toNat }).endXfer core q (some (netErr ep reason.toNat))
        | .done data, some (core, q) =>
          if q.stall ≠ none then s
          else if q.op = .put ∨ q.op = .send then (s'.setEp ep { x with pkts := x.pkts.eraseIdx k }).netAcked core q p.msg.len
          else if data.length ≠ p.msg.len then s
          else (s'.setEp ep { x with pkts := x.pkts.set k { p with reply := some data } }).netPlace core q k p data)

/-- A stalled transfer tries again: an answer kept is placed, or the next packet sent. -/
def State.netRetry (s : State) (core : Nat) (q : NetReq) : State :=
  let x := s.ep q.ep
  match x.pkts.zipIdx.find? fun e => decide (e.1.order = q.order) && e.1.reply.isSome with
  | some (p, k) => s.netPlace core q k p (p.reply.getD [])
  | none => if s.mayStart q then s.sendPacket core q else s

/-- RETRANSMIT: a packet is sent again; one answered "retry" does not count (R367, R372). -/
def execRetransmit (ep k : Nat) (s : State) : Out :=
  .next (
    match (s.ep ep).pkts[k]? with
    | none => s
    | some p =>
      if p.reply ≠ none ∨ (64 ≤ p.tries ∧ !p.backoff) then s
      else
        let (s, p) := s.resend ep p
        let p := if p.backoff then { p with backoff := false } else { p with tries := p.tries + 1 }
        let x := s.ep ep
        s.setEp ep { x with pkts := x.pkts.set k p, retrans := x.retrans + 1 })

/-- RETRANSMIT_LIMIT: after 64 retransmissions the endpoint fails, and every transfer and access of it with it (R367, R376). -/
def execRetransmitLimit (ep k : Nat) (s : State) : Out :=
  .next (
    match (s.ep ep).pkts[k]? with
    | none => s
    | some p =>
      if p.tries < 64 ∨ p.backoff ∨ p.reply ≠ none then s
      else
        let x := s.ep ep
        let s := (s.failAsks x.pkts).setEp ep { x with st := if x.st = .opened then .failed else x.st, err := 5, pkts := [] }
        let all := (s.cores.map fun (k, c) => (c.nq.filter fun t => decide (t.ep = ep)).map fun t => (k, t)).flatten
        all.foldl (fun (s : State) (core, q) => s.endXfer core q (some (netErr ep 5))) s)

/-! ### Packets that arrive (R367, R372, R373, R375) -/

/-- An arriving packet: a negative acknowledgement unless the endpoint is OPEN; dropped and counted where its security
association does not authenticate it; dropped, and so sent again, where it is out of order under ROD; else handled by
`k`. -/
def State.packetIn (s : State) (ep : Nat) (p : Packet) (k : Endpoint → State) : State :=
  let x := s.ep ep
  if x.st ≠ .opened then s.say (.nack ep)
  else if x.security ≠ 0 ∧ !p.authentic then s.setEp ep { x with unauth := x.unauth + 1 }
  else if x.rod ∧ !p.duplicate ∧ p.seq ≠ x.arrived then s
  else k x

/-- A packet is answered for good: the next in the peer's order may follow (R372). -/
def State.final (s : State) (ep : Nat) (p : Packet) (m : OutMsg) : State :=
  let x := s.ep ep
  (if p.duplicate then s else s.setEp ep { x with arrived := x.arrived + 1 }).say m

/-- Handle a packet of a memory endpoint: the bytes it names lie in one 4 KiB page (R364). -/
def State.memPacket (s : State) (ep : Nat) (p : Packet) (n : Nat) (k : Endpoint → State) : State :=
  s.packetIn ep p fun x =>
    if x.cmds ∨ n = 0 ∨ 4096 < p.va.toNat % 4096 + n then s.final ep p (.packet ep (.refused 6)) else k x

/-- What an access for a packet finds: a hard fault refuses it, a soft one writes a record and answers retry (R372,
12_page R234); the record's pc and thread are open. -/
def State.packetGot (s : State) (ep ctx : Nat) (p : Packet) (g : EGot) (k : State → List (BitVec 8) → State) : State :=
  match g with
  | .ok bs => k s bs
  | .err _ => s.final ep p (.packet ep (.refused 6))
  | .soft cause kind va =>
    match s.faultRing ctx with
    | none => s.final ep p (.packet ep (.refused 6))
    | some _ =>
      let (v, s) := s.takeFree
      (s.faultEmit 0 { ctx := ctx, data := faultRecord (v.setWidth 64) (v.toNat / 2 ^ 64 % 16384) ctx 3 s.timens kind cause va }).say
        (.packet ep .retry)
  | .wait => s

/-- The credit a placement of `n` bytes makes, then the answer. -/
def State.packetDone (s : State) (ep ctx : Nat) (p : Packet) (n : Nat) (data : List (BitVec 8)) : State :=
  match p.credit with
  | none => s.final ep p (.packet ep (.done data))
  | some (core, off) =>
    if Config.cores ≤ core ∨ off % 16 ≠ 0 ∨ Config.localBytes < off + 16 then s.final ep p (.packet ep (.refused 7))
    else
      match s.credit ctx core off (BitVec.ofNat 32 n) with
      | (s, true) => s.final ep p (.packet ep (.done data))
      | (s, false) => s.final ep p (.packet ep (.refused 7))

/-- Does the node table name the endpoint, an ROD one of VF 0? Its packets are accesses of another device to physical
addresses (R376). -/
def State.ofDomain (s : State) (ep : Nat) (x : Endpoint) : Bool :=
  x.rod && decide ((s.ctx x.ctx).vf = 0) && s.dev.nodes.any fun e => decide (e.2 = ep)

/-- Such an access: answered absent where its page is not exported, else made by `k` at the local address. -/
def State.domainPacket (s : State) (ep : Nat) (p : Packet) (n : Nat) (k : Nat → State) : State :=
  let pa := p.va.toNat % 2 ^ 40
  if s.ownAddr p.va.toNat n ∧ pa / 4096 ∈ s.dev.exports then k pa else s.final ep p (.absent ep)

/-- PACKET_WRITE: placed; a duplicate is acknowledged and not placed again. -/
def execPacketWrite (ep : Nat) (p : Packet) (s : State) : Out :=
  .next (s.memPacket ep p p.data.length fun x =>
    if p.duplicate then s.say (.packet ep (.done []))
    else if s.ofDomain ep x then
      s.domainPacket ep p p.data.length fun pa => (s.memWrite none pa p.data).final ep p (.packet ep (.done []))
    else
      match s.devWrite (.packet ep) x.ctx p.va.toNat p.data with
      | (s, g) => s.packetGot ep x.ctx p g fun s _ => s.packetDone ep x.ctx p p.data.length [])

/-- PACKET_READ: the bytes, as plain loads. -/
def execPacketRead (ep : Nat) (p : Packet) (s : State) : Out :=
  .next (s.memPacket ep p p.len fun x =>
    if s.ofDomain ep x then
      s.domainPacket ep p p.len fun pa =>
        s.final ep p (.packet ep (if s.memPoisoned pa p.len then .refused 6 else .done (s.memGet pa p.len)))
    else
    match s.devRead (.packet ep) x.ctx (pieces p.va.toNat p.len) with
    | (s, g) => s.packetGot ep x.ctx p g fun s bs => s.final ep p (.packet ep (.done bs)))

/-- The new dword of an atomic: add, swap, compare-and-swap (R377). -/
def amoNew (amo : Nat) (old operand compare : W64) : W64 :=
  if amo = 0 then old + operand else if amo = 1 then operand else if old = compare then operand else old

/-- PACKET_ATOMIC: at DOMAIN scope; what a duplicate is answered is open. -/
def execPacketAtomic (ep : Nat) (p : Packet) (s : State) : Out :=
  .next (s.memPacket ep p 8 fun x =>
    let no := fun (s : State) => s.final ep p (.packet ep (.refused 6))
    if p.va.toNat % 8 ≠ 0 ∨ 2 < p.amo.toNat then no s
    else if p.duplicate then
      let (v, s) := s.takeFree
      s.say (.packet ep (.done (toBytes 8 (v.toNat % 2 ^ 64))))
    else if s.ofDomain ep x then
      s.domainPacket ep p 8 fun pa =>
        if s.memPoisoned pa 8 then no s
        else
          let old := BitVec.ofNat 64 (s.memRead pa 8)
          (s.memPut pa 8 (amoNew p.amo.toNat old p.operand p.compare).toNat).final ep p (.packet ep (.done (toBytes 8 old.toNat)))
    else
      match s.xlateDev x.ctx .atomic p.va.toNat with
      | (s, .ok node pa _) =>
        if node ≠ s.dev.node then
          match s.remoteAccess (.packet ep) .amo node pa p.va.toNat 8
              (r := { amo := p.amo.toNat, operand := p.operand, compare := p.compare }) with
          | (s, g) => s.packetGot ep x.ctx p (g.engine p.va.toNat 3) fun s bs => s.packetDone ep x.ctx p 8 bs
        else if s.memPoisoned pa 8 then no s
        else
          let old := BitVec.ofNat 64 (s.memRead pa 8)
          (s.memPut pa 8 (amoNew p.amo.toNat old p.operand p.compare).toNat).packetDone ep x.ctx p 8 (toBytes 8 old.toNat)
      | (s, t) => s.packetGot ep x.ctx p (t.engine p.va.toNat 3) fun s _ => s)

/-- PACKET_SEND: a command for the queue of a kind 1 endpoint; a refusal is a negative acknowledgement (R375). -/
def execPacketSend (ep : Nat) (p : Packet) (s : State) : Out :=
  .next (s.packetIn ep p fun x =>
    if !x.cmds ∨ p.data.length ≠ 64 then s.final ep p (.nack ep)
    else if p.duplicate then s.say (.packet ep (.done []))
    else
      match s.commandIn x.queue (BitVec.ofNat 512 (ofBytes p.data)) with
      | (s, true) => s.final ep p (.packet ep (.done []))
      | (s, false) => s.say (.nack ep))

/-! ### CCRD, EPSTAT (R378, R379) -/

/-- CCRD: round-trip time, ECN fraction and entropy values are open within their ranges. -/
def execCcrd (d a b : SReg) (s : State) : Out :=
  .next (s.withOps [a, b] (some d) (late := true) fun r =>
    let e := bits (r a).toNat 11 0
    let k := bits (r b).toNat 2 0
    let x := s.ep e
    if x.st = .free ∨ x.ctx ≠ s.cur.ctx then s.trap (netDesc 2 e)
    else if 5 < k then s.trap (netDesc 6 e)
    else
      let (f, s) := s.takeFree
      let n := f.toNat % 2 ^ 64
      let v := if k = 0 then x.window
        else if k = 2 then n % 65536
        else if k = 3 then x.inFlight
        else if k = 4 then x.retrans
        else if k = 5 then 1 + n % 64
        else n
      s.commit [a, b] [.s d] [(.s d, BitVec.ofNat 512 (v % 2 ^ 64))] (.ready s.cycle))

def EpState.code : EpState → Nat
  | .free => 0 | .opened => 1 | .failed => 2

/-- EPSTAT: 0 for a FREE endpoint or one of another context. -/
def execEpstat (d a : SReg) (s : State) : Out :=
  .next (s.withOps [a] (some d) (late := true) fun r =>
    let e := bits (r a).toNat 11 0
    let x := s.ep e
    let n := min 256 (s.xfersOf e fun _ => true)
    let v := if x.st = .free ∨ x.ctx ≠ s.cur.ctx then 0
      else x.st.code + (if x.rod then 16 else 0) + (if x.cmds then 32 else 0) + x.err * 2 ^ 12 + n * 2 ^ 16 + x.ctx * 2 ^ 32
    s.commit [a] [.s d] [(.s d, BitVec.ofNat 512 v)] (.ready s.cycle))

end Sys2Proof.Machine
end

