-- ==== Sys2Proof/Machine/Sfu.lean ====
section
/-! DEFINITION. The special-function unit: values enclosed on a grid of 2^-800, finer than any of these functions can
come to a rounding boundary of FP32, and the queue of each core (06_vector R122, R123). -/

namespace Sys2Proof.Machine

open Sys2Proof

/-! ### Fixed-point constants and series, scaled by 2^800 -/

def fxBits : Nat := 800
def fxOne : Nat := 2 ^ fxBits

/-- Σ z^(2k+1) / (2k+1) with z = p / 2^800; `sq` is z². -/
def oddSeries (sq : Nat) (alternate : Bool) : Nat → Nat → Nat → Int
  | 0, _, _ => 0
  | n + 1, k, p =>
    let term : Int := (p / (2 * k + 1) : Nat)
    let rest := oddSeries sq alternate n (k + 1) (p * sq / fxOne)
    if alternate then term - rest else term + rest

/-- artanh z for z up to 1/3, and arctan z for z up to 1/5. -/
def fxArtanh (z : Nat) : Nat := (oddSeries (z * z / fxOne) false 260 0 z).toNat
def fxArctan (z : Nat) : Int := oddSeries (z * z / fxOne) true 260 0 z

def fxLn2 : Nat := 2 * fxArtanh (fxOne / 3)
/-- π by Machin's formula. -/
def fxPi : Nat := (16 * fxArctan (fxOne / 5) - 4 * fxArctan (fxOne / 239)).toNat

/-- Σ y^k / k! from k on, with `p` = y^k / k!. -/
def expSeries (y : Nat) : Nat → Nat → Nat → Nat
  | 0, _, _ => 0
  | n + 1, k, p => p + expSeries y n (k + 1) (p * y / fxOne / (k + 1))

/-- 2^f for f in [0, 1]. -/
def fxExp2 (f : Nat) : Nat := let y := f * fxLn2 / fxOne; expSeries y 160 0 fxOne

/-- Σ ± θ^k / k! over every second k, with `p` = θ^k / k!. -/
def trigSeries (th : Nat) : Nat → Nat → Nat → Int
  | 0, _, _ => 0
  | n + 1, k, p =>
    (p : Int) - trigSeries th n (k + 2) (p * th / fxOne / (k + 1) * th / fxOne / (k + 2))

def fxSin (th : Nat) : Int := trigSeries th 200 1 th
def fxCos (th : Nat) : Int := trigSeries th 200 0 fxOne

/-- A value known to far less than 2^64 units of the grid, cut to a multiple of 2^64 units (entry 16). -/
def fxVal (x : Int) (scale : Int := 0) : Val :=
  .fin (decide (x < 0)) (x.natAbs / 2 ^ 64) (scale + 64 - fxBits) true

/-! ### Roots -/

/-- The integer square root, one bit at a time from bit `n` down. -/
def isqrt (x : Nat) : Nat → Nat → Nat
  | 0, r => r
  | n + 1, r =>
    let c := r + 2 ^ n
    isqrt x n (if c * c ≤ x then c else r)

/-- √(m 2^e). -/
def rootVal (m : Nat) (e : Int) : Val :=
  let odd := decide (e % 2 = 1)
  let x := (if odd then 2 * m else m) * 2 ^ 80
  let r := isqrt x 64 0
  .fin false r ((if odd then e - 1 else e) / 2 - 40) (decide (r * r ≠ x))

/-- 1 / √(m 2^e). -/
def rsqVal (m : Nat) (e : Int) : Val :=
  let odd := decide (e % 2 = 1)
  let n := if odd then 2 * m else m
  let r := isqrt (2 ^ 128 / n) 65 0
  .fin false r (-((if odd then e - 1 else e) / 2) - 64) (decide (r * r * n ≠ 2 ^ 128))

/-! ### The functions (R122) -/

/-- x on the grid; exact, since an FP32 number is a multiple of 2^-149. -/
def fxOf (m : Nat) (e : Int) : Nat := m * 2 ^ (e + fxBits).toNat

def rcpOf : Val → Flagged Val
  | .nan => (.nan, 0)
  | .inf s => (.fin s 0 0, 0)
  | .fin s m e _ =>
    if m = 0 then (.inf s, flDivide) else (.fin s (2 ^ 64 / m) (-e - 64) (decide (2 ^ 64 % m ≠ 0)), 0)

def sqrtOf : Val → Flagged Val
  | .nan => (.nan, 0)
  | .inf s => if s then (.nan, flInvalid) else (.inf false, 0)
  | .fin s m e _ => if m = 0 then (.fin s 0 0, 0) else if s then (.nan, flInvalid) else (rootVal m e, 0)

def rsqOf : Val → Flagged Val
  | .nan => (.nan, 0)
  | .inf s => if s then (.nan, flInvalid) else (.fin false 0 0, 0)
  | .fin s m e _ => if m = 0 then (.inf s, flDivide) else if s then (.nan, flInvalid) else (rsqVal m e, 0)

def exp2Of : Val → Flagged Val
  | .nan => (.nan, 0)
  | .inf s => if s then (.fin false 0 0, 0) else (.inf false, 0)
  | .fin s m e _ =>
    if m = 0 then (.fin false 1 0, 0)
    else if 9 ≤ leadExp m e then (if s then (.fin false 1 (-400) true, 0) else (.fin false 1 400, 0))
    else
      let x : Int := if s then -(fxOf m e : Int) else fxOf m e
      let n := x / (fxOne : Int)
      let f := (x % (fxOne : Int)).toNat
      if f = 0 then (.fin false 1 n, 0) else (fxVal (fxExp2 f) n, 0)

def log2Of : Val → Flagged Val
  | .nan => (.nan, 0)
  | .inf s => if s then (.nan, flInvalid) else (.inf false, 0)
  | .fin s m e _ =>
    if m = 0 then (.inf true, flDivide)
    else if s then (.nan, flInvalid)
    else
      let n := leadExp m e
      let t := m * 2 ^ (fxBits - Nat.log2 m)
      if t = fxOne then (Val.ofInt n, 0)
      else
        let z := (t - fxOne) * fxOne / (t + fxOne)
        (fxVal (n * fxOne + (2 * fxArtanh z * fxOne / fxLn2 : Nat)), 0)

/-- The angle of |x| turns, between 0 and 2π, with the turns on the grid. -/
def turns (m : Nat) (e : Int) : Nat := fxOf m e % fxOne
def angle (u : Nat) : Nat := 2 * fxPi * u / fxOne

def sinOf : Val → Flagged Val
  | .nan => (.nan, 0)
  | .inf _ => (.nan, flInvalid)
  | .fin s m e _ =>
    let u := turns m e
    let v := if 4 * u = fxOne then Val.fin false 1 0
      else if 4 * u = 3 * fxOne then Val.fin true 1 0
      else fxVal (fxSin (angle u))
    if m = 0 then (.fin s 0 0, 0)
    else if u = 0 ∨ 2 * u = fxOne then (.fin false 0 0, 0)
    else (if s then v.neg else v, 0)

def cosOf : Val → Flagged Val
  | .nan => (.nan, 0)
  | .inf _ => (.nan, flInvalid)
  | .fin _ m e _ =>
    let u := turns m e
    if u = 0 then (.fin false 1 0, 0)
    else if 2 * u = fxOne then (.fin true 1 0, 0)
    else if 4 * u = fxOne ∨ 4 * u = 3 * fxOne then (.fin false 0 0, 0)
    else (fxVal (fxCos (angle u)), 0)

/-- tanh x = (1 − q) / (1 + q) with q = 2^(−2x / ln 2). -/
def tanhOf : Val → Flagged Val
  | .nan => (.nan, 0)
  | .inf s => (.fin s 1 0, 0)
  | .fin s m e _ =>
    if m = 0 then (.fin s 0 0, 0)
    else if 5 ≤ leadExp m e then (.fin s (2 ^ 40 - 1) (-40) true, 0)
    else
      let w := 2 * fxOf m e * fxOne / fxLn2
      let q := fxExp2 (fxOne - w % fxOne) / 2 ^ (w / fxOne + 1)
      let v := fxVal ((fxOne - q) * fxOne / (fxOne + q) : Nat)
      (if s then v.neg else v, 0)

/-- A function value, rounded once to FP32. -/
def sfuLane (f : Val → Flagged Val) (x : Nat) : Flagged Nat :=
  let (v, e) := f (val32 (BitVec.ofNat 32 x))
  let (c, e') := encodeVal fp32 v
  (c, e ||| e')

/-! ### The queue (R123) -/

/-- May the unit accept a bundle now: at most 8, one every 4 cycles? -/
def Core.sfuReady (c : Core) (cycle : Nat) : Bool :=
  decide (c.sfu.length < 8) && c.sfu.all fun e => decide (e.at_ ≤ cycle + 24)

/-- A special function: held while the queue takes nothing, else accepted, complete 28 cycles later. -/
def special (f : Val → Flagged Val) (d a : VReg) (m : MReg) (s : State) : State :=
  let c := s.core s.curCore
  if c.sfuReady s.cycle then
    let th := s.cur
    let mask := th.readM m
    let res := fun i => sfuLane f (laneOf 32 (th.readV a) i)
    let v := mergeLanes 32 mask (th.readV d) fun i => (res i).1
    let fl := ((List.range 16).filter fun i => mask.getLsbD i).foldl (fun e i => e ||| (res i).2) 0
    let e : SfuEnt := { owner := s.owner s.iss.thr s.iss.b.pc, at_ := s.cycle + 28, flags := fl }
    (s.setCore s.curCore { c with sfu := c.sfu ++ [e] }).commit [] [.v d] [(.v d, v)] .sfu
  else s

/-- VRCP. -/
def execVrcp (d a : VReg) (m : MReg) (s : State) : Out := .next (special rcpOf d a m s)
/-- VRSQ. -/
def execVrsq (d a : VReg) (m : MReg) (s : State) : Out := .next (special rsqOf d a m s)
/-- VEXP2. -/
def execVexp2 (d a : VReg) (m : MReg) (s : State) : Out := .next (special exp2Of d a m s)
/-- VLOG2. -/
def execVlog2 (d a : VReg) (m : MReg) (s : State) : Out := .next (special log2Of d a m s)
/-- VSIN. -/
def execVsin (d a : VReg) (m : MReg) (s : State) : Out := .next (special sinOf d a m s)
/-- VCOS. -/
def execVcos (d a : VReg) (m : MReg) (s : State) : Out := .next (special cosOf d a m s)
/-- VSQRT. -/
def execVsqrt (d a : VReg) (m : MReg) (s : State) : Out := .next (special sqrtOf d a m s)
/-- VTANH. -/
def execVtanh (d a : VReg) (m : MReg) (s : State) : Out := .next (special tanhOf d a m s)

/-- The thread's oldest special-function bundle is done, its result dependent on loads up to a moment: v_d is written,
its flags gathered. -/
def Thread.sfuDone (th : Thread) (m flags : Nat) : Thread :=
  match th.pend.findIdx? fun p => decide (p.due = .sfu) with
  | some k =>
    match th.pend[k]? with
    | some p =>
      let th := th.writeLate m p.vals
      (addFlags { th with pend := dropAt th.pend k } flags).sysDepend 0x011 m
    | none => th
  | none => th

/-- SFU_COMPLETE: the oldest bundle of the unit, 28 cycles after its acceptance. -/
def execSfuComplete (core : Nat) (s : State) : Out :=
  .next (let c := s.core core
    match c.sfu with
    | [] => s
    | e :: rest =>
      if s.cycle < e.at_ then s
      else ((s.setCore core { c with sfu := rest }).modOwner e.owner fun th => th.sfuDone s.moment e.flags).1)

end Sys2Proof.Machine
end

