-- ==== Sys2Proof/Machine/Device.lean ====
section
/-! DEFINITION. Reset, boot, power, soft errors, fencing and the retries of stalled engines (24_device R380-R393,
11_engines R210). -/

namespace Sys2Proof.Machine

open Sys2Proof

/-! ### Reset and boot (R380-R382) -/

/-- DEVICE_RESET; the model's own count of free values goes on. -/
def execDeviceReset (s : State) : Out := .next { State.reset with free := s.free }

/-- Put in a cluster's table the spare for a defective core; a defective spare is gone (01_machine R14). DESIGN CHOICE
(entry 39): of two defective cores of a cluster the first listed gets the spare, and the second stays mapped and in use. -/
def Cluster.withDefect (c : Cluster) (p : Nat) : Cluster :=
  if c.spare = some p then { c with spare := none }
  else
    match c.spare with
    | some sp => if c.phys.contains p then { c with phys := c.phys.map fun x => if x = p then sp else x, spare := none } else c
    | none => c

/-- The structures the firmware places, each with its bytes and its alignment; the boot record comes first (R382). -/
def bootStructures (c : BootCfg) : List (Nat × Nat × Nat) :=
  [(0, 4096, 1), (c.ctxTable, 65536, 256), (c.queueTable, 65536, 64), (c.cring, 16384, 4096), (c.ering, 8256, 4096),
   (c.formatImage, 65536, 65536), (c.multicast, 16384, 16384), (c.table4, 32768, 32768), (c.table3, 32768, 32768),
   (c.table2, 32768, 32768)]

/-- Do they lie in the device's memory below the first address free for software, aligned as their users need, and no two
of them at one place (R382)? -/
def bootFits (c : BootCfg) : Bool :=
  decide (c.freeBase ≤ Config.memBytes) &&
  ((bootStructures c).all fun (a, n, z) => decide (a % z = 0) && decide (a + n ≤ c.freeBase)) &&
  (List.range (bootStructures c).length).all fun i => (List.range i).all fun j =>
    match (bootStructures c)[i]?, (bootStructures c)[j]? with
    | some (a, n, _), some (b, m, _) => decide (a + n ≤ b) || decide (b + m ≤ a)
    | _, _ => true

/-- BOOT: node and fuses; memory zeroed; context 0, queue 0 and endpoint 0 made; the boot record and the page tables
written; the ports enabled. Nothing once the device has booted. -/
def execBoot (c : BootCfg) (s : State) : Out :=
  if s.dev.ctxBase.isSome then .next s
  else if !bootFits c then .fault .bootOutsideMemory
  else
    let node := c.node.toNat
    let full := fun (a : Nat) => node * 2 ^ 40 + a
    let s := c.defects.foldl (fun (s : State) e => s.setClu e.1 ((s.clu e.1).withDefect e.2)) s
    let s : State := { s with
      mem := [], poison := []
      dev := { s.dev with node := node, ctxBase := some c.ctxTable, qBase := some c.queueTable,
                          nodes := c.nodes.foldl (fun m e => tput m e.1 e.2) [], exports := c.exports }
      ports := s.ports.filter fun e => decide (e.2 ≠ Port.disabled) }
    let tablePte := fun (a : Nat) => 1 + node * 2 ^ 10 + a / 4096 * 2 ^ 22
    let leaf := fun (k : Nat) => 1 + 2 + 4 + 8 + 16 + 32 + node * 2 ^ 10 + k * 2 ^ 46
    let s := s.memPut c.table4 8 (tablePte c.table3)
    let s := s.memPut c.table3 8 (tablePte c.table2)
    let s := (List.range 6).foldl (fun (s : State) k => s.memPut (c.table2 + 8 * k) 8 (leaf k)) s
    let s := s.setCtx 0 { st := .live, sysok := true, ptroot := BitVec.ofNat 64 (full c.table4), pool := full 0,
                          multicast := full c.multicast, image := full c.formatImage }
    let s := s.setQueue 0 { st := .running, csize := 4, esize := 4, cring := full c.cring, ering := full c.ering, n := 1 }
    let s := s.setEp 0 { st := .opened, cmds := true, peer := c.peer, security := c.security.toNat }
    let record := [1, node, full c.ctxTable, full c.queueTable, full c.cring, full c.ering, c.freeBase]
    .next ((record.zipIdx).foldl (fun (s : State) e => s.memPut (8 * e.2) 8 e.1) s)

/-! ### Power (R383; 00_scope R2) -/

/-- POWER_LIMIT_SET: within 1,200 to 2,400 W. -/
def execPowerLimitSet (watts : Nat) (s : State) : Out :=
  .next (if 1200 ≤ watts ∧ watts ≤ 2400 then { s with dev := { s.dev with power := watts } } else s)

/-- REEF_GRANT: at most 7 of every 8 tile steps of a die are idled. -/
def execReefGrant (die idle : Nat) (s : State) : Out :=
  .next (if idle ≤ 7 ∧ die < 4 then s.setDie die { s.die die with idle := idle } else s)

/-! ### Soft errors (R385-R388) -/

/-- Lasting uncorrectable data of a core's array is poisoned. A register, or an entry of the matrix queue or the spill ring,
traps the thread that owns it at its next bundle; anything else is reported when it is consumed (R386). -/
def State.spoil (s : State) (core array key : Nat) : State :=
  if array = 5 then
    let t := core * 8 + key / 128 % 8
    if (s.thread t).st = .free then s else s.setThread t { s.thread t with poison := some 5 }
  else if array = 6 ∨ array = 7 then
    match (s.core core).mq.find? fun e => if array = 6 then !e.sent else decide (e.key = key) with
    | some e => (s.modOwner e.owner fun th => { th with poison := some array }).1
    | none => s
  else s.setCore core ((s.core core).spoil array key)

/-- The owner of an entry of an engine's queue; of a value in a chain queue, the thread that is to pop it. -/
def State.queueOwner (s : State) (q : HitQueue) (n k : Nat) : Option Owner :=
  match q with
  | .copy => ((s.core n).cq[k]?).map (·.owner)
  | .transfer => ((s.core n).nq[k]?).map (·.owner)
  | .spawn => ((s.core n).spawnQ[k]?).map (·.owner)
  | .transform => ((s.clu n).txq[k]?).map (·.owner)
  | .compositor => ((s.die n).comp[k]?).map (·.owner)
  | .special => ((s.core n).sfu[k]?).map (·.owner)
  | .chain =>
    match s.links[n]? with
    | some l => if l.saved ∨ l.vals.length ≤ k ∨ (s.thread l.dst).st = .free then none else some (s.owner l.dst 0)
    | none => none

/-- SOFT_ERROR: a read finds an error in memory, in a core's array, in a cluster's TLB or in the tag table (R385); the log
of a core's array takes it (R387), and lasting uncorrectable data is poisoned. R387 gives the queues of the engines no
number: the array that the owner's ECC names is a free value. -/
def execSoftError (h : Hit) (s : State) : Out :=
  .next (match h with
    | .memory pa corrected clean =>
      let d := pa / 8 * 8
      if corrected ∨ clean ∨ s.poison.contains d then s else { s with poison := s.poison ++ [d] }
    | .array core array key syndrome ctx corrected clean =>
      let k := array.toNat
      if 8 < k then s
      else
        let s := s.arrayError core k (Config.rowOf k key) syndrome ctx corrected clean
        if corrected ∨ clean then s else s.spoil core k key
    | .second clu k corrected clean =>
      match (s.clu clu).tlb[k]?, corrected || clean with
      | some t, false => s.setClu clu { s.clu clu with bad := (s.clu clu).bad ++ [t.key] }
      | _, _ => s
    | .tag k corrected clean =>
      match s.tags[k]?, corrected || clean with
      | some e, false => { s with tags := s.tags.set k { e with bad := true } }
      | _, _ => s
    | .queue q n k corrected clean =>
      match s.queueOwner q n k, corrected || clean with
      | some o, false =>
        let (v, s) := s.takeFree
        (s.modOwner o fun th => { th with poison := some (v.toNat % 256) }).1
      | _, _ => s
    | .map core k d corrected clean =>
      let c := s.core core
      match c.lod.lines[k]?, corrected || clean with
      | some l, false => s.setCore core { c with lod := { c.lod with lines := c.lod.lines.set k { l with bad := l.bad ++ [d] } } }
      | _, _ => s)

/-! ### Fencing (R389-R393) -/

/-- A task that a fence ends marks its kernel faulted: REMOTE and the core id (R390). -/
def State.fenceEnd (s : State) (t core : Nat) : State :=
  let th := s.thread t
  let s := s.endThread t
  match th.grp with
  | some (ser, _) => if slotOf t = 7 then s else s.markFault ser 15 (BitVec.ofNat 64 core)
  | none => s

/-- A restartable task starts again, from its start PC with its arguments (03_thread R53). -/
def State.fenceRestart (s : State) (t : Nat) : State :=
  let th := s.thread t
  let s := (s.endLinks t).startThread t th.startPc th.startArgs th.ctx th.vf
  s.setThread t { s.thread t with tstate := if th.startSys then 4 else 0, startSys := th.startSys }

/-- Does the kernel of a thread's group restart its tasks? -/
def State.restarts (s : State) (t : Nat) : Bool :=
  match (s.thread t).grp with
  | some (ser, _) => decide (slotOf t ≠ 7) && (s.kernel ser).restart
  | none => false

/-- Has the result of an outstanding bundle of a thread come, nothing delaying it? -/
def State.comes (s : State) (t : Nat) (p : Pend) : Bool :=
  (match p.due with
   | .ready _ => p.err.isNone
   | _ => false) &&
    !((p.vals.any fun e => decide (e.1 = Reg.s 31)) && (decide ((s.thread t).remOut ≠ []) || s.stuckPush t p))

/-- What a group has accepted on its cores and can complete at once is completed before it is saved: its special functions,
and the results that have come (16_group R295, 06_vector R123, 14_lod R258). -/
def State.completeNow (s : State) (ser g : Nat) (grp : Group) : State :=
  let mine := fun (e : SfuEnt) => decide (e.owner.grp = some (ser, g))
  let s := grp.cores.foldl (fun (s : State) core =>
    let c := s.core core
    (c.sfu.filter mine).foldl (fun (s : State) e => (s.modOwner e.owner fun th => th.sfuDone s.moment e.flags).1)
      (s.setCore core { c with sfu := c.sfu.filter fun e => !mine e })) s
  grp.threads.foldl (fun (s : State) t =>
    (List.range (s.thread t).pend.length).foldl (fun (s : State) _ =>
      match (s.thread t).pend.findIdx? (s.comes t) with
      | some k =>
        match (s.thread t).pend[k]? with
        | some p => s.deliver t k p
        | none => s
      | none => s) s) s

/-- Group pre-emption comes before a fence of the cycle (R390, 25_ordering R397): a choice that is due is made, and the
groups of the core that are chosen are saved, what they can complete at once completed. DESIGN CHOICE (entry 28): what waits
for another unit or for a reply is still to come. -/
def State.savedFirst (s : State) (core : Nat) : State :=
  let s := s.preempt (core / 384)
  (s.groups.filter fun (_, g) => g.homes core).foldl (fun s (key, _) =>
    let ser := key / 33554432
    let i := key % 33554432
    match s.group? ser i with
    | none => s
    | some g =>
      match s.toBeSaved ser i g, s.areaFor ser i g with
      | true, some area => (s.completeNow ser i g).saveGroup ser i g area
      | _, _ => s) s

/-- Shroud fences a core: remapped to the spare, or for good (R389-R391). Nothing issues there in the cycle any more: the fence
comes last in it (25_ordering R397). -/
def State.fence (s : State) (core : Nat) : State :=
  if (s.core core).fenced then s
  else
    let s := s.savedFirst core
    let old := s.core core
    let clu := core / 8
    let c := s.clu clu
    let ts := ((List.range 8).map fun k => core * 8 + k).filter fun t => decide ((s.thread t).st ≠ .free)
    let s := ts.foldl (fun (s : State) t => s.leave t false) s
    let s := s.adWriteAll (old.itlb ++ old.dtlb)
    let kept : Core := { cq := old.cq, nq := old.nq, lod := { recs := old.lod.recs }, issued := some s.cycle, slotIssue := old.slotIssue }
    match c.spare with
    | some sp =>
      let s := s.setClu clu { c with phys := c.phys.set (core % 8) sp, spare := none }
      let s := s.setCore core { kept with spawnQ := old.spawnQ, throttle := old.throttle }
      let s : State := { s with net := s.net.map fun m => if m.tgt = core then { m with held := true } else m }
      ts.foldl (fun (s : State) t => if s.restarts t then s.fenceRestart t else s.fenceEnd t core) s
    | none =>
      let s := s.setCore core { kept with fenced := true }
      let s := ts.foldl (fun (s : State) t => s.fenceEnd t core) s
      let s := ((List.range 7).map fun k => core * 8 + k).foldl State.endLinks s
      let s : State := { s with
        net := s.net.map fun m => if m.tgt = core then { m with held := false } else m
        thr := s.thr.filter fun e => decide (coreOf e.1 ≠ core)
        groups := s.groups.map fun (key, g) =>
          if g.st = .placed ∧ g.clu = clu then
            (key, { g with slots := g.slots.zipIdx.map fun (l, i) => if g.first + i = core % 8 then [] else l })
          else (key, g) }
      (s.groups.filter fun (_, g) => decide (g.st = .saved) && g.homes core).foldl
        (fun (s : State) e => s.loseSaved core (e.1 / 33554432) (e.1 % 33554432) e.2) s

/-- WATCHDOG_EXPIRE: 2^24 cycles with a RUNNABLE slot and no retirement. -/
def execWatchdogExpire (core : Nat) (s : State) : Out :=
  .next (if core < Config.cores ∧ 2 ^ 24 ≤ (s.core core).watch then
      let s := s.setCore core { s.core core with watch := 0 }
      s.fence core
    else s)

/-- SHROUD: a thread of VF 0 fences a core (R393): as the cycle ends, after the issue, the pings and the pre-emption of the
named core's threads in it (25_ordering R397). -/
def execShroud (a : SReg) (s : State) : Out :=
  .next (s.system (
    if s.cur.vf ≠ 0 then s.trap (privErr 3)
    else
      s.withOps [a] none fun r =>
        let core := bits (r a).toNat 10 0
        if Config.cores ≤ core then s.trap (remoteErr core 1)
        else s.release fun s =>
          let s := s.retire [a]
          { s with dev := { s.dev with fences := s.dev.fences ++ [core] } }))

/-! ### Stalled engines (11_engines R210) -/

/-- ENGINE_FAULT_RETRY: 4,096 core cycles after its last attempt a stalled request tries again. -/
def execEngineFaultRetry (e : Engine) (n : Nat) (s : State) : Out :=
  .next (
    let due := retryDue s.cycle
    match e with
    | .copy => s.copyServe n true
    | .transform =>
      match (s.clu n).txq with
      | q :: _ => if due q.stall && !s.txBehind q then s.txRun n q else s
      | [] => s
    | .link =>
      match (s.core n).nq.find? fun q => due q.stall with
      | some q => s.netRetry n q
      | none => s
    | .compositor =>
      match (s.die n).comp with
      | q :: _ => if due q.stall && !s.storesOut q.owner then s.compRun n q else s
      | [] => s)

end Sys2Proof.Machine
end

