-- ==== Sys2Proof/Machine/Raster.lean ====
section
/-! DEFINITION. Raster delivery: triangle records, tickets and pixel locks (21_layer R347-R351, R359-R361). -/

namespace Sys2Proof.Machine

open Sys2Proof

/-! ### Emitting (R347, R348, R359) -/

/-- A vertex coordinate, signed 16.8 in 32 bits, rounded down to a pixel. -/
def pixelOf (raw : Nat) : Int := signedOf 32 (raw % 2 ^ 32) / 256

/-- The box of a record on one axis, clamped to `n` pixels; none where it lies outside. -/
def boxAxis (n : Nat) (a b c : Int) : Option (Nat × Nat) :=
  let lo := max 0 (min a (min b c))
  let hi := min ((n : Int) - 1) (max a (max b c))
  if lo ≤ hi then some (lo.toNat, hi.toNat) else none

/-- Does member `k` of `m` own a bin of a layer `w` wide that meets the box (R347)? -/
def ownsBin (w m k x0 x1 y0 y1 : Nat) : Bool :=
  let nbx := (w + 31) / 32
  (List.range (y1 / 32 + 1 - y0 / 32)).any fun j =>
    (List.range (x1 / 32 + 1 - x0 / 32)).any fun i => decide (((y0 / 32 + j) * nbx + (x0 / 32 + i)) % m = k)

/-- The next number of a multicast set (R348; entry 40: the first is 0). -/
def State.takeSeq (s : State) (ctx set : Nat) : State × Nat :=
  let x := s.ctx ctx
  let n := tget 0 x.mseq set
  ({ s with ctxs := tput s.ctxs ctx { x with mseq := tset 0 x.mseq set ((n + 1) % 2 ^ 32) } }, n)

/-- TRIEMIT: a record, or with bit 63 of s_a an end mark to every member (R359). -/
def execTriemit (a b : SReg) (s : State) : Out :=
  .next (s.withOps [a, b] none fun r =>
    let mark := (r a).getLsbD 63
    let o := (r a).toNat
    let core := s.curCore
    let set := bits (r b).toNat 5 0
    let id := bits (r b).toNat 31 16
    let finish := fun (s : State) => s.retire [a, b]
    match if mark then none else localCheck (r a) 64 64 Config.localBytes with
    | some e => s.trap e
    | none =>
      s.withSet set fun s cores =>
        if !s.layerMine s.cur.ctx id then s.trap (layerErr id 1)
        else if mark then finish (cores.foldl (fun s c => s.send c (.triangle { set := set, seq := 0, mark := true, layer := id }) true) s)
        else
          let s := s.lsTouch core o 64 s.cur.ctx
          if s.lsPoisoned core o 64 then s.trap (eccLocal o) else
          let n := s.lsRead core o 64
          let l := s.layer id
          let at_ := fun (k : Nat) => pixelOf (n / 2 ^ (32 * k))
          let (s, seq) := s.takeSeq s.cur.ctx set
          match boxAxis (l.get 1) (at_ 0) (at_ 3) (at_ 6), boxAxis (l.get 2) (at_ 1) (at_ 4) (at_ 7) with
          | some (x0, x1), some (y0, y1) =>
            let data := putAt (BitVec.ofNat 512 n) 448 32 seq
            let t : Tri := { set := set, seq := seq, layer := id, x0 := x0, x1 := x1, y0 := y0, y1 := y1, data := data }
            let dests := (cores.zipIdx.filter fun e => ownsBin (l.get 1) cores.length e.2 x0 x1 y0 y1).map (·.1)
            finish (dests.foldl (fun s c => s.send c (.triangle t) true) s)
          | _, _ => finish s)

/-- Is it a triangle of a context's set for a core? -/
def Msg.triangleOf (m : Msg) (ctx set tgt : Nat) : Bool :=
  match m.body with
  | .triangle t => decide (m.owner.ctx = ctx) && decide (t.set = set) && decide (m.tgt = tgt)
  | _ => false

/-- Is it a triangle that its target can take: refused there, or next in its set with fewer than 64 of its context held (R348,
R349), so that one context's records hold up no other VF's (24_device R392)? -/
def State.takesTri (s : State) (m : Msg) : Bool :=
  match m.body with
  | .triangle t =>
    !s.hasTask m.tgt m.owner.ctx || (decide (((s.core m.tgt).tris.countP fun r => decide (r.ctx = m.owner.ctx)) < 64) &&
      !(s.net.takeWhile fun x => decide (x ≠ m)).any (·.triangleOf m.owner.ctx t.set m.tgt))
  | _ => false

/-- TRIANGLE_DELIVER: the oldest message of a VF between two cores, a triangle, is delivered in the order of its set while
its target holds fewer than 64 of the context, or refused (R348, R349, 07_memory R153). -/
def execTriangleDeliver (src tgt : Nat) (s : State) : Out :=
  .next (s.onMsg src tgt s.takesTri fun m s' =>
    match m.body with
    | .triangle t =>
      let c := s'.core tgt
      let ctx := m.owner.ctx
      if !s'.hasTask tgt ctx then s'.answer m 0 (some 2)
      else
        let tickets := if t.mark then c.tickets else c.tickets ++ [{ ctx := ctx, tri := t }]
        (s'.setCore tgt { c with tris := c.tris ++ [{ ctx := ctx, tri := t }], tickets := tickets }).answer m 0 none
    | _ => s)

/-! ### Popping (R360) -/

/-- The oldest record of a set held on a core for a context. -/
def State.oldestTri (s : State) (core ctx set : Nat) : Option TriRec :=
  (s.core core).tris.find? fun e => decide (e.ctx = ctx) && decide (e.tri.set = set)

/-- Drop the first record equal to `x`. -/
def dropTri (x : TriRec) : List TriRec → List TriRec
  | [] => []
  | y :: r => if y = x then r else y :: dropTri x r

/-- A thread takes a record: copied to the offset, its ticket the thread's; the value for s_d. -/
def State.takeTri (s : State) (t off : Nat) (x : TriRec) : State × W64 :=
  let core := coreOf t
  let c := s.core core
  let s := s.setCore core
    { c with
      tris := dropTri x c.tris
      tickets := c.tickets.map fun k => if k.ctx = x.ctx ∧ k.tri = x.tri then { k with popper := some (t, (s.thread t).inc) } else k }
  if x.tri.mark then (s, BitVec.allOnes 64)
  else (s.lsWrite core off (toBytes 64 x.tri.data.toNat), BitVec.ofNat 64 x.tri.seq)

/-- TRIPOP and TRIPOPN. -/
def tripop (waits : Bool) (d a : SReg) (s : State) : State :=
  s.withOps [a] (some d) (late := true) fun r =>
    let off := bits (r a).toNat 19 0
    let set := bits (r a).toNat 25 20
    match localCheck (BitVec.ofNat 64 off) 64 64 Config.localBytes with
    | some e => s.trap e
    | none =>
      match s.oldestTri s.curCore s.cur.ctx set with
      | some x =>
        let (s, v) := s.takeTri s.iss.thr off x
        s.commit [a] [.s d] [(.s d, v.setWidth 512)] (.ready s.cycle)
      | none =>
        if waits then s.block (.triangle set off d) [a]
        else s.commit [a] [.s d] [(.s d, (BitVec.allOnes 64 - 1).setWidth 512)] (.ready s.cycle)

/-- TRIPOP: WAITING while the core holds no record of the set (03_thread R57). -/
def execTripop (d a : SReg) (s : State) : Out := .next (tripop true d a s)
/-- TRIPOPN: -2 where the core holds none. -/
def execTripopn (d a : SReg) (s : State) : Out := .next (tripop false d a s)

/-- TRIPOP_COMPLETE: a record has arrived; the window of the TRIPOP has not opened (R57). -/
def execTripopComplete (thr : Nat) (s : State) : Out :=
  .next (match (s.thread thr).st, (s.thread thr).wait with
    | .waiting, some x =>
      match x.w with
      | .triangle set off d =>
        match s.oldestTri (coreOf thr) (s.thread thr).ctx set with
        | none => s
        | some t =>
          s.unblock thr x fun s =>
            let (s, v) := s.takeTri thr off t
            let s : State := { s with iss := { thr := thr, b := { x.b with la := 0 } } }
            s.commit [] [.s d] [(.s d, v.setWidth 512)] (.ready s.cycle)
      | _ => s
    | _, _ => s)

/-! ### Tickets and quads (R350, R361) -/

/-- The live ticket of a number on a core: the thread's own first, else the oldest (entry 41). -/
def State.ticket? (s : State) (t ctx seq : Nat) : Option Ticket :=
  let mine := fun (k : Ticket) => decide (k.ctx = ctx) && decide (k.tri.seq = seq)
  let l := (s.core (coreOf t)).tickets
  (l.find? fun k => mine k && decide (k.popper = some (t, (s.thread t).inc))).or (l.find? mine)

/-- Does the box cover a pixel of the quad? -/
def Tri.covers (t : Tri) (quad : Nat) : Bool :=
  let qx := quad % 65536
  let qy := quad / 65536
  decide (t.x0 ≤ 2 * qx + 1) && decide (2 * qx ≤ t.x1) && decide (t.y0 ≤ 2 * qy + 1) && decide (2 * qy ≤ t.y1)

/-- May ticket `k` have the quad (R350)? -/
def Core.grantable (c : Core) (k : Ticket) (quad : Nat) : Bool :=
  !(c.locks.any fun l => decide (l.quad = quad)) && decide (c.locks.length < 64) &&
  c.tickets.all fun u =>
    !(newer (BitVec.ofNat 32 k.tri.seq) (BitVec.ofNat 32 u.tri.seq) && u.tri.covers quad) ||
      u.given.contains quad

def State.lockQuad (s : State) (core : Nat) (k : Ticket) (quad : Nat) : State :=
  let c := s.core core
  s.setCore core { c with locks := c.locks ++ [{ ctx := k.ctx, quad := quad, set := k.tri.set, seq := k.tri.seq }] }

/-- TRIDONE: the ticket ends, and what it held is free. -/
def execTridone (a : SReg) (s : State) : Out :=
  .next (s.withOps [a] none fun r => s.release fun s =>
    let core := s.curCore
    match s.ticket? s.iss.thr s.cur.ctx (bits (r a).toNat 31 0) with
    | none => s.trap (layerErr 0 7)
    | some k =>
      let c := s.core core
      (s.setCore core { c with
        tickets := c.tickets.filter fun u => decide (u ≠ k)
        locks := c.locks.filter fun l => !(decide (l.ctx = k.ctx) && decide (l.set = k.tri.set) && decide (l.seq = k.tri.seq)) }).retire [a])

/-- PXLOCK: waits for the quad. -/
def execPxlock (a b : SReg) (s : State) : Out :=
  .next (s.withOps [a, b] none fun r =>
    let quad := bits (r b).toNat 31 0
    match s.ticket? s.iss.thr s.cur.ctx (bits (r a).toNat 31 0) with
    | none => s.trap (layerErr 0 7)
    | some k =>
      let l := s.layer k.tri.layer
      if l.get 1 ≤ 2 * (quad % 65536) ∨ l.get 2 ≤ 2 * (quad / 65536) then s.trap (layerErr k.tri.layer 7)
      else if (s.core s.curCore).grantable k quad then ((s.lockQuad s.curCore k quad).fromNow s.iss.thr).retire [a, b]
      else s.block (.pixel k.tri.set k.tri.seq quad) [a, b])

/-- PXLOCK_GRANT. -/
def execPxlockGrant (thr : Nat) (s : State) : Out :=
  .next (match (s.thread thr).st, (s.thread thr).wait with
    | .waiting, some x =>
      match x.w with
      | .pixel set seq quad =>
        let c := s.core (coreOf thr)
        match c.tickets.find? fun k => decide (k.ctx = (s.thread thr).ctx) && decide (k.tri.set = set) && decide (k.tri.seq = seq) with
        | none => s
        | some k => if c.grantable k quad then s.unblock thr x fun s => ((s.lockQuad (coreOf thr) k quad).fromNow thr).done else s
      | _ => s
    | _, _ => s)

/-- PXUNLK: frees the quad where a ticket popped by this thread holds it. -/
def execPxunlk (a : SReg) (s : State) : Out :=
  .next (s.withOps [a] none fun r => s.release fun s =>
    let quad := bits (r a).toNat 31 0
    let core := s.curCore
    let c := s.core core
    let me := some (s.iss.thr, s.cur.inc)
    match c.tickets.find? fun k => decide (k.popper = me) &&
        c.locks.any fun l => decide (l.ctx = k.ctx) && decide (l.quad = quad) && decide (l.set = k.tri.set) && decide (l.seq = k.tri.seq) with
    | none => s.retire [a]
    | some k =>
      (s.setCore core { c with
        tickets := c.tickets.map fun u => if u = k then { u with given := quad :: u.given } else u
        locks := c.locks.filter fun l => !(decide (l.ctx = k.ctx) && decide (l.quad = quad)) }).retire [a])

end Sys2Proof.Machine
end

