-- ==== Sys2Proof/Machine/VectorMem.lean ====
section
/-! DEFINITION. Vector accesses to memory and to the own local store (06_vector R130-R134). -/

namespace Sys2Proof.Machine

open Sys2Proof

/-! ### The checks before any element moves (R131) -/

/-- Where an active element lies, once translated: in the device's memory, or on a page of another device. -/
inductive Place where
  | own (pa ty : Nat)
  | far (node pa : Nat)
  deriving DecidableEq, Repr

/-- An active element: its lane and its place, with its address. -/
structure Elem where
  lane : Nat
  va : Nat
  at_ : Place
  deriving DecidableEq, Repr

/-- Why a bundle's elements cannot all be accessed. -/
inductive Stop where
  | trap (e : Err)
  | soft (cause va : Nat)
  | busy (va : Nat)
  | wait
  deriving DecidableEq, Repr

/-- The part of another device that an asker has read, or asked to read, a byte of. -/
def State.readBefore (s : State) (w : Asker) (va : Nat) : Option Nat :=
  let at_ := fun (v : Nat) (m : NetMsg) =>
    if m.op = .get ∧ v ≤ va ∧ va < v + m.len then some (m.remote + (va - v)) else none
  match s.dev.answers.findSome? fun a => if a.who = w then at_ a.va a.msg else none with
  | some x => some x
  | none => s.eps.findSome? fun (_, e) => e.pkts.findSome? fun p => if p.asker = some w then at_ p.va p.msg else none

/-- Check, and translate, the active elements' addresses of `z` bytes in lane order, up to the first that fails; nothing is
accessed. One asked for before keeps its place (12_page R242). -/
def State.checkElems (s : State) (t : Nat) (k : Kind) (z : Nat) : List (Nat × Nat) → State × List Elem × Option Stop
  | [] => (s, [], none)
  | (lane, va) :: r =>
    let go := fun (s : State) (p : Place) =>
      match s.checkElems t k z r with
      | (s, es, x) => (s, { lane := lane, va := va, at_ := p } :: es, x)
    if va % z ≠ 0 then (s, [], some (.trap { cause := 4, tval := BitVec.ofNat 64 va }))
    else
      match if k = .load then s.readBefore (s.asker t) va else none with
      | some at_ => go s (.far (at_ / 2 ^ 40) (at_ % 2 ^ 40))
      | none =>
        match s.xlate (coreOf t) (s.thread t).ctx k va with
        | (s, .ok node pa ty) => go s (if node = s.dev.node then .own pa ty else .far node pa)
        | (s, .busy) => (s, [], some (.busy va))
        | (s, .ecc a) => (s, [], some (.trap (eccAt a va)))
        | (s, .hard reason) => (s, [], some (.trap (addrErr va reason)))
        | (s, .soft c) => (s, [], some (.soft c va))

/-- A part of another device that elements of a bundle lie in: address, node and address there, bytes. -/
structure FarPart where
  va : Nat
  node : Nat
  pa : Nat
  n : Nat
  data : List (BitVec 8) := []
  deriving DecidableEq, Repr

/-- The parts of other devices that elements name, in lane order: neighbouring lanes of one aligned dword are one, so that it
is read or written whole (R130); a lower lane's element that a higher one covers is none (R133). -/
def farParts (z : Nat) (data : Nat → List (BitVec 8)) : List Elem → List FarPart
  | [] => []
  | e :: r =>
    match e.at_ with
    | .own _ _ => farParts z data r
    | .far node pa =>
      if r.any fun x => decide (x.va = e.va) then farParts z data r
      else
        match farParts z data r with
        | p :: ps =>
          if p.va = e.va + z ∧ p.node = node ∧ p.pa = pa + z ∧ e.va / 8 = (p.va + p.n - 1) / 8 then
            { va := e.va, node := node, pa := pa, n := z + p.n, data := data e.lane ++ p.data } :: ps
          else { va := e.va, node := node, pa := pa, n := z, data := data e.lane } :: p :: ps
        | [] => [{ va := e.va, node := node, pa := pa, n := z, data := data e.lane }]

/-- Read the parts of other devices: their bytes by address, with the errors that have come, or what stops the bundle. -/
def State.readParts (s : State) (t : Nat) : List FarPart → State × List (Nat × List (BitVec 8) × Option Err) × Option Stop
  | [] => (s, [], none)
  | p :: r =>
    match s.orSent (s.asker t) .get p.va p.n ((s.wentFar t).remoteAccess (s.asker t) .get p.node p.pa p.va p.n) with
    | (s, .ok bs err) =>
      match s.readParts t r with
      | (s, l, x) => (s, (p.va, bs, err) :: l, x)
    | (s, .soft c) => (s, [], some (.soft c p.va))
    | (s, .hard reason) => (s, [], some (.trap (addrErr p.va reason)))
    | (s, .busy) => (s, [], some (.busy p.va))
    | (s, .wait) =>
      match s.readParts t r with
      | (s, l, x) => (s, l, some (match x with | some (.soft _ _) | none => .wait | some y => y))

/-- The bundle does not go on: nothing of it takes effect. -/
def State.stopped (s s' : State) (k : Kind) : Stop → State
  | .trap e => s.trap e
  | .soft c va => s.softFault c k.code va
  | .busy va => s.waitWalk s.curCore s.cur.ctx va
  | .wait => s'.waitTurn

/-- Of the pages of other devices that elements before a failing one lie on, one byte each, asked for to learn whether the page
is there (R131; entry 12). -/
def probes (es : List Elem) : List FarPart :=
  es.foldl (fun l e =>
    match e.at_ with
    | .own _ _ => l
    | .far node pa => if l.any fun p => decide (p.va / 4096 = e.va / 4096) then l else l ++ [{ va := e.va, node := node, pa := pa, n := 1 }]) []

/-- Check every element; then ask for the parts `f` names of other devices, which may turn out not to be there; else nothing of
the bundle takes effect, and of several failures the lowest lane's decides (R131). -/
def State.onElems (s : State) (k : Kind) (z : Nat) (addrs : List (Nat × Nat)) (f : List Elem → List FarPart)
    (go : State → List Elem → List (Nat × List (BitVec 8) × Option Err) → State) : State :=
  match s.checkElems s.iss.thr k z addrs with
  | (s', es, x) =>
    match s'.readParts s.iss.thr (f es) with
    | (s'', _, some y) => s.stopped s'' k y
    | (s'', got, none) =>
      match x with
      | some y => s.stopped s'' k y
      | none => go s'' es got

/-- Read the elements, lowest lane first: their numbers, and the first error. -/
def State.readElems (s : State) (t z : Nat) (got : List (Nat × List (BitVec 8) × Option Err)) :
    List Elem → State × List (Nat × Nat) × Option Err
  | [] => (s, [], none)
  | e :: r =>
    match e.at_ with
    | .own pa ty =>
      let (s, bs, bad) := s.readOwn t pa e.va z ty
      let (s, l, err) := s.readElems t z got r
      (s, (e.lane, ofBytes bs) :: l, bad.or err)
    | .far _ _ =>
      let (bs, bad) := (got.find? fun p => decide (p.1 ≤ e.va) && decide (e.va < p.1 + p.2.1.length)).elim ([], none) fun p =>
        ((p.2.1.drop (e.va - p.1)).take z, p.2.2.map fun (x : Err) => { x with tval := BitVec.ofNat 64 e.va })
      let (s, l, err) := s.readElems t z got r
      (s, (e.lane, ofBytes bs) :: l, bad.or err)

/-- The active lanes of a mask, each with its address. -/
def activeLanes (n : Nat) (m : W64) (addr : Nat → Nat) : List (Nat × Nat) :=
  ((List.range n).filter fun i => m.getLsbD i).map fun i => (i, addr i)

/-- A load of elements of `w` bits into v_d. -/
def vecLoad (w : Nat) (d : VReg) (m : MReg) (srcs : List SReg) (addr : Nat → Nat) (s : State) : State :=
  let mask := s.cur.readM m
  s.onElems .load (w / 8) (activeLanes (laneCount w) mask addr) (farParts (w / 8) fun _ => []) fun s es got =>
    let (s, l, err) := s.readElems s.iss.thr (w / 8) got es
    let v := l.foldl (fun v (i, x) => putAt v (w * i) w x) (s.cur.readV d)
    s.commit srcs [.v d] [(.v d, v)] (.ready s.cycle) err (mem := true)

/-- Join neighbouring stores of one block that lie in one dword. -/
def joinStores : List (Nat × List (BitVec 8)) → List (Nat × List (BitVec 8))
  | (a, x) :: (b, y) :: r =>
    if b = a + x.length ∧ a / 8 = (b + y.length - 1) / 8 then (a, x ++ y) :: joinStores r
    else (a, x) :: joinStores ((b, y) :: r)
  | l => l

/-- May the stores to other devices all go out now: on each endpoint they fit the congestion window together, or nothing is in
flight (23_link R364, R372)? -/
def State.mayPut (s : State) (ps : List FarPart) : Bool :=
  ps.all fun p =>
    match s.farEp p.node with
    | none => true
    | some e => s.mayAccess e ((ps.filter fun q => decide (s.farEp q.node = some e)).map (·.n)).sum

/-- Store to another device: the packet is sent; where no OPEN endpoint leads there the error is held as its answer. -/
def State.putFar (s : State) (t : Nat) (p : FarPart) : State :=
  let w := s.asker t
  let m : NetMsg := { op := .put, remote := p.node * 2 ^ 40 + p.pa, len := p.n, data := p.data }
  match s.farEp p.node with
  | some e => s.sendOwn e m (some w) p.va (some (s.askerCtx w))
  | none => { s with dev := { s.dev with answers := s.dev.answers ++ [{ who := w, va := p.va, msg := m, reply := .refused 5 }] } }

/-- What other devices have answered to the stores a bundle has sent: none where it has sent none. -/
def State.putsSent (s : State) (t : Nat) : Option Got :=
  let w := s.asker t
  let as := s.dev.answers.filter fun a => decide (a.who = w) && decide (a.msg.op = HOp.put)
  if s.eps.any fun (_, e) => e.pkts.any fun p => decide (p.asker = some w) && decide (p.msg.op = HOp.put) then some .wait
  else if as = [] then none
  else
    match as.find? fun a => decide (a.reply = Reply.absent) with
    | some _ => some (.soft 3)
    | none => some (.ok [] (as.findSome? fun a => match gotOf a.va a.msg.len a.reply with | .ok _ err => err | _ => none))

/-- The address of the first store that another device has answered as absent. -/
def State.putAbsent (s : State) (t : Nat) : Nat :=
  match s.dev.answers.find? fun a => decide (a.who = s.asker t) && decide (a.reply = Reply.absent) with
  | some a => a.va
  | none => 0

/-- A store of elements of `w` bits of v_d; the highest lane of equal addresses remains. Its elements go in one step, those of
other devices as packets that are then awaited (18_program_trap R316). DESIGN CHOICE (entry 12): where a page has gone from
another device between the question whether it is there and the store, the bundle drops its thread with the other elements
stored, and stores them again when it is reissued. -/
def vecStore (w : Nat) (d : VReg) (m : MReg) (srcs : List SReg) (addr : Nat → Nat) (s : State) : State :=
  let mask := s.cur.readM m
  let v := s.cur.readV d
  let data := fun lane => toBytes (w / 8) (laneOf w v lane)
  match s.putsSent s.iss.thr with
  | some .wait => s.waitTurn
  | some (.soft c) => s.softFault c Kind.store.code (s.putAbsent s.iss.thr)
  | some (.ok _ err) => s.stored srcs err
  | some _ => s.stored srcs none
  | none =>
    s.onElems .store (w / 8) (activeLanes (laneCount w) mask addr) probes fun s' es _ =>
      let own := es.filterMap fun e =>
        match e.at_ with
        | .own pa _ => some (pa, data e.lane)
        | .far _ _ => none
      let far := farParts (w / 8) data es
      if !s'.mayPut far then s.waitTurn
      else
        let s' := (joinStores own).foldl (fun s (pa, bs) => s.storeOwn s.iss.thr pa bs) s'
        if far = [] then s'.stored srcs none else (far.foldl (fun s p => s.putFar s.iss.thr p) (s'.wentFar s'.iss.thr)).waitTurn

def wrap72 (x : Int) : Nat := (x % (2 ^ 72 : Nat)).toNat

/-- The block rule of VLD and VST: checked when some element is active. -/
def blockCheck (m : W64) (a : Nat) : Option Err :=
  if m.toNat % 2 ^ 16 ≠ 0 ∧ a % 64 ≠ 0 then some { cause := 4, tval := BitVec.ofNat 64 a } else none

/-! ### Device memory (R132, R133) -/

/-- VLD. -/
def execVld (d : VReg) (a : AReg) (m : MReg) (i : Imm) (s : State) : Out :=
  .next (
    let ea := (effAddr (s.cur.readA a) i 64).toNat
    match blockCheck (s.cur.readM m) ea with
    | some e => s.trap e
    | none => vecLoad 32 d m [] (fun k => ea + 4 * k) s)

/-- VST. -/
def execVst (d : VReg) (a : AReg) (m : MReg) (i : Imm) (s : State) : Out :=
  .next (
    let ea := (effAddr (s.cur.readA a) i 64).toNat
    match blockCheck (s.cur.readM m) ea with
    | some e => s.trap e
    | none => vecStore 32 d m [] (fun k => ea + 4 * k) s)

def strideAddr (th : Thread) (a : AReg) (stride : W64) (k : Nat) : Nat :=
  wrap72 ((th.readA a).toNat + stride.toInt * k)

def indexAddr (th : Thread) (w : Nat) (a : AReg) (b : VReg) (k : Nat) : Nat :=
  wrap72 ((th.readA a).toNat + sgn w (laneOf w (th.readV b) k) * (w / 8 : Nat))

/-- VLDS. -/
def execVlds (w : BitVec 2) (d : VReg) (a : AReg) (b : SReg) (m : MReg) (s : State) : Out :=
  .next (s.withOps [b] none fun r => vecLoad (widthBits w) d m [b] (strideAddr s.cur a (r b)) s)

/-- VSTS. -/
def execVsts (w : BitVec 2) (d : VReg) (a : AReg) (b : SReg) (m : MReg) (s : State) : Out :=
  .next (s.withOps [b] none fun r => vecStore (widthBits w) d m [b] (strideAddr s.cur a (r b)) s)

/-- VGATH. -/
def execVgath (w : BitVec 2) (d : VReg) (a : AReg) (b : VReg) (m : MReg) (s : State) : Out :=
  .next (vecLoad (widthBits w) d m [] (indexAddr s.cur (widthBits w) a b) s)

/-- VSCAT. -/
def execVscat (w : BitVec 2) (d : VReg) (a : AReg) (b : VReg) (m : MReg) (s : State) : Out :=
  .next (vecStore (widthBits w) d m [] (indexAddr s.cur (widthBits w) a b) s)

/-! ### Own local store (R134) -/

/-- MISALIGN, then LOCAL, of the active elements in lane order; an offset below 0 or beyond 64 bits is outside. -/
def localElems (z : Nat) : List (Nat × Int) → Option Err
  | [] => none
  | (_, o) :: r =>
    let t := BitVec.ofInt 64 o
    if o % (z : Int) ≠ 0 then some { cause := 4, tval := t }
    else if o < 0 ∨ (Config.localBytes : Int) < o + z then some { cause := 6, tval := t }
    else localElems z r

def activeOffs (n : Nat) (m : W64) (off : Nat → Int) : List (Nat × Int) :=
  ((List.range n).filter fun i => m.getLsbD i).map fun i => (i, off i)

def vecLoadL (w : Nat) (d : VReg) (m : MReg) (srcs : List SReg) (off : Nat → Int) (s : State) : State :=
  let es := activeOffs (laneCount w) (s.cur.readM m) off
  match localElems (w / 8) es with
  | some e => s.trap e
  | none =>
    let core := s.curCore
    let s := es.foldl (fun (s : State) e => s.lsTouch core e.2.toNat (w / 8) s.cur.ctx) s
    let v := es.foldl (fun v (i, o) => putAt v (w * i) w (s.lsRead core o.toNat (w / 8))) (s.cur.readV d)
    let err := (es.find? fun e => s.lsPoisoned core e.2.toNat (w / 8)).map fun e => eccLocal e.2.toNat
    s.commit srcs [.v d] [(.v d, v)] (.ready s.cycle) err

def vecStoreL (w : Nat) (d : VReg) (m : MReg) (srcs : List SReg) (off : Nat → Int) (s : State) : State :=
  let es := activeOffs (laneCount w) (s.cur.readM m) off
  match localElems (w / 8) es with
  | some e => s.trap e
  | none =>
    let v := s.cur.readV d
    let core := s.curCore
    let s := (joinStores (es.map fun e => (e.2.toNat, toBytes (w / 8) (laneOf w v e.1)))).foldl
      (fun s (o, bs) => s.lsWrite core o bs) s
    s.retire srcs

/-- VLDL. -/
def execVldl (d : VReg) (a : SReg) (m : MReg) (s : State) : Out :=
  .next (s.withOps [a] none fun r =>
    match blockCheck (s.cur.readM m) (r a).toNat with
    | some e => s.trap e
    | none => vecLoadL 32 d m [a] (fun k => (r a).toNat + 4 * k) s)

/-- VSTL. -/
def execVstl (d : VReg) (a : SReg) (m : MReg) (s : State) : Out :=
  .next (s.withOps [a] none fun r =>
    match blockCheck (s.cur.readM m) (r a).toNat with
    | some e => s.trap e
    | none => vecStoreL 32 d m [a] (fun k => (r a).toNat + 4 * k) s)

def indexOff (th : Thread) (w : Nat) (o : W64) (b : VReg) (k : Nat) : Int :=
  o.toNat + sgn w (laneOf w (th.readV b) k) * (w / 8 : Nat)

/-- VGATHL. -/
def execVgathl (w : BitVec 2) (d : VReg) (a : SReg) (b : VReg) (m : MReg) (s : State) : Out :=
  .next (s.withOps [a] none fun r => vecLoadL (widthBits w) d m [a] (indexOff s.cur (widthBits w) (r a) b) s)

/-- VSCATL. -/
def execVscatl (w : BitVec 2) (d : VReg) (a : SReg) (b : VReg) (m : MReg) (s : State) : Out :=
  .next (s.withOps [a] none fun r => vecStoreL (widthBits w) d m [a] (indexOff s.cur (widthBits w) (r a) b) s)

end Sys2Proof.Machine
end

