-- ==== Sys2Proof/Machine/Dispatch.lean ====
section
/-! DEFINITION. One arm for every row of spec/opcode_table.json: one direct call of its meaning, or rejected by name. -/

namespace Sys2Proof.Machine

def exec (i : Instr) (s : State) : Host.Outcome State Fault Refusal :=
  match i with
  | .deviceReset => Sys2Proof.Machine.execDeviceReset s
  | .boot c => Sys2Proof.Machine.execBoot c s
  | .powerLimitSet watts => Sys2Proof.Machine.execPowerLimitSet watts s
  | .reefGrant die idle => Sys2Proof.Machine.execReefGrant die idle s
  | .watchdogExpire core => Sys2Proof.Machine.execWatchdogExpire core s
  | .messageRetry src tgt => Sys2Proof.Machine.execMessageRetry src tgt s
  | .sleepTimeout thr => Sys2Proof.Machine.execSleepTimeout thr s
  | .wakeArrive thr => Sys2Proof.Machine.execWakeArrive thr s
  | .resumeArrive thr => Sys2Proof.Machine.execResumeArrive thr s
  | .abortArrive thr => Sys2Proof.Machine.execAbortArrive thr s
  | .longLatencyComplete thr k => Sys2Proof.Machine.execLongLatencyComplete thr k s
  | .sfuComplete core => Sys2Proof.Machine.execSfuComplete core s
  | .faultRecordRetry clu => Sys2Proof.Machine.execFaultRecordRetry clu s
  | .handlerLimit => Sys2Proof.Machine.execHandlerLimit s
  | .waittlComplete thr => Sys2Proof.Machine.execWaittlComplete thr s
  | .waitgenComplete thr => Sys2Proof.Machine.execWaitgenComplete thr s
  | .tagwaitComplete thr => Sys2Proof.Machine.execTagwaitComplete thr s
  | .qinPopComplete thr => Sys2Proof.Machine.execQinPopComplete thr s
  | .qoutPushComplete thr => Sys2Proof.Machine.execQoutPushComplete thr s
  | .spawnwComplete thr => Sys2Proof.Machine.execSpawnwComplete thr s
  | .gangForm thr => Sys2Proof.Machine.execGangForm thr s
  | .qcfgDisconnectComplete thr => Sys2Proof.Machine.execQcfgDisconnectComplete thr s
  | .tripopComplete thr => Sys2Proof.Machine.execTripopComplete thr s
  | .pxlockGrant thr => Sys2Proof.Machine.execPxlockGrant thr s
  | .fmtsetInstall thr => Sys2Proof.Machine.execFmtsetInstall thr s
  | .handlerStart src tgt => Sys2Proof.Machine.execHandlerStart src tgt s
  | .builtinHandlerAccess src tgt => Sys2Proof.Machine.execBuiltinHandlerAccess src tgt s
  | .arrivalCredit src tgt => Sys2Proof.Machine.execArrivalCredit src tgt s
  | .l1Invalidate core => Sys2Proof.Machine.execL1Invalidate core s
  | .storeAck core => Sys2Proof.Machine.execStoreAck core s
  | .matrixTileStep clu => Sys2Proof.Machine.execMatrixTileStep clu s
  | .matrixEntryComplete core => Sys2Proof.Machine.execMatrixEntryComplete core s
  | .drainWriteAck core => Sys2Proof.Machine.execDrainWriteAck core s
  | .drainWake core => Sys2Proof.Machine.execDrainWake core s
  | .spawnQueueServe core => Sys2Proof.Machine.execSpawnQueueServe core s
  | .matrixFreeze core => Sys2Proof.Machine.execMatrixFreeze core s
  | .spillReply core data => Sys2Proof.Machine.execSpillReply core data s
  | .mqctlStop core stop => Sys2Proof.Machine.execMqctlStop core stop s
  | .mqctlMaskerrClear core => Sys2Proof.Machine.execMqctlMaskerrClear core s
  | .copyUnit core => Sys2Proof.Machine.execCopyUnit core s
  | .copyComplete core => Sys2Proof.Machine.execCopyComplete core s
  | .engineFaultRetry e n => Sys2Proof.Machine.execEngineFaultRetry e n s
  | .compress clu => Sys2Proof.Machine.execCompress clu s
  | .decompress clu => Sys2Proof.Machine.execDecompress clu s
  | .fprint clu => Sys2Proof.Machine.execFprint clu s
  | .compare clu => Sys2Proof.Machine.execCompare clu s
  | .crc32c clu => Sys2Proof.Machine.execCrc32c clu s
  | .pageWalk clu => Sys2Proof.Machine.execPageWalk clu s
  | .adWriteback t k => Sys2Proof.Machine.execAdWriteback t k s
  | .adWritebackTimeout t k => Sys2Proof.Machine.execAdWritebackTimeout t k s
  | .feedbackRecordWrite core => Sys2Proof.Machine.execFeedbackRecordWrite core s
  | .kernelEnd ser => Sys2Proof.Machine.execKernelEnd ser s
  | .heldDoneUpdate k => Sys2Proof.Machine.execHeldDoneUpdate k s
  | .heldPublicationApply clu => Sys2Proof.Machine.execHeldPublicationApply clu s
  | .groupAdmit die ser => Sys2Proof.Machine.execGroupAdmit die ser s
  | .groupPlace die => Sys2Proof.Machine.execGroupPlace die s
  | .groupEnd ser g => Sys2Proof.Machine.execGroupEnd ser g s
  | .preemptionTrigger die => Sys2Proof.Machine.execPreemptionTrigger die s
  | .groupSaveComplete ser g => Sys2Proof.Machine.execGroupSaveComplete ser g s
  | .triangleDeliver src tgt => Sys2Proof.Machine.execTriangleDeliver src tgt s
  | .composite die => Sys2Proof.Machine.execComposite die s
  | .laysplitCopy die => Sys2Proof.Machine.execLaysplitCopy die s
  | .laymergeFold die => Sys2Proof.Machine.execLaymergeFold die s
  | .commandArrive q cmd => Sys2Proof.Machine.execCommandArrive q cmd s
  | .nop q => Sys2Proof.Machine.execNop q s
  | .launch q => Sys2Proof.Machine.execLaunch q s
  | .wait q => Sys2Proof.Machine.execWait q s
  | .write q => Sys2Proof.Machine.execWrite q s
  | .event q => Sys2Proof.Machine.execEvent q s
  | .blockClear q => Sys2Proof.Machine.execBlockClear q s
  | .queueStallRetry q => Sys2Proof.Machine.execQueueStallRetry q s
  | .completionRecordRetry q => Sys2Proof.Machine.execCompletionRecordRetry q s
  | .notifyTimer q => Sys2Proof.Machine.execNotifyTimer q s
  | .contextCreate q => Sys2Proof.Machine.execContextCreate q s
  | .contextSuspend q => Sys2Proof.Machine.execContextSuspend q s
  | .suspendComplete c => Sys2Proof.Machine.execSuspendComplete c s
  | .contextResume q => Sys2Proof.Machine.execContextResume q s
  | .contextKill q => Sys2Proof.Machine.execContextKill q s
  | .killFinish c => Sys2Proof.Machine.execKillFinish c s
  | .contextRelease q => Sys2Proof.Machine.execContextRelease q s
  | .queueCreate q => Sys2Proof.Machine.execQueueCreate q s
  | .queueSet q => Sys2Proof.Machine.execQueueSet q s
  | .queueDestroy q => Sys2Proof.Machine.execQueueDestroy q s
  | .vfSet q => Sys2Proof.Machine.execVfSet q s
  | .vfReset q => Sys2Proof.Machine.execVfReset q s
  | .vfctlReset v => Sys2Proof.Machine.execVfctlReset v s
  | .vfResetGraceExpire => Sys2Proof.Machine.execVfResetGraceExpire s
  | .vfResetDrainDone => Sys2Proof.Machine.execVfResetDrainDone s
  | .endpointOpen q => Sys2Proof.Machine.execEndpointOpen q s
  | .endpointClose q => Sys2Proof.Machine.execEndpointClose q s
  | .trainingSucceeds port => Sys2Proof.Machine.execTrainingSucceeds port s
  | .signalLost port => Sys2Proof.Machine.execSignalLost port s
  | .portDisable port => Sys2Proof.Machine.execPortDisable port s
  | .portEnable port => Sys2Proof.Machine.execPortEnable port s
  | .retransmit ep k => Sys2Proof.Machine.execRetransmit ep k s
  | .retransmitLimit ep k => Sys2Proof.Machine.execRetransmitLimit ep k s
  | .packetWrite ep p => Sys2Proof.Machine.execPacketWrite ep p s
  | .packetRead ep p => Sys2Proof.Machine.execPacketRead ep p s
  | .packetAtomic ep p => Sys2Proof.Machine.execPacketAtomic ep p s
  | .packetSend ep p => Sys2Proof.Machine.execPacketSend ep p s
  | .packetAck ep k r => Sys2Proof.Machine.execPacketAck ep k r s
  | .elselClear core => Sys2Proof.Machine.execElselClear core s
  | .add d a b => Sys2Proof.Machine.execAdd d a b s
  | .addw d a b => Sys2Proof.Machine.execAddw d a b s
  | .sub d a b => Sys2Proof.Machine.execSub d a b s
  | .subw d a b => Sys2Proof.Machine.execSubw d a b s
  | .and d a b => Sys2Proof.Machine.execAnd d a b s
  | .or d a b => Sys2Proof.Machine.execOr d a b s
  | .xor d a b => Sys2Proof.Machine.execXor d a b s
  | .andn d a b => Sys2Proof.Machine.execAndn d a b s
  | .sll d a b => Sys2Proof.Machine.execSll d a b s
  | .srl d a b => Sys2Proof.Machine.execSrl d a b s
  | .sra d a b => Sys2Proof.Machine.execSra d a b s
  | .ror d a b => Sys2Proof.Machine.execRor d a b s
  | .ceq d a b => Sys2Proof.Machine.execCeq d a b s
  | .cne d a b => Sys2Proof.Machine.execCne d a b s
  | .clt d a b => Sys2Proof.Machine.execClt d a b s
  | .cltn d a b => Sys2Proof.Machine.execCltn d a b s
  | .addi d a im => Sys2Proof.Machine.execAddi d a im s
  | .andi d a im => Sys2Proof.Machine.execAndi d a im s
  | .ori d a im => Sys2Proof.Machine.execOri d a im s
  | .xori d a im => Sys2Proof.Machine.execXori d a im s
  | .slli d a im => Sys2Proof.Machine.execSlli d a im s
  | .srli d a im => Sys2Proof.Machine.execSrli d a im s
  | .srai d a im => Sys2Proof.Machine.execSrai d a im s
  | .clti d a im => Sys2Proof.Machine.execClti d a im s
  | .li d im => Sys2Proof.Machine.execLi d im s
  | .mov d a => Sys2Proof.Machine.execMov d a s
  | .movaa d a => Sys2Proof.Machine.execMovaa d a s
  | .adda d a b => Sys2Proof.Machine.execAdda d a b s
  | .adda2 d a b => Sys2Proof.Machine.execAdda2 d a b s
  | .adda4 d a b => Sys2Proof.Machine.execAdda4 d a b s
  | .adda8 d a b => Sys2Proof.Machine.execAdda8 d a b s
  | .addai d a im => Sys2Proof.Machine.execAddai d a im s
  | .bz a im => Sys2Proof.Machine.execBz a im s
  | .bnz a im => Sys2Proof.Machine.execBnz a im s
  | .bltz a im => Sys2Proof.Machine.execBltz a im s
  | .bgez a im => Sys2Proof.Machine.execBgez a im s
  | .bgtz a im => Sys2Proof.Machine.execBgtz a im s
  | .blez a im => Sys2Proof.Machine.execBlez a im s
  | .bmany a im => Sys2Proof.Machine.execBmany a im s
  | .bmnone a im => Sys2Proof.Machine.execBmnone a im s
  | .j im => Sys2Proof.Machine.execJ im s
  | .jal im => Sys2Proof.Machine.execJal im s
  | .jr a => Sys2Proof.Machine.execJr a s
  | .jalr d a => Sys2Proof.Machine.execJalr d a s
  | .mul d a b => Sys2Proof.Machine.execMul d a b s
  | .mulw d a b => Sys2Proof.Machine.execMulw d a b s
  | .mulh d a b => Sys2Proof.Machine.execMulh d a b s
  | .mulhn d a b => Sys2Proof.Machine.execMulhn d a b s
  | .div d a b => Sys2Proof.Machine.execDiv d a b s
  | .divn d a b => Sys2Proof.Machine.execDivn d a b s
  | .rem d a b => Sys2Proof.Machine.execRem d a b s
  | .remn d a b => Sys2Proof.Machine.execRemn d a b s
  | .divw d a b => Sys2Proof.Machine.execDivw d a b s
  | .divnw d a b => Sys2Proof.Machine.execDivnw d a b s
  | .remw d a b => Sys2Proof.Machine.execRemw d a b s
  | .remnw d a b => Sys2Proof.Machine.execRemnw d a b s
  | .min d a b => Sys2Proof.Machine.execMin d a b s
  | .max d a b => Sys2Proof.Machine.execMax d a b s
  | .minn d a b => Sys2Proof.Machine.execMinn d a b s
  | .maxn d a b => Sys2Proof.Machine.execMaxn d a b s
  | .clz d a => Sys2Proof.Machine.execClz d a s
  | .ctz d a => Sys2Proof.Machine.execCtz d a s
  | .popc d a => Sys2Proof.Machine.execPopc d a s
  | .brev d a => Sys2Proof.Machine.execBrev d a s
  | .bext d a b => Sys2Proof.Machine.execBext d a b s
  | .bexts d a b => Sys2Proof.Machine.execBexts d a b s
  | .bins d a b => Sys2Proof.Machine.execBins d a b s
  | .bmsk d a b => Sys2Proof.Machine.execBmsk d a b s
  | .bexti d a im => Sys2Proof.Machine.execBexti d a im s
  | .bextsi d a im => Sys2Proof.Machine.execBextsi d a im s
  | .fshl d a b => Sys2Proof.Machine.execFshl d a b s
  | .fshr d a b => Sys2Proof.Machine.execFshr d a b s
  | .sel d a b => Sys2Proof.Machine.execSel d a b s
  | .sextb d a => Sys2Proof.Machine.execSextb d a s
  | .sexth d a => Sys2Proof.Machine.execSexth d a s
  | .sextw d a => Sys2Proof.Machine.execSextw d a s
  | .zextw d a => Sys2Proof.Machine.execZextw d a s
  | .fadd d a b fs => Sys2Proof.Machine.execFadd d a b fs s
  | .fsub d a b fs => Sys2Proof.Machine.execFsub d a b fs s
  | .fmul d a b fs => Sys2Proof.Machine.execFmul d a b fs s
  | .ffma d a b fs => Sys2Proof.Machine.execFfma d a b fs s
  | .feq d a b fs => Sys2Proof.Machine.execFeq d a b fs s
  | .flt d a b fs => Sys2Proof.Machine.execFlt d a b fs s
  | .fle d a b fs => Sys2Proof.Machine.execFle d a b fs s
  | .funord d a b fs => Sys2Proof.Machine.execFunord d a b fs s
  | .ftoi d a fs => Sys2Proof.Machine.execFtoi d a fs s
  | .itof d a fs => Sys2Proof.Machine.execItof d a fs s
  | .ftoin d a fs => Sys2Proof.Machine.execFtoin d a fs s
  | .itofn d a fs => Sys2Proof.Machine.execItofn d a fs s
  | .abs d a => Sys2Proof.Machine.execAbs d a s
  | .neg d a => Sys2Proof.Machine.execNeg d a s
  | .fabs d a fs => Sys2Proof.Machine.execFabs d a fs s
  | .fneg d a fs => Sys2Proof.Machine.execFneg d a fs s
  | .crd d im => Sys2Proof.Machine.execCrd d im s
  | .mova d a => Sys2Proof.Machine.execMova d a s
  | .movs d a => Sys2Proof.Machine.execMovs d a s
  | .movah d a => Sys2Proof.Machine.execMovah d a s
  | .movsh d a => Sys2Proof.Machine.execMovsh d a s
  | .ldb d a x im => Sys2Proof.Machine.execLdb d a x im s
  | .ldbz d a x im => Sys2Proof.Machine.execLdbz d a x im s
  | .ldh d a x im => Sys2Proof.Machine.execLdh d a x im s
  | .ldhz d a x im => Sys2Proof.Machine.execLdhz d a x im s
  | .ldw d a x im => Sys2Proof.Machine.execLdw d a x im s
  | .ldwz d a x im => Sys2Proof.Machine.execLdwz d a x im s
  | .ldd d a x im => Sys2Proof.Machine.execLdd d a x im s
  | .stb d a x im => Sys2Proof.Machine.execStb d a x im s
  | .sth d a x im => Sys2Proof.Machine.execSth d a x im s
  | .stw d a x im => Sys2Proof.Machine.execStw d a x im s
  | .std d a x im => Sys2Proof.Machine.execStd d a x im s
  | .ldl w d a x => Sys2Proof.Machine.execLdl w d a x s
  | .stl w d a x => Sys2Proof.Machine.execStl w d a x s
  | .lda d a x im => Sys2Proof.Machine.execLda d a x im s
  | .sta d a x im => Sys2Proof.Machine.execSta d a x im s
  | .amoadd d a b x => Sys2Proof.Machine.execAmoadd d a b x s
  | .amoswap d a b x => Sys2Proof.Machine.execAmoswap d a b x s
  | .amoand d a b x => Sys2Proof.Machine.execAmoand d a b x s
  | .amoor d a b x => Sys2Proof.Machine.execAmoor d a b x s
  | .amoxor d a b x => Sys2Proof.Machine.execAmoxor d a b x s
  | .amomin d a b x => Sys2Proof.Machine.execAmomin d a b x s
  | .amomax d a b x => Sys2Proof.Machine.execAmomax d a b x s
  | .amominn d a b x => Sys2Proof.Machine.execAmominn d a b x s
  | .cas d a b x => Sys2Proof.Machine.execCas d a b x s
  | .ladd d a b x => Sys2Proof.Machine.execLadd d a b x s
  | .lswap d a b x => Sys2Proof.Machine.execLswap d a b x s
  | .lmin d a b x => Sys2Proof.Machine.execLmin d a b x s
  | .lmax d a b x => Sys2Proof.Machine.execLmax d a b x s
  | .casl d a b x => Sys2Proof.Machine.execCasl d a b x s
  | .fence im => Sys2Proof.Machine.execFence im s
  | .pref a im => Sys2Proof.Machine.execPref a im s
  | .rld w d a b => Sys2Proof.Machine.execRld w d a b s
  | .rst w d a b => Sys2Proof.Machine.execRst w d a b s
  | .radd d a b => Sys2Proof.Machine.execRadd d a b s
  | .raddr d a b => Sys2Proof.Machine.execRaddr d a b s
  | .msg d a b => Sys2Proof.Machine.execMsg d a b s
  | .reply a => Sys2Proof.Machine.execReply a s
  | .hset d im => Sys2Proof.Machine.execHset d im s
  | .vadd w d a b m => Sys2Proof.Machine.execVadd w d a b m s
  | .vsub w d a b m => Sys2Proof.Machine.execVsub w d a b m s
  | .vmul w d a b m => Sys2Proof.Machine.execVmul w d a b m s
  | .vmulh w d a b m => Sys2Proof.Machine.execVmulh w d a b m s
  | .vand d a b m => Sys2Proof.Machine.execVand d a b m s
  | .vor d a b m => Sys2Proof.Machine.execVor d a b m s
  | .vxor d a b m => Sys2Proof.Machine.execVxor d a b m s
  | .vandn d a b m => Sys2Proof.Machine.execVandn d a b m s
  | .vsll w d a b m => Sys2Proof.Machine.execVsll w d a b m s
  | .vsrl w d a b m => Sys2Proof.Machine.execVsrl w d a b m s
  | .vsra w d a b m => Sys2Proof.Machine.execVsra w d a b m s
  | .vmin w d a b m => Sys2Proof.Machine.execVmin w d a b m s
  | .vmax w d a b m => Sys2Proof.Machine.execVmax w d a b m s
  | .vminn w d a b m => Sys2Proof.Machine.execVminn w d a b m s
  | .vmaxn w d a b m => Sys2Proof.Machine.execVmaxn w d a b m s
  | .vceqE32 d a b m => Sys2Proof.Machine.execVceqE32 d a b m s
  | .vcneE32 d a b m => Sys2Proof.Machine.execVcneE32 d a b m s
  | .vcltE32 d a b m => Sys2Proof.Machine.execVcltE32 d a b m s
  | .vcltnE32 d a b m => Sys2Proof.Machine.execVcltnE32 d a b m s
  | .vceqE16 d a b m => Sys2Proof.Machine.execVceqE16 d a b m s
  | .vcneE16 d a b m => Sys2Proof.Machine.execVcneE16 d a b m s
  | .vcltE16 d a b m => Sys2Proof.Machine.execVcltE16 d a b m s
  | .vcltnE16 d a b m => Sys2Proof.Machine.execVcltnE16 d a b m s
  | .vceqE8 d a b m => Sys2Proof.Machine.execVceqE8 d a b m s
  | .vcneE8 d a b m => Sys2Proof.Machine.execVcneE8 d a b m s
  | .vcltE8 d a b m => Sys2Proof.Machine.execVcltE8 d a b m s
  | .vcltnE8 d a b m => Sys2Proof.Machine.execVcltnE8 d a b m s
  | .vfadd w d a b m => Sys2Proof.Machine.execVfadd w d a b m s
  | .vfsub w d a b m => Sys2Proof.Machine.execVfsub w d a b m s
  | .vfmul w d a b m => Sys2Proof.Machine.execVfmul w d a b m s
  | .vffma w d a b m => Sys2Proof.Machine.execVffma w d a b m s
  | .vfmin w d a b m => Sys2Proof.Machine.execVfmin w d a b m s
  | .vfmax w d a b m => Sys2Proof.Machine.execVfmax w d a b m s
  | .vfceq d a b m => Sys2Proof.Machine.execVfceq d a b m s
  | .vfclt d a b m => Sys2Proof.Machine.execVfclt d a b m s
  | .vfcle d a b m => Sys2Proof.Machine.execVfcle d a b m s
  | .vfcun d a b m => Sys2Proof.Machine.execVfcun d a b m s
  | .vrcp d a m => Sys2Proof.Machine.execVrcp d a m s
  | .vrsq d a m => Sys2Proof.Machine.execVrsq d a m s
  | .vexp2 d a m => Sys2Proof.Machine.execVexp2 d a m s
  | .vlog2 d a m => Sys2Proof.Machine.execVlog2 d a m s
  | .vsin d a m => Sys2Proof.Machine.execVsin d a m s
  | .vcos d a m => Sys2Proof.Machine.execVcos d a m s
  | .vsqrt d a m => Sys2Proof.Machine.execVsqrt d a m s
  | .vtanh d a m => Sys2Proof.Machine.execVtanh d a m s
  | .vsel d a b m => Sys2Proof.Machine.execVsel d a b m s
  | .vbcast w d a m => Sys2Proof.Machine.execVbcast w d a m s
  | .vextr w d a b m => Sys2Proof.Machine.execVextr w d a b m s
  | .vins w d a b m => Sys2Proof.Machine.execVins w d a b m s
  | .viota w d m => Sys2Proof.Machine.execViota w d m s
  | .vredadd d a m => Sys2Proof.Machine.execVredadd d a m s
  | .vredfadd d a m => Sys2Proof.Machine.execVredfadd d a m s
  | .vredmin d a m => Sys2Proof.Machine.execVredmin d a m s
  | .vredmax d a m => Sys2Proof.Machine.execVredmax d a m s
  | .vwiden8 d a m => Sys2Proof.Machine.execVwiden8 d a m s
  | .vwiden16 d a m => Sys2Proof.Machine.execVwiden16 d a m s
  | .vnarrow16 d a m => Sys2Proof.Machine.execVnarrow16 d a m s
  | .vnarrow8 d a m => Sys2Proof.Machine.execVnarrow8 d a m s
  | .vld d a m im => Sys2Proof.Machine.execVld d a m im s
  | .vst d a m im => Sys2Proof.Machine.execVst d a m im s
  | .vlds w d a b m => Sys2Proof.Machine.execVlds w d a b m s
  | .vsts w d a b m => Sys2Proof.Machine.execVsts w d a b m s
  | .vgath w d a b m => Sys2Proof.Machine.execVgath w d a b m s
  | .vscat w d a b m => Sys2Proof.Machine.execVscat w d a b m s
  | .vldl d a m => Sys2Proof.Machine.execVldl d a m s
  | .vstl d a m => Sys2Proof.Machine.execVstl d a m s
  | .vgathl w d a b m => Sys2Proof.Machine.execVgathl w d a b m s
  | .vscatl w d a b m => Sys2Proof.Machine.execVscatl w d a b m s
  | .vperm w d a b m => Sys2Proof.Machine.execVperm w d a b m s
  | .vsldn w d a b m => Sys2Proof.Machine.execVsldn w d a b m s
  | .vslup w d a b m => Sys2Proof.Machine.execVslup w d a b m s
  | .vscanadd d a m => Sys2Proof.Machine.execVscanadd d a m s
  | .vscanfadd d a m => Sys2Proof.Machine.execVscanfadd d a m s
  | .mand d a b => Sys2Proof.Machine.execMand d a b s
  | .mor d a b => Sys2Proof.Machine.execMor d a b s
  | .mxor d a b => Sys2Proof.Machine.execMxor d a b s
  | .mandn d a b => Sys2Proof.Machine.execMandn d a b s
  | .mpop d a => Sys2Proof.Machine.execMpop d a s
  | .mfirst d a => Sys2Proof.Machine.execMfirst d a s
  | .mmovs d a => Sys2Proof.Machine.execMmovs d a s
  | .mmovm d a => Sys2Proof.Machine.execMmovm d a s
  | .gadd d a => Sys2Proof.Machine.execGadd d a s
  | .gfadd d a => Sys2Proof.Machine.execGfadd d a s
  | .gmin d a => Sys2Proof.Machine.execGmin d a s
  | .gmax d a => Sys2Proof.Machine.execGmax d a s
  | .vmov d a m => Sys2Proof.Machine.execVmov d a m s
  | .fmtset a b => Sys2Proof.Machine.execFmtset a b s
  | .fmtget d b => Sys2Proof.Machine.execFmtget d b s
  | .fset w a => Sys2Proof.Machine.execFset w a s
  | .cvt d a b => Sys2Proof.Machine.execCvt d a b s
  | .cvtef d a b => Sys2Proof.Machine.execCvtef d a b s
  | .fmtinv b => Sys2Proof.Machine.execFmtinv b s
  | .mma d a b => Sys2Proof.Machine.execMma d a b s
  | .mmaz d a b => Sys2Proof.Machine.execMmaz d a b s
  | .mmas d a b => Sys2Proof.Machine.execMmas d a b s
  | .mmasz d a b => Sys2Proof.Machine.execMmasz d a b s
  | .mzero d => Sys2Proof.Machine.execMzero d s
  | .mdrain d a => Sys2Proof.Machine.execMdrain d a s
  | .mdrainw d a => Sys2Proof.Machine.execMdrainw d a s
  | .accrd d a => Sys2Proof.Machine.execAccrd d a s
  | .accwr d a => Sys2Proof.Machine.execAccwr d a s
  | .neteval d a b => Sys2Proof.Machine.execNeteval d a b s
  | .msave a => Sys2Proof.Machine.execMsave a s
  | .mrstr a => Sys2Proof.Machine.execMrstr a s
  | .mqstat d => Sys2Proof.Machine.execMqstat d s
  | .copy a => Sys2Proof.Machine.execCopy a s
  | .txreq d a => Sys2Proof.Machine.execTxreq d a s
  | .waittl d a => Sys2Proof.Machine.execWaittl d a s
  | .tlrd d im => Sys2Proof.Machine.execTlrd d im s
  | .awset a b => Sys2Proof.Machine.execAwset a b s
  | .waitgen d a b => Sys2Proof.Machine.execWaitgen d a b s
  | .arrive d a b => Sys2Proof.Machine.execArrive d a b s
  | .arrivem d a b => Sys2Proof.Machine.execArrivem d a b s
  | .qcfg a => Sys2Proof.Machine.execQcfg a s
  | .qstat d a => Sys2Proof.Machine.execQstat d a s
  | .spawn d a b => Sys2Proof.Machine.execSpawn d a b s
  | .spawnw d a b => Sys2Proof.Machine.execSpawnw d a b s
  | .quit => Sys2Proof.Machine.execQuit s
  | .yield => Sys2Proof.Machine.execYield s
  | .sleep a => Sys2Proof.Machine.execSleep a s
  | .wake a => Sys2Proof.Machine.execWake a s
  | .resume a => Sys2Proof.Machine.execResume a s
  | .abort a => Sys2Proof.Machine.execAbort a s
  | .gang2 => Sys2Proof.Machine.execGang2 s
  | .gang4 => Sys2Proof.Machine.execGang4 s
  | .gang8 => Sys2Proof.Machine.execGang8 s
  | .split => Sys2Proof.Machine.execSplit s
  | .tagpub a b => Sys2Proof.Machine.execTagpub a b s
  | .tagwait a b => Sys2Proof.Machine.execTagwait a b s
  | .tagqry d a b => Sys2Proof.Machine.execTagqry d a b s
  | .qpush a b => Sys2Proof.Machine.execQpush a b s
  | .evpost a b => Sys2Proof.Machine.execEvpost a b s
  | .texldNearest d a b m => Sys2Proof.Machine.execTexldNearest d a b m s
  | .texldBilinear d a b m => Sys2Proof.Machine.execTexldBilinear d a b m s
  | .texldTrilinear d a b m => Sys2Proof.Machine.execTexldTrilinear d a b m s
  | .ldlod d a b => Sys2Proof.Machine.execLdlod d a b s
  | .texfence => Sys2Proof.Machine.execTexfence s
  | .fbflush => Sys2Proof.Machine.execFbflush s
  | .triemit a b => Sys2Proof.Machine.execTriemit a b s
  | .tripop d a => Sys2Proof.Machine.execTripop d a s
  | .tripopn d a => Sys2Proof.Machine.execTripopn d a s
  | .tridone a => Sys2Proof.Machine.execTridone a s
  | .pxlock a b => Sys2Proof.Machine.execPxlock a b s
  | .pxunlk a => Sys2Proof.Machine.execPxunlk a s
  | .laynew d => Sys2Proof.Machine.execLaynew d s
  | .layset d a b => Sys2Proof.Machine.execLayset d a b s
  | .layget d a b => Sys2Proof.Machine.execLayget d a b s
  | .laysplit d a b => Sys2Proof.Machine.execLaysplit d a b s
  | .laymerge a b => Sys2Proof.Machine.execLaymerge a b s
  | .layret a => Sys2Proof.Machine.execLayret a s
  | .compose a b => Sys2Proof.Machine.execCompose a b s
  | .reqpop d a => Sys2Proof.Machine.execReqpop d a s
  | .hput a => Sys2Proof.Machine.execHput a s
  | .hget a => Sys2Proof.Machine.execHget a s
  | .hamo a => Sys2Proof.Machine.execHamo a s
  | .hsend a => Sys2Proof.Machine.execHsend a s
  | .ccrd d a b => Sys2Proof.Machine.execCcrd d a b s
  | .epstat d a => Sys2Proof.Machine.execEpstat d a s
  | .csrr d im => Sys2Proof.Machine.execCsrr d im s
  | .csrw d im => Sys2Proof.Machine.execCsrw d im s
  | .trap im => Sys2Proof.Machine.execTrap im s
  | .rett => Sys2Proof.Machine.execRett s
  | .tlbinv a b => Sys2Proof.Machine.execTlbinv a b s
  | .harvest => Sys2Proof.Machine.execHarvest s
  | .ctxkill a => Sys2Proof.Machine.execCtxkill a s
  | .shroud a => Sys2Proof.Machine.execShroud a s
  | .illegalEncoding idx reason => Sys2Proof.Machine.execIllegalEncoding idx reason s
  | .transferPacketSend core => Sys2Proof.Machine.execTransferPacketSend core s
  | .softError h => Sys2Proof.Machine.execSoftError h s

end Sys2Proof.Machine
end

