-- ==== Sys2Proof/Machine/Operands.lean ====
section
/-! DEFINITION. What the scoreboard asks of a bundle: the registers it names, whether it is long-latency, whether it reads
formats, and whether it is a jump (03_thread R59, 02_encoding R34, 05_formats R100). -/

namespace Sys2Proof.Machine

open Sys2Proof

/-- Every v-, s- and a-register. -/
def everyV : List Reg := (List.range 32).map fun n => .v (BitVec.ofNat 5 n)
def everyS : List Reg := (List.range 32).map fun n => .s (BitVec.ofNat 5 n)
def everyA : List Reg := (List.range 16).map fun n => .a (BitVec.ofNat 4 n)

/-- Registers a bundle reads or writes. The groups of a NETEVAL depend on its record: it counts as naming every
v-register. -/
def regsOf : Instr → List Reg
  | .add d a b => [.s d, .s a, .s b]
  | .addw d a b => [.s d, .s a, .s b]
  | .sub d a b => [.s d, .s a, .s b]
  | .subw d a b => [.s d, .s a, .s b]
  | .and d a b => [.s d, .s a, .s b]
  | .or d a b => [.s d, .s a, .s b]
  | .xor d a b => [.s d, .s a, .s b]
  | .andn d a b => [.s d, .s a, .s b]
  | .sll d a b => [.s d, .s a, .s b]
  | .srl d a b => [.s d, .s a, .s b]
  | .sra d a b => [.s d, .s a, .s b]
  | .ror d a b => [.s d, .s a, .s b]
  | .ceq d a b => [.s d, .s a, .s b]
  | .cne d a b => [.s d, .s a, .s b]
  | .clt d a b => [.s d, .s a, .s b]
  | .cltn d a b => [.s d, .s a, .s b]
  | .addi d a _ => [.s d, .s a]
  | .andi d a _ => [.s d, .s a]
  | .ori d a _ => [.s d, .s a]
  | .xori d a _ => [.s d, .s a]
  | .slli d a _ => [.s d, .s a]
  | .srli d a _ => [.s d, .s a]
  | .srai d a _ => [.s d, .s a]
  | .clti d a _ => [.s d, .s a]
  | .li d _ => [.s d]
  | .mov d a => [.s d, .s a]
  | .movaa d a => [.a d, .a a]
  | .adda d a b => [.a d, .a a, .s b]
  | .adda2 d a b => [.a d, .a a, .s b]
  | .adda4 d a b => [.a d, .a a, .s b]
  | .adda8 d a b => [.a d, .a a, .s b]
  | .addai d a _ => [.a d, .a a]
  | .bz a _ => [.s a]
  | .bnz a _ => [.s a]
  | .bltz a _ => [.s a]
  | .bgez a _ => [.s a]
  | .bgtz a _ => [.s a]
  | .blez a _ => [.s a]
  | .bmany a _ => [.m a]
  | .bmnone a _ => [.m a]
  | .jal _ => [.s 28]
  | .jr a => [.s a]
  | .jalr d a => [.s d, .s a]
  | .mul d a b => [.s d, .s a, .s b]
  | .mulw d a b => [.s d, .s a, .s b]
  | .mulh d a b => [.s d, .s a, .s b]
  | .mulhn d a b => [.s d, .s a, .s b]
  | .div d a b => [.s d, .s a, .s b]
  | .divn d a b => [.s d, .s a, .s b]
  | .rem d a b => [.s d, .s a, .s b]
  | .remn d a b => [.s d, .s a, .s b]
  | .divw d a b => [.s d, .s a, .s b]
  | .divnw d a b => [.s d, .s a, .s b]
  | .remw d a b => [.s d, .s a, .s b]
  | .remnw d a b => [.s d, .s a, .s b]
  | .min d a b => [.s d, .s a, .s b]
  | .max d a b => [.s d, .s a, .s b]
  | .minn d a b => [.s d, .s a, .s b]
  | .maxn d a b => [.s d, .s a, .s b]
  | .clz d a => [.s d, .s a]
  | .ctz d a => [.s d, .s a]
  | .popc d a => [.s d, .s a]
  | .brev d a => [.s d, .s a]
  | .bext d a b => [.s d, .s a, .s b]
  | .bexts d a b => [.s d, .s a, .s b]
  | .bins d a b => [.s d, .s a, .s b]
  | .bmsk d a b => [.s d, .s a, .s b]
  | .bexti d a _ => [.s d, .s a]
  | .bextsi d a _ => [.s d, .s a]
  | .fshl d a b => [.s d, .s a, .s b]
  | .fshr d a b => [.s d, .s a, .s b]
  | .sel d a b => [.s d, .s a, .s b]
  | .sextb d a => [.s d, .s a]
  | .sexth d a => [.s d, .s a]
  | .sextw d a => [.s d, .s a]
  | .zextw d a => [.s d, .s a]
  | .fadd d a b _ => [.s d, .s a, .s b]
  | .fsub d a b _ => [.s d, .s a, .s b]
  | .fmul d a b _ => [.s d, .s a, .s b]
  | .ffma d a b _ => [.s d, .s a, .s b]
  | .feq d a b _ => [.s d, .s a, .s b]
  | .flt d a b _ => [.s d, .s a, .s b]
  | .fle d a b _ => [.s d, .s a, .s b]
  | .funord d a b _ => [.s d, .s a, .s b]
  | .ftoi d a _ => [.s d, .s a]
  | .itof d a _ => [.s d, .s a]
  | .ftoin d a _ => [.s d, .s a]
  | .itofn d a _ => [.s d, .s a]
  | .abs d a => [.s d, .s a]
  | .neg d a => [.s d, .s a]
  | .fabs d a _ => [.s d, .s a]
  | .fneg d a _ => [.s d, .s a]
  | .crd d _ => [.s d]
  | .mova d a => [.a d, .s a]
  | .movs d a => [.s d, .a a]
  | .movah d a => [.a d, .s a]
  | .movsh d a => [.s d, .a a]
  | .ldb d a _ _ => [.s d, .a a]
  | .ldbz d a _ _ => [.s d, .a a]
  | .ldh d a _ _ => [.s d, .a a]
  | .ldhz d a _ _ => [.s d, .a a]
  | .ldw d a _ _ => [.s d, .a a]
  | .ldwz d a _ _ => [.s d, .a a]
  | .ldd d a _ _ => [.s d, .a a]
  | .stb d a _ _ => [.s d, .a a]
  | .sth d a _ _ => [.s d, .a a]
  | .stw d a _ _ => [.s d, .a a]
  | .std d a _ _ => [.s d, .a a]
  | .ldl _ d a _ => [.s d, .s a]
  | .stl _ d a _ => [.s d, .s a]
  | .lda d a _ _ => [.a d, .a a]
  | .sta d a _ _ => [.a d, .a a]
  | .amoadd d a b _ => [.s d, .a a, .s b]
  | .amoswap d a b _ => [.s d, .a a, .s b]
  | .amoand d a b _ => [.s d, .a a, .s b]
  | .amoor d a b _ => [.s d, .a a, .s b]
  | .amoxor d a b _ => [.s d, .a a, .s b]
  | .amomin d a b _ => [.s d, .a a, .s b]
  | .amomax d a b _ => [.s d, .a a, .s b]
  | .amominn d a b _ => [.s d, .a a, .s b]
  | .cas d a b _ => [.s d, .a a, .s b]
  | .ladd d a b _ => [.s d, .s a, .s b]
  | .lswap d a b _ => [.s d, .s a, .s b]
  | .lmin d a b _ => [.s d, .s a, .s b]
  | .lmax d a b _ => [.s d, .s a, .s b]
  | .casl d a b _ => [.s d, .s a, .s b]
  | .pref a _ => [.a a]
  | .rld _ d a b => [.s d, .s a, .s b]
  | .rst _ d a b => [.s d, .s a, .s b]
  | .radd d a b => [.s d, .s a, .s b]
  | .raddr d a b => [.s d, .s a, .s b]
  | .msg _ a b => [.s a, .s b, .s (b + 1), .s (b + 2)]
  | .reply a => [.s a]
  | .hset d _ => [.s d]
  | .vadd _ d a b m => [.v d, .v a, .v b, .m m]
  | .vsub _ d a b m => [.v d, .v a, .v b, .m m]
  | .vmul _ d a b m => [.v d, .v a, .v b, .m m]
  | .vmulh _ d a b m => [.v d, .v a, .v b, .m m]
  | .vand d a b m => [.v d, .v a, .v b, .m m]
  | .vor d a b m => [.v d, .v a, .v b, .m m]
  | .vxor d a b m => [.v d, .v a, .v b, .m m]
  | .vandn d a b m => [.v d, .v a, .v b, .m m]
  | .vsll _ d a b m => [.v d, .v a, .v b, .m m]
  | .vsrl _ d a b m => [.v d, .v a, .v b, .m m]
  | .vsra _ d a b m => [.v d, .v a, .v b, .m m]
  | .vmin _ d a b m => [.v d, .v a, .v b, .m m]
  | .vmax _ d a b m => [.v d, .v a, .v b, .m m]
  | .vminn _ d a b m => [.v d, .v a, .v b, .m m]
  | .vmaxn _ d a b m => [.v d, .v a, .v b, .m m]
  | .vceqE32 d a b m => [.m d, .v a, .v b, .m m]
  | .vcneE32 d a b m => [.m d, .v a, .v b, .m m]
  | .vcltE32 d a b m => [.m d, .v a, .v b, .m m]
  | .vcltnE32 d a b m => [.m d, .v a, .v b, .m m]
  | .vceqE16 d a b m => [.m d, .v a, .v b, .m m]
  | .vcneE16 d a b m => [.m d, .v a, .v b, .m m]
  | .vcltE16 d a b m => [.m d, .v a, .v b, .m m]
  | .vcltnE16 d a b m => [.m d, .v a, .v b, .m m]
  | .vceqE8 d a b m => [.m d, .v a, .v b, .m m]
  | .vcneE8 d a b m => [.m d, .v a, .v b, .m m]
  | .vcltE8 d a b m => [.m d, .v a, .v b, .m m]
  | .vcltnE8 d a b m => [.m d, .v a, .v b, .m m]
  | .vfadd _ d a b m => [.v d, .v a, .v b, .m m]
  | .vfsub _ d a b m => [.v d, .v a, .v b, .m m]
  | .vfmul _ d a b m => [.v d, .v a, .v b, .m m]
  | .vffma _ d a b m => [.v d, .v a, .v b, .m m]
  | .vfmin _ d a b m => [.v d, .v a, .v b, .m m]
  | .vfmax _ d a b m => [.v d, .v a, .v b, .m m]
  | .vfceq d a b m => [.m d, .v a, .v b, .m m]
  | .vfclt d a b m => [.m d, .v a, .v b, .m m]
  | .vfcle d a b m => [.m d, .v a, .v b, .m m]
  | .vfcun d a b m => [.m d, .v a, .v b, .m m]
  | .vrcp d a m => [.v d, .v a, .m m]
  | .vrsq d a m => [.v d, .v a, .m m]
  | .vexp2 d a m => [.v d, .v a, .m m]
  | .vlog2 d a m => [.v d, .v a, .m m]
  | .vsin d a m => [.v d, .v a, .m m]
  | .vcos d a m => [.v d, .v a, .m m]
  | .vsqrt d a m => [.v d, .v a, .m m]
  | .vtanh d a m => [.v d, .v a, .m m]
  | .vsel d a b m => [.v d, .v a, .v b, .m m]
  | .vbcast _ d a m => [.v d, .s a, .m m]
  | .vextr _ d a b m => [.s d, .v a, .s b, .m m]
  | .vins _ d a b m => [.v d, .s a, .s b, .m m]
  | .viota _ d m => [.v d, .m m]
  | .vredadd d a m => [.s d, .v a, .m m]
  | .vredfadd d a m => [.s d, .v a, .m m]
  | .vredmin d a m => [.s d, .v a, .m m]
  | .vredmax d a m => [.s d, .v a, .m m]
  | .vwiden8 d a m => [.v d, .v a, .m m]
  | .vwiden16 d a m => [.v d, .v a, .m m]
  | .vnarrow16 d a m => [.v d, .v a, .m m]
  | .vnarrow8 d a m => [.v d, .v a, .m m]
  | .vld d a m _ => [.v d, .a a, .m m]
  | .vst d a m _ => [.v d, .a a, .m m]
  | .vlds _ d a b m => [.v d, .a a, .s b, .m m]
  | .vsts _ d a b m => [.v d, .a a, .s b, .m m]
  | .vgath _ d a b m => [.v d, .a a, .v b, .m m]
  | .vscat _ d a b m => [.v d, .a a, .v b, .m m]
  | .vldl d a m => [.v d, .s a, .m m]
  | .vstl d a m => [.v d, .s a, .m m]
  | .vgathl _ d a b m => [.v d, .s a, .v b, .m m]
  | .vscatl _ d a b m => [.v d, .s a, .v b, .m m]
  | .vperm _ d a b m => [.v d, .v a, .v b, .m m]
  | .vsldn _ d a b m => [.v d, .v a, .s b, .m m]
  | .vslup _ d a b m => [.v d, .v a, .s b, .m m]
  | .vscanadd d a m => [.v d, .v a, .m m]
  | .vscanfadd d a m => [.v d, .v a, .m m]
  | .mand d a b => [.m d, .m a, .m b]
  | .mor d a b => [.m d, .m a, .m b]
  | .mxor d a b => [.m d, .m a, .m b]
  | .mandn d a b => [.m d, .m a, .m b]
  | .mpop d a => [.s d, .m a]
  | .mfirst d a => [.s d, .m a]
  | .mmovs d a => [.s d, .m a]
  | .mmovm d a => [.m d, .s a]
  | .gadd d a => [.s d, .s a]
  | .gfadd d a => [.s d, .s a]
  | .gmin d a => [.s d, .s a]
  | .gmax d a => [.s d, .s a]
  | .vmov d a m => [.v d, .v a, .m m]
  | .fmtset a b => [.a a, .s b]
  | .fmtget d b => [.s d, .s b]
  | .fset _ a => [.s a]
  | .cvt d a b => [.v d, .v a, .s b]
  | .cvtef d a b => [.v d, .v a, .s b, .v (d + 1)]
  | .fmtinv b => [.s b]
  | .mma _ a b => [.s a, .s b]
  | .mmaz _ a b => [.s a, .s b]
  | .mmas _ a b => [.s a, .s b]
  | .mmasz _ a b => [.s a, .s b]
  | .mdrain _ a => [.s a]
  | .mdrainw _ a => [.s a]
  | .accrd d a => [.v d, .s a]
  | .accwr d a => [.v d, .s a]
  | .neteval _ _ b => .s b :: everyV
  | .msave a => [.a a]
  | .mrstr a => [.a a]
  | .mqstat d => [.s d]
  | .copy a => [.s a]
  | .txreq d a => [.s d, .s a]
  | .waittl _ a => [.s a]
  | .tlrd d _ => [.s d]
  | .awset a b => [.s a, .s b]
  | .waitgen d a b => [.s d, .s a, .s b]
  | .arrive d a b => [.s d, .s a, .s b]
  | .arrivem d a b => [.s d, .s a, .s b]
  | .qcfg a => [.s a]
  | .qstat d a => [.s d, .s a]
  | .spawn d a b => [.s d, .s a, .s b, .s 1, .s 2, .s 3, .s 4]
  | .spawnw d a b => [.s d, .s a, .s b, .s 1, .s 2, .s 3, .s 4]
  | .sleep a => [.s a]
  | .wake a => [.s a]
  | .resume a => [.s a]
  | .abort a => [.s a]
  | .gang2 => everyS ++ everyA
  | .gang4 => everyS ++ everyA
  | .gang8 => everyS ++ everyA
  | .tagpub a b => [.s a, .s b]
  | .tagwait a b => [.s a, .s b]
  | .tagqry d a b => [.s d, .s a, .s b]
  | .qpush a b => [.s a, .s b]
  | .evpost a b => [.s a, .s b]
  | .texldNearest d a b m => [.v d, .v a, .s b, .m m, .v (d + 1), .v (d + 2), .v (d + 3), .v (d + 4), .v (a + 1), .v (a + 2)]
  | .texldBilinear d a b m => [.v d, .v a, .s b, .m m, .v (d + 1), .v (d + 2), .v (d + 3), .v (d + 4), .v (a + 1), .v (a + 2)]
  | .texldTrilinear d a b m => [.v d, .v a, .s b, .m m, .v (d + 1), .v (d + 2), .v (d + 3), .v (d + 4), .v (a + 1), .v (a + 2)]
  | .ldlod d a b => [.v d, .s a, .s b, .v (d + 1)]
  | .triemit a b => [.s a, .s b]
  | .tripop d a => [.s d, .s a]
  | .tripopn d a => [.s d, .s a]
  | .tridone a => [.s a]
  | .pxlock a b => [.s a, .s b]
  | .pxunlk a => [.s a]
  | .laynew d => [.s d]
  | .layset d a b => [.s d, .s a, .s b]
  | .layget d a b => [.s d, .s a, .s b]
  | .laysplit d a b => [.s d, .s a, .s b]
  | .laymerge a b => [.s a, .s b]
  | .layret a => [.s a]
  | .compose a b => [.s a, .s b]
  | .reqpop d a => [.s d, .s a]
  | .hput a => [.s a]
  | .hget a => [.s a]
  | .hamo a => [.s a]
  | .hsend a => [.s a]
  | .ccrd d a b => [.s d, .s a, .s b]
  | .epstat d a => [.s d, .s a]
  | .csrr d _ => [.s d]
  | .csrw d _ => [.s d]
  | .tlbinv a b => [.a a, .s b]
  | .ctxkill a => [.s a]
  | .shroud a => [.s a]
  | .j _ | .fence _ | .mzero _ | .quit | .yield | .split | .texfence | .fbflush | .trap _ | .rett | .harvest
  | .deviceReset | .boot _ | .powerLimitSet _ | .reefGrant _ _ | .watchdogExpire _ | .messageRetry _ _
  | .sleepTimeout _ | .wakeArrive _ | .resumeArrive _ | .abortArrive _ | .longLatencyComplete _ _ | .sfuComplete _
  | .faultRecordRetry _ | .handlerLimit | .waittlComplete _ | .waitgenComplete _ | .tagwaitComplete _
  | .qinPopComplete _ | .qoutPushComplete _ | .spawnwComplete _ | .gangForm _ | .qcfgDisconnectComplete _
  | .tripopComplete _ | .pxlockGrant _ | .fmtsetInstall _ | .handlerStart _ _ | .builtinHandlerAccess _ _
  | .arrivalCredit _ _ | .l1Invalidate _ | .storeAck _ | .matrixTileStep _ | .matrixEntryComplete _
  | .drainWriteAck _ | .drainWake _ | .spawnQueueServe _ | .matrixFreeze _ | .spillReply _ _ | .mqctlStop _ _
  | .mqctlMaskerrClear _ | .copyUnit _ | .copyComplete _ | .engineFaultRetry _ _ | .compress _ | .decompress _
  | .fprint _ | .compare _ | .crc32c _ | .pageWalk _ | .adWriteback _ _ | .adWritebackTimeout _ _
  | .feedbackRecordWrite _ | .kernelEnd _ | .heldDoneUpdate _ | .heldPublicationApply _ | .groupAdmit _ _
  | .groupPlace _ | .groupEnd _ _ | .preemptionTrigger _ | .groupSaveComplete _ _ | .triangleDeliver _ _
  | .composite _ | .laysplitCopy _ | .laymergeFold _ | .commandArrive _ _ | .nop _ | .launch _ | .wait _ | .write _
  | .event _ | .blockClear _ | .queueStallRetry _ | .completionRecordRetry _ | .notifyTimer _ | .contextCreate _
  | .contextSuspend _ | .suspendComplete _ | .contextResume _ | .contextKill _ | .killFinish _ | .contextRelease _
  | .queueCreate _ | .queueSet _ | .queueDestroy _ | .vfSet _ | .vfReset _ | .vfctlReset _ | .vfResetGraceExpire
  | .vfResetDrainDone | .endpointOpen _ | .endpointClose _ | .trainingSucceeds _ | .signalLost _ | .portDisable _
  | .portEnable _ | .retransmit _ _ | .retransmitLimit _ _ | .packetWrite _ _ | .packetRead _ _ | .packetAtomic _ _
  | .packetSend _ _ | .packetAck _ _ _ | .elselClear _ | .illegalEncoding _ _ | .transferPacketSend _ | .softError _
    => []

/-- A long-latency bundle (R34). -/
def isLong : Instr → Bool
  | .div _ _ _ | .divn _ _ _ | .rem _ _ _ | .remn _ _ _ | .divw _ _ _ | .divnw _ _ _ | .remw _ _ _ | .remnw _ _ _
  | .ldb _ _ _ _ | .ldbz _ _ _ _ | .ldh _ _ _ _ | .ldhz _ _ _ _ | .ldw _ _ _ _ | .ldwz _ _ _ _ | .ldd _ _ _ _
  | .ldl _ _ _ _ | .lda _ _ _ _ | .amoadd _ _ _ _ | .amoswap _ _ _ _ | .amoand _ _ _ _ | .amoor _ _ _ _
  | .amoxor _ _ _ _ | .amomin _ _ _ _ | .amomax _ _ _ _ | .amominn _ _ _ _ | .cas _ _ _ _ | .ladd _ _ _ _
  | .lswap _ _ _ _ | .lmin _ _ _ _ | .lmax _ _ _ _ | .casl _ _ _ _ | .rld _ _ _ _ | .raddr _ _ _ | .vrcp _ _ _
  | .vrsq _ _ _ | .vexp2 _ _ _ | .vlog2 _ _ _ | .vsin _ _ _ | .vcos _ _ _ | .vsqrt _ _ _ | .vtanh _ _ _
  | .vld _ _ _ _ | .vlds _ _ _ _ _ | .vgath _ _ _ _ _ | .vldl _ _ _ | .vgathl _ _ _ _ _ | .gadd _ _ | .gfadd _ _
  | .gmin _ _ | .gmax _ _ | .fmtset _ _ | .fmtget _ _ | .accrd _ _ | .neteval _ _ _ | .msave _ | .mrstr _
  | .txreq _ _ | .tagqry _ _ _ | .texldNearest _ _ _ _ | .texldBilinear _ _ _ _ | .texldTrilinear _ _ _ _
  | .ldlod _ _ _ | .tripop _ _ | .tripopn _ _ | .laynew _ | .layget _ _ _ | .laysplit _ _ _ | .reqpop _ _
  | .ccrd _ _ _ | .epstat _ _ | .tlbinv _ _ | .harvest => true
  | .deviceReset | .boot _ | .powerLimitSet _ | .reefGrant _ _ | .watchdogExpire _ | .messageRetry _ _
  | .sleepTimeout _ | .wakeArrive _ | .resumeArrive _ | .abortArrive _ | .longLatencyComplete _ _ | .sfuComplete _
  | .faultRecordRetry _ | .handlerLimit | .waittlComplete _ | .waitgenComplete _ | .tagwaitComplete _
  | .qinPopComplete _ | .qoutPushComplete _ | .spawnwComplete _ | .gangForm _ | .qcfgDisconnectComplete _
  | .tripopComplete _ | .pxlockGrant _ | .fmtsetInstall _ | .handlerStart _ _ | .builtinHandlerAccess _ _
  | .arrivalCredit _ _ | .l1Invalidate _ | .storeAck _ | .matrixTileStep _ | .matrixEntryComplete _
  | .drainWriteAck _ | .drainWake _ | .spawnQueueServe _ | .matrixFreeze _ | .spillReply _ _ | .mqctlStop _ _
  | .mqctlMaskerrClear _ | .copyUnit _ | .copyComplete _ | .engineFaultRetry _ _ | .compress _ | .decompress _
  | .fprint _ | .compare _ | .crc32c _ | .pageWalk _ | .adWriteback _ _ | .adWritebackTimeout _ _
  | .feedbackRecordWrite _ | .kernelEnd _ | .heldDoneUpdate _ | .heldPublicationApply _ | .groupAdmit _ _
  | .groupPlace _ | .groupEnd _ _ | .preemptionTrigger _ | .groupSaveComplete _ _ | .triangleDeliver _ _
  | .composite _ | .laysplitCopy _ | .laymergeFold _ | .commandArrive _ _ | .nop _ | .launch _ | .wait _ | .write _
  | .event _ | .blockClear _ | .queueStallRetry _ | .completionRecordRetry _ | .notifyTimer _ | .contextCreate _
  | .contextSuspend _ | .suspendComplete _ | .contextResume _ | .contextKill _ | .killFinish _ | .contextRelease _
  | .queueCreate _ | .queueSet _ | .queueDestroy _ | .vfSet _ | .vfReset _ | .vfctlReset _ | .vfResetGraceExpire
  | .vfResetDrainDone | .endpointOpen _ | .endpointClose _ | .trainingSucceeds _ | .signalLost _ | .portDisable _
  | .portEnable _ | .retransmit _ _ | .retransmitLimit _ _ | .packetWrite _ _ | .packetRead _ _ | .packetAtomic _ _
  | .packetSend _ _ | .packetAck _ _ _ | .elselClear _ | .add _ _ _ | .addw _ _ _ | .sub _ _ _ | .subw _ _ _
  | .and _ _ _ | .or _ _ _ | .xor _ _ _ | .andn _ _ _ | .sll _ _ _ | .srl _ _ _ | .sra _ _ _ | .ror _ _ _
  | .ceq _ _ _ | .cne _ _ _ | .clt _ _ _ | .cltn _ _ _ | .addi _ _ _ | .andi _ _ _ | .ori _ _ _ | .xori _ _ _
  | .slli _ _ _ | .srli _ _ _ | .srai _ _ _ | .clti _ _ _ | .li _ _ | .mov _ _ | .movaa _ _ | .adda _ _ _
  | .adda2 _ _ _ | .adda4 _ _ _ | .adda8 _ _ _ | .addai _ _ _ | .bz _ _ | .bnz _ _ | .bltz _ _ | .bgez _ _
  | .bgtz _ _ | .blez _ _ | .bmany _ _ | .bmnone _ _ | .j _ | .jal _ | .jr _ | .jalr _ _ | .mul _ _ _ | .mulw _ _ _
  | .mulh _ _ _ | .mulhn _ _ _ | .min _ _ _ | .max _ _ _ | .minn _ _ _ | .maxn _ _ _ | .clz _ _ | .ctz _ _
  | .popc _ _ | .brev _ _ | .bext _ _ _ | .bexts _ _ _ | .bins _ _ _ | .bmsk _ _ _ | .bexti _ _ _ | .bextsi _ _ _
  | .fshl _ _ _ | .fshr _ _ _ | .sel _ _ _ | .sextb _ _ | .sexth _ _ | .sextw _ _ | .zextw _ _ | .fadd _ _ _ _
  | .fsub _ _ _ _ | .fmul _ _ _ _ | .ffma _ _ _ _ | .feq _ _ _ _ | .flt _ _ _ _ | .fle _ _ _ _ | .funord _ _ _ _
  | .ftoi _ _ _ | .itof _ _ _ | .ftoin _ _ _ | .itofn _ _ _ | .abs _ _ | .neg _ _ | .fabs _ _ _ | .fneg _ _ _
  | .crd _ _ | .mova _ _ | .movs _ _ | .movah _ _ | .movsh _ _ | .stb _ _ _ _ | .sth _ _ _ _ | .stw _ _ _ _
  | .std _ _ _ _ | .stl _ _ _ _ | .sta _ _ _ _ | .fence _ | .pref _ _ | .rst _ _ _ _ | .radd _ _ _ | .msg _ _ _
  | .reply _ | .hset _ _ | .vadd _ _ _ _ _ | .vsub _ _ _ _ _ | .vmul _ _ _ _ _ | .vmulh _ _ _ _ _ | .vand _ _ _ _
  | .vor _ _ _ _ | .vxor _ _ _ _ | .vandn _ _ _ _ | .vsll _ _ _ _ _ | .vsrl _ _ _ _ _ | .vsra _ _ _ _ _
  | .vmin _ _ _ _ _ | .vmax _ _ _ _ _ | .vminn _ _ _ _ _ | .vmaxn _ _ _ _ _ | .vceqE32 _ _ _ _ | .vcneE32 _ _ _ _
  | .vcltE32 _ _ _ _ | .vcltnE32 _ _ _ _ | .vceqE16 _ _ _ _ | .vcneE16 _ _ _ _ | .vcltE16 _ _ _ _ | .vcltnE16 _ _ _ _
  | .vceqE8 _ _ _ _ | .vcneE8 _ _ _ _ | .vcltE8 _ _ _ _ | .vcltnE8 _ _ _ _ | .vfadd _ _ _ _ _ | .vfsub _ _ _ _ _
  | .vfmul _ _ _ _ _ | .vffma _ _ _ _ _ | .vfmin _ _ _ _ _ | .vfmax _ _ _ _ _ | .vfceq _ _ _ _ | .vfclt _ _ _ _
  | .vfcle _ _ _ _ | .vfcun _ _ _ _ | .vsel _ _ _ _ | .vbcast _ _ _ _ | .vextr _ _ _ _ _ | .vins _ _ _ _ _
  | .viota _ _ _ | .vredadd _ _ _ | .vredfadd _ _ _ | .vredmin _ _ _ | .vredmax _ _ _ | .vwiden8 _ _ _
  | .vwiden16 _ _ _ | .vnarrow16 _ _ _ | .vnarrow8 _ _ _ | .vst _ _ _ _ | .vsts _ _ _ _ _ | .vscat _ _ _ _ _
  | .vstl _ _ _ | .vscatl _ _ _ _ _ | .vperm _ _ _ _ _ | .vsldn _ _ _ _ _ | .vslup _ _ _ _ _ | .vscanadd _ _ _
  | .vscanfadd _ _ _ | .mand _ _ _ | .mor _ _ _ | .mxor _ _ _ | .mandn _ _ _ | .mpop _ _ | .mfirst _ _ | .mmovs _ _
  | .mmovm _ _ | .vmov _ _ _ | .fset _ _ | .cvt _ _ _ | .cvtef _ _ _ | .fmtinv _ | .mma _ _ _ | .mmaz _ _ _
  | .mmas _ _ _ | .mmasz _ _ _ | .mzero _ | .mdrain _ _ | .mdrainw _ _ | .accwr _ _ | .mqstat _ | .copy _
  | .waittl _ _ | .tlrd _ _ | .awset _ _ | .waitgen _ _ _ | .arrive _ _ _ | .arrivem _ _ _ | .qcfg _ | .qstat _ _
  | .spawn _ _ _ | .spawnw _ _ _ | .quit | .yield | .sleep _ | .wake _ | .resume _ | .abort _ | .gang2 | .gang4
  | .gang8 | .split | .tagpub _ _ | .tagwait _ _ | .qpush _ _ | .evpost _ _ | .texfence | .fbflush | .triemit _ _
  | .tridone _ | .pxlock _ _ | .pxunlk _ | .layset _ _ _ | .laymerge _ _ | .layret _ | .compose _ _ | .hput _
  | .hget _ | .hamo _ | .hsend _ | .csrr _ _ | .csrw _ _ | .trap _ | .rett | .ctxkill _ | .shroud _
  | .illegalEncoding _ _ | .transferPacketSend _ | .softError _ => false

/-- A bundle that reads a format entry, FSEL or FFLAGS (R100): those R100 lists, and VSCANFADD and GFADD. -/
def readsFormats : Instr → Bool
  | .fadd _ _ _ _ | .fsub _ _ _ _ | .fmul _ _ _ _ | .ffma _ _ _ _ | .feq _ _ _ _ | .flt _ _ _ _ | .fle _ _ _ _
  | .funord _ _ _ _ | .ftoi _ _ _ | .itof _ _ _ | .ftoin _ _ _ | .itofn _ _ _ | .fabs _ _ _ | .fneg _ _ _
  | .vfadd _ _ _ _ _ | .vfsub _ _ _ _ _ | .vfmul _ _ _ _ _ | .vffma _ _ _ _ _ | .vfmin _ _ _ _ _ | .vfmax _ _ _ _ _
  | .vfceq _ _ _ _ | .vfclt _ _ _ _ | .vfcle _ _ _ _ | .vfcun _ _ _ _ | .vrcp _ _ _ | .vrsq _ _ _ | .vexp2 _ _ _
  | .vlog2 _ _ _ | .vsin _ _ _ | .vcos _ _ _ | .vsqrt _ _ _ | .vtanh _ _ _ | .vredfadd _ _ _ | .vscanfadd _ _ _
  | .gfadd _ _ | .fmtset _ _ | .fmtget _ _ | .fset _ _ | .cvt _ _ _ | .cvtef _ _ _ | .fmtinv _ | .mma _ _ _
  | .mmaz _ _ _ | .mmas _ _ _ | .mmasz _ _ _ | .mzero _ | .mdrain _ _ | .mdrainw _ _ | .accrd _ _ | .accwr _ _
  | .neteval _ _ _ | .msave _ | .mrstr _ | .mqstat _ | .copy _ | .texldNearest _ _ _ _ | .texldBilinear _ _ _ _
  | .texldTrilinear _ _ _ _ | .ldlod _ _ _ => true
  | .deviceReset | .boot _ | .powerLimitSet _ | .reefGrant _ _ | .watchdogExpire _ | .messageRetry _ _
  | .sleepTimeout _ | .wakeArrive _ | .resumeArrive _ | .abortArrive _ | .longLatencyComplete _ _ | .sfuComplete _
  | .faultRecordRetry _ | .handlerLimit | .waittlComplete _ | .waitgenComplete _ | .tagwaitComplete _
  | .qinPopComplete _ | .qoutPushComplete _ | .spawnwComplete _ | .gangForm _ | .qcfgDisconnectComplete _
  | .tripopComplete _ | .pxlockGrant _ | .fmtsetInstall _ | .handlerStart _ _ | .builtinHandlerAccess _ _
  | .arrivalCredit _ _ | .l1Invalidate _ | .storeAck _ | .matrixTileStep _ | .matrixEntryComplete _
  | .drainWriteAck _ | .drainWake _ | .spawnQueueServe _ | .matrixFreeze _ | .spillReply _ _ | .mqctlStop _ _
  | .mqctlMaskerrClear _ | .copyUnit _ | .copyComplete _ | .engineFaultRetry _ _ | .compress _ | .decompress _
  | .fprint _ | .compare _ | .crc32c _ | .pageWalk _ | .adWriteback _ _ | .adWritebackTimeout _ _
  | .feedbackRecordWrite _ | .kernelEnd _ | .heldDoneUpdate _ | .heldPublicationApply _ | .groupAdmit _ _
  | .groupPlace _ | .groupEnd _ _ | .preemptionTrigger _ | .groupSaveComplete _ _ | .triangleDeliver _ _
  | .composite _ | .laysplitCopy _ | .laymergeFold _ | .commandArrive _ _ | .nop _ | .launch _ | .wait _ | .write _
  | .event _ | .blockClear _ | .queueStallRetry _ | .completionRecordRetry _ | .notifyTimer _ | .contextCreate _
  | .contextSuspend _ | .suspendComplete _ | .contextResume _ | .contextKill _ | .killFinish _ | .contextRelease _
  | .queueCreate _ | .queueSet _ | .queueDestroy _ | .vfSet _ | .vfReset _ | .vfctlReset _ | .vfResetGraceExpire
  | .vfResetDrainDone | .endpointOpen _ | .endpointClose _ | .trainingSucceeds _ | .signalLost _ | .portDisable _
  | .portEnable _ | .retransmit _ _ | .retransmitLimit _ _ | .packetWrite _ _ | .packetRead _ _ | .packetAtomic _ _
  | .packetSend _ _ | .packetAck _ _ _ | .elselClear _ | .add _ _ _ | .addw _ _ _ | .sub _ _ _ | .subw _ _ _
  | .and _ _ _ | .or _ _ _ | .xor _ _ _ | .andn _ _ _ | .sll _ _ _ | .srl _ _ _ | .sra _ _ _ | .ror _ _ _
  | .ceq _ _ _ | .cne _ _ _ | .clt _ _ _ | .cltn _ _ _ | .addi _ _ _ | .andi _ _ _ | .ori _ _ _ | .xori _ _ _
  | .slli _ _ _ | .srli _ _ _ | .srai _ _ _ | .clti _ _ _ | .li _ _ | .mov _ _ | .movaa _ _ | .adda _ _ _
  | .adda2 _ _ _ | .adda4 _ _ _ | .adda8 _ _ _ | .addai _ _ _ | .bz _ _ | .bnz _ _ | .bltz _ _ | .bgez _ _
  | .bgtz _ _ | .blez _ _ | .bmany _ _ | .bmnone _ _ | .j _ | .jal _ | .jr _ | .jalr _ _ | .mul _ _ _ | .mulw _ _ _
  | .mulh _ _ _ | .mulhn _ _ _ | .div _ _ _ | .divn _ _ _ | .rem _ _ _ | .remn _ _ _ | .divw _ _ _ | .divnw _ _ _
  | .remw _ _ _ | .remnw _ _ _ | .min _ _ _ | .max _ _ _ | .minn _ _ _ | .maxn _ _ _ | .clz _ _ | .ctz _ _
  | .popc _ _ | .brev _ _ | .bext _ _ _ | .bexts _ _ _ | .bins _ _ _ | .bmsk _ _ _ | .bexti _ _ _ | .bextsi _ _ _
  | .fshl _ _ _ | .fshr _ _ _ | .sel _ _ _ | .sextb _ _ | .sexth _ _ | .sextw _ _ | .zextw _ _ | .abs _ _ | .neg _ _
  | .crd _ _ | .mova _ _ | .movs _ _ | .movah _ _ | .movsh _ _ | .ldb _ _ _ _ | .ldbz _ _ _ _ | .ldh _ _ _ _
  | .ldhz _ _ _ _ | .ldw _ _ _ _ | .ldwz _ _ _ _ | .ldd _ _ _ _ | .stb _ _ _ _ | .sth _ _ _ _ | .stw _ _ _ _
  | .std _ _ _ _ | .ldl _ _ _ _ | .stl _ _ _ _ | .lda _ _ _ _ | .sta _ _ _ _ | .amoadd _ _ _ _ | .amoswap _ _ _ _
  | .amoand _ _ _ _ | .amoor _ _ _ _ | .amoxor _ _ _ _ | .amomin _ _ _ _ | .amomax _ _ _ _ | .amominn _ _ _ _
  | .cas _ _ _ _ | .ladd _ _ _ _ | .lswap _ _ _ _ | .lmin _ _ _ _ | .lmax _ _ _ _ | .casl _ _ _ _ | .fence _
  | .pref _ _ | .rld _ _ _ _ | .rst _ _ _ _ | .radd _ _ _ | .raddr _ _ _ | .msg _ _ _ | .reply _ | .hset _ _
  | .vadd _ _ _ _ _ | .vsub _ _ _ _ _ | .vmul _ _ _ _ _ | .vmulh _ _ _ _ _ | .vand _ _ _ _ | .vor _ _ _ _
  | .vxor _ _ _ _ | .vandn _ _ _ _ | .vsll _ _ _ _ _ | .vsrl _ _ _ _ _ | .vsra _ _ _ _ _ | .vmin _ _ _ _ _
  | .vmax _ _ _ _ _ | .vminn _ _ _ _ _ | .vmaxn _ _ _ _ _ | .vceqE32 _ _ _ _ | .vcneE32 _ _ _ _ | .vcltE32 _ _ _ _
  | .vcltnE32 _ _ _ _ | .vceqE16 _ _ _ _ | .vcneE16 _ _ _ _ | .vcltE16 _ _ _ _ | .vcltnE16 _ _ _ _ | .vceqE8 _ _ _ _
  | .vcneE8 _ _ _ _ | .vcltE8 _ _ _ _ | .vcltnE8 _ _ _ _ | .vsel _ _ _ _ | .vbcast _ _ _ _ | .vextr _ _ _ _ _
  | .vins _ _ _ _ _ | .viota _ _ _ | .vredadd _ _ _ | .vredmin _ _ _ | .vredmax _ _ _ | .vwiden8 _ _ _
  | .vwiden16 _ _ _ | .vnarrow16 _ _ _ | .vnarrow8 _ _ _ | .vld _ _ _ _ | .vst _ _ _ _ | .vlds _ _ _ _ _
  | .vsts _ _ _ _ _ | .vgath _ _ _ _ _ | .vscat _ _ _ _ _ | .vldl _ _ _ | .vstl _ _ _ | .vgathl _ _ _ _ _
  | .vscatl _ _ _ _ _ | .vperm _ _ _ _ _ | .vsldn _ _ _ _ _ | .vslup _ _ _ _ _ | .vscanadd _ _ _ | .mand _ _ _
  | .mor _ _ _ | .mxor _ _ _ | .mandn _ _ _ | .mpop _ _ | .mfirst _ _ | .mmovs _ _ | .mmovm _ _ | .gadd _ _
  | .gmin _ _ | .gmax _ _ | .vmov _ _ _ | .txreq _ _ | .waittl _ _ | .tlrd _ _ | .awset _ _ | .waitgen _ _ _
  | .arrive _ _ _ | .arrivem _ _ _ | .qcfg _ | .qstat _ _ | .spawn _ _ _ | .spawnw _ _ _ | .quit | .yield | .sleep _
  | .wake _ | .resume _ | .abort _ | .gang2 | .gang4 | .gang8 | .split | .tagpub _ _ | .tagwait _ _ | .tagqry _ _ _
  | .qpush _ _ | .evpost _ _ | .texfence | .fbflush | .triemit _ _ | .tripop _ _ | .tripopn _ _ | .tridone _
  | .pxlock _ _ | .pxunlk _ | .laynew _ | .layset _ _ _ | .layget _ _ _ | .laysplit _ _ _ | .laymerge _ _ | .layret _
  | .compose _ _ | .reqpop _ _ | .hput _ | .hget _ | .hamo _ | .hsend _ | .ccrd _ _ _ | .epstat _ _ | .csrr _ _
  | .csrw _ _ | .trap _ | .rett | .tlbinv _ _ | .harvest | .ctxkill _ | .shroud _ | .illegalEncoding _ _
  | .transferPacketSend _ | .softError _ => false

/-- A bundle that may lead to its own address. -/
def isJump : Instr → Bool
  | .bz _ _ | .bnz _ _ | .bltz _ _ | .bgez _ _ | .bgtz _ _ | .blez _ _ | .bmany _ _ | .bmnone _ _ | .j _ | .jal _
  | .jr _ | .jalr _ _ | .rett => true
  | .deviceReset | .boot _ | .powerLimitSet _ | .reefGrant _ _ | .watchdogExpire _ | .messageRetry _ _
  | .sleepTimeout _ | .wakeArrive _ | .resumeArrive _ | .abortArrive _ | .longLatencyComplete _ _ | .sfuComplete _
  | .faultRecordRetry _ | .handlerLimit | .waittlComplete _ | .waitgenComplete _ | .tagwaitComplete _
  | .qinPopComplete _ | .qoutPushComplete _ | .spawnwComplete _ | .gangForm _ | .qcfgDisconnectComplete _
  | .tripopComplete _ | .pxlockGrant _ | .fmtsetInstall _ | .handlerStart _ _ | .builtinHandlerAccess _ _
  | .arrivalCredit _ _ | .l1Invalidate _ | .storeAck _ | .matrixTileStep _ | .matrixEntryComplete _
  | .drainWriteAck _ | .drainWake _ | .spawnQueueServe _ | .matrixFreeze _ | .spillReply _ _ | .mqctlStop _ _
  | .mqctlMaskerrClear _ | .copyUnit _ | .copyComplete _ | .engineFaultRetry _ _ | .compress _ | .decompress _
  | .fprint _ | .compare _ | .crc32c _ | .pageWalk _ | .adWriteback _ _ | .adWritebackTimeout _ _
  | .feedbackRecordWrite _ | .kernelEnd _ | .heldDoneUpdate _ | .heldPublicationApply _ | .groupAdmit _ _
  | .groupPlace _ | .groupEnd _ _ | .preemptionTrigger _ | .groupSaveComplete _ _ | .triangleDeliver _ _
  | .composite _ | .laysplitCopy _ | .laymergeFold _ | .commandArrive _ _ | .nop _ | .launch _ | .wait _ | .write _
  | .event _ | .blockClear _ | .queueStallRetry _ | .completionRecordRetry _ | .notifyTimer _ | .contextCreate _
  | .contextSuspend _ | .suspendComplete _ | .contextResume _ | .contextKill _ | .killFinish _ | .contextRelease _
  | .queueCreate _ | .queueSet _ | .queueDestroy _ | .vfSet _ | .vfReset _ | .vfctlReset _ | .vfResetGraceExpire
  | .vfResetDrainDone | .endpointOpen _ | .endpointClose _ | .trainingSucceeds _ | .signalLost _ | .portDisable _
  | .portEnable _ | .retransmit _ _ | .retransmitLimit _ _ | .packetWrite _ _ | .packetRead _ _ | .packetAtomic _ _
  | .packetSend _ _ | .packetAck _ _ _ | .elselClear _ | .add _ _ _ | .addw _ _ _ | .sub _ _ _ | .subw _ _ _
  | .and _ _ _ | .or _ _ _ | .xor _ _ _ | .andn _ _ _ | .sll _ _ _ | .srl _ _ _ | .sra _ _ _ | .ror _ _ _
  | .ceq _ _ _ | .cne _ _ _ | .clt _ _ _ | .cltn _ _ _ | .addi _ _ _ | .andi _ _ _ | .ori _ _ _ | .xori _ _ _
  | .slli _ _ _ | .srli _ _ _ | .srai _ _ _ | .clti _ _ _ | .li _ _ | .mov _ _ | .movaa _ _ | .adda _ _ _
  | .adda2 _ _ _ | .adda4 _ _ _ | .adda8 _ _ _ | .addai _ _ _ | .mul _ _ _ | .mulw _ _ _ | .mulh _ _ _ | .mulhn _ _ _
  | .div _ _ _ | .divn _ _ _ | .rem _ _ _ | .remn _ _ _ | .divw _ _ _ | .divnw _ _ _ | .remw _ _ _ | .remnw _ _ _
  | .min _ _ _ | .max _ _ _ | .minn _ _ _ | .maxn _ _ _ | .clz _ _ | .ctz _ _ | .popc _ _ | .brev _ _ | .bext _ _ _
  | .bexts _ _ _ | .bins _ _ _ | .bmsk _ _ _ | .bexti _ _ _ | .bextsi _ _ _ | .fshl _ _ _ | .fshr _ _ _ | .sel _ _ _
  | .sextb _ _ | .sexth _ _ | .sextw _ _ | .zextw _ _ | .fadd _ _ _ _ | .fsub _ _ _ _ | .fmul _ _ _ _ | .ffma _ _ _ _
  | .feq _ _ _ _ | .flt _ _ _ _ | .fle _ _ _ _ | .funord _ _ _ _ | .ftoi _ _ _ | .itof _ _ _ | .ftoin _ _ _
  | .itofn _ _ _ | .abs _ _ | .neg _ _ | .fabs _ _ _ | .fneg _ _ _ | .crd _ _ | .mova _ _ | .movs _ _ | .movah _ _
  | .movsh _ _ | .ldb _ _ _ _ | .ldbz _ _ _ _ | .ldh _ _ _ _ | .ldhz _ _ _ _ | .ldw _ _ _ _ | .ldwz _ _ _ _
  | .ldd _ _ _ _ | .stb _ _ _ _ | .sth _ _ _ _ | .stw _ _ _ _ | .std _ _ _ _ | .ldl _ _ _ _ | .stl _ _ _ _
  | .lda _ _ _ _ | .sta _ _ _ _ | .amoadd _ _ _ _ | .amoswap _ _ _ _ | .amoand _ _ _ _ | .amoor _ _ _ _
  | .amoxor _ _ _ _ | .amomin _ _ _ _ | .amomax _ _ _ _ | .amominn _ _ _ _ | .cas _ _ _ _ | .ladd _ _ _ _
  | .lswap _ _ _ _ | .lmin _ _ _ _ | .lmax _ _ _ _ | .casl _ _ _ _ | .fence _ | .pref _ _ | .rld _ _ _ _
  | .rst _ _ _ _ | .radd _ _ _ | .raddr _ _ _ | .msg _ _ _ | .reply _ | .hset _ _ | .vadd _ _ _ _ _ | .vsub _ _ _ _ _
  | .vmul _ _ _ _ _ | .vmulh _ _ _ _ _ | .vand _ _ _ _ | .vor _ _ _ _ | .vxor _ _ _ _ | .vandn _ _ _ _
  | .vsll _ _ _ _ _ | .vsrl _ _ _ _ _ | .vsra _ _ _ _ _ | .vmin _ _ _ _ _ | .vmax _ _ _ _ _ | .vminn _ _ _ _ _
  | .vmaxn _ _ _ _ _ | .vceqE32 _ _ _ _ | .vcneE32 _ _ _ _ | .vcltE32 _ _ _ _ | .vcltnE32 _ _ _ _ | .vceqE16 _ _ _ _
  | .vcneE16 _ _ _ _ | .vcltE16 _ _ _ _ | .vcltnE16 _ _ _ _ | .vceqE8 _ _ _ _ | .vcneE8 _ _ _ _ | .vcltE8 _ _ _ _
  | .vcltnE8 _ _ _ _ | .vfadd _ _ _ _ _ | .vfsub _ _ _ _ _ | .vfmul _ _ _ _ _ | .vffma _ _ _ _ _ | .vfmin _ _ _ _ _
  | .vfmax _ _ _ _ _ | .vfceq _ _ _ _ | .vfclt _ _ _ _ | .vfcle _ _ _ _ | .vfcun _ _ _ _ | .vrcp _ _ _ | .vrsq _ _ _
  | .vexp2 _ _ _ | .vlog2 _ _ _ | .vsin _ _ _ | .vcos _ _ _ | .vsqrt _ _ _ | .vtanh _ _ _ | .vsel _ _ _ _
  | .vbcast _ _ _ _ | .vextr _ _ _ _ _ | .vins _ _ _ _ _ | .viota _ _ _ | .vredadd _ _ _ | .vredfadd _ _ _
  | .vredmin _ _ _ | .vredmax _ _ _ | .vwiden8 _ _ _ | .vwiden16 _ _ _ | .vnarrow16 _ _ _ | .vnarrow8 _ _ _
  | .vld _ _ _ _ | .vst _ _ _ _ | .vlds _ _ _ _ _ | .vsts _ _ _ _ _ | .vgath _ _ _ _ _ | .vscat _ _ _ _ _
  | .vldl _ _ _ | .vstl _ _ _ | .vgathl _ _ _ _ _ | .vscatl _ _ _ _ _ | .vperm _ _ _ _ _ | .vsldn _ _ _ _ _
  | .vslup _ _ _ _ _ | .vscanadd _ _ _ | .vscanfadd _ _ _ | .mand _ _ _ | .mor _ _ _ | .mxor _ _ _ | .mandn _ _ _
  | .mpop _ _ | .mfirst _ _ | .mmovs _ _ | .mmovm _ _ | .gadd _ _ | .gfadd _ _ | .gmin _ _ | .gmax _ _ | .vmov _ _ _
  | .fmtset _ _ | .fmtget _ _ | .fset _ _ | .cvt _ _ _ | .cvtef _ _ _ | .fmtinv _ | .mma _ _ _ | .mmaz _ _ _
  | .mmas _ _ _ | .mmasz _ _ _ | .mzero _ | .mdrain _ _ | .mdrainw _ _ | .accrd _ _ | .accwr _ _ | .neteval _ _ _
  | .msave _ | .mrstr _ | .mqstat _ | .copy _ | .txreq _ _ | .waittl _ _ | .tlrd _ _ | .awset _ _ | .waitgen _ _ _
  | .arrive _ _ _ | .arrivem _ _ _ | .qcfg _ | .qstat _ _ | .spawn _ _ _ | .spawnw _ _ _ | .quit | .yield | .sleep _
  | .wake _ | .resume _ | .abort _ | .gang2 | .gang4 | .gang8 | .split | .tagpub _ _ | .tagwait _ _ | .tagqry _ _ _
  | .qpush _ _ | .evpost _ _ | .texldNearest _ _ _ _ | .texldBilinear _ _ _ _ | .texldTrilinear _ _ _ _
  | .ldlod _ _ _ | .texfence | .fbflush | .triemit _ _ | .tripop _ _ | .tripopn _ _ | .tridone _ | .pxlock _ _
  | .pxunlk _ | .laynew _ | .layset _ _ _ | .layget _ _ _ | .laysplit _ _ _ | .laymerge _ _ | .layret _
  | .compose _ _ | .reqpop _ _ | .hput _ | .hget _ | .hamo _ | .hsend _ | .ccrd _ _ _ | .epstat _ _ | .csrr _ _
  | .csrw _ _ | .trap _ | .tlbinv _ _ | .harvest | .ctxkill _ | .shroud _ | .illegalEncoding _ _
  | .transferPacketSend _ | .softError _ => false

/-- It acts for the bundle being issued; the rest are the device's own steps. -/
def isBundle : Instr → Bool
  | .handlerLimit | .add _ _ _ | .addw _ _ _ | .sub _ _ _ | .subw _ _ _ | .and _ _ _ | .or _ _ _ | .xor _ _ _
  | .andn _ _ _ | .sll _ _ _ | .srl _ _ _ | .sra _ _ _ | .ror _ _ _ | .ceq _ _ _ | .cne _ _ _ | .clt _ _ _
  | .cltn _ _ _ | .addi _ _ _ | .andi _ _ _ | .ori _ _ _ | .xori _ _ _ | .slli _ _ _ | .srli _ _ _ | .srai _ _ _
  | .clti _ _ _ | .li _ _ | .mov _ _ | .movaa _ _ | .adda _ _ _ | .adda2 _ _ _ | .adda4 _ _ _ | .adda8 _ _ _
  | .addai _ _ _ | .bz _ _ | .bnz _ _ | .bltz _ _ | .bgez _ _ | .bgtz _ _ | .blez _ _ | .bmany _ _ | .bmnone _ _
  | .j _ | .jal _ | .jr _ | .jalr _ _ | .mul _ _ _ | .mulw _ _ _ | .mulh _ _ _ | .mulhn _ _ _ | .div _ _ _
  | .divn _ _ _ | .rem _ _ _ | .remn _ _ _ | .divw _ _ _ | .divnw _ _ _ | .remw _ _ _ | .remnw _ _ _ | .min _ _ _
  | .max _ _ _ | .minn _ _ _ | .maxn _ _ _ | .clz _ _ | .ctz _ _ | .popc _ _ | .brev _ _ | .bext _ _ _ | .bexts _ _ _
  | .bins _ _ _ | .bmsk _ _ _ | .bexti _ _ _ | .bextsi _ _ _ | .fshl _ _ _ | .fshr _ _ _ | .sel _ _ _ | .sextb _ _
  | .sexth _ _ | .sextw _ _ | .zextw _ _ | .fadd _ _ _ _ | .fsub _ _ _ _ | .fmul _ _ _ _ | .ffma _ _ _ _
  | .feq _ _ _ _ | .flt _ _ _ _ | .fle _ _ _ _ | .funord _ _ _ _ | .ftoi _ _ _ | .itof _ _ _ | .ftoin _ _ _
  | .itofn _ _ _ | .abs _ _ | .neg _ _ | .fabs _ _ _ | .fneg _ _ _ | .crd _ _ | .mova _ _ | .movs _ _ | .movah _ _
  | .movsh _ _ | .ldb _ _ _ _ | .ldbz _ _ _ _ | .ldh _ _ _ _ | .ldhz _ _ _ _ | .ldw _ _ _ _ | .ldwz _ _ _ _
  | .ldd _ _ _ _ | .stb _ _ _ _ | .sth _ _ _ _ | .stw _ _ _ _ | .std _ _ _ _ | .ldl _ _ _ _ | .stl _ _ _ _
  | .lda _ _ _ _ | .sta _ _ _ _ | .amoadd _ _ _ _ | .amoswap _ _ _ _ | .amoand _ _ _ _ | .amoor _ _ _ _
  | .amoxor _ _ _ _ | .amomin _ _ _ _ | .amomax _ _ _ _ | .amominn _ _ _ _ | .cas _ _ _ _ | .ladd _ _ _ _
  | .lswap _ _ _ _ | .lmin _ _ _ _ | .lmax _ _ _ _ | .casl _ _ _ _ | .fence _ | .pref _ _ | .rld _ _ _ _
  | .rst _ _ _ _ | .radd _ _ _ | .raddr _ _ _ | .msg _ _ _ | .reply _ | .hset _ _ | .vadd _ _ _ _ _ | .vsub _ _ _ _ _
  | .vmul _ _ _ _ _ | .vmulh _ _ _ _ _ | .vand _ _ _ _ | .vor _ _ _ _ | .vxor _ _ _ _ | .vandn _ _ _ _
  | .vsll _ _ _ _ _ | .vsrl _ _ _ _ _ | .vsra _ _ _ _ _ | .vmin _ _ _ _ _ | .vmax _ _ _ _ _ | .vminn _ _ _ _ _
  | .vmaxn _ _ _ _ _ | .vceqE32 _ _ _ _ | .vcneE32 _ _ _ _ | .vcltE32 _ _ _ _ | .vcltnE32 _ _ _ _ | .vceqE16 _ _ _ _
  | .vcneE16 _ _ _ _ | .vcltE16 _ _ _ _ | .vcltnE16 _ _ _ _ | .vceqE8 _ _ _ _ | .vcneE8 _ _ _ _ | .vcltE8 _ _ _ _
  | .vcltnE8 _ _ _ _ | .vfadd _ _ _ _ _ | .vfsub _ _ _ _ _ | .vfmul _ _ _ _ _ | .vffma _ _ _ _ _ | .vfmin _ _ _ _ _
  | .vfmax _ _ _ _ _ | .vfceq _ _ _ _ | .vfclt _ _ _ _ | .vfcle _ _ _ _ | .vfcun _ _ _ _ | .vrcp _ _ _ | .vrsq _ _ _
  | .vexp2 _ _ _ | .vlog2 _ _ _ | .vsin _ _ _ | .vcos _ _ _ | .vsqrt _ _ _ | .vtanh _ _ _ | .vsel _ _ _ _
  | .vbcast _ _ _ _ | .vextr _ _ _ _ _ | .vins _ _ _ _ _ | .viota _ _ _ | .vredadd _ _ _ | .vredfadd _ _ _
  | .vredmin _ _ _ | .vredmax _ _ _ | .vwiden8 _ _ _ | .vwiden16 _ _ _ | .vnarrow16 _ _ _ | .vnarrow8 _ _ _
  | .vld _ _ _ _ | .vst _ _ _ _ | .vlds _ _ _ _ _ | .vsts _ _ _ _ _ | .vgath _ _ _ _ _ | .vscat _ _ _ _ _
  | .vldl _ _ _ | .vstl _ _ _ | .vgathl _ _ _ _ _ | .vscatl _ _ _ _ _ | .vperm _ _ _ _ _ | .vsldn _ _ _ _ _
  | .vslup _ _ _ _ _ | .vscanadd _ _ _ | .vscanfadd _ _ _ | .mand _ _ _ | .mor _ _ _ | .mxor _ _ _ | .mandn _ _ _
  | .mpop _ _ | .mfirst _ _ | .mmovs _ _ | .mmovm _ _ | .gadd _ _ | .gfadd _ _ | .gmin _ _ | .gmax _ _ | .vmov _ _ _
  | .fmtset _ _ | .fmtget _ _ | .fset _ _ | .cvt _ _ _ | .cvtef _ _ _ | .fmtinv _ | .mma _ _ _ | .mmaz _ _ _
  | .mmas _ _ _ | .mmasz _ _ _ | .mzero _ | .mdrain _ _ | .mdrainw _ _ | .accrd _ _ | .accwr _ _ | .neteval _ _ _
  | .msave _ | .mrstr _ | .mqstat _ | .copy _ | .txreq _ _ | .waittl _ _ | .tlrd _ _ | .awset _ _ | .waitgen _ _ _
  | .arrive _ _ _ | .arrivem _ _ _ | .qcfg _ | .qstat _ _ | .spawn _ _ _ | .spawnw _ _ _ | .quit | .yield | .sleep _
  | .wake _ | .resume _ | .abort _ | .gang2 | .gang4 | .gang8 | .split | .tagpub _ _ | .tagwait _ _ | .tagqry _ _ _
  | .qpush _ _ | .evpost _ _ | .texldNearest _ _ _ _ | .texldBilinear _ _ _ _ | .texldTrilinear _ _ _ _
  | .ldlod _ _ _ | .texfence | .fbflush | .triemit _ _ | .tripop _ _ | .tripopn _ _ | .tridone _ | .pxlock _ _
  | .pxunlk _ | .laynew _ | .layset _ _ _ | .layget _ _ _ | .laysplit _ _ _ | .laymerge _ _ | .layret _
  | .compose _ _ | .reqpop _ _ | .hput _ | .hget _ | .hamo _ | .hsend _ | .ccrd _ _ _ | .epstat _ _ | .csrr _ _
  | .csrw _ _ | .trap _ | .rett | .tlbinv _ _ | .harvest | .ctxkill _ | .shroud _ | .illegalEncoding _ _ => true
  | .deviceReset | .boot _ | .powerLimitSet _ | .reefGrant _ _ | .watchdogExpire _ | .messageRetry _ _
  | .sleepTimeout _ | .wakeArrive _ | .resumeArrive _ | .abortArrive _ | .longLatencyComplete _ _ | .sfuComplete _
  | .faultRecordRetry _ | .waittlComplete _ | .waitgenComplete _ | .tagwaitComplete _ | .qinPopComplete _
  | .qoutPushComplete _ | .spawnwComplete _ | .gangForm _ | .qcfgDisconnectComplete _ | .tripopComplete _
  | .pxlockGrant _ | .fmtsetInstall _ | .handlerStart _ _ | .builtinHandlerAccess _ _ | .arrivalCredit _ _
  | .l1Invalidate _ | .storeAck _ | .matrixTileStep _ | .matrixEntryComplete _ | .drainWriteAck _ | .drainWake _
  | .spawnQueueServe _ | .matrixFreeze _ | .spillReply _ _ | .mqctlStop _ _ | .mqctlMaskerrClear _ | .copyUnit _
  | .copyComplete _ | .engineFaultRetry _ _ | .compress _ | .decompress _ | .fprint _ | .compare _ | .crc32c _
  | .pageWalk _ | .adWriteback _ _ | .adWritebackTimeout _ _ | .feedbackRecordWrite _ | .kernelEnd _
  | .heldDoneUpdate _ | .heldPublicationApply _ | .groupAdmit _ _ | .groupPlace _ | .groupEnd _ _
  | .preemptionTrigger _ | .groupSaveComplete _ _ | .triangleDeliver _ _ | .composite _ | .laysplitCopy _
  | .laymergeFold _ | .commandArrive _ _ | .nop _ | .launch _ | .wait _ | .write _ | .event _ | .blockClear _
  | .queueStallRetry _ | .completionRecordRetry _ | .notifyTimer _ | .contextCreate _ | .contextSuspend _
  | .suspendComplete _ | .contextResume _ | .contextKill _ | .killFinish _ | .contextRelease _ | .queueCreate _
  | .queueSet _ | .queueDestroy _ | .vfSet _ | .vfReset _ | .vfctlReset _ | .vfResetGraceExpire | .vfResetDrainDone
  | .endpointOpen _ | .endpointClose _ | .trainingSucceeds _ | .signalLost _ | .portDisable _ | .portEnable _
  | .retransmit _ _ | .retransmitLimit _ _ | .packetWrite _ _ | .packetRead _ _ | .packetAtomic _ _ | .packetSend _ _
  | .packetAck _ _ _ | .elselClear _ | .transferPacketSend _ | .softError _ => false

/-- Does a short bundle write the first register it names (24_device R388)? -/
def writesFirst : Instr → Bool
  | .bz _ _ | .bnz _ _ | .bltz _ _ | .bgez _ _ | .bgtz _ _ | .blez _ _ | .bmany _ _ | .bmnone _ _ | .jr _
  | .stb _ _ _ _ | .sth _ _ _ _ | .stw _ _ _ _ | .std _ _ _ _ | .stl _ _ _ _ | .sta _ _ _ _ | .pref _ _
  | .rst _ _ _ _ | .radd _ _ _ | .msg _ _ _ | .reply _ | .hset _ _ | .vst _ _ _ _ | .vsts _ _ _ _ _
  | .vscat _ _ _ _ _ | .vstl _ _ _ | .vscatl _ _ _ _ _ | .fmtset _ _ | .fset _ _ | .fmtinv _ | .mma _ _ _
  | .mmaz _ _ _ | .mmas _ _ _ | .mmasz _ _ _ | .mdrain _ _ | .mdrainw _ _ | .accwr _ _ | .neteval _ _ _ | .msave _
  | .mrstr _ | .copy _ | .waittl _ _ | .awset _ _ | .arrive _ _ _ | .arrivem _ _ _ | .qcfg _ | .sleep _ | .wake _
  | .resume _ | .abort _ | .gang2 | .gang4 | .gang8 | .tagpub _ _ | .tagwait _ _ | .qpush _ _ | .evpost _ _
  | .triemit _ _ | .tridone _ | .pxlock _ _ | .pxunlk _ | .layset _ _ _ | .laymerge _ _ | .layret _ | .compose _ _
  | .hput _ | .hget _ | .hamo _ | .hsend _ | .csrw _ _ | .tlbinv _ _ | .ctxkill _ | .shroud _ => false
  | _ => true

/-- Does a bundle that writes its first register read it too? A masked vector bundle keeps lanes of it. -/
def keepsFirst : Instr → Bool
  | .bins _ _ _ | .fshl _ _ _ | .fshr _ _ _ | .sel _ _ _ | .ffma _ _ _ _ | .movah _ _ | .cas _ _ _ _ | .casl _ _ _ _
  | .raddr _ _ _ | .vffma _ _ _ _ _ | .vins _ _ _ _ _ | .vnarrow16 _ _ _ | .vnarrow8 _ _ _ | .cvt _ _ _
  | .cvtef _ _ _ => true
  | i => (regsOf i).any fun r => match r with | .m n => decide (n ≠ 0#3) | _ => false

/-- The registers a bundle reads. -/
def sourcesOf (i : Instr) : List Reg :=
  match i with
  | .cvtef d a b => [.v d, .v a, .s b, .m 7]
  | .ldlod _ a b => [.s a, .s b]
  | _ => if writesFirst i && !keepsFirst i then (regsOf i).drop 1 else regsOf i

/-- The registers a short bundle writes; CVTEF's residuals and mask among them (05_formats R107). -/
def destsOf (i : Instr) : List Reg :=
  match i with
  | .cvtef d _ _ => [.v d, .v (d + 1), .m 7]
  | _ => if writesFirst i then (regsOf i).take 1 else []

/-- The system registers whose value a bundle uses: one it reads, and FSEL and FFLAGS where it works in a format
(05_formats R94, R95). -/
def sysReads (i : Instr) : List Nat :=
  match i with
  | .csrr _ n => [n.toNat]
  | .fmtget _ _ => [0x010, 0x011]
  | _ => if readsFormats i then [0x010] else []

/-- The system registers a bundle writes. -/
def sysWrites (i : Instr) : List Nat :=
  match i with
  | .csrw _ n => [n.toNat]
  | .fset _ _ => [0x010]
  | .fmtget _ _ => []
  | _ => if readsFormats i then [0x011] else []

/-- What a register of a slot is known by in the array of register files (24_device R387, R388). -/
def regKey (slot : Nat) : Reg → Nat
  | .s n => slot * 128 + n.toNat
  | .a n => slot * 128 + 32 + n.toNat
  | .v n => slot * 128 + 48 + n.toNat
  | .m n => slot * 128 + 80 + n.toNat

end Sys2Proof.Machine
end

