-- ==== Sys2Proof/Machine/Issue.lean ====
section
/-! DEFINITION. Issuing a bundle: fetch, the lookahead windows and the scoreboard, the errors that arrive late, which
slot of a core issues, and the end of a core cycle (03_thread R55-R61, R64, 02_encoding R43-R45, 24_device R386, R389). -/

namespace Sys2Proof.Machine

open Sys2Proof

/-! ### Fetch -/

/-- Why a word cannot be fetched: a trap, a soft translation fault of its address, no walker for it, or another device that has
not answered yet (entry 12). -/
inductive NoWord where
  | trap (e : Err)
  | soft (cause va : Nat)
  | busy (va : Nat)
  | wait
  deriving DecidableEq, Repr

/-- Address of the `n`-th word of the next bundle; one past the code range keeps its 65th bit (01_machine R24). -/
def Thread.wordAddr (th : Thread) (n : Nat) : Nat := th.pc.toNat + 2 * n + if th.past then 2 ^ 64 else 0

/-- The line of a core's instruction cache that holds an address. -/
def Core.icached (c : Core) (pa : Nat) : Option Line := c.icache.find? fun e => decide (e.addr = pa / 64 * 64)

/-- Does a word in the instruction cache carry poison, or a fault that the read to come makes poison (24_device R386,
R388)? -/
def Core.fetchBad (c : Core) (pa : Nat) : Bool :=
  (c.bad.any fun x => decide (x.1 = 2) && touches pa 2 x.2) ||
    c.errs.faults.any fun f => decide (f.array = 2) && decide (f.kind = 3) && touches pa 2 f.key

/-- The `n`-th word of a thread's next bundle (02_encoding R43, 12_page R227): as the core's instruction cache holds it,
which stores do not change, else as memory does (R45). -/
def State.fetchWord (s : State) (t n : Nat) : Except NoWord (BitVec 16) :=
  let th := s.thread t
  let va := th.wordAddr n
  if 2 ^ 64 ≤ va then .error (.trap (addrErr va 4))
  else
    let far := fun (g : Got) => match g with
      | .ok bs none => .ok (BitVec.ofNat 16 (ofBytes bs))
      | .ok _ (some e) => .error (NoWord.trap e)
      | .soft c => .error (.soft c va)
      | _ => .error .wait
    match s.sentBefore (s.fetcher t) .get va 2 with
    | some x => far x.2
    | none =>
    match (s.xlate (coreOf t) th.ctx .fetch va).2 with
    | .hard r => .error (.trap (addrErr va r))
    | .soft c => .error (.soft c va)
    | .busy => .error (.busy va)
    | .ecc a => .error (.trap (eccAt a va))
    | .ok node pa _ =>
      if node = s.dev.node then
        match (s.core (coreOf t)).icached pa with
        | some e => if (s.core (coreOf t)).fetchBad pa then .error (.trap (eccAt 2 va)) else .ok (BitVec.ofNat 16 (ofBytes (e.bytes pa 2)))
        | none => if s.memPoisoned pa 2 then .error (.trap (eccMem va)) else .ok (BitVec.ofNat 16 (s.memRead pa 2))
      else far (s.remoteAccess (s.fetcher t) .get node pa va 2).2

/-- What stands at a thread's program counter: a bundle, the words read before one that cannot be, or, for a follower
that has caught up with its leader, nothing (R64). -/
inductive Fetched where
  | bundle (d : Decoded) (b : Bundle)
  | no (why : NoWord) (b : Bundle)
  | nothing
  deriving DecidableEq, Repr

/-- The words that can be fetched before one that cannot. -/
def goodWords {ε : Type} (f : Nat → Except ε (BitVec 16)) : Nat → Nat → List (BitVec 16)
  | 0, _ => []
  | n + 1, i =>
    match f i with
    | .ok w => w :: goodWords f n (i + 1)
    | .error _ => []

def lookahead : Decoded → Nat
  | .ok _ la => la
  | .bad _ _ => 0

/-- Is the thread a follower of a gang, whose leader fetches for it (R63, R64)? -/
def Thread.follows (th : Thread) : Bool :=
  match th.gang with
  | some g => decide (g.index ≠ 0)
  | none => false

noncomputable def State.fetched (s : State) (t : Nat) : Fetched :=
  let th := s.thread t
  if th.follows then
    match th.gang.bind (·.ahead.head?) with
    | none => .nothing
    | some f =>
      match decodeWords f.b.words with
      | some (d, _) => .bundle d { f.b with pc := th.pc }
      | none => .nothing
  else
    match decodeWith (s.fetchWord t) with
    | .ok (d, ws) => .bundle d { pc := th.pc, words := ws, la := lookahead d }
    | .error e => .no e { pc := th.pc, words := goodWords (s.fetchWord t) 5 0 }

/-- A word of a core's instruction cache is read; a line that is missing comes in, with no poison in it, and the oldest of
512 goes (01_machine R16; entry 35). -/
def State.icacheFill (s : State) (core ctx pa : Nat) : State :=
  let c := s.core core
  let base := pa / 64 * 64
  if (c.icached pa).isSome then s.arrayTouch core 2 (fun k => decide (k / 64 * 64 = base)) ctx
  else if s.memPoisoned base 64 then s
  else
    let kept := if c.icache.length < 512 then c.icache else c.icache.drop 1
    let c := c.wrote 2 (fun k => decide (k / 64 * 64 = base)) (pa / 8 * 8)
    s.setCore core { c with icache := kept ++ [{ addr := base, data := BitVec.ofNat 512 (s.memRead base 64) }] }

/-- What fetching `n` words leaves: entries of the TLBs, lines of the instruction cache, and of a page of another device
the packet that asks for a word (23_link R376; entry 12). -/
def State.fetchEffect (s : State) (t n : Nat) : State :=
  let th := s.thread t
  if th.follows then s
  else
    (List.range n).foldl (fun s k =>
      if 2 ^ 64 ≤ th.wordAddr k ∨ (s.sentBefore (s.fetcher t) .get (th.wordAddr k) 2).isSome then s
      else
        match s.xlate (coreOf t) th.ctx .fetch (th.wordAddr k) with
        | (s, .ok node pa _) =>
          if node = s.dev.node then s.icacheFill (coreOf t) th.ctx pa
          else (s.remoteAccess (s.fetcher t) .get node pa (th.wordAddr k) 2).1
        | (s, _) => s) s

/-! ### The windows and the scoreboard -/

/-- Instructions that user mode may not run (17_context R302). -/
def isSystem : Instr → Bool
  | .resume _ | .abort _ | .csrr _ _ | .csrw _ _ | .rett | .tlbinv _ _ | .harvest | .ctxkill _ | .shroud _ | .msave _
  | .mrstr _ | .texfence => true
  | _ => false

/-- An FMTSET or an FMTGET (05_formats R100). -/
def formatOp : Decoded → Bool
  | .ok (.fmtset _ _) _ => true
  | .ok (.fmtget _ _) _ => true
  | _ => false

noncomputable def Pend.isFormat (p : Pend) : Bool :=
  match decodeWords p.b.words with
  | some (d, _) => formatOp d
  | none => false

/-- Registers a bundle still writes; s0 and m0 discard. -/
def Pend.writes (p : Pend) : List Reg := p.dests.filter fun r => decide (r ≠ .s 0) && decide (r ≠ .m 0)

/-- Does it read or write the thread's FFLAGS register (05_formats R103)? -/
def touchesFlags : Instr → Bool
  | .fmtget _ _ | .fset _ _ => true
  | .csrr _ n | .csrw _ n => decide (n.toNat = 0x011)
  | _ => false

/-- Does its result raise flags only when it comes: a special function, a reduction of floats, or a NETEVAL, the entry
of the matrix queue that writes more than one register (10_matrix R197)? -/
def Pend.lateFlags (p : Pend) : Bool :=
  match p.due with
  | .sfu | .gang .fadd _ _ _ _ _ => true
  | .entry _ => decide (1 < p.dests.length)
  | _ => false

/-- Does it wait for a version slot? Then what follows it, a release among that, waits too (05_formats R101). So does what
follows an MSAVE that waits for the freeze: its writes are not performed yet (07_memory R143, 25_ordering R394). -/
def Pend.waitsSlot (p : Pend) : Bool :=
  match p.due with
  | .format _ _ _ _ | .msave _ => true
  | _ => false

/-- Is it TEXFENCE, which waits for the LOD loads issued before it (14_lod R261)? -/
def isTexfence : Instr → Bool
  | .texfence => true
  | _ => false

/-- Outstanding bundles that hold `i` back: by their windows, by a register, by the formats, by flags still to come, or,
LOD loads, a TEXFENCE (R59, R100, R101, R103, 14_lod R261). -/
noncomputable def Thread.blockers (th : Thread) (i : Instr) : List Pend :=
  th.pend.filter fun p =>
    decide (p.win = 0) || p.writes.any (fun r => (regsOf i).contains r) || (readsFormats i && p.isFormat) || p.waitsSlot ||
      (touchesFlags i && p.lateFlags) || (isTexfence i && p.lod)

/-- Outstanding bundles that have not completed; one whose error has arrived has. -/
def Thread.outstanding (th : Thread) : Nat := (th.pend.filter fun p => p.err.isNone).length

/-- What a thread does with an issue turn. -/
inductive Prep where
  /-- nothing: its next bundle is held -/
  | hold
  /-- raises an error that arrived with a reply, at the bundle that must wait for it (R61) -/
  | late (p : Pend) (b : Bundle)
  /-- its next bundle cannot be fetched -/
  | stop (why : NoWord) (b : Bundle)
  /-- a register or queue entry it owns is poisoned, in this array -/
  | ecc (array : Nat) (b : Bundle)
  /-- executes an instruction -/
  | run (i : Instr) (b : Bundle)
  deriving DecidableEq, Repr

/-- Wait for the bundles `l`; when all outstanding ones have completed, the error of the oldest of `l` is raised
(R60, R61). -/
def Thread.waitFor (th : Thread) (l : List Pend) (b : Bundle) (go : Prep) : Prep :=
  match l with
  | [] => go
  | p :: _ => if th.pend.all (·.err.isSome) then .late p b else .hold

/-- Is a follower four bundles behind the thread, which would lead another (R64)? A bundle in which the leader has waited,
led before, is issued again. -/
def State.ledTooFar (s : State) (t : Nat) : Bool :=
  match (s.thread t).gang with
  | some g =>
    decide (g.index = 0) && decide (g.led ≤ g.done) && (s.members t).any fun m =>
      match (s.thread m).gang with
      | some h => decide (4 ≤ h.ahead.length)
      | none => false
  | none => false

/-- Has its leader led bundles that it has still to execute (R64)? -/
def Thread.led (th : Thread) : Bool :=
  match th.gang with
  | some g => !g.ahead.isEmpty
  | none => false

/-- Does the thread compete for issue turns in this cycle (R53, R55, YIELD)? A thread being saved finishes what its
gang's leader has led, and a bundle that another device has answered; a miss that waits for a walker holds its thread, and so
does an access that waits for another device (12_page R229, 23_link R376). -/
def State.competes (s : State) (t : Nat) : Bool :=
  let th := s.thread t
  decide (th.st = .runnable) && decide (th.yieldEnd ≤ s.cycle) &&
    (match tfind (s.core (coreOf t)).slotIssue (slotOf t) with | some c => decide (c + 4 ≤ s.cycle) | none => true) &&
    !(s.saving th && !th.led && !s.hasAnswer t) && !s.ledTooFar t && !(s.askers t).any s.asked &&
    !((s.clu (cluOf t)).walks.any fun w => decide (w.thr = some t))

/-- Has a handler run its 64 bundles (R58)? The count stands still above level 0 (17_context R305). -/
def Thread.spent (th : Thread) : Bool :=
  match th.hand with
  | some h => decide (64 ≤ h.count) && decide (th.level = 0)
  | none => false

/-- The thread's next move, before the bundle is executed: the limit of R58 first, then decode, then the mode, then the
poison of what it would read (R44). -/
noncomputable def State.prepare (s : State) (t : Nat) : Prep :=
  let th := s.thread t
  if !s.competes t then .hold
  else
    match s.fetched t with
    | .nothing => .hold
    | .no why b =>
      if th.spent then th.waitFor th.pend b (.run .handlerLimit b)
      else
        match why with
        | .trap _ => th.waitFor th.pend b (.stop why b)
        | _ => th.waitFor (th.pend.filter fun p => decide (p.win = 0)) b (.stop why b)
    | .bundle d b =>
      if th.spent then th.waitFor th.pend b (.run .handlerLimit b)
      else
        match d with
        | .bad idx reason =>
          th.waitFor th.pend b (.run (.illegalEncoding (BitVec.ofNat 3 idx) (BitVec.ofNat 4 reason)) b)
        | .ok i _ =>
          match th.poison, isSystem i && !th.sysMode with
          | some a, false => th.waitFor th.pend b (.ecc a b)
          | _, _ =>
            th.waitFor (th.blockers i) b (if isLong i ∧ 4 ≤ th.outstanding then .hold else .run i b)

/-! ### Execution -/

/-- A bundle whose meaning changes nothing at all is held on the scoreboard by its unit: a full queue, a busy divider, a
release that waits (R59, 04_scalar R69, 11_engines R205). A jump to itself is none. -/
def heldBy (i : Instr) (before after : State) : Bool := !isJump i && decide (after = before)

/-- The windows of the bundles outstanding before it lose a bundle (R59). -/
def shrink : Nat → List Pend → List Pend
  | 0, l => l
  | _, [] => []
  | n + 1, p :: r => { p with win := p.win - 1 } :: shrink n r

/-- Did the bundle execute, rather than trap, drop its thread or wait for a link (R57)? -/
def executed (th : Thread) : Bool :=
  match th.st, th.wait with
  | .dropped, _ => false
  | .waiting, some x => decide (x.w ≠ .pop) && decide (x.w ≠ .push)
  | _, _ => true

/-- The turn is used: unless its bundle waits, the answers of other devices that it has found go; the core remembers the cycle, for itself and for the slot; windows advance, and a handler's count
where the turn is its bundle's own (`counted`); a bundle that retires resets the watchdog (R55, R58, R59, 24_device
R389). -/
def State.issuedBy (s : State) (t : Nat) (before : Thread) (ran : Bool) (counted : Bool := true) : State :=
  let th := s.thread t
  let s :=
    if th.inc = before.inc ∧ th.st ≠ .free then
      s.setThread t { th with
        pend := if ran && executed th then shrink before.pend.length th.pend else th.pend
        hand := if counted && decide (before.level = 0) then th.hand.map fun h => { h with count := h.count + 1 } else th.hand }
    else s
  let s := if s.iss.turn = .walking then s else s.dropAnswers t
  let c := s.core (coreOf t)
  let s := s.setCore (coreOf t) { c with issued := some s.cycle, slotIssue := tput c.slotIssue (slotOf t) s.cycle }
  if ran ∧ th.st ≠ .waiting ∧ th.st ≠ .dropped then s.retires (coreOf t) else s

/-- The registers a short bundle writes depend on the loads its operands do; a long-latency bundle's depend on its own once it
completes (07_memory R143). -/
def State.depend (s : State) (t : Nat) (i : Instr) : State :=
  if isLong i then s
  else
    let th := (destsOf i).foldl (fun (th : Thread) r => th.dependOn r s.iss.dep) (s.thread t)
    s.setThread t ((sysWrites i).foldl (fun (th : Thread) n => th.sysDepend n s.iss.dep) th)

/-- The newest load that a bundle's operands depend on; a value popped may depend on any so far (R143, 08_barrier R169). -/
def State.depFor (s : State) (t : Nat) (i : Instr) : Nat :=
  if (sourcesOf i).contains (.s 30) then s.moment
  else max ((s.thread t).depOf (sourcesOf i)) ((s.thread t).sysDepOf (sysReads i))

/-- A bundle reads its registers: what injection left in them is found (24_device R388). One that user mode may not run
reads none (R44). -/
def State.readRegs (s : State) (t : Nat) (i : Instr) : State :=
  if isSystem i && !(s.thread t).sysMode then s
  else
    let keys := (sourcesOf i).map (regKey (slotOf t))
    s.arrayTouch (coreOf t) 5 keys.contains (s.thread t).ctx

/-- Does a register the bundle reads carry poison (24_device R386)? One that user mode may not run reads none (R44). -/
def State.regsBad (s : State) (t : Nat) (i : Instr) : Bool :=
  let keys := (sourcesOf i).map (regKey (slotOf t))
  !(isSystem i && !(s.thread t).sysMode) && (s.core (coreOf t)).bad.any fun x => decide (x.1 = 5) && keys.contains x.2

/-- Registers of a thread are written: what that does to injection and poison (24_device R386, R388). -/
def State.wroteRegs (s : State) (t : Nat) (rs : List Reg) : State :=
  let c := s.core (coreOf t)
  if c.errs.armed 5 ∨ c.errs.faults ≠ [] ∨ c.bad ≠ [] then
    s.setCore (coreOf t) (rs.foldl (fun c r =>
      let key := regKey (slotOf t) r
      c.wrote 5 (fun k => decide (k = key)) key) c)
  else s

/-- The registers that outstanding bundles of a thread have written between two states. -/
def lateWrites (before after : Thread) : List Reg :=
  if before.inc = after.inc then
    ((before.pend.filter fun p => p.err.isNone && !(after.pend.any fun q => decide (q.b = p.b))).map (·.writes)).flatten
  else []

/-- Results that came in a step are written to the array of register files. -/
def State.lateWrote (before after : State) : State :=
  before.thr.foldl (fun s (t, th) => s.wroteRegs t (lateWrites th (after.thread t))) after

/-- A turn that ends in a trap: taken once the bundles outstanding before it have completed; an error that came with
one of those is raised in its place (R60, R61). -/
def State.trapTurn (s s1 s2 : State) (t : Nat) (th : Thread) : Option Out :=
  match th.pend with
  | [] => some (.next (s2.issuedBy t th false))
  | p :: _ =>
    if th.pend.all (·.err.isSome) then
      some (.next ((({ s with iss := s1.iss } : State).raiseLate t p).issuedBy t th false false))
    else none

/-- What a turn gives the thread; none where its bundle is held. The accesses of a bundle that pops a value come after
the pop, which acquires (08_barrier R169). A bundle that cannot be fetched stops its thread alone: the others of its gang
have not got it (R65). -/
noncomputable def State.perform (s : State) (t : Nat) (x : Prep) : Option Out :=
  let th := s.thread t
  match x with
  | .hold => none
  | .late p b => some (.next ((({ s with iss := { thr := t, b := b } } : State).raiseLate t p).issuedBy t th false false))
  | .stop why b =>
    let s1 : State := { s.fetchEffect t (b.words.length + 1) with iss := { thr := t, b := b } }
    match why with
    | .trap e => some (.next ((s1.trap e false).issuedBy t th false))
    | .soft c va =>
      let s2 := s1.softFault c Kind.fetch.code va false
      if s2.iss.turn = .trapped then s.trapTurn s1 s2 t th else some (.next (s2.issuedBy t th false))
    | .busy va => some (.next ((s1.waitWalk (coreOf t) th.ctx va).issuedBy t th false false))
    | .wait => if s1.eps = s.eps then none else some (.next (s1.waitTurn.issuedBy t th false false))
  | .ecc a b =>
    let s : State := { s.fetchEffect t b.words.length with iss := { thr := t, b := b } }
    some (.next (((s.setThread t { s.thread t with poison := none }).trap (eccArray a)).issuedBy t th false))
  | .run i b =>
    let s1 : State := { (s.fetchEffect t b.words.length).readRegs t i with
      iss := { thr := t, b := b, dep := s.depFor t i } }
    match (if s1.regsBad t i then Host.Outcome.next (s1.trap (eccArray 5)) else exec i s1 : Out) with
    | .next s2 =>
      match s2.iss.turn with
      | .walking => some (.next (s2.issuedBy t th false false))
      | .trapped => s.trapTurn s1 s2 t th
      | .ran =>
        if heldBy i s1 s2 then none
        else
          let short := !isLong i && executed (s2.thread t)
          some (.next (((s2.depend t i).wroteRegs t (if short then destsOf i else [])).issuedBy t th true))
    | o => some o

/-- The order in which the slots of a core are asked in a cycle (R55). -/
def slotOrder (cycle : Nat) : List Nat :=
  let j := cycle % 8
  j :: 7 :: (List.range 7).map fun i => (j + i + 1) % 8

/-- The first slot of a core, in that order, whose thread uses the turn, and what it does with it. -/
noncomputable def State.pick (s : State) (core : Nat) : Option Out :=
  (slotOrder s.cycle).findSome? fun k => s.perform (core * 8 + k) (s.prepare (core * 8 + k))

/-- The issue turn of a core: at most one bundle in a core cycle. -/
noncomputable def State.turn (s : State) (core : Nat) : Option Out :=
  if (s.core core).issued = some s.cycle then none else s.pick core

/-! ### The end of a core cycle -/

/-- Is a group that holds slots of the core being saved? -/
def State.savingOn (s : State) (core : Nat) : Bool := (List.range 7).any fun k => s.saving (s.thread (core * 8 + k))

/-- Cores with a RUNNABLE slot, slot 7 included, of a group that is not being saved (24_device R389). -/
def State.watched (s : State) : List Nat :=
  ((s.thr.filter fun e =>
    decide (e.2.st = .runnable) && !(if slotOf e.1 = 7 then s.savingOn (coreOf e.1) else s.saving e.2)).map
      fun e => coreOf e.1).eraseDups

/-- Is a follower that its group's pre-emption waits for held by a unit in a bundle its leader has led: a full queue, say, that
is stopped (03_thread R64, 16_group R295)? -/
noncomputable def State.heldSaving (s : State) (t : Nat) : Bool :=
  let th := s.thread t
  s.saving th && th.follows && th.led &&
    (match s.prepare t with
     | .run i b => (s.perform t (.run i b)).isNone
     | _ => false)

/-- Pre-emption dissolves the gang of such a follower, each member going on alone from where it stands (R65). -/
noncomputable def State.splitHeld (s : State) : State :=
  s.thr.foldl (fun s e =>
    match (s.thread e.1).gang with
    | some g => if s.heldSaving e.1 then s.dissolveAt (s.members e.1) g.num g.done else s
    | none => s) s

/-- The cores that SHROUD has named in the cycle are fenced, after everything else in it (24_device R393, 25_ordering R397). -/
def State.fenceNamed (s : State) : State :=
  s.dev.fences.foldl State.fence { s with dev := { s.dev with fences := [] } }

/-- A core cycle ends: its fences are made, the watchdogs count it where no bundle retired, and CYCLE counts on. -/
noncomputable def State.tick (s : State) : State :=
  let s := s.splitHeld.fenceNamed
  let s := s.watched.foldl (fun s c =>
    let x := s.core c
    s.setCore c { x with watch := if x.retired = some s.cycle then 0 else min (x.watch + 1) (2 ^ 24) }) s
  { s with cycle := s.cycle + 1 }

end Sys2Proof.Machine
end

