-- ==== Sys2Proof/Machine/Schedule.lean ====
section
/-! DEFINITION. Which move the device makes when none is named beforehand: a step of the device that is due, then the
issue turns of the cores, then what arrives at a slot and what pre-empts it, then the end of the cycle (entry 3;
03_thread R54, R55). -/

namespace Sys2Proof.Machine

open Sys2Proof

/-- Steps that may be due for a thread. -/
def threadMoves (t : Nat) (th : Thread) : List Instr :=
  (match th.st with
   | .sleeping => [Instr.sleepTimeout t]
   | .waiting => [.waittlComplete t, .waitgenComplete t, .tagwaitComplete t, .qinPopComplete t, .qoutPushComplete t,
       .spawnwComplete t, .gangForm t, .qcfgDisconnectComplete t, .tripopComplete t, .pxlockGrant t]
   | _ => []) ++
  (if th.pend = [] then [] else Instr.fmtsetInstall t :: (List.range th.pend.length).map fun k => .longLatencyComplete t k)

def pingMove (k : PingKind) (thr : Nat) : Instr :=
  match k with
  | .wake => .wakeArrive thr
  | .resume => .resumeArrive thr
  | .abort => .abortArrive thr

/-- Steps that may be due for a message on the mesh. -/
def messageMoves (fenced : Bool) (m : Msg) : List Instr :=
  if m.held then (if fenced then [] else [.messageRetry m.src m.tgt])
  else
    match m.body with
    | .rld _ _ | .rst _ _ _ | .radd _ _ _ | .reply _ _ _ => [.builtinHandlerAccess m.src m.tgt]
    | .msg _ _ _ _ => [.handlerStart m.src m.tgt]
    | .credit _ _ => [.arrivalCredit m.src m.tgt]
    | .triangle _ => [.triangleDeliver m.src m.tgt]
    | .ping _ _ => []

/-- Pings on the mesh: they act on a slot after its own issue of the cycle (03_thread R54). -/
def pingMoves (m : Msg) : List Instr :=
  match m.body with
  | .ping k thr => [pingMove k thr]
  | _ => []

/-- Steps that may be due for a core. -/
noncomputable def coreMoves (c : Nat) (x : Core) : List Instr :=
  [.l1Invalidate c, .storeAck c, .sfuComplete c, .matrixEntryComplete c, .drainWriteAck c, .drainWake c,
   .spawnQueueServe c, .matrixFreeze c, .copyUnit c, .copyComplete c, .transferPacketSend c, .feedbackRecordWrite c,
   .engineFaultRetry .copy c, .engineFaultRetry .link c] ++
  ((List.range x.dtlb.length).map fun k => .adWritebackTimeout (.data c) k) ++
  (List.range x.itlb.length).map fun k => .adWritebackTimeout (.fetch c) k

/-- Steps that may be due for a cluster. -/
def clusterMoves (k : Nat) (x : Cluster) : List Instr :=
  [.matrixTileStep k, .compress k, .decompress k, .fprint k, .compare k, .crc32c k, .engineFaultRetry .transform k,
   .pageWalk k, .faultRecordRetry k, .heldPublicationApply k] ++
  (List.range x.tlb.length).map fun j => .adWritebackTimeout (.second k) j

/-- Steps that may be due for a die. -/
def dieMoves (kernels : List Nat) (d : Nat) : List Instr :=
  [.composite d, .laysplitCopy d, .laymergeFold d, .engineFaultRetry .compositor d, .groupPlace d] ++ kernels.map fun ser => .groupAdmit d ser

/-- Steps that may be due for a queue. -/
def queueMoves (q : Nat) : List Instr :=
  [.completionRecordRetry q, .notifyTimer q, .blockClear q, .queueStallRetry q, .nop q, .launch q, .wait q, .write q,
   .event q, .contextCreate q, .contextSuspend q, .contextResume q, .contextKill q, .contextRelease q, .queueCreate q,
   .queueSet q, .queueDestroy q, .vfSet q, .vfReset q, .endpointOpen q, .endpointClose q]

/-- The steps of the device that may be due. What comes from outside it (resets, packets, commands, the power limit,
soft errors, ports, retransmission) is not among them. -/
noncomputable def State.moves (s : State) : List Instr :=
  let kernels := s.kernels.map (·.1)
  (s.net.map fun m => messageMoves (s.core m.tgt).fenced m).flatten ++
  (s.thr.map fun e => threadMoves e.1 e.2).flatten ++
  (s.cores.map fun e => coreMoves e.1 e.2).flatten ++
  (s.clus.map fun e => clusterMoves e.1 e.2).flatten ++
  ((List.range 4).map (dieMoves kernels)).flatten ++
  (kernels.map fun ser => .kernelEnd ser) ++
  (s.groups.map fun e => .groupEnd (e.1 / 33554432) (e.1 % 33554432)) ++
  ((List.range s.heldDone.length).map fun k => .heldDoneUpdate k) ++
  (s.queues.map fun e => queueMoves e.1).flatten ++
  ((s.ctxs.map fun e => [.suspendComplete e.1, .killFinish e.1]).flatten) ++
  [.vfResetGraceExpire, .vfResetDrainDone]

/-- Steps that come after the issue turns of a cycle: first the pings, then pre-emption, then the fences (03_thread R54,
25_ordering R397). -/
def State.lateMoves (s : State) : List Instr :=
  (s.net.map pingMoves).flatten ++ (List.range 4).map Instr.preemptionTrigger ++
  (s.groups.map fun e => .groupSaveComplete (e.1 / 33554432) (e.1 % 33554432)) ++
  s.cores.map fun e => .watchdogExpire e.1

/-- A step of the device, if it changes anything. -/
def State.due (s : State) (i : Instr) : Option Out :=
  match exec i s with
  | .next s' => let s' := s'.settled; if s' = s then none else some (.next (s.lateWrote s'))
  | o => some o

/-- Cores with threads, in the order they are asked in a cycle: each is first in its turn, so that those who contend for a port
of another core or of a cluster are served round-robin (24_device R392). -/
def State.askOrder (s : State) : List Nat :=
  let l := (s.thr.map fun e => coreOf e.1).eraseDups
  l.drop (s.cycle % l.length) ++ l.take (s.cycle % l.length)

/-- The slot of a core whose thread uses the issue turn, and the core of its group that its bundle, a SPAWN, names. -/
noncomputable def State.spawnTurn (s : State) (core : Nat) : Option (Nat × Nat) :=
  match (slotOrder s.cycle).find? fun k => (s.perform (core * 8 + k) (s.prepare (core * 8 + k))).isSome with
  | none => none
  | some k =>
    let t := core * 8 + k
    let named := fun (a : SReg) =>
      let x := if a = 30#5 then (s.upLink t).bind (·.vals.head?) else some ((s.thread t).readS a)
      match x, (s.thread t).grp.bind fun p => s.group? p.1 p.2 with
      | some v, some g => some (k, g.clu * 8 + g.first + bits v.toNat 2 0)
      | _, _ => none
    match s.prepare t with
    | .run (.spawn _ a _) _ | .run (.spawnw _ a _) _ => named a
    | _ => none

/-- Must the issue turn of a core wait: SPAWNs of one cycle for one core are served in the order of their slots (03_thread,
SPAWN)? -/
noncomputable def State.spawnWaits (s : State) (core : Nat) : Bool :=
  match s.spawnTurn core with
  | none => false
  | some (k, to_) => s.askOrder.any fun c =>
      decide ((s.core c).issued ≠ some s.cycle) && (match s.spawnTurn c with
        | some (j, x) => decide (x = to_) && decide (j < k)
        | none => false)

/-- The first issue turn that some core still has in this cycle. -/
noncomputable def State.anyTurn (s : State) : Option Out := s.askOrder.findSome? fun c => if s.spawnWaits c then none else s.turn c

/-- The next move where none is named. -/
noncomputable def State.nextMove (s : State) : Out :=
  match s.moves.findSome? s.due with
  | some o => o
  | none =>
    match s.anyTurn with
    | some o => o
    | none => (s.lateMoves.findSome? s.due).getD (.next s.tick)

/-- The thread a ping acts on. -/
def pinged : Instr → Option Nat
  | .wakeArrive t | .resumeArrive t | .abortArrive t => some t
  | _ => none

/-- Is the core one that a pre-emption or a watchdog's fence acts on? -/
def State.onCore (s : State) (i : Instr) (core : Nat) : Bool :=
  match i with
  | .preemptionTrigger die => decide (core / 384 = die)
  | .groupSaveComplete ser g => (s.group? ser g).any fun x => x.homes core
  | .watchdogExpire c => decide (core = c)
  | _ => false

/-- Must a step wait: a ping, for its core's issue turn of the cycle; a pre-emption or a fence, for the turns of the cores it
acts on and the pings that can arrive there (03_thread R54-R56, 25_ordering R397; entry 3)? -/
noncomputable def State.beforeTurn (s : State) (i : Instr) : Bool :=
  match pinged i with
  | some t => (s.turn (coreOf t)).isSome
  | none =>
    ((s.thr.map fun e => coreOf e.1).eraseDups.any fun c => s.onCore i c && (s.turn c).isSome) ||
      s.net.any fun m => s.onCore i m.tgt && (pingMoves m).any fun p => (s.due p).isSome

/-- One move. A bundle is no step of the device: it runs only in its thread's turn; a ping acts after its core's turn, and
pre-emption and fences after that; of SPAWNs for one core the lowest slot's comes first; a cycle does not end while a core with an eligible slot has not issued (03_thread R54, R55). -/
noncomputable def State.move (s : State) : Move → Out
  | .dev i => if isBundle i || s.beforeTurn i then .next s else
    match exec i s with
    | .next s' => .next (s.lateWrote s'.settled)
    | o => o
  | .issue core => if s.spawnWaits core then .next s else (s.turn core).getD (.next s)
  | .tick => .next (if s.anyTurn.isSome then s else s.tick)

end Sys2Proof.Machine
end

