-- ==== Sys2Proof/Machine/Step.lean ====
section
/-! DEFINITION. One step of the machine: the move at the head of the agenda, or the one the device makes next. -/

namespace Sys2Proof.Machine

open Sys2Proof

/-- One step (entry 3). -/
noncomputable def step (s : State) : Host.Outcome State Fault Refusal :=
  match s.agenda with
  | m :: rest => ({ s with agenda := rest } : State).move m
  | [] => s.nextMove

/-- The instruction that spec/opcode_table.json numbers `w`, its first word in the highest bits, stored where thread 0
fetches, and thread 0 next to issue (entries 1 and 2). -/
def State.withFetchWord (s : State) (nbits w : Nat) : State :=
  { (((s.withTables.withWords (tableWords (nbits / 16) w)).withContext).withThread) with
    cycle := (s.cycle + 7) / 8 * 8
    agenda := [.issue 0] }

end Sys2Proof.Machine
end

