-- ==== Sys2Proof/Safety.lean ====
section
/-! DEFINITION. The terms statements about the machine are made in: a state in good order, operands that are ready, and
what an instruction leaves unchanged. -/

namespace Sys2Proof.Machine

open Sys2Proof

/-! ### States in good order -/

/-- The memory's canonical form: addresses strictly rising, no byte listed that reads as an unlisted one does. -/
def Memory.wf (m : Tab (BitVec 8)) : Bool := twf 0 m

/-- A step that no fault and no refusal ends. -/
def SafeStep (s : State) : Prop := ∃ t, step s = .next t

/-! ### Operands (04_scalar R66, R67, 08_barrier R167) -/

/-- The value a source register has: s30 gives the oldest value of the upstream link. -/
def State.src (s : State) (r : SReg) : W64 :=
  if r = 30#5 then
    match s.upLink s.iss.thr with
    | some l => l.vals.headD 0
    | none => 0
  else s.cur.readS r

/-- s30 as a source has a value to pop. -/
def State.CanPop (s : State) : Prop := ∃ l, s.upLink s.iss.thr = some l ∧ l.vals ≠ []

/-- s31 as a destination has a link; where the push comes at once, there is room and no earlier remote access that it
would release is still to be performed (08_barrier R169). -/
def State.CanPush (s : State) (room : Bool) : Prop :=
  ∃ l, s.downLink s.iss.thr = some l ∧ (room = true → l.vals.length < 16 ∧ s.cur.remOut = [])

/-- The operands of a bundle are ready: no source is s31, no destination is s30, and the links serve. -/
structure State.Ready (s : State) (srcs : List SReg) (dst : Option SReg) (room : Bool := true) : Prop where
  sources : 31#5 ∉ srcs
  target : dst ≠ some 30#5
  pops : 30#5 ∈ srcs → s.CanPop
  pushes : dst = some 31#5 → s.CanPush room

/-! ### Accesses of other devices (23_link R376) -/

/-- Nothing that an asker has sent to another device is on its way, and no answer is held for it. -/
structure State.Unasked (s : State) (w : Asker) : Prop where
  answers : ∀ a ∈ s.dev.answers, a.who ≠ w
  packets : ∀ e ∈ s.eps, ∀ p ∈ e.2.pkts, p.asker ≠ some w

/-! ### Vector results (06_vector R112 to R115) -/

/-- `i` completes with `d` holding, in each element of width `z`, the number `f` gives if the mask has it active, and
what it held if not. -/
def SetsLanes (s : State) (i : Instr) (srcs : List SReg) (z : Nat) (d : VReg) (m : MReg) (f : Nat → Nat) : Prop :=
  ∃ v, exec i s = .next (s.retireT srcs fun th => th.writeV d v) ∧ ∀ k, k < 512 / z →
    laneOf z v k = if (s.cur.readM m).getLsbD k then f k % 2 ^ z else laneOf z (s.cur.readV d) k

/-- `i` completes with the mask `d` holding, in each bit below `n`, what `f` gives if `m` has it active and what it held
if not, with every bit from `n` on 0, and with the flags `e` raised. -/
def SetsMask (s : State) (i : Instr) (n : Nat) (d m : MReg) (f : Nat → Bool) (e : Nat) : Prop :=
  ∃ x : W64, exec i s = .next (s.retireT [] fun th => addFlags (th.writeM d x) e) ∧ ∀ k, k < 64 →
    x.getLsbD k = (decide (k < n) && if (s.cur.readM m).getLsbD k then f k else (s.cur.readM d).getLsbD k)

/-- `i` completes with `d` holding, in each active element of the width of `g`, the code `f` gives, and with every flag
that some active element raised. -/
def SetsFloats (s : State) (i : Instr) (g : Fmt) (d : VReg) (m : MReg) (f : Nat → Flagged Nat) : Prop :=
  ∃ v e, exec i s = .next (s.retireT [] fun th => addFlags (th.writeV d v) e) ∧
    (∀ k, k < 512 / g.W →
      laneOf g.W v k = if (s.cur.readM m).getLsbD k then (f k).1 % 2 ^ g.W else laneOf g.W (s.cur.readV d) k) ∧
    ∀ b, e.testBit b = true ↔ ∃ k, k < 512 / g.W ∧ (s.cur.readM m).getLsbD k = true ∧ (f k).2.testBit b = true

/-- The word of the entry an FSEL slot names. -/
def State.slotWord (s : State) (slot : Nat) : W64 :=
  (s.ctx s.cur.ctx).fmtWord (bits s.cur.fsel.toNat (5 * slot + 4) (5 * slot))

/-! ### What stays as it is -/

/-- Between `s` and `t` nothing changed but threads, chain links, and L1 caches with what is on its way to them: every byte
of memory and of the local stores, the accumulators, the matrix and engine queues, contexts, kernels, queues, layers and
endpoints are as before. A core whose L1 takes an acknowledged store may put an injected fault in it (24_device R388);
with none armed, in the error unit nothing changed either. -/
structure SameDevice (s t : State) : Prop where
  rest : { t with thr := s.thr, links := s.links, cores := s.cores } = s
  cores : ∀ c, { t.core c with l1 := (s.core c).l1, path := (s.core c).path, bad := (s.core c).bad
                               errs := { (t.core c).errs with einj := (s.core c).errs.einj
                                                              faults := (s.core c).errs.faults } } = s.core c
  quiet : ∀ c, (s.core c).errs.armed 1 = false → (t.core c).errs.einj = (s.core c).errs.einj

/-- Between `s` and `t` the other threads are as before, and so is the thread that issued but for its registers s, a, v
and m and its program counter; where it is in a gang, gangs, outstanding bundles and FFLAGS of its gang may change
(03_thread R64, R65, 06_vector R138). -/
structure SameThreads (s t : State) : Prop where
  cur : { t.cur with s := s.cur.s, a := s.cur.a, v := s.cur.v, m := s.cur.m, pc := s.cur.pc, past := s.cur.past,
                     gang := s.cur.gang, pend := s.cur.pend, fflags := s.cur.fflags } = s.cur
  others : ∀ n, n ≠ s.iss.thr →
    { t.thread n with gang := (s.thread n).gang, pend := (s.thread n).pend, fflags := (s.thread n).fflags } = s.thread n
  alone : s.cur.gang = none → t.cur.pend = s.cur.pend ∧ t.cur.fflags = s.cur.fflags ∧ t.cur.gang = none ∧
    ∀ n, n ≠ s.iss.thr → t.thread n = s.thread n

/-- Every register of the thread that issued is as before but `dest`. -/
structure RegsKept (s t : State) (dest : Option Reg) : Prop where
  sregs : ∀ r, dest ≠ some (.s r) → t.cur.readS r = s.cur.readS r
  aregs : ∀ r, dest ≠ some (.a r) → t.cur.readA r = s.cur.readA r
  vregs : ∀ r, dest ≠ some (.v r) → t.cur.readV r = s.cur.readV r
  mregs : ∀ r, dest ≠ some (.m r) → t.cur.readM r = s.cur.readM r

/-- Every byte of memory reads in `t` as in `s`. -/
def SameMemory (s t : State) : Prop := ∀ p, t.memRead p 1 = s.memRead p 1

end Sys2Proof.Machine
end

