-- ==== Sys2Proof/Certificates/Slice0/Obligations.lean ====
section
/-! DEFINITION. Statements about the machine, each from numbered rules of the spec. -/

open Sys2Proof Sys2Proof.Machine

/-! ### Scalar and address instructions (04_scalar) -/

/-- R66, R71: the arithmetic, logic, shift and comparison instructions of page 0 take their ready operands x = s_a and y =
s_b and complete with the value the table of R71 gives; a shift by 64 or more leaves the sign or nothing. R72, R73:
the immediate forms, LI and MOV. ADDI, ANDI, CLTI and LI extend the immediate by its sign, the others by zeros. -/
def Obligations.ScalarResults : Prop :=
  (
    ∀ (s : State) (d a b : SReg), s.Ready [a, b] (some d) →
      let x := s.src a
      let y := s.src b
      exec (.add d a b) s = .next (s.retireS [a, b] d (x + y)) ∧
      exec (.addw d a b) s = .next (s.retireS [a, b] d (((x + y).setWidth 32).signExtend 64)) ∧
      exec (.sub d a b) s = .next (s.retireS [a, b] d (x - y)) ∧
      exec (.subw d a b) s = .next (s.retireS [a, b] d (((x - y).setWidth 32).signExtend 64)) ∧
      exec (.and d a b) s = .next (s.retireS [a, b] d (x &&& y)) ∧
      exec (.or d a b) s = .next (s.retireS [a, b] d (x ||| y)) ∧
      exec (.xor d a b) s = .next (s.retireS [a, b] d (x ^^^ y)) ∧
      exec (.andn d a b) s = .next (s.retireS [a, b] d (x &&& ~~~y)) ∧
      exec (.sll d a b) s = .next (s.retireS [a, b] d (if y.toNat < 64 then x <<< y.toNat else 0)) ∧
      exec (.srl d a b) s = .next (s.retireS [a, b] d (if y.toNat < 64 then x >>> y.toNat else 0)) ∧
      exec (.sra d a b) s = .next (s.retireS [a, b] d (if y.toNat < 64 then x.sshiftRight y.toNat else x.sshiftRight 63)) ∧
      exec (.ror d a b) s = .next (s.retireS [a, b] d (x.rotateRight (y.toNat % 64))) ∧
      exec (.ceq d a b) s = .next (s.retireS [a, b] d (if x = y then 1 else 0)) ∧
      exec (.cne d a b) s = .next (s.retireS [a, b] d (if x ≠ y then 1 else 0)) ∧
      exec (.clt d a b) s = .next (s.retireS [a, b] d (if x.toInt < y.toInt then 1 else 0)) ∧
      exec (.cltn d a b) s = .next (s.retireS [a, b] d (if x.toNat < y.toNat then 1 else 0))) ∧
  (
    ∀ (s : State) (d a : SReg) (i : Imm),
      (s.Ready [a] (some d) →
        let x := s.src a
        exec (.addi d a i) s = .next (s.retireS [a] d (x + i.signExtend 64)) ∧
        exec (.andi d a i) s = .next (s.retireS [a] d (x &&& i.signExtend 64)) ∧
        exec (.ori d a i) s = .next (s.retireS [a] d (x ||| i.setWidth 64)) ∧
        exec (.xori d a i) s = .next (s.retireS [a] d (x ^^^ i.setWidth 64)) ∧
        exec (.slli d a i) s = .next (s.retireS [a] d (if i.toNat < 64 then x <<< i.toNat else 0)) ∧
        exec (.srli d a i) s = .next (s.retireS [a] d (if i.toNat < 64 then x >>> i.toNat else 0)) ∧
        exec (.srai d a i) s = .next (s.retireS [a] d (if i.toNat < 64 then x.sshiftRight i.toNat else x.sshiftRight 63)) ∧
        exec (.clti d a i) s = .next (s.retireS [a] d (if x.toInt < i.toInt then 1 else 0)) ∧
        exec (.mov d a) s = .next (s.retireS [a] d x)) ∧
      (s.Ready [] (some d) → exec (.li d i) s = .next (s.retireS [] d (i.signExtend 64))))

/-- R74, R75: address arithmetic adds the scaled signed index modulo 2^72; the moves between s- and a-registers. -/
def Obligations.AddressResults : Prop :=
  ∀ (s : State) (d a : AReg) (r : SReg) (i : Imm),
    (s.Ready [r] none →
      let y := s.src r
      exec (.adda d a r) s = .next (s.retireT [r] fun th => th.writeA d (th.readA a + BitVec.ofInt 72 y.toInt)) ∧
      exec (.adda2 d a r) s = .next (s.retireT [r] fun th => th.writeA d (th.readA a + BitVec.ofInt 72 (2 * y.toInt))) ∧
      exec (.adda4 d a r) s = .next (s.retireT [r] fun th => th.writeA d (th.readA a + BitVec.ofInt 72 (4 * y.toInt))) ∧
      exec (.adda8 d a r) s = .next (s.retireT [r] fun th => th.writeA d (th.readA a + BitVec.ofInt 72 (8 * y.toInt))) ∧
      exec (.mova d r) s = .next (s.retireT [r] fun th => th.writeA d (y.setWidth 72)) ∧
      exec (.movah d r) s =
        .next (s.retireT [r] fun th => th.writeA d ((y.setWidth 8 : BitVec 8) ++ ((th.readA d).setWidth 64 : W64)))) ∧
    exec (.addai d a i) s = .next (s.retireT [] fun th => th.writeA d (th.readA a + i.signExtend 72)) ∧
    exec (.movaa d a) s = .next (s.retireT [] fun th => th.writeA d (th.readA a)) ∧
    (s.Ready [] (some r) →
      exec (.movs r a) s = .next (s.retireS [] r ((s.cur.readA a).setWidth 64)) ∧
      exec (.movsh r a) s = .next (s.retireS [] r (((s.cur.readA a) >>> 64).setWidth 64)))

/-- R76 to R78: a conditional branch goes to its target when its condition holds and to the next bundle when not; J and
JAL go to their target, and JR and JALR to an even register value; JAL links through s28 and JALR through s_d, whose old
value is read first. The target counts words from the branch. Of a gang, the members for which the condition fails part
from the others though the target be the next bundle (R65: the last argument of `moveTo`). -/
def Obligations.BranchesAndJumps : Prop :=
  ∀ (s : State) (d a : SReg) (m : MReg) (i : Imm) (t : W64),
    (t.toNat : Int) = (s.iss.b.pc.toNat : Int) + 2 * i.toInt →
    (s.Ready [a] none →
      let x := s.src a
      let u := s.popIf [a]
      exec (.bz a i) s = .next (if x = 0 then u.moveTo t false true else s.retire [a]) ∧
      exec (.bnz a i) s = .next (if x ≠ 0 then u.moveTo t false true else s.retire [a]) ∧
      exec (.bltz a i) s = .next (if x.toInt < 0 then u.moveTo t false true else s.retire [a]) ∧
      exec (.bgez a i) s = .next (if 0 ≤ x.toInt then u.moveTo t false true else s.retire [a]) ∧
      exec (.bgtz a i) s = .next (if 0 < x.toInt then u.moveTo t false true else s.retire [a]) ∧
      exec (.blez a i) s = .next (if x.toInt ≤ 0 then u.moveTo t false true else s.retire [a]) ∧
      (x.getLsbD 0 = false → exec (.jr a) s = .next (u.moveTo x false))) ∧
    exec (.bmany m i) s = .next (if s.cur.readM m ≠ 0 then s.moveTo t false true else s.done) ∧
    exec (.bmnone m i) s = .next (if s.cur.readM m = 0 then s.moveTo t false true else s.done) ∧
    exec (.j i) s = .next (s.moveTo t false true) ∧
    exec (.jal i) s = .next ((s.setCur (s.cur.writeS 28 s.iss.b.next)).moveTo t false true) ∧
    (s.Ready [a] (some d) → (s.src a).getLsbD 0 = false →
      exec (.jalr d a) s = .next (((s.popIf [a]).putS d s.iss.b.next).moveTo (s.src a) false))

/-- The multiply, minimum, maximum and counting entries of page 1: products modulo 2^64 or their high half, and
counts of bits. R80, R81: bit fields of s_a under a control word in s_b, with the length cut at bit 63, their
immediate forms, and the funnel shifts of the pair s_d, s_a. The one-operand entries of page 1: bits reversed, sign
and zero extension, absolute value and negation modulo 2^64. -/
def Obligations.PageOneResults : Prop :=
  (
    ∀ (s : State) (d a b : SReg), s.Ready [a, b] (some d) →
      let x := s.src a
      let y := s.src b
      exec (.mul d a b) s = .next (s.retireS [a, b] d (BitVec.ofNat 64 (x.toNat * y.toNat))) ∧
      exec (.mulw d a b) s = .next (s.retireS [a, b] d ((BitVec.ofNat 32 (x.toNat * y.toNat)).signExtend 64)) ∧
      exec (.mulh d a b) s = .next (s.retireS [a, b] d (BitVec.ofInt 64 (x.toInt * y.toInt / 2 ^ 64))) ∧
      exec (.mulhn d a b) s = .next (s.retireS [a, b] d (BitVec.ofNat 64 (x.toNat * y.toNat / 2 ^ 64))) ∧
      exec (.min d a b) s = .next (s.retireS [a, b] d (if x.toInt < y.toInt then x else y)) ∧
      exec (.max d a b) s = .next (s.retireS [a, b] d (if x.toInt < y.toInt then y else x)) ∧
      exec (.minn d a b) s = .next (s.retireS [a, b] d (if x.toNat < y.toNat then x else y)) ∧
      exec (.maxn d a b) s = .next (s.retireS [a, b] d (if x.toNat < y.toNat then y else x)) ∧
      (a = b →
        ∃ up down ones : W64,
          exec (.clz d a) s = .next (s.retireS [a] d up) ∧ exec (.ctz d a) s = .next (s.retireS [a] d down) ∧
          exec (.popc d a) s = .next (s.retireS [a] d ones) ∧
          (x = 0 → up = 64 ∧ down = 64 ∧ ones = 0) ∧
          (x ≠ 0 → up.toNat = 63 - x.toNat.log2 ∧ x.toNat % 2 ^ (down.toNat + 1) = 2 ^ down.toNat) ∧
          ones.toNat = ((List.range 64).filter fun k => x.getLsbD k).length)) ∧
  (
    ∀ (s : State) (d a b : SReg) (i : Imm),
      (s.Ready [a, b] (some d) →
        let x := (s.src a).toNat
        let pos := (s.src b).toNat % 64
        let len := min ((s.src b).toNat / 256 % 128) (64 - pos)
        exec (.bext d a b) s = .next (s.retireS [a, b] d (BitVec.ofNat 64 (x / 2 ^ pos % 2 ^ len))) ∧
        exec (.bexts d a b) s = .next (s.retireS [a, b] d ((BitVec.ofNat len (x / 2 ^ pos)).signExtend 64)) ∧
        exec (.bmsk d a b) s = .next (s.retireS [a, b] d (BitVec.ofNat 64 (x / 2 ^ pos % 2 ^ len * 2 ^ pos)))) ∧
      (s.Ready [a] (some d) →
        let x := (s.src a).toNat
        let pos := i.toNat % 64
        let len := min (i.toNat / 64) (64 - pos)
        exec (.bexti d a i) s = .next (s.retireS [a] d (BitVec.ofNat 64 (x / 2 ^ pos % 2 ^ len))) ∧
        exec (.bextsi d a i) s = .next (s.retireS [a] d ((BitVec.ofNat len (x / 2 ^ pos)).signExtend 64))) ∧
      (s.Ready [d, a, b] (some d) →
        let x := s.src a
        let z := s.src d
        let pos := (s.src b).toNat % 64
        let len := min ((s.src b).toNat / 256 % 128) (64 - pos)
        (∃ v : W64, exec (.bins d a b) s = .next (s.retireS [d, a, b] d v) ∧
          ∀ k, v.getLsbD k = if pos ≤ k ∧ k < pos + len then x.getLsbD (k - pos) else z.getLsbD k) ∧
        exec (.fshl d a b) s =
          .next (s.retireS [d, a, b] d (BitVec.ofNat 64 ((z.toNat * 2 ^ 64 + x.toNat) * 2 ^ pos / 2 ^ 64))) ∧
        exec (.fshr d a b) s =
          .next (s.retireS [d, a, b] d (BitVec.ofNat 64 ((x.toNat * 2 ^ 64 + z.toNat) / 2 ^ pos))) ∧
        exec (.sel d a b) s = .next (s.retireS [d, a, b] d (if z ≠ 0 then x else s.src b)))) ∧
  (
    ∀ (s : State) (d a : SReg), s.Ready [a] (some d) →
      let x := s.src a
      (∃ v : W64, exec (.brev d a) s = .next (s.retireS [a] d v) ∧ ∀ k, k < 64 → v.getLsbD k = x.getLsbD (63 - k)) ∧
      exec (.sextb d a) s = .next (s.retireS [a] d ((x.setWidth 8).signExtend 64)) ∧
      exec (.sexth d a) s = .next (s.retireS [a] d ((x.setWidth 16).signExtend 64)) ∧
      exec (.sextw d a) s = .next (s.retireS [a] d ((x.setWidth 32).signExtend 64)) ∧
      exec (.zextw d a) s = .next (s.retireS [a] d (x &&& 0xFFFFFFFF)) ∧
      exec (.abs d a) s = .next (s.retireS [a] d (BitVec.ofNat 64 x.toInt.natAbs)) ∧
      exec (.neg d a) s = .next (s.retireS [a] d (BitVec.ofInt 64 (-x.toInt))))

/-- R69, R79: with the divider free and a nonzero divisor, a divide commits: the quotient truncated toward zero or the
remainder with the sign of the dividend comes 36 cycles later, 20 for the W forms, which use bits 31 to 0 and extend
the sign of their result. The most negative number divided by −1 gives itself, remainder 0. R79: a zero divisor traps
DIVZ, cause 3, with the dividend in TVAL; nothing is written. -/
def Obligations.Divides : Prop :=
  (
    ∀ (s : State) (d a b : SReg), s.Ready [a, b] (some d) false → (s.core s.curCore).divBusy ≤ s.cycle →
      let x := s.src a
      let y := s.src b
      let out := fun (wait : Nat) (v : W64) =>
        (Host.Outcome.next ((s.setCore s.curCore { s.core s.curCore with divBusy := s.cycle + wait }).commit [a, b] [.s d]
          [(.s d, v.setWidth 512)] (.ready (s.cycle + wait))) : Host.Outcome State Fault Refusal)
      let xw : BitVec 32 := x.setWidth 32
      let yw : BitVec 32 := y.setWidth 32
      (y ≠ 0 →
        exec (.div d a b) s = out 36 (BitVec.ofInt 64 (x.toInt.tdiv y.toInt)) ∧
        exec (.rem d a b) s = out 36 (BitVec.ofInt 64 (x.toInt.tmod y.toInt)) ∧
        exec (.divn d a b) s = out 36 (BitVec.ofNat 64 (x.toNat / y.toNat)) ∧
        exec (.remn d a b) s = out 36 (BitVec.ofNat 64 (x.toNat % y.toNat))) ∧
      (yw ≠ 0 →
        exec (.divw d a b) s = out 20 ((BitVec.ofInt 32 (xw.toInt.tdiv yw.toInt)).signExtend 64) ∧
        exec (.remw d a b) s = out 20 ((BitVec.ofInt 32 (xw.toInt.tmod yw.toInt)).signExtend 64) ∧
        exec (.divnw d a b) s = out 20 ((BitVec.ofNat 32 (xw.toNat / yw.toNat)).signExtend 64) ∧
        exec (.remnw d a b) s = out 20 ((BitVec.ofNat 32 (xw.toNat % yw.toNat)).signExtend 64))) ∧
  (
    ∀ (s : State) (d a b : SReg), s.Ready [a, b] (some d) false → (s.core s.curCore).divBusy ≤ s.cycle →
      (s.src b = 0 → ∀ i ∈ [Instr.div d a b, .divn d a b, .rem d a b, .remn d a b],
        exec i s = .next (s.trap { cause := 3, tval := s.src a })) ∧
      ((s.src b).setWidth 32 = (0 : BitVec 32) → ∀ i ∈ [Instr.divw d a b, .divnw d a b, .remw d a b, .remnw d a b],
        exec i s = .next (s.trap { cause := 3, tval := s.src a })))

/-! ### Threads, gangs and their steps (03_thread) -/

/-- A slot a SPAWN may take: free, in the cycle after a QUIT or ABORT at the earliest, and held by the group. -/
def spawnable (s : State) (g : Nat × Nat) (t : Nat) : Prop :=
  slotOf t < 7 ∧ (s.thread t).st = .free ∧ (s.thread t).freed ≤ s.cycle ∧ (s.thread t).grp = some g

/-- R51, R52 and the SPAWN entry: SPAWN and SPAWNW of a member of a group start a task in the lowest free slot the group
holds on the target core, with the spawner's s1 to s4, and give its thread number, the spawner's stores visible to the
slots of its core; they wait for the spawner's remote accesses, which a spawn releases (07_memory R143; held so: log entry 4);
with no free slot
SPAWN gives −1 and SPAWNW waits; a core index outside the group, and slot 7, give −1. R52: a thread starts RUNNABLE at its start
address in user mode at trap level 0, with its arguments in s1 to s4 and every other register 0. -/
def Obligations.SpawnStartsTask : Prop :=
  (
    ∀ (s : State) (d a b : SReg) (ser g : Nat) (grp : Group), s.Ready [a, b] (some d) → (s.src b).getLsbD 0 = false →
      s.cur.grp = some (ser, g) → s.group? ser g = some grp →
      let c := (s.src a).toNat % 8
      let core := grp.clu * 8 + grp.first + c
      let k := s.kernel ser
      let args := [s.cur.readS 1, s.cur.readS 2, s.cur.readS 3, s.cur.readS 4]
      (slotOf s.iss.thr ≠ 7 → c < k.w * k.p →
        (∀ t, coreOf t = core → spawnable s (ser, g) t → (∀ u, u < t → coreOf u = core → ¬spawnable s (ser, g) u) →
          ∀ i ∈ [Instr.spawn d a b, .spawnw d a b],
            exec i s = .next (
              if s.cur.remOut = [] then
                ((s.ackAll s.iss.thr).startThread t (s.src b) args s.cur.ctx s.cur.vf).retireS [a, b] d (BitVec.ofNat 64 t)
              else s)) ∧
        ((∀ u, coreOf u = core → ¬spawnable s (ser, g) u) →
          exec (.spawn d a b) s = .next (s.retireS [a, b] d (-1)) ∧
          exec (.spawnw d a b) s = .next (s.block (.spawn core (s.src b) d) [a, b]))) ∧
      (slotOf s.iss.thr = 7 ∨ k.w * k.p ≤ c → ∀ i ∈ [Instr.spawn d a b, .spawnw d a b],
        exec i s = .next (s.retireS [a, b] d (-1)))) ∧
  (
    ∀ (s : State) (t : Nat) (pc v1 v2 v3 v4 : W64) (ctx vf : Nat),
      let th := (s.startThread t pc [v1, v2, v3, v4] ctx vf).thread t
      th.st = .runnable ∧ th.pc = pc ∧ th.ctx = ctx ∧ th.vf = vf ∧ th.readS 1 = v1 ∧ th.readS 2 = v2 ∧ th.readS 3 = v3 ∧
      th.readS 4 = v4 ∧ (∀ r : SReg, r.toNat = 0 ∨ 5 ≤ r.toNat → th.readS r = 0) ∧ (∀ r, th.readA r = 0) ∧
      (∀ r, th.readV r = 0) ∧ (∀ r, th.readM r = if r = 0 then BitVec.allOnes 64 else 0) ∧ th.tstate = 0 ∧
      th.bank1 = {} ∧ th.bank2 = {} ∧ th.tscratch = 0 ∧ th.fsel = 0 ∧ th.fflags = 0 ∧ th.issued = [] ∧ th.ops = [] ∧
      th.wakePend = false)

/-- R51, R53: WAKE, RESUME and ABORT send their ping over the mesh to the thread s_a[13:0] names, and drop it where the
number names no slot; RESUME and ABORT need system mode; WAKE and RESUME release. R53: a ping, the oldest message between
its two cores, reaches a thread of its own context: WAKE ends a sleep or sets the wake-pending bit, RESUME makes a DROPPED
thread RUNNABLE, and ABORT ends the thread; no bundle of the slot follows it in the cycle (R54). At a slot that is free or
of another context it is of the saved thread whose home slot that is: WAKE sets its wake-pending bit, RESUME clears its
dropped mark, ABORT discards its save, its group holding the slot still; with none it is discarded. Of a saved thread and one in its slot log entry 36
speaks. -/
def Obligations.Pings : Prop :=
  (
    ∀ (s : State) (a : SReg), s.Ready [a] none →
      let t := (s.src a).toNat % 16384
      let v := s.ackAll s.iss.thr
      let sent := fun (u : State) (k : PingKind) (rel : Nat) =>
        (Host.Outcome.next ((if t < 12288 then u.send (t / 8) (.ping k t) false rel else u).retire [a]) :
          Host.Outcome State Fault Refusal)
      exec (.wake a) s = sent v .wake (s.cur.remSent + 1) ∧
      (s.cur.tstate.getLsbD 2 = true →
        exec (.resume a) s = sent v .resume (s.cur.remSent + 1) ∧ exec (.abort a) s = sent s .abort 0)) ∧
  (
    ∀ (s : State) (t : Nat) (k : PingKind) (m : Msg),
      s.net.find? (fun x => decide (x.body = .ping k t) && x.first s.net) = some m →
      let u : State := { s with net := s.net.erase m }
      let i := match k with | .wake => Instr.wakeArrive t | .resume => .resumeArrive t | .abort => .abortArrive t
      ((s.thread t).st ≠ .free → (s.thread t).ctx = m.owner.ctx →
        let th := { s.thread t with yieldEnd := max (s.thread t).yieldEnd (s.cycle + 1) }
        let w := u.setThread t th
        (k = .wake → exec i s = .next (
          if th.st = .sleeping then (w.flushL1 (coreOf t)).setThread t { th with st := .runnable, sleepEnd := none }
          else w.setThread t { th with wakePend := true })) ∧
        (k = .resume → exec i s = .next (
          if th.st = .dropped then (w.flushL1 (coreOf t)).setThread t { th with st := .runnable } else w)) ∧
        (k = .abort → exec i s = .next ((w.leave t false).endThread t))) ∧
      ((s.thread t).st = .free ∨ (s.thread t).ctx ≠ m.owner.ctx →
        (s.savedAt m.owner.ctx t = none → exec i s = .next u) ∧
        (∀ key th, s.savedAt m.owner.ctx t = some (key, th) →
          (k = .wake → exec i s = .next (u.changeSaved key t fun th => { th with wakePend := true })) ∧
          (k = .resume → exec i s = .next (u.changeSaved key t fun th =>
            { th with st := if th.st = .dropped then .runnable else th.st })) ∧
          (k = .abort →
            let w := (u.endSavedLinks key t).changeSaved key t fun th => { grp := th.grp }
            ∀ g, tfind w.groups key = some g → exec i s =
              .next { w with groups := tput w.groups key { g with save := { g.save with aborted := true } } }))))

/-- Member `k` of a gang of `n` of a thread (R63). -/
def gangMember (t n k : Nat) : Nat := (t / 8 - t / 8 % 8 % n + k) * 8 + t % 8

/-- R63: the last member to issue GANGn forms the gang: every member goes on after the leader's bundle, with the
leader's s- and a-registers and what they depend on, and its place in the gang; with a member missing from the group the bundle has no effect
but to dissolve a gang the thread is in, and with one that has not come yet the thread waits. Followers execute the
leader's bundles in order, as log entry 7 says. -/
def Obligations.GangForms : Prop :=
  ∀ (s : State) (n : Nat) (i : Instr), (n, i) ∈ [(2, Instr.gang2), (4, .gang4), (8, .gang8)] →
    let t := s.iss.thr
    slotOf t ≠ 7 →
    let u := s.leave t true
    let m := gangMember t n
    ((∀ k, k < n → (u.thread (m k)).st ≠ .free ∧ (u.thread (m k)).grp = u.cur.grp) →
      ((∀ k, k < n → m k ≠ t → (u.thread (m k)).inGangWait n = true) →
        ∃ v next past, exec i s = .next v ∧
          (m 0 = t → next = s.iss.b.next ∧ past = s.iss.b.nextOver) ∧
          (∀ x, m 0 ≠ t → (u.thread (m 0)).wait = some x → next = x.b.next ∧ past = x.b.nextOver) ∧
          ∀ k, k < n → v.thread (m k) = { u.thread (m k) with
            st := .runnable, wait := none, pc := next, past := past, s := (u.thread (m 0)).s, a := (u.thread (m 0)).a,
            deps := gangDeps (u.thread (m 0)).deps (u.thread (m k)).deps, gang := some { size := n, index := k, num := u.gangs } }) ∧
      ((∃ k, k < n ∧ m k ≠ t ∧ (u.thread (m k)).inGangWait n = false) → exec i s = .next (u.block (.gang n)))) ∧
    ((∃ k, k < n ∧ ((u.thread (m k)).st = .free ∨ (u.thread (m k)).grp ≠ u.cur.grp)) → exec i s = .next u.done)

/-- R53, R65 and the entries of QUIT, YIELD, SLEEP, SPLIT and CRD: the slot of a thread that quits is FREE, from the next cycle for a
new task, and keeps no register; YIELD gives up eight core cycles; SLEEP completes at once on a pending wake and otherwise sleeps with its
timeout; SPLIT dissolves the gang; CRD reads a coordinate. R53, R57: the steps that end a wait: a timeout, a gang
whose members have all come, a slot for SPAWNW, a value to pop and room to push; where the link a waiting result was to be
pushed on has gone, the bundle traps QUEUE with reason 1 (08_barrier R168). -/
def Obligations.ThreadControl : Prop :=
  (
    ∀ (s : State) (a d : SReg) (i : Imm),
      let t := s.iss.thr
      (∃ u, exec .quit s = .next u ∧
        u.thread t = { grp := if slotOf t = 7 then none else s.cur.grp, freed := s.cycle + 1 } ∧ u.mem = s.mem ∧ u.ctxs = s.ctxs ∧ u.groups = s.groups) ∧
      exec .yield s = .next (s.retireT [] fun th => { th with yieldEnd := s.cycle + 9 }) ∧
      (s.Ready [a] none → slotOf t ≠ 7 →
        (s.cur.wakePend = true →
          exec (.sleep a) s = .next ((s.flushL1 s.curCore).retireT [a] fun th => { th with wakePend := false })) ∧
        (s.cur.wakePend = false →
          exec (.sleep a) s = .next (
            let u := s.retire [a]
            u.setCur { u.cur with st := .sleeping,
                                  sleepEnd := if s.src a = 0 then none else some (s.cycle + (s.src a).toNat) }))) ∧
      exec .split s = .next (s.leave t true).done ∧
      (s.Ready [] (some d) →
        exec (.crd d i) s = .next (s.retireS [] d (BitVec.ofNat 64 (s.coordinate t i.toNat))) ∧
        s.coordinate t 0 = t / 8 ∧ s.coordinate t 1 = t / 64 ∧ s.coordinate t 2 = t / 8 % 8 ∧ s.coordinate t 3 = t % 8 ∧
        s.coordinate t 6 = t / 3072 ∧ s.coordinate t 11 = s.cur.ctx ∧ s.coordinate t 12 = s.cur.vf ∧
        s.coordinate t 15 = (if s.cur.tstate.getLsbD 2 then 1 else 0))) ∧
  (
    ∀ (s : State) (t : Nat),
      let th := s.thread t
      (∀ e, th.st = .sleeping → th.sleepEnd = some e → e ≤ s.cycle →
        exec (.sleepTimeout t) s = .next (s.setThread t { th with st := .runnable, sleepEnd := none })) ∧
      (∀ x l, th.st = .waiting → th.wait = some x → x.w = .pop → s.upLink t = some l → l.vals ≠ [] →
        exec (.qinPopComplete t) s = .next (s.setThread t { th with st := .runnable, wait := none })) ∧
      (∀ x l, th.st = .waiting → th.wait = some x → x.w = .push → s.downLink t = some l → l.vals.length < 16 →
        exec (.qoutPushComplete t) s = .next (s.setThread t { th with st := .runnable, wait := none })) ∧
      (∀ x core start d grp v, th.st = .waiting → th.wait = some x → x.w = .spawn core start d → th.grp = some grp →
        s.freeSlot core grp = some v → th.remOut = [] →
        ((d = 31#5 → ∃ l, s.downLink t = some l ∧ l.vals.length < 16) →
          exec (.spawnwComplete t) s = .next (s.unblock t x fun w =>
            ((w.ackAll t).startThread v start [th.readS 1, th.readS 2, th.readS 3, th.readS 4] th.ctx th.vf).retireS [] d
              (BitVec.ofNat 64 v))) ∧
        (d = 31#5 → s.downLink t = none → exec (.spawnwComplete t) s = .next (s.unblockTrap t x (queueErr 31 1)))) ∧
      (∀ x n, th.wait = some x → x.w = .gang n → 0 < n → (∀ k, k < n → (s.thread (gangMember t n k)).inGangWait n = true) →
        ∃ v b, exec (.gangForm t) s = .next v ∧ (∀ y, (s.thread (gangMember t n 0)).wait = some y → b = y.b) ∧
          ∀ k, k < n → v.thread (gangMember t n k) = { s.thread (gangMember t n k) with
            st := .runnable, wait := none, pc := b.next, past := b.nextOver, s := (s.thread (gangMember t n 0)).s,
            a := (s.thread (gangMember t n 0)).a, deps := gangDeps (s.thread (gangMember t n 0)).deps (s.thread (gangMember t n k)).deps,
            gang := some { size := n, index := k, num := s.gangs } }))

/-- R59, 04_scalar R67: a long-latency bundle whose result has come writes its registers, or pushes it on the thread's
downstream link, and is outstanding no more; with the link full, or a remote access of the thread not yet performed, which
the push releases, it stays (log entry 4); with no link it gets the error QUEUE reason 1, raised later (R61). R58, R42, 17_context R304:
the 65th bundle of a handler takes a HANDLER trap, and an illegal encoding takes an ILLEGAL trap whose TVAL names the word
and the reason, the bundle's words in TWORD and TWORDH. When it completes is the scheduler's (log entry 6). -/
def Obligations.LongLatencyAndLimits : Prop :=
  (
    ∀ (s : State) (t k c : Nat) (p : Pend), (s.thread t).pend[k]? = some p → p.due = .ready c → c ≤ s.cycle → p.err = none →
      let th := s.thread t
      ((∀ e ∈ p.vals, e.1 ≠ Reg.s 31) →
        exec (.longLatencyComplete t k) s = .next (s.setThread t
          { p.vals.foldl (fun th e => (th.writeReg e.1 e.2).dependOn e.1 s.moment) th with
            pend := th.pend.take k ++ th.pend.drop (k + 1) })) ∧
      (∀ v, p.vals = [(Reg.s 31, v)] →
        (∀ l, s.downLink t = some l →
          (l.vals.length < 16 → th.remOut = [] →
            exec (.longLatencyComplete t k) s = .next (((s.ackAll t).push t (v.setWidth 64)).setThread t
              { th with pend := th.pend.take k ++ th.pend.drop (k + 1) })) ∧
          (16 ≤ l.vals.length ∨ th.remOut ≠ [] → exec (.longLatencyComplete t k) s = .next s)) ∧
        (s.downLink t = none → exec (.longLatencyComplete t k) s = .next (s.setThread t
          { th with pend := th.pend.set k { p with err := some { cause := 10, tval := 31 + 2 ^ 8 } } })))) ∧
  (
    ∀ (s : State) (idx : BitVec 3) (reason : BitVec 4),
      exec .handlerLimit s = .next (s.trap { cause := 11, high := BitVec.ofNat 64 (2 ^ 48) }) ∧
      exec (.illegalEncoding idx reason) s = .next (s.trap { cause := 1, tval := (0#56 ++ reason ++ 0#1 ++ idx : BitVec 64) }))

/-! ### Memory, local stores and messages (07_memory) -/

/-- R145, R146: an aligned load whose access is answered commits with the value of the bytes found, sign- or zero-extended
as its name says; LDA takes the low nine bytes of its slot. An acquire at CLUSTER scope or wider first empties the
core's L1 (R139). R139, R142, R227: a load of the device's own memory that misses the L1 finds the bytes of the home
slice, and so does every load of a page that is not of the normal type; one that hits finds the bytes of the line; loading
changes no byte of memory. So an access whose address translates to unpoisoned bytes of the device's own memory, in a line the
L1 does not hold, finds each byte of memory. Accesses are performed as they issue (log entry 4), and the TLBs and the L1 are
filled as log entry 5 says. -/
def Obligations.Loads : Prop :=
  (
    ∀ (s : State) (d : SReg) (a e : AReg) (x : BitVec 3) (i : Imm) (z : Nat) (bs : List (BitVec 8)) (u : State)
      (err : Option Err),
      let ea := s.cur.readA a + BitVec.ofInt 72 (i.toInt * z)
      ea.toNat % z = 0 → (if x.toNat = 0 then s else s.flushL1 s.curCore).readAt s.iss.thr ea.toNat z = (u, .ok bs err) →
      let out := fun (w : W64) => (Host.Outcome.next (u.commit [] [.s d] [(.s d, w.setWidth 512)] (.ready u.cycle) err false true) :
        Host.Outcome State Fault Refusal)
      (s.Ready [] (some d) false →
        (z = 1 → exec (.ldb d a x i) s = out ((BitVec.ofNat 8 (ofBytes bs)).signExtend 64)) ∧
        (z = 1 → exec (.ldbz d a x i) s = out (BitVec.ofNat 64 (ofBytes bs))) ∧
        (z = 2 → exec (.ldh d a x i) s = out ((BitVec.ofNat 16 (ofBytes bs)).signExtend 64)) ∧
        (z = 2 → exec (.ldhz d a x i) s = out (BitVec.ofNat 64 (ofBytes bs))) ∧
        (z = 4 → exec (.ldw d a x i) s = out ((BitVec.ofNat 32 (ofBytes bs)).signExtend 64)) ∧
        (z = 4 → exec (.ldwz d a x i) s = out (BitVec.ofNat 64 (ofBytes bs))) ∧
        (z = 8 → exec (.ldd d a x i) s = out (BitVec.ofNat 64 (ofBytes bs)))) ∧
      (z = 16 → exec (.lda e a x i) s =
        .next (u.commit [] [.a e] [(.a e, BitVec.ofNat 512 (ofBytes (bs.take 9)))] (.ready u.cycle) err false true))) ∧
  (
    ∀ (s : State) (t pa n ty : Nat), (ty ≠ 0 ∨ ∀ e ∈ (s.core (coreOf t)).l1, e.addr ≠ pa / 64 * 64) →
      (s.loadOwn t pa n ty).2 = s.memGet pa n ∧ (s.loadOwn t pa n ty).1.mem = s.mem) ∧
  (
    ∀ (s : State) (t pa n : Nat) (e : Line), s.l1Hit t pa (s.floor t (sliceOf pa)) = some e →
      (s.loadOwn t pa n 0).2 = e.bytes pa n ∧ (s.loadOwn t pa n 0).1.mem = s.mem) ∧
  (
    ∀ (s u : State) (t va pa n ty : Nat), s.xlate (coreOf t) (s.thread t).ctx .load va = (u, .ok u.dev.node pa ty) →
      s.Unasked (s.asker t) → u.memPoisoned pa n = false → (∀ e ∈ (u.core (coreOf t)).l1, e.addr ≠ pa / 64 * 64) →
      ∃ v bs err, s.readAt t va n = (v, .ok bs err) ∧ v.mem = u.mem ∧ bs.length = n ∧
        ∀ j, j < n → (bs.getD j 0).toNat = u.memRead (pa + j) 1)

/-- R145, R146: an aligned store whose address translates to the device's own memory is performed: the bytes it names hold
the low bytes of s_d, or of the pointer and zeros, and every other byte of memory reads as the translation left it. R143: a
releasing one waits for the thread's remote accesses, its earlier stores visible to the slots of its core. R231, and what a translation leaves: memory is as it was while the TLBs it fills have room. Accesses are performed as they
issue (log entry 4). -/
def Obligations.Stores : Prop :=
  (
    ∀ (s u : State) (d : SReg) (e a : AReg) (x : BitVec 3) (i : Imm) (z pa ty : Nat),
      let ea := s.cur.readA a + BitVec.ofInt 72 (i.toInt * z)
      let start := if x.toNat = 0 then s else s.ackAll s.iss.thr
      ea.toNat % z = 0 → (x.toNat ≠ 0 → s.cur.remOut = []) →
      s.Unasked (s.asker s.iss.thr) → start.xlate s.curCore s.cur.ctx .store ea.toNat = (u, .ok s.dev.node pa ty) →
      let stored := fun (o : Host.Outcome State Fault Refusal) (v : Nat) => ∃ t, o = .next t ∧
        ∀ p, t.memRead p 1 = if pa ≤ p ∧ p < pa + z then v / 2 ^ (8 * (p - pa)) % 256 else u.memRead p 1
      (s.Ready [d] none →
        (z = 1 → stored (exec (.stb d a x i) s) (s.src d).toNat) ∧
        (z = 2 → stored (exec (.sth d a x i) s) (s.src d).toNat) ∧
        (z = 4 → stored (exec (.stw d a x i) s) (s.src d).toNat) ∧
        (z = 8 → stored (exec (.std d a x i) s) (s.src d).toNat)) ∧
      (z = 16 → stored (exec (.sta e a x i) s) (s.cur.readA e).toNat)) ∧
  (
    ∀ (s : State) (d : SReg) (e a : AReg) (x : BitVec 3) (i : Imm) (z : Nat),
      (s.cur.readA a + BitVec.ofInt 72 (i.toInt * z)).toNat % z = 0 → x.toNat ≠ 0 → s.cur.remOut ≠ [] →
      (s.Ready [d] none → ∀ j, (z, j) ∈ [(1, Instr.stb d a x i), (2, .sth d a x i), (4, .stw d a x i), (8, .std d a x i)] →
        exec j s = .next s) ∧
      (z = 16 → exec (.sta e a x i) s = .next s)) ∧
  (
    ∀ (s : State) (core ctx va : Nat) (k : Kind),
      (s.core core).dtlb.length < 128 → (s.core core).itlb.length < 64 → (s.clu (core / 8)).tlb.length < 4096 →
      (s.xlate core ctx k va).1.mem = s.mem)

/-- R145, R149: a misaligned access of memory traps MISALIGN with its address, whatever the register holds; so does an
atomic of an address that is no multiple of 8, at every scope. -/
def Obligations.MisalignedAccessTraps : Prop :=
  ∀ (s : State) (d b : SReg) (a e : AReg) (x : BitVec 3) (i : Imm) (z : Nat),
    let ea := s.cur.readA a + BitVec.ofInt 72 (i.toInt * z)
    let trap : Host.Outcome State Fault Refusal := .next (s.trap { cause := 4, tval := ea.setWidth 64 })
    let base : Host.Outcome State Fault Refusal := .next (s.trap { cause := 4, tval := (s.cur.readA a).setWidth 64 })
    ((s.cur.readA a).toNat % 8 ≠ 0 →
      (s.Ready [b] (some d) false → ∀ j ∈ [Instr.amoadd d a b x, .amoswap d a b x, .amoand d a b x, .amoor d a b x,
        .amoxor d a b x, .amomin d a b x, .amomax d a b x, .amominn d a b x], exec j s = base) ∧
      (s.Ready [d, b] (some d) false → exec (.cas d a b x) s = base)) ∧
    (ea.toNat % z ≠ 0 →
    (s.Ready [] (some d) false → ∀ j, (z, j) ∈ [(2, Instr.ldh d a x i), (2, .ldhz d a x i), (4, .ldw d a x i), (4, .ldwz d a x i),
      (8, .ldd d a x i)] → exec j s = trap) ∧
    (s.Ready [d] none → ∀ j, (z, j) ∈ [(2, Instr.sth d a x i), (4, .stw d a x i), (8, .std d a x i)] → exec j s = trap) ∧
    (z = 16 → exec (.lda e a x i) s = trap ∧ exec (.sta e a x i) s = trap))

/-- R149: an atomic of an aligned dword of memory that is answered commits with the old value, having written the new one:
the sum, the operand, the bitwise or the signed or unsigned extreme; CAS writes only where the old value is s_d. It acts
at its scope, on another device's page at DOMAIN: at CORE the thread's stores become visible to the slots of its core
and its later loads are performed later, at wider scopes the L1 is emptied too, and it waits for the thread's remote accesses (R143). Of another device's memory AMOADD, AMOSWAP and CAS
ask for their operation with its operands (23_link R376). R139, R149: an atomic of the device's own memory gives the bytes that stood at its address and, where it writes, leaves the
new value there and every other byte of memory as the translation left it. Accesses are performed as they issue (log entry
4). -/
def Obligations.Atomics : Prop :=
  (
    ∀ (s : State) (d b : SReg) (a : AReg) (x : BitVec 3), (s.cur.readA a).toNat % 8 = 0 →
      let y := s.src b
      let scope := if s.onFar .atomic (s.cur.readA a).toNat then 4 else x.toNat
      let start := if scope = 0 then (s.ackAll s.iss.thr).fromNow s.iss.thr else (s.ackAll s.iss.thr).flushL1 s.curCore
      (scope ≠ 0 → s.cur.remOut = []) →
      let done := fun (srcs : List SReg) (new : W64 → Option W64) (r : Option AmoReq) (o : Host.Outcome State Fault Refusal) =>
        ∀ u bs err, start.rmwAt s.iss.thr (s.cur.readA a).toNat (fun old => (new (BitVec.ofNat 64 old)).map (·.toNat)) r =
            (u, .ok bs err) →
          o = .next (u.commit srcs [.s d] [(.s d, BitVec.ofNat 512 (ofBytes bs))] (.ready u.cycle) err false true)
      (s.Ready [b] (some d) false →
        done [b] (fun old => some (old + y)) (some { operand := y }) (exec (.amoadd d a b x) s) ∧
        done [b] (fun _ => some y) (some { amo := 1, operand := y }) (exec (.amoswap d a b x) s) ∧
        done [b] (fun old => some (old &&& y)) none (exec (.amoand d a b x) s) ∧
        done [b] (fun old => some (old ||| y)) none (exec (.amoor d a b x) s) ∧
        done [b] (fun old => some (old ^^^ y)) none (exec (.amoxor d a b x) s) ∧
        done [b] (fun old => some (if old.toInt < y.toInt then old else y)) none (exec (.amomin d a b x) s) ∧
        done [b] (fun old => some (if old.toInt < y.toInt then y else old)) none (exec (.amomax d a b x) s) ∧
        done [b] (fun old => some (if old.toNat < y.toNat then old else y)) none (exec (.amominn d a b x) s)) ∧
      (s.Ready [d, b] (some d) false →
        done [d, b] (fun old => if old = s.src d then some y else none) (some { amo := 2, operand := y, compare := s.src d }) (exec (.cas d a b x) s))) ∧
  (
    ∀ (s u v : State) (t va pa ty new : Nat) (bs : List (BitVec 8)) (err : Option Err) (f : Nat → Option Nat)
      (r : Option AmoReq), s.xlate (coreOf t) (s.thread t).ctx .atomic va = (u, .ok s.dev.node pa ty) → u.memPoisoned pa 8 = false →
      s.Unasked (s.asker t) → s.rmwAt t va f r = (v, .ok bs err) →
      bs = u.memGet pa 8 ∧ err = none ∧
      (f (u.memRead pa 8) = none → v.mem = u.mem) ∧
      (f (u.memRead pa 8) = some new →
        ∀ p, v.memRead p 1 = if pa ≤ p ∧ p < pa + 8 then new / 2 ^ (8 * (p - pa)) % 256 else u.memRead p 1))

/-- R140, R148, R150: an aligned access of the own local store inside it commits with what stands there, a store puts
its low bytes there, and an atomic does both; of every instruction of the family a misaligned offset traps MISALIGN and one
outside traps LOCAL. A releasing store and an atomic at CLUSTER or wider wait for the thread's remote accesses, its stores
visible to the slots of its core (R143). Where an access is performed no fault is injected and no dword poisoned. Accesses are performed as they issue (log entry 4). -/
def Obligations.LocalAccesses : Prop :=
  ∀ (s : State) (w : BitVec 2) (d a b : SReg) (x : BitVec 3),
    let got := if x.toNat = 0 then s else s.flushL1 s.curCore
    let rel := if x.toNat = 0 then s else s.ackAll s.iss.thr
    let u := if x.toNat = 0 then (s.ackAll s.iss.thr).fromNow s.iss.thr else (s.ackAll s.iss.thr).flushL1 s.curCore
    let clean := (s.core s.curCore).errs.faults = [] ∧ (s.core s.curCore).lsPoison = []
    let free := x.toNat ≠ 0 → s.cur.remOut = []
    let o := (s.src a).toNat
    let z := 2 ^ w.toNat
    let old : W64 := BitVec.ofNat 64 (s.lsRead s.curCore o 8)
    let out := fun (srcs : List SReg) (v : State) (r : W64) =>
      (Host.Outcome.next (v.commit srcs [.s d] [(.s d, r.setWidth 512)] (.ready s.cycle)) : Host.Outcome State Fault Refusal)
    let put := fun (v : W64) => u.lsWrite s.curCore o (toBytes 8 v.toNat)
    let held := x.toNat ≠ 0 ∧ s.cur.remOut ≠ []
    let atomics := [Instr.ladd d a b x, .lswap d a b x, .lmin d a b x, .lmax d a b x]
    (o % z = 0 → o + z ≤ 0x60000 →
      (clean → s.Ready [a] (some d) false →
        exec (.ldl w d a x) s = out [a] got (BitVec.ofNat 64 (s.lsRead s.curCore o z))) ∧
      (s.Ready [d, a] none → free →
        exec (.stl w d a x) s = .next ((rel.lsWrite s.curCore o (toBytes z (s.src d).toNat)).retire [d, a]))) ∧
    (o % 8 = 0 → o + 8 ≤ 0x60000 → clean → free → s.Ready [a, b] (some d) false →
      exec (.ladd d a b x) s = out [a, b] (put (old + s.src b)) old ∧
      exec (.lswap d a b x) s = out [a, b] (put (s.src b)) old ∧
      exec (.lmin d a b x) s = out [a, b] (put (if old.toInt < (s.src b).toInt then old else s.src b)) old ∧
      exec (.lmax d a b x) s = out [a, b] (put (if old.toInt < (s.src b).toInt then s.src b else old)) old) ∧
    (o % 8 = 0 → o + 8 ≤ 0x60000 → clean → free → s.Ready [d, a, b] (some d) false →
      exec (.casl d a b x) s = out [d, a, b] (if old = s.src d then put (s.src b) else u) old) ∧
    (∀ i n, (i = Instr.ldl w d a x ∧ n = z ∧ s.Ready [a] (some d) false) ∨ (i = .stl w d a x ∧ n = z ∧ s.Ready [d, a] none) ∨
        (i ∈ atomics ∧ n = 8 ∧ s.Ready [a, b] (some d) false) ∨ (i = .casl d a b x ∧ n = 8 ∧ s.Ready [d, a, b] (some d) false) →
      (o % n ≠ 0 → exec i s = .next (s.trap { cause := 4, tval := s.src a })) ∧
      (o % n = 0 → 0x60000 < o + n → exec i s = .next (s.trap { cause := 6, tval := s.src a })) ∧
      (o % n = 0 → o + n ≤ 0x60000 → held → i ≠ .ldl w d a x → exec i s = .next s))

/-- R152 to R158: remote accesses and messages to an existing core go out on the mesh with their operands; RLD and RADDR
wait for their reply; REPLY answers the message once; HSET installs a handler; PREF brings its line into the L1 where a TLB
covers it, and else asks a walker for the translation. At commit a core that does not exist traps REMOTE with reason 1, and a misaligned offset or one outside
MISALIGN or LOCAL; so does a REPLY for its third word, which traps HANDLER outside a handler or a second time, and HSET of an
odd address traps MISALIGN. R155 to R158: the oldest message of its VF between two cores, with no
handler running at its target and a task of its context there, is taken: an access is performed at the local store and
answered, and a MSG with an installed handler starts it on slot 7 with its payload and the sender's number; with no
task of the context it is refused with reason 2, but for a credit in a saved group's region, and with no handler with
reason 3. A message that releases is performed after those its thread sent before it (R143). Messages of a VF between two
cores keep their order (log entry 4). REMOTE names a core of 2,048 or more by its low 11 bits, which is the model's choice (log
entry 39). -/
def Obligations.RemoteAndMessages : Prop :=
  (
    ∀ (s : State) (w : BitVec 2) (h : BitVec 3) (d a b : SReg) (r : AReg) (i : Imm),
      let core := (s.src a).toNat
      let o := (s.src b).toNat
      let z := 2 ^ w.toNat
      (core < 1536 →
        (o % z = 0 → o + z ≤ 0x60000 →
          (s.Ready [a, b] (some d) false →
            exec (.rld w d a b) s = .next (
              let u := s.send core (.rld o z) true
              u.commit [a, b] [.s d] [] (.reply u.cur.remSent))) ∧
          (s.Ready [d, a, b] none →
            exec (.rst w d a b) s = .next ((s.send core (.rst o z (s.src d)) true).retire [d, a, b]))) ∧
        (o % 4 = 0 → o + 4 ≤ 0x60000 →
          (s.Ready [d, a, b] none →
            exec (.radd d a b) s = .next ((s.send core (.radd o ((s.src d).setWidth 32) false) true).retire [d, a, b])) ∧
          (s.Ready [d, a, b] (some d) false →
            exec (.raddr d a b) s = .next (
              let u := s.send core (.radd o ((s.src d).setWidth 32) true) true
              u.commit [d, a, b] [.s d] [] (.reply u.cur.remSent)))) ∧
        (s.Ready [a, b] none →
          exec (.msg h a b) s =
            .next ((s.send core (.msg h.toNat (s.src b) (s.cur.readS (b + 1)) (s.cur.readS (b + 2))) true).retire [a, b]))) ∧
      (∀ k : Handling, s.Ready [a] none → s.cur.hand = some k → k.replied = false → k.third.toNat % 8 = 0 →
        k.third.toNat + 8 ≤ 0x60000 →
        exec (.reply a) s = .next ((s.send (k.sender / 8) (.reply k.third.toNat (s.src a) k.sender) true).retireT [a]
          fun th => { th with hand := some { k with replied := true } })) ∧
      (s.Ready [d] none → (s.src d).getLsbD 0 = false →
        exec (.hset d i) s = .next ((s.setCtx s.cur.ctx { s.ctx s.cur.ctx with
          handlers := tset 0 (s.ctx s.cur.ctx).handlers i.toNat (s.src d) }).retire [d])) ∧
      (let ea := (s.cur.readA r + BitVec.ofInt 72 (i.toInt * 64)).toNat
       let x := s.clu (cluOf s.iss.thr)
       let known := (s.core s.curCore).dtlb.any (·.covers s.cur.ctx ea) || x.tlb.any (·.covers s.cur.ctx ea)
       (known = true → exec (.pref r i) s = .next (s.prefetchLine s.curCore s.cur.ctx ea).done) ∧
       (known = false → exec (.pref r i) s = .next ((s.setClu (cluOf s.iss.thr)
          { x with walks := x.walks ++ [{ core := s.curCore, ctx := s.cur.ctx, va := ea, shoot := s.dev.shoot }] }).done)))) ∧
  (
    ∀ (s : State) (w : BitVec 2) (h : BitVec 3) (d a b : SReg) (i : Imm),
      let core := (s.src a).toNat
      let o := (s.src b).toNat
      (∀ j n, (j = Instr.rld w d a b ∧ n = 2 ^ w.toNat ∧ s.Ready [a, b] (some d) false) ∨
          (j = .rst w d a b ∧ n = 2 ^ w.toNat ∧ s.Ready [d, a, b] none) ∨ (j = .radd d a b ∧ n = 4 ∧ s.Ready [d, a, b] none) ∨
          (j = .raddr d a b ∧ n = 4 ∧ s.Ready [d, a, b] (some d) false) →
        (1536 ≤ core → exec j s = .next (s.trap { cause := 15, tval := BitVec.ofNat 64 (core % 2048 + 2 ^ 12) })) ∧
        (core < 1536 → o % n ≠ 0 → exec j s = .next (s.trap { cause := 4, tval := s.src b })) ∧
        (core < 1536 → o % n = 0 → 0x60000 < o + n → exec j s = .next (s.trap { cause := 6, tval := s.src b }))) ∧
      (s.Ready [a, b] none → 1536 ≤ core →
        exec (.msg h a b) s = .next (s.trap { cause := 15, tval := BitVec.ofNat 64 (core % 2048 + 2 ^ 12) })) ∧
      (s.Ready [a] none →
        (s.cur.hand = none ∨ (∃ k, s.cur.hand = some k ∧ k.replied = true) →
          exec (.reply a) s = .next (s.trap { cause := 11, high := BitVec.ofNat 64 (4 * 2 ^ 48) })) ∧
        (∀ k : Handling, s.cur.hand = some k → k.replied = false →
          (k.third.toNat % 8 ≠ 0 → exec (.reply a) s = .next (s.trap { cause := 4, tval := k.third })) ∧
          (k.third.toNat % 8 = 0 → 0x60000 < k.third.toNat + 8 →
            exec (.reply a) s = .next (s.trap { cause := 6, tval := k.third })))) ∧
      (s.Ready [d] none → (s.src d).getLsbD 0 = true →
        exec (.hset d i) s = .next (s.trap { cause := 4, tval := s.src d }))) ∧
  (
    ∀ (s : State) (src tgt : Nat) (m : Msg) (rest : List Msg) (kind : Load → Bool),
      takeMsg src tgt (fun x => kind x.body && !x.held && x.cleared s.net) [] s.net = some (m, rest) →
      s.isFree (tgt * 8 + 7) = true →
      let u : State := { s with net := rest }
      (kind = Load.builtin → s.hasTask tgt m.owner.ctx = true → (s.core tgt).errs.faults = [] → (s.core tgt).lsPoison = [] →
        (∀ o z, m.body = .rld o z →
          exec (.builtinHandlerAccess src tgt) s = .next (u.answer m (BitVec.ofNat 64 (s.lsRead tgt o z)) none)) ∧
        (∀ o z v, m.body = .rst o z v →
          exec (.builtinHandlerAccess src tgt) s = .next ((u.lsWrite tgt o (toBytes z v.toNat)).answer m 0 none)) ∧
        (∀ o v back, m.body = .radd o v back →
          exec (.builtinHandlerAccess src tgt) s = .next (
            (if o % 16 = 4 then u.awCreditAt tgt (o - 4) v else u.lsModify tgt o (toBytes 4 (s.lsRead tgt o 4 + v.toNat))).answer m
              (BitVec.ofNat 64 (s.lsRead tgt o 4)) none)) ∧
        (∀ o v to_, m.body = .reply o v to_ →
          exec (.builtinHandlerAccess src tgt) s = .next (
            let x := (u.lsWrite tgt o (toBytes 8 v.toNat)).answer m 0 none
            { x with net := s.net.map fun y => if y = m then { m with num := 0, body := .ping .wake to_, rel := m.num } else y }))) ∧
      (kind = Load.handled → s.hasTask tgt m.owner.ctx = true →
        (∀ h w1 w2 w3, m.body = .msg h w1 w2 w3 →
          let pc := tget 0 (s.ctx m.owner.ctx).handlers h
          (pc ≠ 0 → exec (.handlerStart src tgt) s = .next (
            let x := u.startThread (tgt * 8 + 7) pc [w1, w2, w3, BitVec.ofNat 64 m.owner.thr] m.owner.ctx m.owner.vf
            (x.setThread (tgt * 8 + 7) { x.thread (tgt * 8 + 7) with hand := some { sender := m.owner.thr, third := w3 } }).answer m 0
              none)) ∧
          (pc = 0 → exec (.handlerStart src tgt) s = .next (u.answer m 0 (some 3))))) ∧
      (s.hasTask tgt m.owner.ctx = false →
        (kind = Load.builtin →
          (∀ o z v, m.body = .rld o z ∨ m.body = .rst o z v →
            exec (.builtinHandlerAccess src tgt) s = .next (u.answer m 0 (some 2))) ∧
          (∀ o v back, m.body = .radd o v back → (o % 16 = 4 → s.savedHome tgt m.owner.ctx (o - 4) 16 = none) →
            exec (.builtinHandlerAccess src tgt) s = .next (u.answer m 0 (some 2))) ∧
          (∀ o v to_, m.body = .reply o v to_ →
            exec (.builtinHandlerAccess src tgt) s = .next (
              let x := u.answer m 0 (some 2)
              { x with net := s.net.map fun y => if y = m then { m with num := 0, body := .ping .wake to_, rel := m.num } else y }))) ∧
        (kind = Load.handled → ∀ h w1 w2 w3, m.body = .msg h w1 w2 w3 →
          exec (.handlerStart src tgt) s = .next (u.answer m 0 (some 2)))))

/-- R151: a FENCE acquires where it names loads, emptying the L1 at CLUSTER scope or wider and at CORE having the thread's
later loads performed later, has every store of the thread acknowledged
where it names stores, and completes; with msg it waits for the thread's remote accesses and raises its oldest refusal
instead; after an access to another device it acts at DOMAIN (R159). R139 and 01_machine R15: what a home slice sends comes
in its order: the oldest invalidation takes its line from the L1, an acknowledged store is written to a line the L1 holds,
and messages a fenced core refused are sent again. When accesses are performed is log entry 4. -/
def Obligations.FencesAndCaches : Prop :=
  (
    ∀ (s : State) (i : Imm),
      let n := i.toNat
      let u := if n % 2 = 1 then
          (if 1 ≤ n / 32 ∨ s.cur.far = true then s.flushL1 s.curCore else s.fromNow s.iss.thr).setCur { s.cur with far := false } else s
      let v := if n / 2 % 2 = 1 then u.ackAll s.iss.thr else u
      (n / 16 % 2 = 0 ∨ s.cur.remOut = [] ∧ s.cur.remErr = [] → exec (.fence i) s = .next (v.retire [])) ∧
      (n / 16 % 2 = 1 → s.cur.remOut ≠ [] → exec (.fence i) s = .next s) ∧
      (∀ e rest, n / 16 % 2 = 1 → s.cur.remOut = [] → s.cur.remErr = e :: rest →
        exec (.fence i) s = .next ((s.setCur { s.cur with remErr := rest }).trap e.2))) ∧
  (
    ∀ (s : State) (core src tgt : Nat),
      (∀ a k rest, (s.core core).path = .inval a k :: rest →
        exec (.l1Invalidate core) s = .next (s.setCore core { s.core core with
          path := rest, l1 := (s.core core).l1.filter fun e => decide (e.addr ≠ a) })) ∧
      (∀ e rest, (s.core core).path = .ack e :: rest → (∀ x ∈ rest, x.slice ≠ sliceOf e.addr) →
        exec (.storeAck core) s = .next (s.setCore core { (s.core core).ackWrote e.addr e.bytes.length with
          path := rest, l1 := ackLines (s.core core).l1 e.addr e.bytes })) ∧
      (∃ t, exec (.messageRetry src tgt) s = .next t ∧ { t with net := s.net } = s ∧ t.net.length = s.net.length ∧
        (∀ m ∈ t.net, m.src = src → m.tgt = tgt → m.held = false)))

/-! ### Arrival words, multicast and chain queues (08_barrier, 16_group) -/

/-- R161: a credit of n to an arrival word with target 0 adds n to its count modulo 2^32, and sets its wrap flag when the
sum passes 2^32; with a target the generation moves on by the number of times the sum holds it, and the count keeps
what is left. The target and the scope stay. R160, R165, R161, R164 and the entries of AWSET, WAITGEN, ARRIVE and
ARRIVEM: with an aligned word inside the local store, AWSET sets target and scope and clears the count; WAITGEN
completes with the generation once it has moved past the one last seen, and waits before; ARRIVE sends a credit to an
existing core, and ARRIVEM one to every core of a configured set, whose entry it reads as a load does and traps ECC on
poison in it (TVAL 0: log entry 13), each a release of the thread's earlier accesses; an
arriving credit is performed at a core that holds a task of its context, after what it releases (held so: log entry 4), and
refused with reason 2 at one that holds none and is no saved home of it. -/
def Obligations.ArrivalWords : Prop :=
  (
    ∀ (target count gen flags : Nat) (n : BitVec 32), target < 2 ^ 32 → count < 2 ^ 32 → gen < 2 ^ 32 → flags < 8 →
      let word := fun (c g f : Nat) => target + c * 2 ^ 32 + g * 2 ^ 64 + f * 2 ^ 96
      let sum := count + n.toNat
      awCredit (word count gen flags) n =
        if target = 0 then word (sum % 2 ^ 32) gen (if sum < 2 ^ 32 then flags else flags + 8)
        else word (sum % target) ((gen + sum / target) % 2 ^ 32) flags) ∧
  (
    ∀ (s : State) (d a b : SReg),
      (s.Ready [a, b] none → (s.src a).toNat % 16 = 0 → (s.src a).toNat + 16 ≤ 0x60000 →
        (s.core s.curCore).errs.faults = [] → (s.core s.curCore).lsPoison = [] →
        exec (.awset a b) s = .next (
          let o := (s.src a).toNat
          (s.lsWrite s.curCore o (toBytes 16 ((s.src b).toNat % 2 ^ 32 + s.lsRead s.curCore (o + 8) 4 * 2 ^ 64 +
            (s.src b).toNat / 2 ^ 32 % 8 * 2 ^ 96))).retire [a, b])) ∧
      (s.Ready [a, b] (some d) → (s.src a).toNat % 16 = 0 → (s.src a).toNat + 16 ≤ 0x60000 →
        (s.core s.curCore).errs.faults = [] → (s.core s.curCore).lsPoison = [] →
        let o := (s.src a).toNat
        let g : BitVec 32 := BitVec.ofNat 32 (s.lsRead s.curCore (o + 8) 4)
        let last : BitVec 32 := (s.src b).setWidth 32
        (1 ≤ (g - last).toNat → (g - last).toNat ≤ 2 ^ 31 →
          exec (.waitgen d a b) s = .next ((s.acquireWord s.iss.thr o).retireS [a, b] d (g.setWidth 64))) ∧
        ((g = last ∨ 2 ^ 31 < (g - last).toNat) →
          exec (.waitgen d a b) s = .next (s.block (.generation (s.src a) last d) [a, b]))) ∧
      (s.Ready [d, a, b] none → (s.src b).toNat % 16 = 0 → (s.src b).toNat + 16 ≤ 0x60000 →
        ((s.src a).toNat < 1536 →
          exec (.arrive d a b) s =
            .next (((s.ackAll s.iss.thr).send (s.src a).toNat (.credit (s.src b).toNat ((s.src d).setWidth 32)) true
              (s.cur.remSent + 1)).retire [d, a, b])) ∧
        let set := (s.src a).toNat % 64
        let pa := (s.ctx s.cur.ctx).multicast % 2 ^ 40 + 256 * set
        (s.memPoisoned pa 256 = true → exec (.arrivem d a b) s =
          .next (((List.range 4).foldl (fun u i => u.replied s.iss.thr (pa + 64 * i)) s).trap (eccMem 0))) ∧
        (∀ cores, s.memPoisoned pa 256 = false → s.multicastSet s.cur.ctx set = some cores →
          exec (.arrivem d a b) s = .next ((cores.foldl (fun u c =>
            u.send c (.credit (s.src b).toNat ((s.src d).setWidth 32)) true (s.cur.remSent + 1))
              (((List.range 4).foldl (fun u i => u.replied s.iss.thr (pa + 64 * i)) s).ackAll s.iss.thr)).retire [d, a, b]))) ∧
      (∀ (t : Nat) (x : Waiting) (off : W64) (last : BitVec 32), (s.thread t).st = .waiting → (s.thread t).wait = some x →
        x.w = .generation off last d → (s.core (coreOf t)).errs.faults = [] → (s.core (coreOf t)).lsPoison = [] →
        let g : BitVec 32 := BitVec.ofNat 32 (s.lsRead (coreOf t) (off.toNat + 8) 4)
        1 ≤ (g - last).toNat → (g - last).toNat ≤ 2 ^ 31 →
        ((d = 31#5 → ∃ l, s.downLink t = some l ∧ l.vals.length < 16 ∧ (s.thread t).remOut = []) →
          exec (.waitgenComplete t) s = .next (s.unblock t x fun u =>
            (u.acquireWord t off.toNat).retireS [] d (g.setWidth 64))) ∧
        (d = 31#5 → s.downLink t = none → exec (.waitgenComplete t) s = .next (s.unblockTrap t x (queueErr 31 1)))) ∧
      (∀ (src tgt : Nat) (m : Msg) (rest : List Msg) (o : Nat) (n : BitVec 32),
        takeMsg src tgt (fun x => x.body.credits && !x.held && x.cleared s.net) [] s.net = some (m, rest) →
        s.isFree (tgt * 8 + 7) = true → m.body = .credit o n →
        let u : State := { s with net := rest }
        (s.hasTask tgt m.owner.ctx = true → (s.core tgt).errs.faults = [] →
          exec (.arrivalCredit src tgt) s = .next ((u.awCreditAt tgt o n).answer m 0 none)) ∧
        (s.hasTask tgt m.owner.ctx = false → s.savedHome tgt m.owner.ctx o 16 = none →
          exec (.arrivalCredit src tgt) s = .next (u.answer m 0 (some 2)))))

/-- R167, R168 and the entries of QCFG and QSTAT: QCFG connects the issuer to a peer of its group in its cluster that has
no upstream link yet, and disconnects an empty downstream link, for which it otherwise waits; QSTAT reads how many values a
link holds, that it exists, whether its sender has ended, and the other end. -/
def Obligations.ChainLinks : Prop :=
  ∀ (s : State) (d a : SReg),
    let t := s.iss.thr
    let peer := (s.src a).toNat % 16384
    (s.Ready [a] none →
      ((s.src a).getLsbD 14 = true → peer ≠ t → peer < 12288 → s.cur.grp ≠ none → (s.thread peer).grp = s.cur.grp →
        peer / 64 = t / 64 → s.upLink peer = none → s.downLink t = none →
        exec (.qcfg a) s =
          .next (({ s with links := s.links ++ [{ ctx := s.cur.ctx, src := t, dst := peer }] } : State).retire [a])) ∧
      ((s.src a).getLsbD 14 = false →
        (s.downLink t = none → exec (.qcfg a) s = .next (s.retire [a])) ∧
        (∀ l, s.downLink t = some l →
          (l.vals = [] → exec (.qcfg a) s = .next ((s.unlink t).retire [a])) ∧
          (l.vals ≠ [] → exec (.qcfg a) s = .next (s.block .disconnect [a]))))) ∧
    (∀ (u : Nat) (x : Waiting) (l : Link), (s.thread u).st = .waiting → (s.thread u).wait = some x → x.w = .disconnect →
      s.downLink u = some l → l.vals = [] →
      exec (.qcfgDisconnectComplete u) s = .next (s.unblock u x fun v => (v.unlink u).done)) ∧
    (s.Ready [a] (some d) →
      exec (.qstat d a) s = .next (s.retireS [a] d (BitVec.ofNat 64 (
        if (s.src a).getLsbD 0 then
          match s.downLink t with
          | some l => l.vals.length + 2 ^ 5 + l.dst * 2 ^ 16
          | none => 0
        else
          match s.upLink t with
          | some l => l.vals.length + 2 ^ 5 + (if l.srcEnded then 2 ^ 6 else 0) + l.src * 2 ^ 16
          | none => 0))))

/-! ### System registers, traps and translation (17_context, 12_page, 24_device) -/

/-- R302, R304: every system instruction that is issued in user mode traps PRIV with reason 1, and CSRR and CSRW with the
register's number; RETT at level 0 traps PRIV with reason 4; and an unlisted register PRIV with reason 2. R311, R315: outside
VF 0 VFCTL and VFSTAT, and CTXKILL of a context of another VF, trap PRIV with reason 3. -/
def Obligations.PrivilegeTraps : Prop :=
  ∀ (s : State) (d a : SReg) (r : AReg) (i : Imm),
    let priv := fun (n reason : Nat) =>
      (Host.Outcome.next (s.trap { cause := 2, tval := BitVec.ofNat 64 (n + reason * 2 ^ 12) }) : Host.Outcome State Fault Refusal)
    (s.cur.tstate.getLsbD 2 = false →
      (∀ j ∈ [Instr.rett, .tlbinv r a, .harvest, .ctxkill a, .shroud a, .msave r, .mrstr r, .resume a, .abort a, .texfence],
        exec j s = priv 0 1) ∧
      exec (.csrr d i) s = priv i.toNat 1 ∧ exec (.csrw d i) s = priv i.toNat 1) ∧
    (s.cur.tstate.getLsbD 2 = true →
      (s.cur.tstate.toNat % 4 = 0 → exec .rett s = priv 0 4) ∧
      (s.csr s.iss.thr i.toNat = none → exec (.csrr d i) s = priv i.toNat 2 ∧ exec (.csrw d i) s = priv i.toNat 2) ∧
      (s.cur.vf ≠ 0 →
        (i.toNat = 0x060 ∨ i.toNat = 0x061 → exec (.csrr d i) s = priv i.toNat 3 ∧ exec (.csrw d i) s = priv i.toNat 3) ∧
        (s.Ready [a] none → (s.ctx ((s.src a).toNat % 256)).st ≠ .free → (s.ctx ((s.src a).toNat % 256)).vf ≠ s.cur.vf →
          exec (.ctxkill a) s = priv 0 3)))

/-- R311: what a system-mode CSRR of each register reads: the cycle and time counters, FSEL and FFLAGS, TSTATE, the two
banks of trap registers, TSCRATCH, context and VF, the context's PTROOT, FRING, FBRING and FBMASK, MQWEIGHT, MQCTL, ELSEL,
ELDATA, EINJ and THROTTLE, and in VF 0 VFCTL, with its busy bit, and VFSTAT. R303, R310 to R312: a system-mode CSRW changes the fields the register lets be written, and no
others; a level of 3 is written as 2; writes of read-only registers, and of VFCTL naming VF 0 (R327), change nothing; MQCTL, ELSEL and VFCTL act as their own
steps do (DeviceEvents). TIMENS is computed from CYCLE as log entry 8 says, and what VFSTAT counts is log entry 29. -/
def Obligations.SystemRegisters : Prop :=
  (
    ∀ (s : State) (d : SReg) (i : Imm) (v : W64), s.Ready [] (some d) → s.cur.tstate.getLsbD 2 = true →
      let th := s.cur
      let c := s.core s.curCore
      let x := s.ctx th.ctx
      (i.toNat, v) ∈ [(0x000, BitVec.ofNat 64 s.cycle), (0x001, BitVec.ofNat 64 (s.cycle * 5 / 9)), (0x010, th.fsel),
        (0x011, th.fflags), (0x020, th.tstate), (0x021, th.bank1.tvec), (0x022, th.bank1.tcause), (0x023, th.bank1.tepc),
        (0x024, th.bank1.tval), (0x025, th.bank1.tword), (0x026, th.bank1.twordh), (0x029, th.bank2.tvec),
        (0x02A, th.bank2.tcause), (0x02B, th.bank2.tepc), (0x02C, th.bank2.tval), (0x02D, th.bank2.tword),
        (0x02E, th.bank2.twordh), (0x02F, th.tscratch), (0x030, BitVec.ofNat 64 th.ctx), (0x031, BitVec.ofNat 64 th.vf),
        (0x032, x.ptroot), (0x033, x.fring), (0x034, x.fbring), (0x035, x.fbmask), (0x040, c.mqWeight.setWidth 64),
        (0x041, BitVec.ofNat 64 ((if c.mqStop then 1 else 0) + (if c.mqFrozen then 2 else 0) + (if c.mqMaskErr then 4 else 0) +
          c.spill.length * 2 ^ 8)),
        (0x050, c.errs.elsel),
        (0x051, match (tget [] c.errs.logs (c.errs.elsel.toNat / 2 ^ 8 % 2 ^ 8))[c.errs.elsel.toNat % 8]? with
          | some e => e.row ++ e.syndrome ++ BitVec.ofNat 8 e.ctx ++ BitVec.ofNat 16 e.cls
          | none => 0),
        (0x052, c.errs.einj), (0x070, c.throttle)] →
      exec (.csrr d i) s = .next (s.retireS [] d v)) ∧
  (
    ∀ (s : State) (d : SReg) (i : Imm), s.Ready [] (some d) → s.cur.tstate.getLsbD 2 = true → s.cur.vf = 0 →
      (i.toNat = 0x060 → s.dev.vfPhase ≠ 0 → exec (.csrr d i) s = .next (s.retireS [] d (s.dev.vfctl ||| 1))) ∧
      (i.toNat = 0x060 → s.dev.vfPhase = 0 → exec (.csrr d i) s = .next (
        let u := s.flushL1 s.curCore
        ({ u with dev := { u.dev with vfQuiet := u.dev.vfQuiet || u.dev.vfByReg } } : State).retireS [] d
          (s.dev.vfctl &&& ~~~1))) ∧
      (i.toNat = 0x061 → exec (.csrr d i) s = .next (s.retireS [] d (BitVec.ofNat 64
        ((if s.dev.vfQuiet then 0 else s.vfCount (s.dev.vfctl.toNat / 2 ^ 16 % 16) % 2 ^ 32) + s.dev.vfPhase * 2 ^ 32))))) ∧
  (
    ∀ (s u : State) (d : SReg) (i : Imm), s.Ready [d] none → s.cur.tstate.getLsbD 2 = true →
      let x := s.src d
      let th := s.cur
      let c := s.core s.curCore
      let y := s.ctx th.ctx
      (i.toNat, u) ∈ [
        (0x010, s.setCur { th with fsel := x &&& 0xFFFFF }),
        (0x011, s.setCur { th with fflags := x &&& 0x1F }),
        (0x020, s.setCur { th with tstate := (x &&& 0x1C) ||| (if x &&& 3 = 3 then 2 else x &&& 3) }),
        (0x021, s.setCur { th with bank1 := { th.bank1 with tvec := x &&& ~~~1 } }),
        (0x022, s.setCur { th with bank1 := { th.bank1 with tcause := x &&& 0xFF } }),
        (0x023, s.setCur { th with bank1 := { th.bank1 with tepc := x } }),
        (0x024, s.setCur { th with bank1 := { th.bank1 with tval := x } }),
        (0x025, s.setCur { th with bank1 := { th.bank1 with tword := x } }),
        (0x026, s.setCur { th with bank1 := { th.bank1 with twordh := x } }),
        (0x029, s.setCur { th with bank2 := { th.bank2 with tvec := x &&& ~~~1 } }),
        (0x02A, s.setCur { th with bank2 := { th.bank2 with tcause := x &&& 0xFF } }),
        (0x02B, s.setCur { th with bank2 := { th.bank2 with tepc := x } }),
        (0x02C, s.setCur { th with bank2 := { th.bank2 with tval := x } }),
        (0x02D, s.setCur { th with bank2 := { th.bank2 with tword := x } }),
        (0x02E, s.setCur { th with bank2 := { th.bank2 with twordh := x } }),
        (0x02F, s.setCur { th with tscratch := x }),
        (0x032, s.setCtx th.ctx { y with ptroot := x &&& 0xFFFFFFFFF8000 }),
        (0x033, s.setCtx th.ctx { y with fring := x &&& 0xFFFFFFFFFF00F }),
        (0x034, s.setCtx th.ctx { y with fbring := x &&& 0xFFFFFFFFFF000 }),
        (0x035, s.setCtx th.ctx { y with fbmask := x &&& 0xFFFFF }),
        (0x040, s.setCore s.curCore { c with mqWeight := x.setWidth 4 }),
        (0x041, let v := s.mqctlStop s.curCore (x.getLsbD 0)
          if x.getLsbD 2 then v.mqctlClear s.curCore else v),
        (0x050, let v := s.setCore s.curCore { c with errs := { c.errs with elsel := x &&& 0xFF07 } }
          if x.getLsbD 16 then v.elselClear s.curCore else v),
        (0x052, s.setCore s.curCore { c with errs := { c.errs with einj := x &&& 0x1FF03 } }),
        (0x000, s), (0x001, s), (0x030, s), (0x031, s), (0x051, s), (0x070, s)] →
      exec (.csrw d i) s = .next (u.retire [d])) ∧
  (
    ∀ (s : State) (d : SReg) (i : Imm), s.Ready [d] none → s.cur.tstate.getLsbD 2 = true → s.cur.vf = 0 →
      (i.toNat = 0x060 → exec (.csrw d i) s = .next ((s.vfctlWrite (s.src d)).retire [d])) ∧
      (i.toNat = 0x060 → (s.src d).toNat / 2 ^ 16 % 16 = 0 → exec (.csrw d i) s = .next (s.retire [d])) ∧
      (i.toNat = 0x061 → exec (.csrw d i) s = .next (s.retire [d])))

/-- R303, R304, R307: a trap at level 0 or 1 of a thread in no gang whose vector is not 0 enters the next level: its bank
takes the cause, the address, the value and the bundle's words, its vector stays, the mode becomes system with the old
one in that level's pm bit, the pc becomes the vector, and nothing else of the thread changes but the loads its values depend on (07_memory R143), nor
anything of the device. The thread's own vector is used unless it is 0. R303, R306: a trap at level 2, or with no vector, kills the
context: it is DEAD, no thread of it is left, alone or of its kernels' groups, and its queues are HALTED; what
R307 has its completion records hold is kept: the causes of the traps, the level that failed, and the bundle's address. -/
def Obligations.TrapsTaken : Prop :=
  (
    ∀ (s : State) (t : Nat) (b : Bundle) (tepc vec : W64) (e : Err) (m : Nat),
      let th := s.thread t
      th.gang = none → (m = 1 ∨ m = 2) → th.tstate.toNat % 4 + 1 = m →
      vec = (if (th.bank m).tvec.toNat / 2 ≠ 0 then (th.bank m).tvec
        else if m = 1 then (s.ctx th.ctx).tvec1 else (s.ctx th.ctx).tvec2) → vec.toNat / 2 ≠ 0 →
      let u := s.takeTrap t b tepc e
      let v := u.thread t
      (v.bank m).tcause = BitVec.ofNat 64 e.cause ∧ (v.bank m).tepc = tepc ∧ (v.bank m).tval = e.tval ∧
      (v.bank m).tvec = (th.bank m).tvec ∧ (v.bank m).tword = twordOf b.words ∧
      (v.bank m).twordh = (twordhOf b.words ||| e.high) ∧ v.bank (3 - m) = th.bank (3 - m) ∧ v.pc = (vec &&& ~~~1#64) ∧
      v.tstate.toNat % 4 = m ∧ v.tstate.getLsbD 2 = true ∧ v.tstate.getLsbD (2 + m) = th.tstate.getLsbD 2 ∧
      v.tstate.getLsbD (5 - m) = th.tstate.getLsbD (5 - m) ∧
      { v with bank1 := th.bank1, bank2 := th.bank2, tstate := th.tstate, pc := th.pc, past := th.past, deps := th.deps } = th ∧
      (∀ n, n ≠ t → u.thread n = s.thread n) ∧ { u with thr := s.thr, iss := s.iss } = s) ∧
  (
    ∀ (s : State) (t : Nat) (b : Bundle) (tepc : W64) (e : Err),
      let th := s.thread t
      (s.ctx th.ctx).st = .live ∨ (s.ctx th.ctx).st = .suspended → th.gang = none →
      (2 ≤ th.tstate.toNat % 4 ∨
        (th.tstate.toNat % 4 = 0 ∧ th.bank1.tvec.toNat / 2 = 0 ∧ (s.ctx th.ctx).tvec1.toNat / 2 = 0) ∨
        (th.tstate.toNat % 4 = 1 ∧ th.bank2.tvec.toNat / 2 = 0 ∧ (s.ctx th.ctx).tvec2.toNat / 2 = 0)) →
      let u := s.takeTrap t b tepc e
      (u.ctx th.ctx).st = .dead ∧
      (∀ n, (s.thread n).st ≠ .free → (s.thread n).ctx = th.ctx → (s.thread n).grp = none → (u.thread n).st = .free) ∧
      (∀ n ser g, (s.thread n).grp = some (ser, g) → (s.kernel ser).ctx = th.ctx → (u.thread n).st = .free) ∧
      (∀ q, (s.queue q).ctx = th.ctx → (s.queue q).st ≠ .free → (u.queue q).st = .halted) ∧
      (u.ctx th.ctx).note = th.grp.map fun g => { ser := g.1, addr := b.pc, bytes :=
        if 2 ≤ th.tstate.toNat % 4 then [th.bank1.tcause.toNat, th.bank2.tcause.toNat, e.cause, 3]
        else if th.tstate.toNat % 4 = 0 then [0, 0, e.cause, 1] else [th.bank1.tcause.toNat, 0, e.cause, 2] })

/-- R313, R314: TRAP takes SYSCALL with its code, TEPC the next bundle's address; RETT of a thread in no gang above level 0
goes back to TEPC of its level with the mode its pm bit holds, one level down, pm bits and banks kept. -/
def Obligations.TrapAndReturn : Prop :=
  ∀ (s : State) (i : Imm),
    exec (.trap i) s = .next (s.takeTrap s.iss.thr s.iss.b s.iss.b.next { cause := 13, tval := i.setWidth 64 }) ∧
    (s.cur.tstate.getLsbD 2 = true → s.cur.gang = none → ∀ n, (n = 1 ∨ n = 2) → s.cur.tstate.toNat % 4 = n →
      ∃ t, exec .rett s = .next t ∧ t.cur.pc = ((s.cur.bank n).tepc &&& ~~~1) ∧ t.cur.tstate.toNat % 4 = n - 1 ∧
        t.cur.tstate.getLsbD 2 = s.cur.tstate.getLsbD (2 + n) ∧ t.cur.tstate.getLsbD 3 = s.cur.tstate.getLsbD 3 ∧
        t.cur.tstate.getLsbD 4 = s.cur.tstate.getLsbD 4 ∧
        { t.cur with pc := s.cur.pc, past := s.cur.past, tstate := s.cur.tstate } = s.cur ∧ { t with thr := s.thr } = s)

/-- R231, R242, R243, R306, R315: TLBINV waits for the accesses translated before it, has the issuer's stores acknowledged,
counts a shoot-down, and takes the entries it names from every TLB with their gathered bits written back; HARVEST writes
back the bits of the issuer's context, and its own loads find them; CTXKILL kills a context of the issuer's VF, and any for
VF 0, once the issuer's remote accesses are performed. R147, R229 to R231, R237: a walk whose shoot-down count still
stands ends with the walks that joined it and fills the leaf it finds, and one whose count has changed starts again; a
prefetch then brings its line; gathered bits of a TLB entry are ORed into its leaf, after 2^20 cycles at the latest; a
waiting fault record is written when its ring has room. The model's choices: what a full TLB drops is log entry 5, that CTXKILL
is held for remote accesses entry 4, that one of a FREE context of any VF has no effect entry 24, and that HARVEST empties the
core's L1 entry 34. -/
def Obligations.Translation : Prop :=
  (
    ∀ (s : State) (a : AReg) (b : SReg), s.cur.tstate.getLsbD 2 = true →
      (s.Ready [b] none →
        let v := (s.src b).toNat
        let named := fun (t : TlbEnt) =>
          if v / 2 ^ 9 % 2 = 1 then true else if v / 2 ^ 8 % 2 = 1 then decide (t.ctx = v % 256)
          else t.covers (v % 256) (s.cur.readA a).toNat
        let u := s.ackAll s.iss.thr
        let held := s.translated fun c => decide (v / 2 ^ 9 % 2 = 1) || decide (c = v % 256)
        (held = false → s.cur.remOut = [] → exec (.tlbinv a b) s = .next
          ((({ u with dev := { u.dev with shoot := u.dev.shoot + 1 } } : State).shootDown named).commit [b] [] [] (.ready s.cycle))) ∧
        (held = true ∨ s.cur.remOut ≠ [] → exec (.tlbinv a b) s = .next s) ∧
        (s.cur.vf = 0 ∨ (s.ctx (v % 256)).st = .free ∨ (s.ctx (v % 256)).vf = s.cur.vf →
          exec (.ctxkill b) s = .next (
            if s.cur.remOut = [] then (u.retire [b]).kill (v % 256) none (some s.iss.thr) else s))) ∧
      exec .harvest s = .next (((s.harvest fun t => decide (t.ctx = s.cur.ctx)).flushL1 s.curCore).commit [] [] []
        (.ready s.cycle))) ∧
  (
    ∀ (s : State) (clu k : Nat) (id : TlbId),
      (∀ w rest, (s.clu clu).walks = w :: rest →
        (w.shoot ≠ s.dev.shoot → exec (.pageWalk clu) s = .next (s.setClu clu
          { s.clu clu with walks := { w with shoot := s.dev.shoot } :: rest })) ∧
        (w.shoot = s.dev.shoot → ∀ e lvl pte,
          let joined := fun (v : Walk) => decide (v.ctx = w.ctx) && decide (v.va / 4096 = w.va / 4096)
          let u := s.setClu clu { s.clu clu with walks := rest.filter fun v => !joined v }
          s.walk w.ctx w.va = .leaf .present e lvl pte → (∀ x ∈ (s.clu clu).tlb, x.covers w.ctx w.va = false) →
          (∀ v ∈ rest, joined v = true → v.thr ≠ none) →
          let t : TlbEnt := { ctx := w.ctx, lvl := lvl, page := w.va / 2 ^ pageBits lvl, leaf := e, pte := pte, since := s.cycle }
          (∀ n, w.thr = some n → exec (.pageWalk clu) s = .next (u.tlbFill (.second clu) t)) ∧
          (w.thr = none → (∀ x ∈ (s.core w.core).dtlb, x.covers w.ctx w.va = false) →
            exec (.pageWalk clu) s =
              .next (((u.tlbFill (.second clu) t).tlbFill (.data w.core) t).prefetchLine w.core w.ctx w.va)))) ∧
      (∀ e, (s.tlb id)[k]? = some e →
        exec (.adWriteback id k) s = .next ((s.adWrite e).setTlb id ((s.tlb id).set k e.written)) ∧
        ((e.a = true ∨ e.d = true) → e.since + 2 ^ 20 ≤ s.cycle →
          exec (.adWritebackTimeout id k) s = .next ((s.adWrite e).setTlb id ((s.tlb id).set k e.written)))) ∧
      (∀ r rest u, (s.clu clu).frecs = r :: rest → r.retryAt ≤ s.cycle → s.faultWrite r = some u →
        exec (.faultRecordRetry clu) s = .next (u.setClu clu { u.clu clu with frecs := rest })))

/-! ### Formats and floats (05_formats) -/

/-- R96, R99, R108 to R111: a scalar float instruction whose FSEL slot names an accepted entry computes exactly on the
decoded operands, rounds once to the entry's format, and gathers its flags; conversions to integers cut toward zero; FABS
and FNEG act on the sign bit. In each of them an entry that is not accepted traps FMT with its reason and index. -/
def Obligations.FloatResults : Prop :=
  ∀ (s : State) (d a b : SReg) (fs : BitVec 2),
    let w := s.slotWord fs.toNat
    let f := fmtOf w
    let x := decodeVal f (s.src a).toNat
    let y := decodeVal f (s.src b).toNat
    let put := fun (srcs : List SReg) (r : Flagged Val) =>
      (Host.Outcome.next ((s.withFlags (r.2 ||| (encodeVal f r.1).2)).retireS srcs d (BitVec.ofNat 64 (encodeVal f r.1).1)) :
        Host.Outcome State Fault Refusal)
    let int := fun (r : Flagged Int) =>
      (Host.Outcome.next ((s.withFlags r.2).retireS [a] d (BitVec.ofInt 64 r.1)) : Host.Outcome State Fault Refusal)
    let cmp := fun (r : Bool) (e : Nat) => (Host.Outcome.next
      ((s.withFlags (if x.isNan || y.isNan then e else 0)).retireS [a, b] d (if r then 1 else 0)) : Host.Outcome State Fault Refusal)
    let fmt := fun (n : Nat) => (Host.Outcome.next (s.trap
      { cause := 7, tval := BitVec.ofNat 64 (bits s.cur.fsel.toNat (5 * fs.toNat + 4) (5 * fs.toNat) + n * 256) }) :
        Host.Outcome State Fault Refusal)
    (s.Ready [a, b] (some d) → acceptFloat w = none →
      exec (.fadd d a b fs) s = put [a, b] (x.add y) ∧
      exec (.fsub d a b fs) s = put [a, b] (x.sub y) ∧
      exec (.fmul d a b fs) s = put [a, b] (x.mul y) ∧
      exec (.feq d a b fs) s = cmp (x.eqv y) 0 ∧
      exec (.flt d a b fs) s = cmp (x.lt y) 16 ∧
      exec (.fle d a b fs) s = cmp (x.le y) 16 ∧
      exec (.funord d a b fs) s = cmp (x.isNan || y.isNan) 0) ∧
    (s.Ready [d, a, b] (some d) → acceptFloat w = none →
      exec (.ffma d a b fs) s = put [d, a, b] (Val.fma x y (decodeVal f (s.src d).toNat))) ∧
    (s.Ready [a] (some d) → acceptFloat w = none →
      exec (.ftoi d a fs) s = int (toInteger (-(2 ^ 63)) (2 ^ 63 - 1) x) ∧
      exec (.ftoin d a fs) s = int (toInteger 0 (2 ^ 64 - 1) x) ∧
      exec (.itof d a fs) s = put [a] (Val.ofInt (s.src a).toInt, 0) ∧
      exec (.itofn d a fs) s = put [a] (Val.ofInt ((s.src a).toNat : Int), 0) ∧
      exec (.fabs d a fs) s = .next (s.retireS [a] d (BitVec.ofNat 64 ((s.src a).toNat % 2 ^ (f.W - 1)))) ∧
      exec (.fneg d a fs) s = .next (s.retireS [a] d
        (BitVec.ofNat 64 ((s.src a).toNat % 2 ^ f.W ^^^ 2 ^ (f.W - 1))))) ∧
    (∀ n, s.Ready [a, b] (some d) → acceptFloat w = some n →
      ∀ i ∈ [Instr.fadd d a b fs, .fsub d a b fs, .fmul d a b fs, .feq d a b fs, .flt d a b fs, .fle d a b fs, .funord d a b fs],
        exec i s = fmt n) ∧
    (∀ n, s.Ready [d, a, b] (some d) → acceptFloat w = some n → exec (.ffma d a b fs) s = fmt n) ∧
    (∀ n, s.Ready [a] (some d) → acceptFloat w = some n →
      ∀ i ∈ [Instr.ftoi d a fs, .ftoin d a fs, .itof d a fs, .itofn d a fs, .fabs d a fs, .fneg d a fs], exec i s = fmt n)

/-- R83 to R85, R98, R102 to R105: FMTSET reads a word and, for a codebook, its values, validates both and installs them,
in a free version slot or when one is freed, a value of s30 that named the entry leaving its link as it installs; fixed entries trap FMT reason 6 and invalid words with their check's
number; FMTGET reads an entry, FSEL, or FFLAGS, which selection 3 clears; FSET writes one slot; FMTINV empties an
entry. R106, R107: CVT decodes the elements of v_a in one entry and encodes each once in the other, by the control's
rounding and saturation, the narrower ones at the part the control names; CVTEF leaves the codes, the rounding
residuals in v_d+1 and the lanes out of range in m7. An entry CVT or CVTEF may not use traps FMT with its reason and index,
CVTEF taking entry 0 alone and no codebook. Which version slot is taken, which flags CVTEF raises and which entry of two TVAL
names is log entry 20. -/
def Obligations.FormatTable : Prop :=
  (
    ∀ (s : State) (a : AReg) (b d : SReg) (slot : BitVec 2),
      let n := (s.src b).toNat
      let i := n % 32
      let c := s.cur.ctx
      let ea := s.cur.readA a
      (s.Ready [b] none →
        (i < 8 → exec (.fmtset a b) s = .next (s.trap { cause := 7, tval := BitVec.ofNat 64 (i + 6 * 256) }) ∧
          exec (.fmtinv b) s = .next (s.trap { cause := 7, tval := BitVec.ofNat 64 (i + 6 * 256) })) ∧
        (8 ≤ i → ea.toNat % 8 ≠ 0 → exec (.fmtset a b) s = .next (s.trap (misalign ea))) ∧
        (8 ≤ i → ea.toNat % 8 = 0 → ∀ s1 bs, s.readAt s.iss.thr ea.toNat 8 = (s1, .ok bs none) →
          let w : W64 := BitVec.ofNat 64 (ofBytes bs)
          (∀ k, wordCheck w = some k → exec (.fmtset a b) s = .next (s1.trap { cause := 7, tval := BitVec.ofNat 64 (i + k * 256) })) ∧
          (wordCheck w = none → ∀ s2 bs2, s1.readPieces s.iss.thr (pieces (ea.toNat + 8) (4 * bookSize w)) = (s2, .ok bs2 none) →
            let vals := bytesWords bs2 (bookSize w)
            (∀ k, valueCheck w vals = some k → exec (.fmtset a b) s = .next (s2.trap
              { cause := 7, tval := BitVec.ofNat 64 (i + k * 256) })) ∧
            (valueCheck w vals = none →
              (kindOf w ≠ 4 → exec (.fmtset a b) s = .next
                ((s2.setFmt c i { tget {} (s2.ctx c).fmts i with word := w }).commit [b] [] [] (.ready s2.cycle))) ∧
              (kindOf w = 4 → ∀ k, s2.freeVersion c i = some k →
                exec (.fmtset a b) s = .next ((s2.installBook c i k w vals).commit [b] [] [] (.ready s2.cycle))) ∧
              (kindOf w = 4 → s2.freeVersion c i = none →
                exec (.fmtset a b) s = .next (s2.commit [] [] [] (.format i w vals (decide (b = 30#5)))))))) ∧
        (8 ≤ i → ∃ t : State, exec (.fmtinv b) s = .next (t.retire [b]) ∧ (t.ctx c).fmtWord i = 0 ∧
          (∀ j, j ≠ i → (t.ctx c).fmtWord j = (s.ctx c).fmtWord j) ∧ { t with ctxs := s.ctxs } = s) ∧
        (∃ f : W64, exec (.fset slot b) s = .next (s.retireT [b] fun th => { th with fsel := f }) ∧
          (s.cur.fsel.toNat < 2 ^ 20 → ∀ k, k < 4 → f.toNat / 2 ^ (5 * k) % 32 =
            if k = slot.toNat then i else s.cur.fsel.toNat / 2 ^ (5 * k) % 32))) ∧
      (s.Ready [b] (some d) false →
        let out := fun (u : State) (v : W64) =>
          (Host.Outcome.next (u.commit [b] [.s d] [(.s d, v.setWidth 512)] (.ready s.cycle)) : Host.Outcome State Fault Refusal)
        (n / 32 % 4 = 0 → exec (.fmtget d b) s = out s ((s.ctx c).fmtWord i)) ∧
        (n / 32 % 4 = 1 → exec (.fmtget d b) s = out s s.cur.fsel) ∧
        (n / 32 % 4 = 2 → exec (.fmtget d b) s = out s s.cur.fflags) ∧
        (n / 32 % 4 = 3 → exec (.fmtget d b) s = out (s.setCur { s.cur with fflags := 0 }) s.cur.fflags)) ∧
      (∀ (thr k : Nat) (p : Pend) w vals v j pops, (s.thread thr).pend[k]? = some p → p.due = .format j w vals pops →
        (∀ (k' : Nat) (q : Pend), k' < k → (s.thread thr).pend[k']? = some q → ∀ j w vals pops, q.due ≠ .format j w vals pops) →
        s.freeVersion (s.thread thr).ctx j = some v →
        exec (.fmtsetInstall thr) s = .next (
          let u := s.installBook (s.thread thr).ctx j v w vals
          let u := if pops then u.pop thr else u
          u.setThread thr { u.thread thr with pend := dropAt (s.thread thr).pend k }))) ∧
  (
    ∀ (s : State) (d a : VReg) (b : SReg), s.Ready [b] none →
      let n := (s.src b).toNat
      let w1 := (s.ctx s.cur.ctx).fmtWord (n % 32)
      let w2 := (s.ctx s.cur.ctx).fmtWord (n / 32 % 32)
      let f := (s.snap s.cur.ctx (n % 32)).fmt
      let g := (s.snap s.cur.ctx (n / 32 % 32)).fmt
      let mode := rndOf (n / 2 ^ 10 % 4)
      let sat := decide (n / 2 ^ 12 % 2 = 1)
      let part := n / 2 ^ 13 % 8
      (kindOf w1 = 0 → exec (.cvt d a b) s = .next (s.trap (fmtErr 7 (n % 32)))) ∧
      (kindOf w1 ≠ 0 → kindOf w2 = 0 → exec (.cvt d a b) s = .next (s.trap (fmtErr 7 (n / 32 % 32)))) ∧
      (kindOf w1 ≠ 0 → kindOf w2 ≠ 0 → f.W ∈ [4, 8, 16, 32] → g.W ∈ [4, 8, 16, 32] →
        let m := 512 / max f.W g.W
        let base := chunkBase m (min f.W g.W) part
        let lane := fun k => encodeVal g (decodeVal f (fieldAt (s.cur.readV a) ((if f.W < g.W then base else 0) + f.W * k) f.W)) mode sat
        ∃ v e, exec (.cvt d a b) s = .next (s.retireT [b] fun th => addFlags (th.writeV d v) e) ∧
          let lo := if g.W < f.W then base else 0
          (∀ k, k < m → fieldAt v (lo + g.W * k) g.W = (lane k).1 % 2 ^ g.W) ∧
          ∀ j, (j < lo ∨ lo + g.W * m ≤ j) → v.getLsbD j = (s.cur.readV d).getLsbD j) ∧
      (kindOf w1 = 0 → exec (.cvtef d a b) s = .next (s.trap (fmtErr 7 (n % 32)))) ∧
      (kindOf w1 ≠ 0 → n % 32 ≠ 0 → kindOf w2 ≠ 0 → exec (.cvtef d a b) s = .next (s.trap (fmtErr 8 (n % 32)))) ∧
      (kindOf w1 ≠ 0 → n % 32 = 0 → kindOf w2 = 0 → exec (.cvtef d a b) s = .next (s.trap (fmtErr 7 (n / 32 % 32)))) ∧
      (kindOf w1 ≠ 0 → n % 32 = 0 → kindOf w2 = 4 → exec (.cvtef d a b) s = .next (s.trap (fmtErr 8 (n / 32 % 32)))) ∧
      (n % 32 = 0 → kindOf w2 ≠ 0 → kindOf w2 ≠ 4 → g.W ∈ [4, 8, 16, 32] →
        let base := chunkBase 16 g.W part
        let x := fun k => val32 (BitVec.ofNat 32 (laneOf 32 (s.cur.readV a) k))
        let out := fun k => (x k).isNan || (x k).lt (finiteRange g).1 || (finiteRange g).2.lt (x k)
        ∃ v r m e, exec (.cvtef d a b) s =
            .next (s.retireT [b] fun th => addFlags (((th.writeV d v).writeV (d + 1) r).writeM 7 m) e) ∧
          let lo := if g.W = 32 then 0 else base
          (∀ k, k < 16 → fieldAt v (lo + g.W * k) g.W = (encodeVal g (x k) mode sat).1 % 2 ^ g.W) ∧
          (∀ j, (j < lo ∨ lo + g.W * 16 ≤ j) → v.getLsbD j = (s.cur.readV d).getLsbD j) ∧
          (∀ k, k < 16 → laneOf 32 r k = (rne32 ((x k).sub (decodeVal g (encodeVal g (x k) mode sat).1)).1).toNat) ∧
          ∀ k, k < 64 → m.getLsbD k = ((s.cur.readM 7).getLsbD k || (decide (k < 16) && out k))))

/-! ### Vectors and masks (06_vector) -/

/-- R117, R118, R124, R126, R127, R135: the integer and moving instructions of the vector unit, element by element: the
active elements get the value of the rule's table and the others keep theirs. -/
def Obligations.VectorResults : Prop :=
  ∀ (s : State) (w : BitVec 2) (d a b : VReg) (m : MReg) (r q : SReg),
    let z := 8 * 2 ^ w.toNat
    let x := laneOf z (s.cur.readV a)
    let y := laneOf z (s.cur.readV b)
    let x4 := laneOf 32 (s.cur.readV a)
    let y4 := laneOf 32 (s.cur.readV b)
    let op := fun (i : Instr) (f : Nat → Nat) => SetsLanes s i [] z d m f
    op (.vadd w d a b m) (fun k => x k + y k) ∧
    op (.vsub w d a b m) (fun k => x k + 2 ^ z - y k) ∧
    op (.vmul w d a b m) (fun k => x k * y k) ∧
    op (.vmulh w d a b m) (fun k => unsgn z (sgn z (x k) * sgn z (y k) / (2 ^ z : Nat))) ∧
    op (.vsll w d a b m) (fun k => if z ≤ y k then 0 else x k * 2 ^ y k) ∧
    op (.vsrl w d a b m) (fun k => if z ≤ y k then 0 else x k / 2 ^ y k) ∧
    op (.vsra w d a b m) (fun k => if z ≤ y k then (if sgn z (x k) < 0 then 2 ^ z - 1 else 0)
      else unsgn z (sgn z (x k) / (2 ^ y k : Nat))) ∧
    op (.vmin w d a b m) (fun k => if sgn z (y k) < sgn z (x k) then y k else x k) ∧
    op (.vmax w d a b m) (fun k => if sgn z (x k) < sgn z (y k) then y k else x k) ∧
    op (.vminn w d a b m) (fun k => min (x k) (y k)) ∧
    op (.vmaxn w d a b m) (fun k => max (x k) (y k)) ∧
    op (.viota w d m) (fun k => ((List.range k).filter fun j => (s.cur.readM m).getLsbD j).length) ∧
    op (.vperm w d a b m) (fun k => if y k < 512 / z then x (y k) else 0) ∧
    SetsLanes s (.vand d a b m) [] 32 d m (fun k => x4 k &&& y4 k) ∧
    SetsLanes s (.vor d a b m) [] 32 d m (fun k => x4 k ||| y4 k) ∧
    SetsLanes s (.vxor d a b m) [] 32 d m (fun k => x4 k ^^^ y4 k) ∧
    SetsLanes s (.vandn d a b m) [] 32 d m (fun k => x4 k - (x4 k &&& y4 k)) ∧
    SetsLanes s (.vmov d a m) [] 32 d m x4 ∧
    SetsLanes s (.vwiden8 d a m) [] 16 d m (laneOf 8 (s.cur.readV a)) ∧
    SetsLanes s (.vwiden16 d a m) [] 32 d m (laneOf 16 (s.cur.readV a)) ∧
    SetsLanes s (.vnarrow16 d a m) [] 16 d m
      (fun k => if k < 16 then (max 0 (min (sgn 32 (x4 k)) 65535)).toNat else laneOf 16 (s.cur.readV d) k) ∧
    SetsLanes s (.vnarrow8 d a m) [] 8 d m
      (fun k => if k < 32 then (max 0 (min (sgn 16 (laneOf 16 (s.cur.readV a) k)) 255)).toNat else laneOf 8 (s.cur.readV d) k) ∧
    (∃ v, exec (.vsel d a b m) s = .next (s.retireT [] fun th => th.writeV d v) ∧
      ∀ k, k < 16 → laneOf 32 v k = if (s.cur.readM m).getLsbD k then x4 k else y4 k) ∧
    (s.Ready [r] none →
      SetsLanes s (.vbcast w d r m) [r] z d m (fun _ => (s.src r).toNat) ∧
      SetsLanes s (.vsldn w d a r m) [r] z d m (fun k => if k + (s.src r).toNat < 512 / z then x (k + (s.src r).toNat) else 0) ∧
      SetsLanes s (.vslup w d a r m) [r] z d m (fun k => if (s.src r).toNat ≤ k then x (k - (s.src r).toNat) else 0)) ∧
    (s.Ready [r] (some q) → exec (.vextr w q a r m) s = .next (
      if 512 / z ≤ (s.src r).toNat then s.retireS [r] q 0
      else if (s.cur.readM m).getLsbD (s.src r).toNat then s.retireS [r] q (BitVec.ofNat 64 (x (s.src r).toNat))
      else s.retire [r])) ∧
    (s.Ready [q, r] none → ∃ v, exec (.vins w d q r m) s = .next (s.retireT [q, r] fun th =>
        if (s.src r).toNat < 512 / z ∧ (s.cur.readM m).getLsbD (s.src r).toNat then th.writeV d v else th) ∧
      ∀ k, k < 512 / z → laneOf z v k = if k = (s.src r).toNat then (s.src q).toNat % 2 ^ z else laneOf z (s.cur.readV d) k)

/-- R119, R121, R136, R137: a compare writes the bits of the active elements, keeps the others below the element count and
clears the rest; float compares use FSEL slot 0 and flag a NaN operand of VFCLT and VFCLE; the mask operations. -/
def Obligations.MaskResults : Prop :=
  ∀ (s : State) (d e g m : MReg) (a b : VReg) (q : SReg),
    let rel := fun (z : Nat) (i : Instr) (f : Nat → Nat → Bool) =>
      SetsMask s i (512 / z) d m (fun k => f (laneOf z (s.cur.readV a) k) (laneOf z (s.cur.readV b) k)) 0
    rel 32 (.vceqE32 d a b m) (fun x y => decide (x = y)) ∧
    rel 32 (.vcneE32 d a b m) (fun x y => decide (x ≠ y)) ∧
    rel 32 (.vcltE32 d a b m) (fun x y => decide (sgn 32 x < sgn 32 y)) ∧
    rel 32 (.vcltnE32 d a b m) (fun x y => decide (x < y)) ∧
    rel 16 (.vceqE16 d a b m) (fun x y => decide (x = y)) ∧
    rel 16 (.vcneE16 d a b m) (fun x y => decide (x ≠ y)) ∧
    rel 16 (.vcltE16 d a b m) (fun x y => decide (sgn 16 x < sgn 16 y)) ∧
    rel 16 (.vcltnE16 d a b m) (fun x y => decide (x < y)) ∧
    rel 8 (.vceqE8 d a b m) (fun x y => decide (x = y)) ∧
    rel 8 (.vcneE8 d a b m) (fun x y => decide (x ≠ y)) ∧
    rel 8 (.vcltE8 d a b m) (fun x y => decide (sgn 8 x < sgn 8 y)) ∧
    rel 8 (.vcltnE8 d a b m) (fun x y => decide (x < y)) ∧
    (acceptFloat (s.slotWord 0) = none →
      let f := fmtOf (s.slotWord 0)
      let x := fun k => decodeVal f (laneOf f.W (s.cur.readV a) k)
      let y := fun k => decodeVal f (laneOf f.W (s.cur.readV b) k)
      let nan := (List.range (512 / f.W)).any fun k => (s.cur.readM m).getLsbD k && ((x k).isNan || (y k).isNan)
      SetsMask s (.vfceq d a b m) (512 / f.W) d m (fun k => (x k).eqv (y k)) 0 ∧
      SetsMask s (.vfclt d a b m) (512 / f.W) d m (fun k => (x k).lt (y k)) (if nan then 16 else 0) ∧
      SetsMask s (.vfcle d a b m) (512 / f.W) d m (fun k => (x k).le (y k)) (if nan then 16 else 0) ∧
      SetsMask s (.vfcun d a b m) (512 / f.W) d m (fun k => (x k).isNan || (y k).isNan) 0) ∧
    exec (.mand d e g) s = .next (s.retireT [] fun th => th.writeM d (th.readM e &&& th.readM g)) ∧
    exec (.mor d e g) s = .next (s.retireT [] fun th => th.writeM d (th.readM e ||| th.readM g)) ∧
    exec (.mxor d e g) s = .next (s.retireT [] fun th => th.writeM d (th.readM e ^^^ th.readM g)) ∧
    exec (.mandn d e g) s = .next (s.retireT [] fun th => th.writeM d (th.readM e &&& ~~~(th.readM g))) ∧
    (s.Ready [] (some q) →
      exec (.mmovs q e) s = .next (s.retireS [] q (s.cur.readM e)) ∧
      (∃ v, exec (.mpop q e) s = .next (s.retireS [] q v) ∧
        v.toNat = ((List.range 64).filter fun k => (s.cur.readM e).getLsbD k).length) ∧
      ∃ v, exec (.mfirst q e) s = .next (s.retireS [] q v) ∧ v.toNat ≤ 64 ∧
        (∀ k, k < v.toNat → (s.cur.readM e).getLsbD k = false) ∧ (v.toNat < 64 → (s.cur.readM e).getLsbD v.toNat = true)) ∧
    (s.Ready [q] none → exec (.mmovm d q) s = .next (s.retireT [q] fun th => th.writeM d (s.src q)))

/-- R120, R122, R123: float arithmetic in the entry the FSEL slot names, element by element, each result rounded once, with
the flags of the active elements; a special function enters the core's unit when it takes a bundle, its active elements
rounded once to FP32, and completes 28 cycles later. An entry that is not accepted traps FMT with its reason and index, in the
float compares and the float arithmetic. How far special functions are computed is log entry 16. -/
def Obligations.VectorFloats : Prop :=
  ∀ (s : State) (w : BitVec 2) (d a b : VReg) (m e : MReg) (core : Nat),
    let f := fmtOf (s.slotWord w.toNat)
    let x := fun k => decodeVal f (laneOf f.W (s.cur.readV a) k)
    let y := fun k => decodeVal f (laneOf f.W (s.cur.readV b) k)
    let enc := fun (r : Flagged Val) => ((encodeVal f r.1).1, r.2 ||| (encodeVal f r.1).2)
    let code := fun (r : VReg) k => laneOf f.W (s.cur.readV r) k
    let pick := fun (choose : Val → Val → Bool) k =>
      if (x k).isNan ∧ (y k).isNan then nanCode f else if (x k).isNan then code b k else if (y k).isNan then code a k
      else if choose (x k) (y k) then code b k else code a k
    (acceptFloat (s.slotWord w.toNat) = none →
      SetsFloats s (.vfadd w d a b m) f d m (fun k => enc ((x k).add (y k))) ∧
      SetsFloats s (.vfsub w d a b m) f d m (fun k => enc ((x k).sub (y k))) ∧
      SetsFloats s (.vfmul w d a b m) f d m (fun k => enc ((x k).mul (y k))) ∧
      SetsFloats s (.vffma w d a b m) f d m (fun k => enc (Val.fma (x k) (y k) (decodeVal f (code d k)))) ∧
      SetsFloats s (.vfmin w d a b m) f d m (fun k => (pick (fun u v => v.below u) k, 0)) ∧
      SetsFloats s (.vfmax w d a b m) f d m (fun k => (pick (fun u v => u.below v) k, 0))) ∧
    (∀ n, acceptFloat (s.slotWord w.toNat) = some n →
      ∀ i ∈ [Instr.vfadd w d a b m, .vfsub w d a b m, .vfmul w d a b m, .vffma w d a b m, .vfmin w d a b m, .vfmax w d a b m],
        exec i s = .next (s.trap (fmtErr n (s.cur.fsel.toNat / 2 ^ (5 * w.toNat) % 32)))) ∧
    (∀ n, acceptFloat (s.slotWord 0) = some n →
      ∀ i ∈ [Instr.vfceq e a b m, .vfclt e a b m, .vfcle e a b m, .vfcun e a b m],
        exec i s = .next (s.trap (fmtErr n (s.cur.fsel.toNat % 32)))) ∧
    (∀ i g, (i, g) ∈ [(Instr.vrcp d a m, rcpOf), (.vrsq d a m, rsqOf), (.vexp2 d a m, exp2Of), (.vlog2 d a m, log2Of),
        (.vsin d a m, sinOf), (.vcos d a m, cosOf), (.vsqrt d a m, sqrtOf), (.vtanh d a m, tanhOf)] →
      let c := s.core s.curCore
      let lane := fun k => sfuLane g (laneOf 32 (s.cur.readV a) k)
      c.sfu.length < 8 → (∀ e ∈ c.sfu, e.at_ ≤ s.cycle + 24) →
      ∃ v e, exec i s = .next ((s.setCore s.curCore { c with sfu := c.sfu ++ [
            { owner := s.owner s.iss.thr s.iss.b.pc, at_ := s.cycle + 28, flags := e }] }).commit [] [.v d] [(.v d, v)] .sfu) ∧
        (∀ k, k < 16 → laneOf 32 v k = if (s.cur.readM m).getLsbD k then (lane k).1 % 2 ^ 32 else laneOf 32 (s.cur.readV d) k) ∧
        ∀ n, e.testBit n = true ↔ ∃ k, k < 16 ∧ (s.cur.readM m).getLsbD k = true ∧ (lane k).2.testBit n = true) ∧
    (∀ e rest, (s.core core).sfu = e :: rest → e.at_ ≤ s.cycle → (s.thread e.owner.thr).inc = e.owner.inc →
      (s.thread e.owner.thr).st ≠ .free →
      exec (.sfuComplete core) s = .next ((s.setCore core { s.core core with sfu := rest }).setThread e.owner.thr
        ((s.thread e.owner.thr).sfuDone s.moment e.flags)))

/-- R128, R129, R138: reductions of the active signed elements, running sums in lane order, the float ones in the fixed
tree and in lane order in slot 0's entry; outside a gang a gang reduction gives the thread's own value, and in one a
member's value waits until every member has issued; GFADD adds in the entry of the leader's slot 0. VREDFADD, VSCANFADD and
GFADD, in every member of a gang and outside one, trap FMT where the entry is not accepted. What a dissolved gang's reduction gives is log entry 21. -/
def Obligations.Reductions : Prop :=
  ∀ (s : State) (d r : SReg) (v a : VReg) (m : MReg),
    let mask := s.cur.readM m
    let on := (List.range 16).filter fun k => mask.getLsbD k
    let ints := on.map fun k => sgn 32 (laneOf 32 (s.cur.readV a) k)
    (s.Ready [] (some d) →
      exec (.vredadd d a m) s = .next (s.retireS [] d (BitVec.ofInt 64 ints.sum)) ∧
      (∃ x : Int, exec (.vredmin d a m) s = .next (s.retireS [] d (BitVec.ofInt 64 x)) ∧
        (∀ y ∈ ints, x ≤ y) ∧ (x ∈ ints ∨ x = 2 ^ 31 - 1)) ∧
      (∃ x : Int, exec (.vredmax d a m) s = .next (s.retireS [] d (BitVec.ofInt 64 x)) ∧
        (∀ y ∈ ints, y ≤ x) ∧ (x ∈ ints ∨ x = -(2 ^ 31))) ∧
      (acceptFloat (s.slotWord 0) = none →
        let f := fmtOf (s.slotWord 0)
        let t := treeSum f 5 ((List.range (512 / f.W)).map fun k => if mask.getLsbD k then some (laneOf f.W (s.cur.readV a) k) else none)
        exec (.vredfadd d a m) s = .next ((s.withFlags t.2).retireS [] d (BitVec.ofNat 64 t.1)))) ∧
    SetsLanes s (.vscanadd v a m) [] 32 v m
      (fun k => (((List.range (k + 1)).filter fun j => mask.getLsbD j).map fun j => laneOf 32 (s.cur.readV a) j).sum) ∧
    (acceptFloat (s.slotWord 0) = none →
      let f := fmtOf (s.slotWord 0)
      let sums := scanCodes f none
        ((List.range (512 / f.W)).map fun k => if mask.getLsbD k then some (laneOf f.W (s.cur.readV a) k) else none)
      SetsFloats s (.vscanfadd v a m) f v m (fun k => sums.getD k (0, 0))) ∧
    (s.Ready [r] (some d) false →
      (s.cur.gang = none →
        (∀ i ∈ [Instr.gadd d r, .gmin d r, .gmax d r],
          exec i s = .next ((s.withFlags 0).commit [r] [.s d] [(.s d, (s.src r).setWidth 512)] (.ready s.cycle))) ∧
        (acceptFloat (s.slotWord 0) = none →
          let f := fmtOf (s.slotWord 0)
          let c := encodeVal f (decodeVal f (s.src r).toNat)
          exec (.gfadd d r) s = .next ((s.withFlags c.2).commit [r] [.s d]
            [(.s d, (BitVec.ofNat 64 c.1).setWidth 512)] (.ready s.cycle)))) ∧
      (∀ g, s.cur.gang = some g →
        let ms := s.members s.iss.thr
        let part := fun (o : GangOp) (entry : W64) =>
          (s.commit [r] [.s d] [] (.gang o (s.src r) entry ms g.num g.done)).reduce ms g.num g.done
        (∀ i o, (i, o) ∈ [(Instr.gadd d r, GangOp.add), (.gmin d r, .min), (.gmax d r, .max)] →
          exec i s = .next (part o 0)) ∧
        let f := match g.ahead.head? with
          | some x => (x.slot, x.entry)
          | none => (bits s.cur.fsel.toNat 4 0, s.slotWord 0)
        (acceptFloat f.2 = none → exec (.gfadd d r) s = .next (part .fadd f.2)) ∧
        (∀ n, acceptFloat f.2 = some n → exec (.gfadd d r) s = .next (s.trap (fmtErr n f.1))))) ∧
    (∀ n, acceptFloat (s.slotWord 0) = some n →
      let fmt : Host.Outcome State Fault Refusal := .next (s.trap (fmtErr n (s.cur.fsel.toNat % 32)))
      (s.Ready [] (some d) → exec (.vredfadd d a m) s = fmt) ∧ exec (.vscanfadd v a m) s = fmt ∧
      (s.Ready [r] (some d) false → s.cur.gang = none → exec (.gfadd d r) s = fmt))

/-- R112 to R114, R130 to R133: a vector load whose active elements are aligned, translate and are answered commits v_d
with each active element's bytes and the others kept; a store leaves in memory, at each byte, what the highest active lane
that names the byte puts there, and every other byte as the translations left it; what it sends to other devices is answered
before it completes. Of several elements that fail the lowest lane's fault is taken, and nothing of the bundle takes effect. The
addresses are those of the form; a misaligned block or element traps MISALIGN with its address. Each active element lies where
its address translates to, and one in a page that is not of the normal type, or in a line the L1 does not hold, has the bytes of
memory there. Accesses are performed as they issue (log entry 4); what goes to other devices, and when, is log entry 12. -/
def Obligations.VectorMemory : Prop :=
  ∀ (s : State) (w : BitVec 2) (d b : VReg) (a : AReg) (r : SReg) (m : MReg) (im : Imm),
    let wide := 8 * 2 ^ w.toNat
    let ea := (effAddr (s.cur.readA a) im 64).toNat
    let active := fun (z : Nat) (addr : Nat → Nat) =>
      ((List.range (512 / z)).filter fun k => (s.cur.readM m).getLsbD k).map fun k => (k, addr k)
    let stride := fun k => (((s.cur.readA a).toNat + (s.src r).toInt * (k : Int)) % 2 ^ 72).toNat
    let index := fun k => (((s.cur.readA a).toNat + sgn wide (laneOf wide (s.cur.readV b) k) * (wide / 8 : Nat)) % 2 ^ 72).toNat
    let block := fun k => ea + 4 * k
    let stops := fun (i : Instr) (kind : Kind) (x : Option Stop) =>
      (∀ e, x = some (.trap e) → exec i s = .next (s.trap e)) ∧
      ∀ c va, x = some (.soft c va) → exec i s = .next (s.softFault c kind.code va)
    let loads := fun (i : Instr) (srcs : List SReg) (z : Nat) (addr : Nat → Nat) =>
      ∀ u es x v got y, s.checkElems s.iss.thr .load (z / 8) (active z addr) = (u, es, x) →
        u.readParts s.iss.thr (farParts (z / 8) (fun _ => []) es) = (v, got, y) →
        stops i .load (y.or x) ∧
        (y = none → x = none → ∀ t l err, v.readElems s.iss.thr (z / 8) got es = (t, l, err) →
          ∃ out, exec i s = .next (t.commit srcs [.v d] [(.v d, out)] (.ready t.cycle) err false true) ∧
            ∀ k, k < 512 / z → laneOf z out k = match l.find? fun e => decide (e.1 = k) with
              | some e => e.2 % 2 ^ z
              | none => laneOf z (s.cur.readV d) k)
    let stores := fun (i : Instr) (srcs : List SReg) (z : Nat) (addr : Nat → Nat) =>
      (∀ err, s.putsSent s.iss.thr = some (.ok [] err) → exec i s = .next (s.stored srcs err)) ∧
      (s.putsSent s.iss.thr = none →
        ∀ u es x v got y, s.checkElems s.iss.thr .store (z / 8) (active z addr) = (u, es, x) →
          u.readParts s.iss.thr (probes es) = (v, got, y) →
          let far := farParts (z / 8) (fun k => toBytes (z / 8) (laneOf z (s.cur.readV d) k)) es
          stops i .store (y.or x) ∧
          (y = none → x = none → v.mayPut far = true → ∃ t, exec i s = .next t ∧
            (far = [] → t.iss.turn = s.iss.turn) ∧ (far ≠ [] → t.iss.turn = .walking) ∧
            ∀ p, t.memRead p 1 =
              match es.reverse.find? fun e => match e.at_ with | .own pa _ => decide (pa ≤ p ∧ p < pa + z / 8) | .far _ _ => false with
              | some e => (match e.at_ with
                | .own pa _ => laneOf z (s.cur.readV d) e.lane / 2 ^ (8 * (p - pa)) % 256
                | .far _ _ => 0)
              | none => u.memRead p 1))
    let empty := (s.cur.readM m).toNat % 2 ^ 16 = 0
    ((empty ∨ ea % 64 = 0) → loads (.vld d a m im) [] 32 block ∧ stores (.vst d a m im) [] 32 block) ∧
    (¬empty → ea % 64 ≠ 0 → ∀ i ∈ [Instr.vld d a m im, .vst d a m im],
      exec i s = .next (s.trap { cause := 4, tval := BitVec.ofNat 64 ea })) ∧
    (s.Ready [r] none → loads (.vlds w d a r m) [r] wide stride ∧ stores (.vsts w d a r m) [r] wide stride) ∧
    loads (.vgath w d a b m) [] wide index ∧ stores (.vscat w d a b m) [] wide index ∧
    (∀ t k z lane va rest, va % z ≠ 0 →
      s.checkElems t k z ((lane, va) :: rest) = (s, [], some (.trap { cause := 4, tval := BitVec.ofNat 64 va }))) ∧
    (∀ u v t k z lane va rest node pa ty es x, va % z = 0 → (k = .load → s.readBefore (s.asker t) va = none) →
      s.xlate (coreOf t) (s.thread t).ctx k va = (u, .ok node pa ty) → u.checkElems t k z rest = (v, es, x) →
      s.checkElems t k z ((lane, va) :: rest) =
        (v, { lane := lane, va := va, at_ := if node = u.dev.node then .own pa ty else .far node pa } :: es, x)) ∧
    (∀ t z (e : Elem) rest pa ty got, e.at_ = .own pa ty →
      (ty ≠ 0 ∨ ∀ l ∈ (s.core (coreOf t)).l1, l.addr ≠ pa / 64 * 64) →
      ∃ (u : State) (bad : Option Err), u.mem = s.mem ∧ ∀ x l err, u.readElems t z got rest = (x, l, err) →
        s.readElems t z got (e :: rest) = (x, (e.lane, s.memRead pa z) :: l, bad.or err))

/-- R140, R134: the vector accesses of the own local store: each active element inside it is read into its lane or written
from it, the highest lane's byte standing where lanes name one byte; a misaligned offset traps MISALIGN and one outside
traps LOCAL. No fault is injected and no dword poisoned there. Accesses are performed as they issue (log entry 4). -/
def Obligations.VectorLocal : Prop :=
  ∀ (s : State) (w : BitVec 2) (d b : VReg) (r : SReg) (m : MReg), s.Ready [r] none →
    (s.core s.curCore).errs.faults = [] → (s.core s.curCore).lsPoison = [] →
    let wide := 8 * 2 ^ w.toNat
    let o := (s.src r).toNat
    let loads := fun (i : Instr) (z : Nat) (off : Nat → Int) =>
      ((∀ k, k < 512 / z → (s.cur.readM m).getLsbD k = true → off k % (z / 8 : Nat) = 0 ∧ 0 ≤ off k ∧ off k + (z / 8 : Nat) ≤ 0x60000) →
        ∃ v, exec i s = .next (s.commit [r] [.v d] [(.v d, v)] (.ready s.cycle)) ∧ ∀ k, k < 512 / z →
          laneOf z v k = if (s.cur.readM m).getLsbD k then s.lsRead s.curCore (off k).toNat (z / 8) else laneOf z (s.cur.readV d) k)
    let stores := fun (i : Instr) (z : Nat) (off : Nat → Int) =>
      ((∀ k, k < 512 / z → (s.cur.readM m).getLsbD k = true → off k % (z / 8 : Nat) = 0 ∧ 0 ≤ off k ∧ off k + (z / 8 : Nat) ≤ 0x60000) →
        ∃ t, exec i s = .next t ∧ ∀ p, t.lsRead s.curCore p 1 =
          match (List.range (512 / z)).reverse.find? fun k =>
            (s.cur.readM m).getLsbD k && decide (off k ≤ p ∧ p < off k + (z / 8 : Nat)) with
          | some k => laneOf z (s.cur.readV d) k / 2 ^ (8 * ((p : Int) - off k).toNat) % 256
          | none => s.lsRead s.curCore p 1)
    let stops := fun (i : Instr) (z : Nat) (off : Nat → Int) =>
      ∀ k, k < 512 / z → (s.cur.readM m).getLsbD k = true → (∀ j, j < k → (s.cur.readM m).getLsbD j = false) →
        (off k % (z / 8 : Nat) ≠ 0 → exec i s = .next (s.trap { cause := 4, tval := BitVec.ofInt 64 (off k) })) ∧
        (off k % (z / 8 : Nat) = 0 → (off k < 0 ∨ 0x60000 < off k + (z / 8 : Nat)) →
          exec i s = .next (s.trap { cause := 6, tval := BitVec.ofInt 64 (off k) }))
    let index := fun k => (o : Int) + sgn wide (laneOf wide (s.cur.readV b) k) * (wide / 8 : Nat)
    let block := fun k => ((o + 4 * k : Nat) : Int)
    (o % 64 = 0 → loads (.vldl d r m) 32 block ∧ stores (.vstl d r m) 32 block ∧
      stops (.vldl d r m) 32 block ∧ stops (.vstl d r m) 32 block) ∧
    (o % 64 ≠ 0 → (s.cur.readM m).toNat % 2 ^ 16 ≠ 0 → ∀ i ∈ [Instr.vldl d r m, .vstl d r m],
      exec i s = .next (s.trap { cause := 4, tval := BitVec.ofNat 64 o })) ∧
    loads (.vgathl w d r b m) wide index ∧ stores (.vscatl w d r b m) wide index ∧
    stops (.vgathl w d r b m) wide index ∧ stops (.vscatl w d r b m) wide index

/-! ### Engines (11_engines) -/

/-- R203 to R205, R209, R217 to R220: a COPY whose descriptor passes its checks takes the next number of class 1 and
enters the core's queue, and is held while that is full, and by nothing else; a TXREQ gives the number it was accepted with, or 0
when the port is full; a failed check traps. R212: neither is served while a store its thread sent before it is on its way,
but for what waits for that very handler (log entry 45). WAITTL completes once the done counter has reached the value
or all that was issued, reports the lowest error first, and waits otherwise; TLRD reads a counter. R203: the done
counter is the largest number such that every operation numbered so or below has completed, where operations are
listed in the order of their numbers, none above the issued counter. The order of the checks is log entry 11. -/
def Obligations.EngineRequests : Prop :=
  (
    ∀ (s : State) (a d : SReg) (c : BitVec 3) (i : Imm) (thr : Nat),
      (s.core s.curCore).errs.faults = [] → (s.core s.curCore).lsPoison = [] →
      let o := (s.src a).toNat
      let core := s.curCore
      (s.Ready [a] none →
        let w := s.lsRead core o 64
        let entry := fun (k : Nat) => if bits w 391 384 = 1 then some (s.snap s.cur.ctx k) else none
        let check := copyCheck w (entry (bits w 396 392)) (entry (bits w 401 397)) (s.src a)
        let n := s.cur.timeIssued 1 + 1
        (8 ≤ (s.core core).cq.length → exec (.copy a) s = .next s) ∧
        ((s.core core).cq.length < 8 →
          (o % 64 ≠ 0 → exec (.copy a) s = .next (s.trap { cause := 4, tval := s.src a })) ∧
          (o % 64 = 0 → 0x60000 < o + 64 → exec (.copy a) s = .next (s.trap { cause := 6, tval := s.src a })) ∧
          (o % 64 = 0 → o + 64 ≤ 0x60000 →
            (∀ e, check = some e → exec (.copy a) s = .next (s.trap e)) ∧
            (check = none → exec (.copy a) s = .next (
              let u := s.setCur { s.cur with issued := tput s.cur.issued 1 n, ops := s.cur.ops ++ [{ cls := 1, num := n }] }
              (u.setCore core { s.core core with cq := (s.core core).cq ++ [{
                owner := s.owner s.iss.thr s.iss.b.pc, num := n, desc := BitVec.ofNat 512 w, src := entry (bits w 396 392),
                dst := entry (bits w 401 397) }] }).retire [a]))))) ∧
      (s.Ready [a] (some d) false →
        let w := s.lsRead core o 32
        let clu := cluOf s.iss.thr
        let n := s.cur.timeIssued 2 + 1
        (o % 32 ≠ 0 → exec (.txreq d a) s = .next (s.trap { cause := 4, tval := s.src a })) ∧
        (o % 32 = 0 → 0x60000 < o + 32 → exec (.txreq d a) s = .next (s.trap { cause := 6, tval := s.src a })) ∧
        (o % 32 = 0 → o + 32 ≤ 0x60000 →
          (∀ e, txCheck w = some e → exec (.txreq d a) s = .next (s.trap e)) ∧
          (txCheck w = none → 16 ≤ (s.clu clu).txq.length →
            exec (.txreq d a) s = .next (s.commit [a] [.s d] [(.s d, 0)] (.ready s.cycle))) ∧
          (txCheck w = none → (s.clu clu).txq.length < 16 → exec (.txreq d a) s = .next (
            let u := s.setCur { s.cur with issued := tput s.cur.issued 2 n, ops := s.cur.ops ++ [{ cls := 2, num := n }] }
            (u.setClu clu { s.clu clu with txq := (s.clu clu).txq ++ [{
              owner := s.owner s.iss.thr s.iss.b.pc, num := n, recd := BitVec.ofNat 256 w }] }).commit [a] [.s d]
                [(.s d, BitVec.ofNat 512 n)] (.ready s.cycle))))) ∧
      (s.Ready [a] none →
        let v := min o (s.cur.timeIssued c.toNat)
        (v ≤ s.cur.timeDone c.toNat → s.cur.timeError c.toNat v = none →
          exec (.waittl c a) s = .next ((s.flushL1 core).retire [a])) ∧
        (v ≤ s.cur.timeDone c.toNat → ∀ e x, s.cur.timeError c.toNat v = some e → e.err = some x →
          exec (.waittl c a) s = .next ((s.setCur (s.cur.clearError e)).trap x)) ∧
        (s.cur.timeDone c.toNat < v → exec (.waittl c a) s = .next (s.block (.timeline c.toNat (BitVec.ofNat 64 v)) [a]))) ∧
      (s.Ready [] (some d) → exec (.tlrd d i) s = .next (s.retireS [] d (BitVec.ofNat 64
        (if i.toNat / 8 % 2 = 1 then s.cur.timeIssued (i.toNat % 8) else s.cur.timeDone (i.toNat % 8))))) ∧
      (∀ x n v, (s.thread thr).st = .waiting → (s.thread thr).wait = some x → x.w = .timeline n v →
        let m := min v.toNat ((s.thread thr).timeIssued n)
        (m ≤ (s.thread thr).timeDone n → (s.thread thr).timeError n m = none →
          exec (.waittlComplete thr) s = .next (s.unblock thr x fun u => (u.flushL1 (coreOf thr)).done)) ∧
        ((s.thread thr).timeDone n < m → exec (.waittlComplete thr) s = .next s)) ∧
      (∀ q, (s.core core).cq.head? = some q → s.storesOut q.owner = true →
        exec (.copyUnit core) s = .next s ∧ exec (.engineFaultRetry .copy core) s = .next s) ∧
      (∀ q, (s.clu (cluOf s.iss.thr)).txq.head? = some q → s.storesOut q.owner = true →
        ∀ j ∈ [Instr.compress (cluOf s.iss.thr), .decompress (cluOf s.iss.thr), .fprint (cluOf s.iss.thr),
            .compare (cluOf s.iss.thr), .crc32c (cluOf s.iss.thr), .engineFaultRetry .transform (cluOf s.iss.thr)],
          exec j s = .next s)) ∧
  (
    ∀ (th : Thread) (c : Nat),
      th.ops.Pairwise (fun x y => x.cls = c → y.cls = c → x.num < y.num) →
      (∀ o ∈ th.ops, o.cls = c → 1 ≤ o.num ∧ o.num ≤ th.timeIssued c) →
      th.timeDone c ≤ th.timeIssued c ∧
      (∀ o ∈ th.ops, o.cls = c → o.num ≤ th.timeDone c → o.complete = true) ∧
      (th.timeDone c < th.timeIssued c → ∃ o ∈ th.ops, o.cls = c ∧ o.num = th.timeDone c + 1 ∧ o.complete = false))

/-- R205, R207, R210, R211, R215, R216: the engine moves one unit of a plain copy of the queue whose turn it is, and ends a
request that is done on its issuer's timeline; the transform coprocessor runs the head of its port and reports the first
difference, the fingerprint, the CRC, or the bytes it wrote, none beyond a local store; a stalled request is tried again in
its turn when its retry is due. 01_machine R20: what they write or credit at a core comes after what the issuer's core has on
its way there. How much one step does, and the corners of DECOMPRESS, are log entries 3 and 17. -/
def Obligations.EngineSteps : Prop :=
  ∀ (s u v : State) (core clu : Nat) (bs bs' : List (BitVec 8)),
    (∀ q, s.copyHead core = some q → s.copyTurn core = true → q.stall = none →
      let p := planOf q.desc.toNat q.src q.dst
      let j := q.done / p.perRow
      let k := q.done % p.perRow * 64
      let n := min 64 (p.outRow - k)
      let x := s.setClu (core / 8) { s.clu (core / 8) with ccore := core % 8, cAt := some s.cycle }
      p.kind = 0 → p.overlap = false → p.credit = none →
      x.locReadAll q.owner p.src [(p.ss * j + k, n)] = (u, .ok bs) → u.locWrite q.owner p.dst (p.ds * j + k) bs = (v, .ok bs') →
      exec (.copyUnit core) s = .next (v.setCopy core
        { q with done := q.done + 1, stall := none, past := decide (p.units ≤ q.done + 1) })) ∧
    (∀ q rest, (s.core core).cq = q :: rest →
      (q.past = true → exec (.copyComplete core) s =
        .next ((s.setCore core { s.core core with cq := rest }).finishOp q.owner 1 q.num q.flags q.err)) ∧
      (∀ w, q.past = false → q.stall = some w →
        (w.retry ≤ s.cycle → s.storesOut q.owner = false → s.writeBehind q.owner (some (planOf q.desc.toNat q.src q.dst).dst)
            (planOf q.desc.toNat q.src q.dst).credit = false → s.copyTurn core = true → exec (.engineFaultRetry .copy core) s = .next
          ((s.setClu (core / 8) { s.clu (core / 8) with ccore := core % 8, cAt := some s.cycle }).copyUnit core q)) ∧
        (s.cycle < w.retry ∨ s.storesOut q.owner = true ∨ s.copyTurn core = false ∨ s.writeBehind q.owner (some (planOf q.desc.toNat q.src q.dst).dst)
            (planOf q.desc.toNat q.src q.dst).credit = true → exec (.engineFaultRetry .copy core) s = .next s))) ∧
    (∀ q rest, (s.clu clu).txq = q :: rest → q.stall = none → s.txBehind q = false →
      let d := q.recd.toNat
      let taken := fun (n : Nat) => if (txSecond d).isLocal then min n (0x60000 - (txSecond d).base.toNat) else n
      s.locRead q.owner (txSrc d) 0 (txLen d) = (u, .ok bs) →
      (txOp d = 2 → exec (.fprint clu) s = .next (u.txResult clu q (fprint (txLen d / 8) bs 0))) ∧
      (txOp d = 4 → exec (.crc32c clu) s = .next (u.txResult clu q (crc32c bs).toNat)) ∧
      (txOp d = 3 → u.locRead q.owner (txSecond d) 0 (txLen d) = (v, .ok bs') →
        exec (.compare clu) s = .next (v.txResult clu q (firstDiff 0 bs bs'))) ∧
      (txOp d = 0 → let out := compressAll (txLen d / 256) bs
        ∀ x q', u.txWrite clu q out (out.length / 64 + 1) = (x, some q') →
          exec (.compress clu) s = .next (x.txResult clu q' (taken out.length))) ∧
      (txOp d = 1 → let out := decompressAll (txLen d) bs
        ∀ x q', u.txWrite clu q out.1 (out.1.length / 64 + 1) = (x, some q') →
          exec (.decompress clu) s = .next (x.txResult clu q' (taken out.1.length + if out.2 then 0 else 2 ^ 63))))

/-! ### The matrix unit (10_matrix) -/

/-- R172 to R178, R192 to R198: an instruction of the matrix unit whose queue has room checks its descriptors and puts an
entry into the queue, numbered on class 0: the MMA family with its two operands, MZERO, the drains, ACCRD, ACCWR and
NETEVAL; a failed check traps with its reason, a full queue holds the bundle. R190: an entry of the MMA family and a NETEVAL make
no step while a store their thread sent before them is on its way; MDRAINW, whose wake releases the thread's accesses (R191),
waits for them itself (log entry 4). A drain whose descriptor fails a check of R178 traps with the first reason; MQSTAT reports the queue. The order of the
checks is log entry 11, and reason 8 of an own-core drain log entry 38. -/
def Obligations.MatrixRequests : Prop :=
  ∀ (s : State) (t : BitVec 3) (d r : VReg) (q a b : SReg),
    let core := s.curCore
    let c := s.core core
    let n := s.cur.timeIssued 0 + 1
    let v := s.ackAll s.iss.thr
    let enter := fun (x : State) (op : MOp) =>
      let u := x.setCur { s.cur with issued := tput s.cur.issued 0 n, ops := s.cur.ops ++ [{ cls := 0, num := n }] }
      let e : MEnt := { owner := s.owner s.iss.thr s.iss.b.pc, num := n, op := op }
      u.setCore core { (x.core core).wrote 7 (fun k => decide (k = e.key)) e.key with mq := c.mq ++ [e] }
    let x := s.operand (s.src a)
    let y := s.operand (s.src b)
    (16 ≤ c.mqCount → ∀ i ∈ [Instr.mma t a b, .mmaz t a b, .mmas t a b, .mmasz t a b, .mzero t, .mdrain t a, .mdrainw t a,
      .accrd d a, .accwr d a, .neteval d r b], exec i s = .next s) ∧
    (∀ (k : Nat) (e : MEnt) z tile y y', (s.core k).mqHead = some e → s.storesOut e.owner = true →
      (e.op = .mma tile z y y' ∨ ∃ g w f h l, e.op = .neteval g w f h l) → s.mqReady k = false) ∧
    (c.mqCount < 16 →
      exec (.mzero t) s = .next ((enter s (.mzero t.toNat)).retire []) ∧
      (s.Ready [a, b] none →
        (∀ i clear sparse, (i, clear, sparse) ∈ [(Instr.mma t a b, false, false), (.mmaz t a b, true, false),
            (.mmas t a b, false, true), (.mmasz t a b, true, true)] →
          (∀ e, operandCheck 0 sparse (s.src a) x = some e → exec i s = .next (s.trap e)) ∧
          (operandCheck 0 sparse (s.src a) x = none → ∀ e, operandCheck 1 false (s.src b) y = some e → exec i s = .next (s.trap e)) ∧
          (operandCheck 0 sparse (s.src a) x = none → operandCheck 1 false (s.src b) y = none →
            let k := if sparse then x.k * (if x.sparsity = 1 then 2 else 4) else x.k
            (y.k ≠ k → exec i s = .next (s.trap { cause := 12, tval := 5 + 256 })) ∧
            (y.k = k → matrixFmt [x.fmt, y.fmt] = none → exec i s = .next ((enter s (.mma t.toNat clear x y)).retire [a, b]))))) ∧
      (s.Ready [a] none →
        let f := s.snap s.cur.ctx (bits (s.src a).toNat 36 32)
        let w := (s.src a).toNat
        let tgt := drainCore (s.src a) core
        let row := 4 * f.fmt.W
        let check := fun (wake : Bool) =>
          if w / 2 ^ 55 ≠ 0 ∨ (w / 2 ^ 31 % 2 = 1 ∧ w / 2 ^ 20 % 2 ^ 11 ≠ 0) then some 1
          else if w % 2 ^ 20 % 16 ≠ 0 then some 2
          else if w / 2 ^ 37 % 2 ^ 12 % 16 ≠ 0 ∨ (kindOf f.word ≠ 0 ∧ w / 2 ^ 37 % 2 ^ 12 < row) then some 3
          else if kindOf f.word ≠ 0 ∧ 0x60000 < w % 2 ^ 20 + 31 * (w / 2 ^ 37 % 2 ^ 12) + row then some 7
          else if 1536 ≤ tgt ∨ s.hasTask tgt s.cur.ctx = false then some 8
          else if wake = decide (w / 2 ^ 52 % 8 = 0) then some 9 else none
        (∀ i wake, (i, wake) ∈ [(Instr.mdrain t a, false), (.mdrainw t a, true)] →
          (∀ k, check wake = some k → exec i s = .next (s.trap { cause := 12, tval := BitVec.ofNat 64 k })) ∧
          (check wake = none → kindOf f.word = 0 → exec i s = .next (s.trap (fmtErr 7 f.entry)))) ∧
        (s.drainCheck false (s.src a) f = none →
          exec (.mdrain t a) s = .next ((enter s (.drain t.toNat (s.src a) f false)).retire [a])) ∧
        (s.drainCheck true (s.src a) f = none → s.cur.remOut = [] →
          exec (.mdrainw t a) s = .next ((enter v (.drain t.toNat (s.src a) f true)).retire [a])) ∧
        (s.drainCheck true (s.src a) f = none → s.cur.remOut ≠ [] → exec (.mdrainw t a) s = .next s) ∧
        exec (.accrd d a) s = .next ((enter s (.accrd (w % 8) (w / 8 % 32) (w / 256 % 2) d)).commit [a] [.v d] [] (.entry n)) ∧
        exec (.accwr d a) s = .next ((enter s (.accwr (w % 8) (w / 8 % 32) (w / 256 % 2) (s.cur.readV d))).retire [a])) ∧
      (s.Ready [b] none → c.errs.faults = [] → c.lsPoison = [] →
        let o := (s.src b).toNat
        let w : BitVec 384 := BitVec.ofNat 384 (s.lsRead core o 48)
        let wf := s.snap s.cur.ctx (bits w.toNat 68 64)
        let af := s.snap s.cur.ctx (bits w.toNat 60 56)
        o % 16 = 0 → o + 48 ≤ 0x60000 →
        (∀ e, netCheck w d.toNat r.toNat wf af = some e → exec (.neteval d r b) s = .next (s.trap e)) ∧
        (netCheck w d.toNat r.toNat wf af = none → exec (.neteval d r b) s = .next (
          (enter s (.neteval d w wf af ((List.range (2 * bits w.toNat 15 8)).map fun i => s.cur.readV (r + BitVec.ofNat 5 i)))).commit
            [b] ((List.range (2 * bits w.toNat 47 40)).map fun i => Reg.v (d + BitVec.ofNat 5 i)) [] (.entry n))))) ∧
    (s.Ready [] (some q) → exec (.mqstat q) s = .next (s.retireS [] q (BitVec.ofNat 64 (c.mqCount +
      (if c.mqFrozen then 32 else 0) + (if c.mqMaskErr then 64 else 0) + c.spill.length * 256 +
      min 4 (c.spawnQ.length + s.reservedWakes core) * 65536 + c.mqWeight.toNat * 16777216))))

/-- R179, R181 to R187, R193, R195, R199: the core whose turn it is makes one tile step of its oldest unfinished entry; an
MMA step adds each slice's products onto every accumulator of its tile, rounding once per slice; a finished entry ends on
the issuer's timeline, ACCRD with its row of sixteen; acknowledged drains end, or wake a task with a handler, in the order
of their wakes, which a core fenced for good refuses (24_device R391); the queue freezes when asked and no started reader or
unacknowledged drain is left, and one no longer asked to that nothing has saved runs on. R183, 24_device R384:
the idle steps of a grant are counted to the core whose step follows. R200, R201: MSAVE asks for the freeze and saves once
it is there, and MRSTR, whose reads of the area are loads of its thread (07_memory R143), puts queue, spill ring and partition back
from an area of version 1 with its counts in range, and the queue runs. Where the rounds start is log entry 31, the corners of drains, MSAVE and MRSTR are log entry 38, and by which
number in the area MRSTR finds the queue's entries is log entry 14. -/
def Obligations.MatrixSteps : Prop :=
  ∀ (s : State) (clu core k left : Nat) (data : BitVec 1024) (r : AReg),
    (s.matrixNext clu = some (k, left) → (s.clu clu).mphase < min 7 (s.die (clu / 48)).idle →
      exec (.matrixTileStep clu) s = .next (s.setClu clu
        { s.clu clu with mphase := ((s.clu clu).mphase + 1) % 8, midle := (s.clu clu).midle + 1 })) ∧
    (s.matrixNext clu = some (k, left) → min 7 (s.die (clu / 48)).idle ≤ (s.clu clu).mphase → ∀ e,
      (s.core (clu * 8 + k)).mqHead = some e →
      let own := s.core (clu * 8 + k)
      let u := (s.setClu clu { s.clu clu with mcore := k, mleft := left, mphase := ((s.clu clu).mphase + 1) % 8, midle := 0 }).setCore
        (clu * 8 + k) { own with throttle := own.throttle + BitVec.ofNat 64 (s.clu clu).midle }
      exec (.matrixTileStep clu) s = .next (u.entryStep (clu * 8 + k) e) ∧
      (∀ t, e.op = .mzero t → ∀ i j, i < 32 → j < 32 →
        ((u.entryStep (clu * 8 + k) e).core (clu * 8 + k)).accGet t i j = 0) ∧
      (∀ t z a b, e.op = .mma t z a b → (s.core a.core).errs.faults = [] → (s.core b.core).errs.faults = [] →
        (s.core a.core).lsPoison = [] → (s.core b.core).lsPoison = [] → own.errs.faults = [] → own.accPoison = [] →
        own.spill = [] →
        ∀ i j, i < 32 → j < 32 → ((u.entryStep (clu * 8 + k) e).core (clu * 8 + k)).accGet t i j =
          ((List.range (min 8 (a.k - 8 * e.steps))).map (8 * e.steps + ·)).foldl
            (fun x sl => sliceSum (val32 x) (s.sliceTerms a b i j sl))
            (if z ∧ e.steps = 0 then 0 else (s.core (clu * 8 + k)).accGet t i j))) ∧
    (∀ e, (s.core core).mqHead = some e → e.op.total ≤ e.steps →
      let u := s.setCore core ((s.core core).dropEnt e)
      (∀ x, e.refused = some x → e.op.reads = false →
        exec (.matrixEntryComplete core) s = .next (u.finishOp e.owner 0 e.num 0 (some x))) ∧
      (e.refused = none → (s.thread e.owner.thr).st ≠ .free → (s.thread e.owner.thr).inc = e.owner.inc →
        exec (.matrixEntryComplete core) s = .next (u.setThread e.owner.thr
          ((s.thread e.owner.thr).entryDone s.moment e.num e.flags ((s.core core).entryVals e.op)))) ∧
      ∀ t row half d, e.op = .accrd t row half d → ∃ v, (s.core core).entryVals e.op = [(.v d, v)] ∧
        ∀ l, l < 16 → laneOf 32 v l = ((s.core core).accGet t row (16 * half + l)).toNat) ∧
    (∀ e, (s.core core).mq.find? (fun e => e.sent && !e.acked) = some e →
      exec (.drainWriteAck core) s = .next (
        if e.op.wakes then s.setCore core ((s.core core).setEnt e { e with acked := true })
        else (s.setCore core ((s.core core).dropEnt e)).finishOp e.owner 0 e.num e.flags none)) ∧
    (∀ e t d f w, (s.core core).mq.find? (fun e => e.acked) = some e → e.op = .drain t d f w →
      let u := s.setCore core ((s.core core).dropEnt e)
      let pc := tget 0 (s.ctx e.owner.ctx).handlers (bits d.toNat 54 52)
      ((s.core (drainCore d core)).fenced = true → exec (.drainWake core) s =
        .next (u.finishOp e.owner 0 e.num e.flags (some { cause := 15, tval := BitVec.ofNat 64 (drainCore d core % 2048 + 2 * 4096) }))) ∧
      ((s.core (drainCore d core)).fenced = false →
      (pc = 0 → exec (.drainWake core) s =
        .next (u.finishOp e.owner 0 e.num e.flags (some { cause := 15, tval := BitVec.ofNat 64 (drainCore d core % 2048 + 3 * 4096) }))) ∧
      let tgt := drainCore d core
      let args := [BitVec.ofNat 64 (core % 8), BitVec.ofNat 64 t, BitVec.ofNat 64 (drainOff d), BitVec.ofNat 64 core]
      let queued := ∃ x ∈ (s.core tgt).spawnQ, x.owner.ctx = e.owner.ctx
      (∀ n, pc ≠ 0 → ¬queued → s.wakeSlot tgt e.owner.ctx = some n → exec (.drainWake core) s = .next
        ((u.startThread n pc args e.owner.ctx e.owner.vf).finishOp e.owner 0 e.num e.flags none)) ∧
      (pc ≠ 0 → (s.core tgt).spawnQ.length < 4 → (queued ∨ s.wakeSlot tgt e.owner.ctx = none) →
        exec (.drainWake core) s = .next ((u.setCore tgt { u.core tgt with spawnQ := (s.core tgt).spawnQ ++ [{
          owner := e.owner, pc := pc, args := args, handler := bits d.toNat 54 52 }] }).finishOp e.owner 0 e.num e.flags none)))) ∧
    (∀ pre e rest n, (s.core core).spawnQ = pre ++ e :: rest → (∀ x ∈ pre, s.wakeSlot core x.owner.ctx = none) →
      s.wakeSlot core e.owner.ctx = some n → exec (.spawnQueueServe core) s = .next
        ((s.setCore core { s.core core with spawnQ := pre ++ rest }).startThread n e.pc e.args e.owner.ctx e.owner.vf)) ∧
    (s.freezeAsked core = true → (s.core core).mqFrozen = false → (s.core core).startedBusy = false →
      exec (.matrixFreeze core) s = .next ((s.setCore core { s.core core with mqFrozen := true }).saveWaiting core)) ∧
    (s.freezeAsked core = false → (s.core core).mqFrozen = true → (s.core core).mqSaved = false →
      exec (.matrixFreeze core) s = .next (s.setCore core { s.core core with mqFrozen := false })) ∧
    ((s.core core).mqFrozen = true → (s.core core).spill.length < 64 → (s.core core).mq ≠ [] →
      let m := (s.core core).spill.length
      exec (.spillReply core data) s = .next (s.setCore core
        { (s.core core).wrote 6 (fun x => decide (x = m)) m with spill := (s.core core).spill ++ [data] })) ∧
    (s.cur.tstate.getLsbD 2 = true → (s.cur.readA r).toNat % 256 = 0 → ∀ u va l,
      (s.areaPlaces s.iss.thr .store (pageParts (s.cur.readA r).toNat 41536) = (u, .ok [] none, va, l) →
        let x := (u.setCore u.curCore { u.core u.curCore with mqStop := true }).commit [] [] [] (.msave l)
        exec (.msave r) s = .next (if (u.core u.curCore).mqFrozen then x.saveWaiting u.curCore else x)) ∧
      (s.areaPlaces s.iss.thr .load (pageParts (s.cur.readA r).toNat 41536) = (u, .ok [] none, va, l) →
        u.placesPoisoned l = false → ∀ x bs, x = u.tookParts u.iss.thr l → bs = u.getParts l →
        let head := ofBytes (bs.take 64)
        (bits head 63 0 ≠ 1 → exec (.mrstr r) s = .next (x.trap { cause := 12, tval := 1 })) ∧
        (bits head 63 0 = 1 → bits head 68 64 ≤ 16 → bits head 78 72 ≤ 64 → bits head 71 69 = 0 → bits head 127 79 = 0 →
          let image := tget {} x.dev.images (ofBytes ((bs.drop 64).take 8))
          ∃ acc errs bad, exec (.mrstr r) s = .next ((x.setCore x.curCore { x.core x.curCore with
              mq := ((x.core x.curCore).mq.filter fun e => e.acked) ++ image.ents, spill := image.spill, acc := acc
              errs := errs, bad := bad, accPoison := [], partCtx := some x.cur.ctx, mqStop := false, mqFrozen := false, mqSaved := false }).commit
              [] [] [] (.ready x.cycle)) ∧
            ∀ t row col, t < 8 → row < 32 → col < 32 → (tget 0 acc (t * 1024 + row * 32 + col)).toNat =
              ofBytes ((bs.drop (0x2240 + 4 * (256 * row + 32 * t + col))).take 4))))

/-! ### Tags, command queues from threads, and records (15_kernel, 19_queue) -/

/-- R264, R276 to R282, R323, R330: TAGPUB publishes its tile at its kernel's output generation, at once or held, and
traps MDESC 44 or 45 on an output or tile out of range; TAGWAIT completes when the tile is seen, and waits otherwise;
TAGQRY gives the entry; QPUSH places a command and EVPOST a record; TAGPUB, QPUSH and EVPOST wait for the thread's remote
accesses, which they release (held so: log entry 4); a held publication is applied once its entry is free and none older is held for it. R264, R276 to R278: what a publication does: a tile of no entry gets one, READY at its generation, where the VF
has room; its own generation becomes READY; a newer one replaces a READY entry nobody waits for and is held otherwise;
an older one marks the kernel faulted. The order of QPUSH's checks is log entry 11. -/
def Obligations.TagsAndPushes : Prop :=
  (
    ∀ (s u : State) (d a b : SReg) (thr clu k : Nat),
      let tile := (s.src b).toNat % 2 ^ 24
      let core := s.curCore
      let v := s.ackAll s.iss.thr
      (s.Ready [a, b] none →
        (∀ ser g, s.cur.grp = some (ser, g) → slotOf s.iss.thr ≠ 7 →
          let sound := fun (pa : Nat) => farHome pa = true ∨ s.memPoisoned (pa + 16) 4 = false
          (∀ o, (s.kernel ser).outputs[(s.src a).toNat % 4]? = some o → sound o.pa → tile < s.bufTiles o.pa → s.cur.remOut ≠ [] →
            exec (.tagpub a b) s = .next s) ∧
          (∀ o, (s.kernel ser).outputs[(s.src a).toNat % 4]? = some o → sound o.pa → tile < s.bufTiles o.pa → s.cur.remOut = [] →
            (∀ e, s.tag? s.cur.ctx o.id tile = some e → e.bad = false) →
            let p : HeldPub := { num := s.births, ctx := s.cur.ctx, vf := s.cur.vf, ser := ser, id := o.id, pa := o.pa, va := o.va,
                                 tile := tile, gen := o.gen }
            (v.publishInTurn p = .applied u → exec (.tagpub a b) s = .next (u.retire [a, b])) ∧
            (v.publishInTurn p = .held → (s.clu (cluOf s.iss.thr)).held.length < 64 → exec (.tagpub a b) s = .next (
              (({ v with births := s.births + 1 } : State).setClu (cluOf s.iss.thr) { s.clu (cluOf s.iss.thr) with
                held := (s.clu (cluOf s.iss.thr)).held ++ [p] }).retire [a, b])) ∧
            (v.publishInTurn p = .held → 64 ≤ (s.clu (cluOf s.iss.thr)).held.length →
              exec (.tagpub a b) s = .next s)) ∧
          ((s.kernel ser).outputs[(s.src a).toNat % 4]? = none →
            exec (.tagpub a b) s = .next (s.trap { cause := 12, tval := 44 + 768 })) ∧
          (∀ o, (s.kernel ser).outputs[(s.src a).toNat % 4]? = some o → sound o.pa → s.bufTiles o.pa ≤ tile →
            exec (.tagpub a b) s = .next (s.trap { cause := 12, tval := 45 + 768 })) ∧
          (∀ o, (s.kernel ser).outputs[(s.src a).toNat % 4]? = some o → ¬sound o.pa →
            exec (.tagpub a b) s = .next (s.trap (eccMem o.va)))) ∧
        (∀ bs at_, (s.src a).toNat % 32 = 0 → s.readAt s.iss.thr (s.src a).toNat 32 = (u, .ok bs none) →
          (s.readPlace (s.asker s.iss.thr) (s.src a).toNat 32 = some at_ ∨
            s.readPlace (s.asker s.iss.thr) (s.src a).toNat 32 = none ∧ ∃ node pa ty,
              (s.xlate core s.cur.ctx .load (s.src a).toNat).2 = .ok node pa ty ∧ at_ = node * 2 ^ 40 + pa) →
          let id := ofBytes bs % 2 ^ 32
          let gen := BitVec.ofNat 32 ((s.src b).toNat / 2 ^ 32)
          tile < bits (ofBytes bs) 151 128 → (∀ e, u.tag? u.cur.ctx id tile = some e → e.bad = false) →
          ∀ w is, u.tagSeen (u.asker u.iss.thr) u.cur.ctx id at_ tile gen = (w, is) →
            (is = .yes → exec (.tagwait a b) s = .next ((w.flushL1 w.curCore).retire [a, b])) ∧
            (is = .no → exec (.tagwait a b) s = .next (w.block (.tag id at_ tile gen) [a, b])) ∧
            (is = .bad → exec (.tagwait a b) s = .next (w.trap (eccMem (s.src a).toNat))) ∧
            (is = .wait → exec (.tagwait a b) s = .next w.waitTurn)) ∧
        (s.cur.remOut ≠ [] → exec (.qpush a b) s = .next s ∧ exec (.evpost a b) s = .next s) ∧
        (let q := (s.src a).toNat % 1024
         let x := s.queue q
         (s.queueCheck q true = none → (s.src b).toNat % 64 = 0 → (s.src b).toNat + 64 ≤ 0x60000 → s.cur.remOut = [] →
          (s.core core).errs.faults = [] → (s.core core).lsPoison = [] →
          (x.st = .halted → exec (.qpush a b) s = .next (v.retire [a, b])) ∧
          (x.st ≠ .halted → x.placed.length < 2 ^ (x.csize + 4) → s.vfPlaced x.vf < (s.vf x.vf).slots →
            exec (.qpush a b) s = .next ((v.placeCmd q ((x.next + x.placed.length) % 2 ^ 32) (s.lsRead core (s.src b).toNat 64)).retire
              [a, b])) ∧
          (x.st ≠ .halted → (2 ^ (x.csize + 4) ≤ x.placed.length ∨ (s.vf x.vf).slots ≤ s.vfPlaced x.vf) →
            exec (.qpush a b) s = .next s)) ∧
         (s.queueCheck q false = none → s.cur.remOut = [] → exec (.evpost a b) s = .next (
            (if x.st = .halted then v
             else v.putRec q { status := 0, ser := 0xFFFFFFFF, cause := 0, addr := s.src b, seq := 0xFFFFFFFF }).retire [a, b])))) ∧
      (s.Ready [a, b] (some d) false → ∀ bs, (s.src a).toNat % 32 = 0 →
        s.readAt s.iss.thr (s.src a).toNat 32 = (u, .ok bs none) → tile < bits (ofBytes bs) 151 128 →
        (∀ e, u.tag? u.cur.ctx (ofBytes bs % 2 ^ 32) tile = some e → e.bad = false) →
        exec (.tagqry d a b) s = .next (u.commit [a, b] [.s d] [(.s d, BitVec.ofNat 512 (bits (ofBytes bs) 152 152 * 2 ^ 51 +
          match u.tag? u.cur.ctx (ofBytes bs % 2 ^ 32) tile with
          | some e => (if e.ready then 2 else 1) * 2 ^ 48 + min e.pending 65535 * 2 ^ 32 + e.gen.toNat
          | none => 0))] (.ready u.cycle) none false true)) ∧
      (∀ x id at_ n gen, (s.thread thr).st = .waiting → (s.thread thr).wait = some x → x.w = .tag id at_ n gen →
        ∀ w is, s.tagSeen (.waiting thr (s.thread thr).inc) (s.thread thr).ctx id at_ n gen = (w, is) →
          (is = .yes → exec (.tagwaitComplete thr) s = .next (w.unblock thr x fun u => (u.flushL1 (coreOf thr)).done)) ∧
          (is = .bad → exec (.tagwaitComplete thr) s = .next (w.setThread thr { w.thread thr with st := .runnable, wait := none })) ∧
          (is = .no ∨ is = .wait → exec (.tagwaitComplete thr) s = .next w)) ∧
      (∀ pre p rest, (s.clu clu).held = pre ++ p :: rest →
        (∀ q ∈ pre, (∃ r ∈ s.heldFor q, r.num < q.num) ∨ ∃ e, s.tag? q.ctx q.id q.tile = some e ∧ e.pending ≠ 0) →
        (∀ q ∈ s.heldFor p, p.num ≤ q.num) → (∀ e, s.tag? p.ctx p.id p.tile = some e → e.pending = 0) →
        (s.setClu clu { s.clu clu with held := (s.clu clu).held.filter fun q => decide (q ≠ p) }).publish p = .applied u →
        exec (.heldPublicationApply clu) s = .next u) ∧
      (∀ h, s.heldDone[k]? = some h → s.bufDone h.pa = h.gen - 1 →
        exec (.heldDoneUpdate k) s = .next
          ((({ s with heldDone := s.heldDone.take k ++ s.heldDone.drop (k + 1) } : State).bufPut h.pa 8 4 h.gen.toNat).reeval))) ∧
  (
    ∀ (s : State) (p : HeldPub), s.dev.fallen.contains (p.pa, p.gen) = false →
      (∀ u, s.tag? p.ctx p.id p.tile = none → s.tagRoom p.vf (p.ctx, p.id, p.tile) = some u →
        let e : TagEnt := { ctx := p.ctx, id := p.id, tile := p.tile, vf := p.vf, gen := p.gen, ready := true, pending := 0, pa := p.pa }
        s.publish p = .applied ({ u with tags := u.tags ++ [e] } : State).reeval) ∧
      (∀ e, s.tag? p.ctx p.id p.tile = some e →
        let d := (p.gen - e.gen).toNat
        (d = 0 → s.publish p = .applied ((s.modTag p.ctx p.id p.tile fun e => some { e with ready := true }).reeval)) ∧
        (1 ≤ d → d ≤ 2 ^ 31 → e.ready = true → e.pending = 0 →
          s.publish p = .applied ((s.modTag p.ctx p.id p.tile fun e => some { e with gen := p.gen, bad := false }).reeval)) ∧
        (1 ≤ d → d ≤ 2 ^ 31 → (e.ready = false ∨ e.pending ≠ 0) → s.publish p = .held) ∧
        (2 ^ 31 < d → s.publish p = .applied (s.markFault p.ser 9 (BitVec.ofNat 64 p.va)))))

/-! ### Level-of-detail loads (14_lod) -/

/-- R244, R245, R252, R259 to R262: a LOD load whose descriptor passes its checks completes: TEXLD samples each active lane
with its filter into five registers, lane after lane, and keeps the others' lanes; LDLOD loads a block of the level chosen
and its status, zeros where no level could be read; a failed check traps; a load whose translation finds no walker free has
only asked for one (12_page R229). TEXFENCE waits for the LOD loads of the context and the issuer's remote accesses (held so: log
entry 4) and drops the context's map lines everywhere, FBFLUSH the core's filter keys of the context once its records are out, and the oldest
record of a core goes to its ring. The values of NaN and infinite coordinates are log entry 19. -/
def Obligations.LevelOfDetailLoads : Prop :=
  ∀ (s : State) (d a : VReg) (m : MReg) (b r : SReg) (core : Nat),
    (s.core s.curCore).errs.faults = [] → (s.core s.curCore).lsPoison = [] →
    let o := (s.src b).toNat
    let w := s.lsRead s.curCore o 64
    let active := (List.range 16).filter fun k => (s.cur.readM m).getLsbD k
    let reg := fun (q : Nat) => d + BitVec.ofNat 5 q
    let regs := (List.range 5).map fun q => Reg.v (reg q)
    let lane := fun (q k : Nat) => BitVec.ofNat 32 (laneOf 32 (s.cur.readV (a + BitVec.ofNat 5 q)) k)
    (s.Ready [b] none → o % 64 = 0 → o + 64 ≤ 0x60000 →
      ∀ i f, (i, f) ∈ [(Instr.texldNearest d a b m, 0), (.texldBilinear d a b m, 1), (.texldTrilinear d a b m, 2)] →
        (∀ e, lodCheck w false = some e → exec i s = .next (s.trap e)) ∧
        (lodCheck w false = none →
          let r := active.foldl (fun (acc : State × List V512 × Option Err) k =>
            let g := acc.1.sample (lodDesc w) f (lane 0 k) (lane 1 k) (lane 2 k)
            (g.1, acc.2.1.zipIdx.map fun e => putAt e.1 (32 * k) 32 (g.2.1.getD e.2 0).toNat, acc.2.2.or g.2.2))
            (s, (List.range 5).map fun q => s.cur.readV (reg q), none)
          (r.1.iss.turn ≠ .walking →
            exec i s = .next (r.1.commit [b] regs (regs.zip r.2.1) (.ready r.1.cycle) r.2.2 true)) ∧
          (r.1.iss.turn = .walking → ∃ t, exec i s = .next t ∧ t.thr = s.thr ∧ t.mem = s.mem ∧ t.cores = s.cores) ∧
          ∀ q, q < 5 → ∀ k, k < 16 → (s.cur.readM m).getLsbD k = false →
            laneOf 32 (r.2.1.getD q 0) k = laneOf 32 (s.cur.readV (reg q)) k)) ∧
    (s.Ready [r, b] none → o % 64 = 0 → o + 64 ≤ 0x60000 →
      let x := lodDesc w
      (∀ e, lodCheck w true = some e → exec (.ldlod d r b) s = .next (s.trap e)) ∧
      (lodCheck w true = none → (s.src r).toNat % 32 ≠ 0 → exec (.ldlod d r b) s = .next (s.trap { cause := 4, tval := s.src r })) ∧
      (lodCheck w true = none → (s.src r).toNat % 32 = 0 → 32 * x.blocks ≤ (s.src r).toNat →
        exec (.ldlod d r b) s = .next (s.trap { cause := 12, tval := 34 + 768 })) ∧
      (lodCheck w true = none → (s.src r).toNat % 32 = 0 → (s.src r).toNat < 32 * x.blocks →
        (∀ e ∈ x.entries.take x.levels, acceptMatrix e ((s.ctx s.cur.ctx).fmtWord e) = none) →
        let i := (s.src r).toNat
        let wide := fun (l : Nat) => match (x.entries.take x.levels)[l]? with | some e => (s.snap s.cur.ctx e).fmt.W | none => 8
        let place := fun (l : Nat) => i * wide l / 8
        let need := fun (l : Nat) => [({ num := firstPage (fun l => (32 * x.blocks * wide l + 32767) / 32768) l + place l / 4096
                                         px := place l / 4096, py := 0 } : LodPage)]
        ∀ t low u f, s.minLevel x (place 0 / 65536) = (t, low) → t.choose x need 0 low = (u, f) →
          let off := place f.level % 4096
          let done := fun (u : State) (v : Nat) (err : Option Err) => u.iss.turn ≠ .walking →
            exec (.ldlod d r b) s = .next (u.commit [r, b] [.v d, .v (d + 1)] [(.v d, BitVec.ofNat 512 v),
              (.v (d + 1), BitVec.ofNat 512 (f.level + f.code * 2 ^ 8 + x.entries.getD f.level 0 * 2 ^ 16))] (.ready u.cycle)
                (u.iss.late.or err) true false ((x.entries.take x.levels).map fun e => s.snap s.cur.ctx e))
          (f.code = 4 ∨ f.pages = [] → done u 0 none) ∧
          (f.code ≠ 4 → ∀ p node pa rest, f.pages = (p, node, pa) :: rest → ∀ y v err,
            u.lodBytes (node, pa + off) (x.base + 4096 * p + off) (4 * wide f.level) = (y, v, err) → done y v err))) ∧
    ((∀ e ∈ (s.core s.curCore).lod.recs, e.1 ≠ s.cur.ctx) → exec .fbflush s = .next (((s.setCore s.curCore
      { s.core s.curCore with lod := { (s.core s.curCore).lod with
        filter := (s.core s.curCore).lod.filter.filter fun k => decide (k.ctx ≠ s.cur.ctx) } }).flushL1 s.curCore).retire [])) ∧
    ((∃ e ∈ (s.core s.curCore).lod.recs, e.1 = s.cur.ctx) → exec .fbflush s = .next s) ∧
    (s.cur.tstate.getLsbD 2 = true →
      (s.lodOut s.cur.ctx = true ∨ s.cur.remOut ≠ [] → exec .texfence s = .next s) ∧
      (s.lodOut s.cur.ctx = false → s.cur.remOut = [] → let v := s.ackAll s.iss.thr
        exec .texfence s = .next (({ v with cores := v.cores.map fun e =>
          (e.1, { e.2 with lod := { e.2.lod with lines := e.2.lod.lines.filter fun l => decide (l.ctx ≠ s.cur.ctx) } }) } :
            State).retire []))) ∧
    (∀ e rest, (s.core core).lod.recs = e :: rest → exec (.feedbackRecordWrite core) s =
      .next ((s.setCore core { s.core core with lod := { (s.core core).lod with recs := rest } }).feedback e.1 e.2))

/-! ### Kernels and command queues (15_kernel, 16_group, 19_queue) -/

/-- R266, R273, R306, R307, R322 to R324: a kernel all of whose groups have ended and whose operations are complete has its
outputs' done generations updated and writes its record: OK, FAULTED with the first error, or STOPPED; a finished kill,
with the A and D bits of the context written back and its stores to other devices answered (18_program_trap R316), writes
KILLED for each kernel of the context, with the causes and the address of R307; a record that waits is tried again; every
record written is counted, a notification going out when N stand unnotified, or when its time is up. Records wait as log entry 23 says, those of a destroyed queue for the ring it had. -/
def Obligations.KernelsEnd : Prop :=
  ∀ (s : State) (ser c q : Nat),
    (let k := s.kernel ser
     k.st ≠ .ended → k.killed = false → k.ending = false → k.groups ≤ k.done → s.kernelIdle ser = true →
      let u := k.outputs.foldl (fun s d => s.doneUpdate d.pa d.gen) (s.harvest fun t => decide (t.ctx = k.ctx))
      let rec_ : Rec := match k.st with
        | .faulting => { status := 1, ser := ser, cause := BitVec.ofNat 32 (k.cause + k.faults * 256), addr := k.addr, seq := k.seq,
                         kernel := some ser }
        | .stopping => { status := 3, ser := ser, cause := 0, addr := 0, seq := k.seq, kernel := some ser }
        | _ => { status := 0, ser := ser, cause := 0, addr := 0, seq := k.seq, kernel := some ser }
      let w := u.setKernel ser { k with ending := true }
      exec (.kernelEnd ser) s = .next (w.kernelRec ser rec_) ∧ (k.ring = none → w.kernelRec ser rec_ = w.putRec k.queue rec_)) ∧
    (s.storesFar c = true → exec (.killFinish c) s = .next s) ∧
    ((s.ctx c).st = .dead → (s.ctx c).killDone = false → s.storesFar c = false →
      let mine := s.kernels.filter fun e => decide (e.2.ctx = c) && decide (e.2.st ≠ .ended) && e.2.killed
      let u := if mine = [] then s else s.harvest fun t => decide (t.ctx = c)
      let cause : Nat → BitVec 32 := fun n => match (s.ctx c).note with
        | some x => if x.ser = n then BitVec.ofNat 32 (x.bytes.getD 0 0 + x.bytes.getD 1 0 * 2 ^ 8 + x.bytes.getD 2 0 * 2 ^ 16 +
            x.bytes.getD 3 0 * 2 ^ 24) else 0
        | none => 0
      let addr : Nat → W64 := fun n => match (s.ctx c).note with
        | some x => if x.ser = n then x.addr else 0
        | none => ((s.ctx c).killer.map (BitVec.ofNat 64)).getD 0
      exec (.killFinish c) s = .next (mine.foldl (fun w e =>
        (w.setKernel e.1 { e.2 with ending := true, killed := true }).kernelRec e.1
          { status := 2, ser := e.1, cause := cause e.1, addr := addr e.1, seq := e.2.seq, kernel := some e.1 })
        (u.setCtx c { u.ctx c with killDone := true }))) ∧
    (∀ r rest, (s.queue q).old = [] → (s.queue q).recs = r :: rest → (s.queue q).recRetry ≤ s.cycle →
      (∀ u, s.ringPut ((s.queue q).ering % 2 ^ 40) (2 ^ ((s.queue q).esize + 4)) (recordOf s.timens r) = some u →
        exec (.completionRecordRetry q) s = .next ((u.setQueue q { u.queue q with recs := rest }).recWritten q r)) ∧
      (s.ringPut ((s.queue q).ering % 2 ^ 40) (2 ^ ((s.queue q).esize + 4)) (recordOf s.timens r) = none →
        exec (.completionRecordRetry q) s = .next (s.setQueue q { s.queue q with recRetry := s.cycle + 4096 }))) ∧
    (∀ o rest u, (s.queue q).old = o :: rest → (s.queue q).recs = [] → o.retryAt ≤ s.cycle →
      s.ringPut o.base o.size (recordOf s.timens o.r) = some u →
      exec (.completionRecordRetry q) s = .next ((u.setQueue q { u.queue q with old := rest }).oldWritten o.r)) ∧
    (∀ r : Rec, r.event = false →
      let x := s.queue q
      let y := (s.recWritten q r).queue q
      (x.n ≠ 0 → x.n ≤ x.unnotified + 1 → y.unnotified = 0) ∧
      (x.n = 0 ∨ x.unnotified + 1 < x.n →
        y.unnotified = x.unnotified + 1 ∧ y.firstRec = if x.unnotified = 0 then s.cycle else x.firstRec)) ∧
    (let x := s.queue q
     x.st ≠ .free → x.n ≠ 0 → x.t ≠ 0 → x.unnotified ≠ 0 → x.firstRec + 1800 * x.t ≤ s.cycle →
      exec (.notifyTimer q) s = .next (s.notify q) ∧ ((s.notify q).queue q).unnotified = 0 ∧
      ((s.ep x.ep).st = .opened → ∃ p, ((s.notify q).ep x.ep).pkts = (s.ep x.ep).pkts ++ [p] ∧ p.msg.op = .send ∧
        p.msg.data = toBytes 16 (q + s.memRead (x.ering % 2 ^ 40) 8 * 2 ^ 64)))

/-- R265, R267, R269, R317 to R321: the queue's next command executes by its opcode: NOP; WAIT when the dword has reached the
value; WRITE stores its dword; EVENT writes a record; LAUNCH starts a kernel whose object and buffers are in order; an
ill-formed or reserved command fails, a drain flag waits for the queue's kernels. A blocked or stalled queue goes on when
its condition is met or its retry is due, and a command is placed where its ring and its VF have room. Corners of the
commands are log entries 23 and 24. -/
def Obligations.QueueCommands : Prop :=
  ∀ (s u : State) (q c pa node ty : Nat) (cmd : BitVec 512),
    (s.nextCmd q = some c →
      (cmdFormOk c = false → (c / 256 % 2 = 0 ∨ s.drained q = true) →
        (∀ i n, (i, n) ∈ [(Instr.nop q, 0), (.launch q, 1), (.wait q, 2), (.write q, 3), (.event q, 4)] → c % 256 = n →
          exec i s = .next (s.cmdFail q 1 0)) ∧
        (5 < c % 256 → exec (.nop q) s = .next (s.cmdFail q 1 0))) ∧
      (c / 256 % 2 = 1 → s.drained q = false →
        ∀ i n, (i, n) ∈ [(Instr.nop q, 0), (.launch q, 1), (.wait q, 2), (.write q, 3), (.event q, 4)] → c % 256 = n →
          exec i s = .next (s.setQueue q { s.queue q with st := .blocked, block := some .drain })) ∧
      (cmdFormOk c = true → (c / 256 % 2 = 0 ∨ s.drained q = true) →
        let va := bits c 127 64
        (c % 256 = 0 → exec (.nop q) s = .next (s.cmdDone q)) ∧
        (c % 256 = 2 → va % 8 ≠ 0 → exec (.wait q) s = .next (s.cmdFail q 4 (BitVec.ofNat 64 va))) ∧
        (c % 256 = 2 → va % 8 = 0 → s.Unasked (.queue q) → s.xlateDev (s.queue q).ctx .load va = (u, .ok node pa ty) → node = u.dev.node →
          exec (.wait q) s = .next (if bits c 191 128 ≤ u.memRead pa 8 then u.cmdDone q else u.cmdBlock q .wait)) ∧
        (c % 256 = 3 → va % 8 ≠ 0 → exec (.write q) s = .next (s.cmdFail q 4 (BitVec.ofNat 64 va))) ∧
        (c % 256 = 3 → va % 8 = 0 → s.Unasked (.queue q) → s.xlateDev (s.queue q).ctx .store va = (u, .ok node pa ty) → node = u.dev.node →
          exec (.write q) s = .next ((u.memPut pa 8 (bits c 191 128)).cmdDone q)) ∧
        (c % 256 = 4 →
          let r : Rec := { status := 0, ser := 0xFFFFFFFF, cause := 0, addr := BitVec.ofNat 64 va, seq := (s.queue q).next, event := true }
          exec (.event q) s = .next (
            let v := s.putRec q r
            if (v.queue q).recs.contains r then v.cmdBlock q .record else v)) ∧
        (c % 256 = 1 → (c / 512 % 2 = 1 → (s.ctx (s.queue q).ctx).sysok = true) → va % 256 = 0 → s.Unasked (.queue q) →
          s.xlateDev (s.queue q).ctx .load va = (u, .ok node pa ty) → node = u.dev.node →
          let obj := u.memRead pa 256
          let fail := (Host.Outcome.next (u.cmdFail q 12 (BitVec.ofNat 64 va)) : Host.Outcome State Fault Refusal)
          (objectOk obj = false → exec (.launch q) s = fail) ∧
          (objectOk obj = true → ∀ pas,
            let ds := declsOf obj 64 (bits obj 115 112) ++ declsOf obj 192 (bits obj 118 116)
            ∀ w, u.recordsAt q (s.queue q).ctx (bits obj 115 112) ds [] = (w, .ok pas) →
            let fail := (Host.Outcome.next (w.cmdFail q 12 (BitVec.ofNat 64 va)) : Host.Outcome State Fault Refusal)
            let past := (ds.zip pas).any fun e =>
              decide (bits e.2.2 151 128 ≤ (bits obj 95 64 - 1) * e.1.2.1 + e.1.2.2.1 + e.1.2.2.2 - 1)
            let ids := pas.map fun p => p.2 % 2 ^ 32
            let ins := ids.take (bits obj 115 112)
            let outs := ids.drop (bits obj 115 112)
            (past = true → exec (.launch q) s = fail) ∧
            ((∃ i ∈ outs, i ∈ ins) → exec (.launch q) s = fail) ∧
            (past = false → (∀ i ∈ outs, i ∉ ins) → outs.Nodup → exec (.launch q) s = .next (w.launch q c obj pas)))))) ∧
    (let x := s.queue q
     (x.st = .stalled → x.retryAt ≤ s.cycle →
        exec (.queueStallRetry q) s = .next (s.setQueue q { x with st := .running, stallVa := 0 })) ∧
     (x.st = .blocked → x.block = some .drain → s.drained q = true →
        exec (.blockClear q) s = .next (s.setQueue q { x with st := .running, block := none })) ∧
     (x.st = .blocked → x.block = some .wait → s.waitMet q = true →
        exec (.blockClear q) s = .next (s.setQueue q { x with st := .running, block := none })) ∧
     (∀ n, x.st = .blocked → x.block = some (.kill n) → s.killFinished n = true ∨ (s.ctx n).st ≠ .dead →
        exec (.blockClear q) s = .next (s.cmdOk q 0)) ∧
     (∀ n, x.st = .blocked → x.block = some (.suspend n) → (s.ctx n).suspending = none →
        exec (.blockClear q) s = .next (s.cmdOk q 0)) ∧
     let seq := bits cmd.toNat 63 32
     let ahead := (seq + 2 ^ 32 - x.next) % 2 ^ 32
     (x.st ≠ .free → x.st ≠ .halted → x.devFed = false → ahead < 2 ^ (x.csize + 4) → ahead < 2 ^ 31 → seq ∉ x.placed →
        s.vfPlaced x.vf < (s.vf x.vf).slots → ∃ t, exec (.commandArrive q cmd) s = .next t ∧
          t.out = s.out ++ [OutMsg.command q seq true] ∧ (t.queue q).placed = x.placed ++ [seq]) ∧
     (x.st = .free ∨ x.st = .halted ∨ x.devFed = true →
        exec (.commandArrive q cmd) s = .next { s with out := s.out ++ [OutMsg.command q seq false] }))

/-- R299, R300, R325, R366, R367: the management commands of a queue of VF 0: contexts are created from an image, suspended,
resumed, killed and released; queues created, set, records that stand unnotified counting toward the new N at once (R324), and
destroyed; a VF's quotas set; endpoints opened and closed. Each that
has executed writes an OK record; outside VF 0 they fail with PRIV, and one that is refused fails with its A. That an open of an
endpoint whose transfers of before are still queued changes nothing yet is the model's choice (log entry 27); what an access of another device meets whose endpoint is closed is log entry 12. Other
corners of the commands are log entry 24. -/
def Obligations.Management : Prop :=
  ∀ (s : State) (q c n : Nat),
    let a := argA c
    let b := argB c
    let asked := s.nextCmd q = some c ∧ cmdFormOk c = true ∧ (c / 256 % 2 = 0 ∨ s.drained q = true) ∧ c % 256 = 5 ∧
      c / 2 ^ 64 % 256 = n
    let now := asked ∧ (s.queue q).vf = 0
    (asked → (s.queue q).vf ≠ 0 → ∀ i k, (i, k) ∈ [(Instr.contextCreate q, 1), (.contextSuspend q, 2), (.contextResume q, 3),
        (.contextKill q, 4), (.contextRelease q, 5), (.queueCreate q, 6), (.queueSet q, 7), (.queueDestroy q, 8), (.vfSet q, 9),
        (.vfReset q, 10), (.endpointOpen q, 11), (.endpointClose q, 12)] → n = k → exec i s = .next (s.cmdFail q 2 0)) ∧
    (now → n = 1 → ∀ x, a < 256 → (s.ctx a).st = .free → s.ownAddr b 256 = true → s.ctxOfImage (s.memRead (b % 2 ^ 40) 256) = some x →
      exec (.contextCreate q) s = .next ((s.setCtx a x).cmdOk q 0)) ∧
    (now → n = 1 → (256 ≤ a ∨ (s.ctx a).st ≠ .free) → exec (.contextCreate q) s = .next (s.cmdFail q 12 (BitVec.ofNat 64 a))) ∧
    (now → n = 2 → a < 256 → (s.ctx a).st = .live → (s.ctx a).suspending = none →
      ∃ t, exec (.contextSuspend q) s = .next t ∧ (t.ctx a).suspending = some q ∧ (t.queue q).st = .blocked ∧
        (t.queue q).block = some (.suspend a)) ∧
    (now → n = 2 → a < 256 → (s.ctx a).st = .live → (s.ctx a).suspending ≠ none →
      exec (.contextSuspend q) s = .next (s.cmdBlock q (.suspend a))) ∧
    (now → n = 3 → a < 256 → (s.ctx a).st = .live → exec (.contextResume q) s = .next (s.cmdOk q 0)) ∧
    (now → n = 3 → a < 256 → (s.ctx a).st = .suspended → ∃ t : State, exec (.contextResume q) s = .next (t.cmdOk q 0) ∧ (t.ctx a).st = .live) ∧
    (now → n = 4 → a < 256 → (s.ctx a).st = .live ∨ (s.ctx a).st = .suspended →
      let u := s.kill a none none
      exec (.contextKill q) s = .next (if (u.queue q).st = .halted then u else u.cmdBlock q (.kill a))) ∧
    (now → n = 4 → a < 256 → (s.ctx a).st = .dead → exec (.contextKill q) s = .next (s.cmdOk q 0)) ∧
    (now → n = 5 → a < 256 → (s.ctx a).st = .dead → s.killFinished a = true →
      exec (.contextRelease q) s = .next ((s.freeCtx a).cmdOk q 0) ∧ ((s.freeCtx a).ctx a) = {}) ∧
    (now → n = 5 → a < 256 → (s.ctx a).st = .dead → s.killFinished a = false →
      exec (.contextRelease q) s = .next (s.cmdFail q 12 (BitVec.ofNat 64 a))) ∧
    (now → n = 6 → let id := bits a 9 0
      let x := bits a 17 10
      let v := bits a 21 18
      bits a 63 36 = 0 → bits a 27 23 = 0 → bits a 31 28 ≤ 8 → bits a 35 32 ≤ 8 → (s.ctx x).st = .live → (s.queue id).st = .free →
      (s.queues.filter fun e => decide (e.2.st ≠ .free) && decide (e.2.vf = v)).length < (s.vf v).queues → (s.ctx x).vf = v →
      b % 4096 = 0 → argC c % 4096 = 0 → s.ownAddr b (64 * 2 ^ (bits a 31 28 + 4)) = true →
      s.ownAddr (argC c) (64 + 32 * 2 ^ (bits a 35 32 + 4)) = true →
      let made : Queue := { st := .running, ctx := x, vf := v, devFed := decide (bits a 22 22 = 1), csize := bits a 31 28,
                            esize := bits a 35 32, cring := b, ering := argC c, old := (s.queue id).old }
      exec (.queueCreate q) s = .next (((s.memPut (argC c % 2 ^ 40) 16 0).setQueue id made).cmdOk q 0)) ∧
    (now → n = 7 → a < 1024 → (s.queue a).st ≠ .free → bits b 63 48 = 0 → bits b 31 24 = 0 → bits b 15 12 = 0 →
      exec (.queueSet q) s = .next (((s.setQueue a { s.queue a with
        ep := b % 4096, n := bits b 23 16, t := bits b 47 32 }).notifyDue a).cmdOk q 0)) ∧
    (now → n = 8 → a < 1024 → (s.queue a).st = .stopped ∨ (s.queue a).st = .halted →
      exec (.queueDestroy q) s = .next ((s.destroyQueue a).cmdOk q 0) ∧ ((s.destroyQueue a).queue a).st = .free) ∧
    (now → n = 8 → a < 1024 → (s.queue a).st = .running → exec (.queueDestroy q) s = .next (s.cmdFail q 12 (BitVec.ofNat 64 a))) ∧
    (now → n = 9 → a < 16 → bits b 63 53 = 0 → bits b 47 43 = 0 → 1 ≤ bits b 52 48 → bits b 52 48 ≤ 16 → bits (argC c) 63 11 = 0 →
      bits b 42 24 + ((List.range 16).map fun v => if v = a then 0 else (s.vf v).tags).sum ≤ 262144 →
      let v : Vf := { slots := b % 2 ^ 24, tags := bits b 42 24, queues := argC c, weight := bits b 52 48 }
      exec (.vfSet q) s = .next (({ s with vfs := tput s.vfs a v } : State).cmdOk q 0)) ∧
    (now → n = 11 → let x := bits a 19 12
      let y := s.queue (bits a 31 22)
      let cmds := decide (bits a 21 21 = 1)
      (s.ep (a % 4096)).st = .free → (s.ctx x).st = .live → (cmds = true → y.st ≠ .free ∧ y.devFed = false ∧ y.ctx = x) →
      s.ownAddr b 64 = true → s.memRead (b % 2 ^ 40) 64 < 2 ^ 192 →
      let e : Endpoint := { st := .opened, ctx := x, rod := decide (bits a 20 20 = 1), cmds := cmds,
                            queue := if cmds then bits a 31 22 else 0, security := bits a 47 32,
                            peer := BitVec.ofNat 512 (s.memRead (b % 2 ^ 40) 64) }
      (s.epBusy (a % 4096) = false → ∃ w, exec (.endpointOpen q) s =
        .next ((({ s with free := s.free + 1 } : State).setEp (a % 4096) { e with window := w }).cmdOk q 0)) ∧
      (s.epBusy (a % 4096) = true → exec (.endpointOpen q) s = .next s)) ∧
    (now → n = 12 → let e := s.ep (a % 4096)
      let u := s.forget (.packet (a % 4096))
      (e.st = .failed → exec (.endpointClose q) s = .next ((u.setEp (a % 4096) {}).cmdOk q 0)) ∧
      (e.st = .opened → s.epBusy (a % 4096) = false →
        exec (.endpointClose q) s = .next (((u.failAsks e.pkts).setEp (a % 4096) {}).cmdOk q 0)) ∧
      (e.st = .opened → s.epBusy (a % 4096) = true →
        exec (.endpointClose q) s = .next ((u.setEp (a % 4096) { u.ep (a % 4096) with st := .free }).cmdBlock q (.close (a % 4096)))))

/-- R300, R308, R327: a suspend completes when every group of the context is SAVED or ENDED: its format image is written,
it is SUSPENDED, and the queue that asked goes on unless it was stopped or halted meanwhile; the reset of a VF stops its
queues and starts its grace time, then kills its contexts, then, with nothing of it in flight, scrubs the cores that last held
a group of it and its format tables, and then drops its tags and frees its contexts and queues, phase after phase. Which groups
a suspend waits for is log entry 24, and what is counted in flight log entry 29. -/
def Obligations.SuspendsAndResets : Prop :=
  ∀ (s : State) (q c : Nat),
    ((s.ctx c).suspending = some q →
      (s.allSaved c = true → let u := s.fmtImageWrite c
        let v := (u.setCtx c { u.ctx c with st := .suspended, suspending := none }).workDone q (.suspend c)
        exec (.suspendComplete c) s = .next (if (v.queue q).ctx = c then v.stopQueue q else v)) ∧
      (s.allSaved c = false → exec (.suspendComplete c) s = .next s)) ∧
    (let x := s.queue q
     (x.st = .blocked → x.block = some (.suspend c) → s.workDone q (.suspend c) = s.cmdOk q 0) ∧
     (x.st ≠ .blocked ∨ x.block ≠ some (.suspend c) → s.workDone q (.suspend c) = s)) ∧
    (s.nextCmd q = some c → cmdFormOk c = true → (c / 256 % 2 = 0 ∨ s.drained q = true) → c % 256 = 5 → c / 2 ^ 64 % 256 = 10 →
      (s.queue q).vf = 0 → 0 < argA c → argA c < 16 → argB c < 2 ^ 16 →
      (s.dev.vfPhase = 0 → exec (.vfReset q) s = .next ((s.vfStart (argA c) (argB c) (some q)).cmdBlock q (.vf (argA c)))) ∧
      (s.dev.vfPhase ≠ 0 → exec (.vfReset q) s = .next (s.cmdOk q 0))) ∧
    (s.dev.vfPhase = 1 → s.dev.vfGrace ≤ s.cycle → ∃ t, exec .vfResetGraceExpire s = .next t ∧ t.dev.vfPhase = 2 ∧
      ((s.ctx c).st = .live → (s.ctx c).vf = s.dev.vfNo → (t.ctx c).st = .dead)) ∧
    (s.dev.vfPhase = 2 → s.vfCount s.dev.vfNo = 0 →
      (∀ e ∈ s.ctxs, e.2.vf = s.dev.vfNo → e.2.st ≠ .free → s.killFinished e.1 = true) →
      exec .vfResetDrainDone s = .next { s with dev := { s.dev with vfPhase := 3 } }) ∧
    (s.dev.vfPhase = 3 → ∃ t, exec .vfResetDrainDone s = .next t ∧ t.dev.vfPhase = 4 ∧
        (∀ k, s.scrubs s.dev.vfNo k = true → (t.core k).ls = [] ∧ (t.core k).acc = []) ∧
        (∀ k, s.scrubs s.dev.vfNo k = false → (t.core k).ls = (s.core k).ls ∧ (t.core k).acc = (s.core k).acc) ∧
        (∀ k, (s.ctx k).vf = s.dev.vfNo → (s.ctx k).st ≠ .free → ∀ i, 8 ≤ i → (t.ctx k).fmtWord i = 0)) ∧
    (s.dev.vfPhase = 4 → s.dev.vfQueue = none → ∃ t, exec .vfResetDrainDone s = .next t ∧ t.dev.vfPhase = 0 ∧
        (∀ e ∈ t.tags, e.vf ≠ s.dev.vfNo) ∧
        (∀ k, (s.ctx k).vf = s.dev.vfNo → (s.ctx k).st ≠ .free → (t.ctx k).st = .free) ∧
        (∀ k, (s.queue k).vf = s.dev.vfNo → (s.queue k).st ≠ .free → (t.queue k).st = .free))

/-- R283 to R286, R289, R291 to R296, R308: a die's dispatcher admits the next group of a kernel, its inputs registered, once
no held publication of one of them can be applied first (15_kernel R277); it
places the first group in rank that fits, the rounds over VFs and queues being kept for each priority; a placed group's first task starts with the kernel's code and arguments; a
group all of whose slots are free ends, and a saved one whose threads ABORT has ended; of the placed groups two priorities lower one is chosen to be saved when a READY
group has failed for 50 µs, and takes its save area; and a group that has drained is saved and its slots are free. Where the rounds start is log
entry 31, and the order among groups of equal rank log entry 28. -/
def Obligations.GroupLife : Prop :=
  ∀ (s u : State) (die ser g f clu : Nat) (grp : Group),
    (let k := s.kernel ser
     let n := tget 0 k.admitted die
     let i := groupIndex ser die n
     let held := (s.groups.filter fun e => decide (e.1 / 33554432 = ser) && decide (dieOfGroup ser (e.1 % 33554432) = die) &&
       decide (e.2.st = .waiting ∨ e.2.st = .ready)).length
     die < 4 → k.st = .active → k.killed = false → i < k.groups → held < 64 →
      let tiles := (k.inputs.map fun d => (List.range d.count).map fun j => (d, i * d.mul + d.add + j)).flatten
      (∀ t ∈ tiles, s.heldReady k.ctx t.1.id t.2 = false) →
      let r := tiles.foldl (fun (acc : State × List Input) t =>
        ((acc.1.register k.ctx k.vf t.1 t.2).1, acc.2 ++ [(acc.1.register k.ctx k.vf t.1 t.2).2])) (s, [])
      exec (.groupAdmit die ser) s = .next
        (((r.1.setKernel ser { k with admitted := tput k.admitted die (n + 1) }).setGroup ser i { inputs := r.2 }).reeval)) ∧
    (die < 4 → (∀ t, (s.die die).placedAt = some t → t + 16 ≤ s.cycle) →
      (∀ e ∈ s.groups, e.2.st = .waiting → ∀ i ∈ e.2.inputs, farHome i.pa = false) → ∀ r rest,
      (s.candidates die).foldr rankInsert [] = (r, ser, g) :: rest → s.tryPlace die ser g = some u →
      exec (.groupPlace die) s = .next (
        let k := s.kernel ser
        let d := u.die die
        let last := tget (0, 0) d.rrVf k.prio
        let turn := if k.vf = last.1 ∧ last.2 < (s.vf last.1).weight then last.2 + 1 else 1
        u.setDie die { d with placedAt := some s.cycle, rrVf := tput d.rrVf k.prio (k.vf, turn)
                              rrQueue := tput d.rrQueue (k.prio * 16 + k.vf) ((k.queue + 1) % 1024) })) ∧
    (s.group? ser g = some grp → (s.kernel ser).args.length = 4 → 1 ≤ (s.kernel ser).n → 1 ≤ (s.kernel ser).w * (s.kernel ser).p →
      ∀ k0 rest, s.freeSlots (clu * 8 + f) (s.kernel ser).prio = k0 :: rest →
      let th := (s.place ser g clu f).thread ((clu * 8 + f) * 8 + k0)
      th.st = .runnable ∧ th.pc = (s.kernel ser).code ∧ th.ctx = (s.kernel ser).ctx ∧ th.vf = (s.kernel ser).vf ∧
      th.grp = some (ser, g) ∧ th.tstate = (if (s.kernel ser).sys then 4 else 0) ∧
      ∀ j : Nat, j < 4 → th.readS (BitVec.ofNat 5 (j + 1)) = (s.kernel ser).args.getD j 0) ∧
    (s.group? ser g = some grp → grp.st = .placed → (∀ t ∈ grp.threads, s.isFree t = true) →
      (∀ i, i < grp.slots.length → ∀ e ∈ (s.core (grp.clu * 8 + grp.first + i)).spawnQ, e.owner.ctx ≠ (s.kernel ser).ctx) →
      exec (.groupEnd ser g) s = .next (s.endGroup ser g grp)) ∧
    (s.group? ser g = some grp → grp.st = .placed → (∃ t ∈ grp.threads, (s.thread t).st ≠ .free) →
      exec (.groupEnd ser g) s = .next s) ∧
    (∀ key w ready failed, (s.die die).preempt = none →
      s.groups.filter (fun e => decide (e.2.st = .placed) && decide (e.2.clu / 48 = die) && !e.2.saving) = [(key, grp)] →
      (w, ready) ∈ s.groups → ready.st = .ready → dieOfGroup (w / 33554432) (w % 33554432) = die → ready.failing = some failed →
      failed + 90000 ≤ s.cycle → (s.kernel (key / 33554432)).prio + 2 ≤ (s.kernel (w / 33554432)).prio →
      ∀ area, s.saveArea (key / 33554432) (key % 33554432) grp = some area →
      let c := (s.kernel (key / 33554432)).ctx
      let v := s.setCtx c { s.ctx c with areas := area :: (s.ctx c).areas }
      exec (.preemptionTrigger die) s = .next
        (({ v with groups := tput v.groups key { grp with saving := true, save := { area := area } } } : State).setDie die
          { v.die die with preempt := some (key / 33554432, key % 33554432) })) ∧
    (s.group? ser g = some grp → grp.st = .saved → (∀ e ∈ grp.save.threads, e.2.st = .free) →
      (grp.save.spawns = [] ∨ grp.save.aborted = true) → exec (.groupEnd ser g) s = .next (s.endGroup ser g grp)) ∧
    (∀ area, s.group? ser g = some grp → s.toBeSaved ser g grp = true → s.saveReady ser g grp = true →
      s.areaFor ser g grp = some area → (∀ c ∈ grp.cores, (s.core c).fenced = false ∧ (s.core c).errs.faults = [] ∧ (s.core c).bad = []) →
      (∀ n ∈ grp.threads, (s.core (coreOf n)).bad = []) → ∃ t h, exec (.groupSaveComplete ser g) s = .next t ∧ t.group? ser g = some h ∧
        h.st = .saved ∧ h.save.area = area ∧ h.save.threads = grp.threads.map (fun n => (n, (s.thread n).toSave)) ∧
        ∀ n ∈ grp.threads, t.thread n = {})

/-! ### Layers and raster delivery (21_layer, 22_program_topsail) -/

/-- R333 to R337, R346, R352, R353, R355, R356: LAYNEW gives the lowest free layer with its initial fields, or −1; LAYSET
writes one field, or all writable ones from an image, and LAYGET reads one; a layer that is not the context's, a field that
may not be written and a value out of range trap LAYER 1, 2 and 3; LAYRET retires a layer; REQPOP takes the oldest request
of a queue, whose layer goes RENDERING, or gives 0. The order of LAYSET's checks is log entry 11. -/
def Obligations.LayerTable : Prop :=
  ∀ (s u : State) (d a b : SReg) (bs : List (BitVec 8)),
    let id := (s.src a).toNat % 65536
    let i := (s.src b).toNat % 256
    let mine := (s.layer id).st ≠ .retired ∧ (s.layer id).owner = s.cur.ctx
    let err := fun (reason field : Nat) =>
      (Host.Outcome.next (s.trap { cause := 16, tval := BitVec.ofNat 64 (id + reason * 65536 + field * 2 ^ 24) }) :
        Host.Outcome State Fault Refusal)
    (s.Ready [] (some d) false →
      (∀ k, s.freeFrom s.layers 0 = some k → exec (.laynew d) s = .next
        ((s.setLayer k { st := .empty, owner := s.cur.ctx, f := [(19, 0xFFFF), (21, 0xFFFFFFFFFFFFFFFF), (24, 0xFFFF)] }).commit []
          [.s d] [(.s d, BitVec.ofNat 512 k)] (.ready s.cycle))) ∧
      (s.freeFrom s.layers 0 = none → exec (.laynew d) s = .next (s.commit [] [.s d] [(.s d, BitVec.allOnes 512)] (.ready s.cycle)))) ∧
    (s.Ready [d, a, b] none →
      (¬mine → exec (.layset d a b) s = err 1 i) ∧
      (mine → i ≠ 31 → (26 < i ∨ i ∈ [0, 3, 4, 24, 25]) → exec (.layset d a b) s = err 2 i) ∧
      (mine → i ≤ 26 → i ∉ [0, 3, 4, 24, 25] →
        (layerBad i (s.src d).toNat = true → exec (.layset d a b) s = err 3 i) ∧
        (layerBad i (s.src d).toNat = false → exec (.layset d a b) s =
          .next ((s.setLayer id ((s.layer id).set i (s.src d).toNat).settle).retire [d, a, b]))) ∧
      (mine → i = 31 → (s.src d).toNat % 64 ≠ 0 → exec (.layset d a b) s = .next (s.trap { cause := 4, tval := s.src d })) ∧
      (mine → i = 31 → (s.src d).toNat % 64 = 0 → ∀ s1 s2 s3 b1 b2 b3 b4,
        s.readAt s.iss.thr (s.src d).toNat 64 = (s1, .ok b1 none) → s1.readAt s1.iss.thr ((s.src d).toNat + 64) 64 = (s2, .ok b2 none) →
        s2.readAt s2.iss.thr ((s.src d).toNat + 64 + 64) 64 = (s3, .ok b3 none) →
        s3.readAt s3.iss.thr ((s.src d).toNat + 64 + 64 + 64) 64 = (u, .ok b4 none) → bs = b1 ++ (b2 ++ (b3 ++ (b4 ++ []))) →
        let value := fun (k : Nat) => ofBytes bs / 2 ^ (64 * k) % 2 ^ 64
        let fields := (List.range 27).filter fun k => !([0, 3, 4, 24, 25].contains k)
        (∀ k ∈ fields, layerBad k (value k) = false) → exec (.layset d a b) s = .next ((u.setLayer id
          (fields.foldl (fun (x : Layer) k => x.set k (value k)) (u.layer id)).settle).retire [d, a, b]))) ∧
    (s.Ready [a, b] (some d) false →
      (¬mine → exec (.layget d a b) s = err 1 i) ∧ (mine → 26 < i → exec (.layget d a b) s = err 2 i) ∧
      (mine → i ≤ 26 → exec (.layget d a b) s =
        .next (s.commit [a, b] [.s d] [(.s d, BitVec.ofNat 512 ((s.layer id).get i))] (.ready s.cycle)))) ∧
    (s.Ready [a] none → (mine → exec (.layret a) s = .next ((s.retireLayer id).retire [a])) ∧ (¬mine → exec (.layret a) s = err 1 0)) ∧
    (s.Ready [a] (some d) false → let q := (s.src a).toNat % 1024
      (s.queueCheck q false = none → (s.queue q).reqs = [] → exec (.reqpop d a) s =
        .next ((s.flushL1 s.curCore).commit [a] [.s d] [(.s d, 0)] (.ready s.cycle))) ∧
      (∀ e rest, s.queueCheck q false = none → (s.queue q).reqs = e :: rest → ∃ t : State, exec (.reqpop d a) s =
          .next (t.commit [a] [.s d] [(.s d, BitVec.ofNat 512 (e.e * 2 ^ 32 + e.age * 2 ^ 16 + e.id))] (.ready t.cycle)) ∧
        (t.queue q).reqs = rest ∧ (t.layer e.id).st = (if (s.layer e.id).st = .requested then .rendering else (s.layer e.id).st)) ∧
      (∀ e, s.queueCheck q false = some e → exec (.reqpop d a) s = .next (s.trap e)))

/-- R338, R340, R343, R344, R354, R357, R358: a command enters the compositor's queue of the die with the next number of
class 4, after its checks, and is held while that has 16; LAYSPLIT makes its child at once; the compositor runs the head of
its queue, a row at a time, once no store its thread made before is on its way (R344), and ends it on its issuer's timeline; a
merge first does its work on both layers in one step (R338). A sample in front that is opaque hides what lies behind.
How much one step does is log entry 25. -/
def Obligations.Compositor : Prop :=
  ∀ (s : State) (d a b : SReg) (die : Nat), (s.core s.curCore).errs.faults = [] → (s.core s.curCore).lsPoison = [] →
    let full := 16 ≤ (s.die (dieOf s.iss.thr)).comp.length
    let n := s.cur.timeIssued 4 + 1
    let put := fun (s : State) (op : CompOp) =>
      let u := s.setCur { s.cur with issued := tput s.cur.issued 4 n, ops := s.cur.ops ++ [{ cls := 4, num := n }] }
      let e : CompReq := { owner := s.owner s.iss.thr s.iss.b.pc, num := n, op := op }
      u.setDie (dieOf s.iss.thr) { s.die (dieOf s.iss.thr) with comp := (s.die (dieOf s.iss.thr)).comp ++ [e] }
    let o := (s.src b).toNat
    let w := s.lsRead s.curCore o 32
    let id := (s.src a).toNat % 65536
    let p := s.layer id
    let x := bits w 15 0
    let y := bits w 31 16
    let wd := bits w 47 32
    let ht := bits w 63 48
    (full → ∀ i ∈ [Instr.compose a b, .laysplit d a b, .laymerge a b], exec i s = .next s) ∧
    (¬full → s.Ready [a, b] none → (s.src a).toNat % 64 = 0 → (s.src a).toNat + 64 ≤ 0x60000 →
      let r := s.lsRead s.curCore (s.src a).toNat 64
      (composeOk r (o % 2048) = true → exec (.compose a b) s =
        .next ((put s (.compose (s.src a).toNat (o % 2048) (BitVec.ofNat 512 r))).retire [a, b])) ∧
      (composeOk r (o % 2048) = false → exec (.compose a b) s = .next (s.trap { cause := 16, tval := BitVec.ofNat 64 (6 * 65536) }))) ∧
    (¬full → s.Ready [a, b] (some d) false → o % 32 = 0 → o + 32 ≤ 0x60000 → s.layerMine s.cur.ctx id = true →
      bits w 127 64 % 64 = 0 → bits w 191 128 % 64 = 0 → p.st ≠ .empty →
      ((wd = 0 ∨ ht = 0 ∨ p.get 1 < x + wd ∨ p.get 2 < y + ht) →
        exec (.laysplit d a b) s = .next (s.trap { cause := 16, tval := BitVec.ofNat 64 (id + 5 * 65536) })) ∧
      (0 < wd → 0 < ht → x + wd ≤ p.get 1 → y + ht ≤ p.get 2 → ∀ c, s.freeFrom s.layers 0 = some c →
        ∃ child : Layer, exec (.laysplit d a b) s = .next ((put (s.setLayer c child) (.split id c x y wd ht)).commit [a, b] [.s d]
            [(.s d, BitVec.ofNat 512 c)] (.ready s.cycle)) ∧ child.owner = s.cur.ctx ∧ child.get 1 = wd % 4096 ∧ child.get 2 = ht % 4096 ∧
          child.get 24 = id ∧ child.get 3 = p.get 3 % 65536 ∧ child.st = (if p.get 3 = 0 then .fresh else .aging))) ∧
    (¬full → s.Ready [a, b] none → let u := o % 65536
      s.layerMine s.cur.ctx id = true → s.layerMine s.cur.ctx u = true → p.st ≠ .empty → (s.layer u).st ≠ .empty →
      (id ≠ u → exec (.laymerge a b) s = .next ((put s (.merge id u)).retire [a, b])) ∧
      (id = u → exec (.laymerge a b) s = .next (s.trap { cause := 16, tval := BitVec.ofNat 64 (id + 5 * 65536) }))) ∧
    (∀ q, (s.die die).comp.head? = some q → s.storesOut q.owner = true →
      ∀ i ∈ [Instr.composite die, .laysplitCopy die, .laymergeFold die, .engineFaultRetry .compositor die], exec i s = .next s) ∧
    (∀ q rest, (s.die die).comp = q :: rest → q.stall = none → s.storesOut q.owner = false →
      (∀ off k r, q.op = .compose off k r →
        (q.stepped = false → exec (.composite die) s = .next (s.composeSteps die q k (bits r.toNat 199 128))) ∧
        (q.stepped = true → q.at_ < bits r.toNat 287 272 → exec (.composite die) s = .next (s.composeRow die q r.toNat)) ∧
        (q.stepped = true → bits r.toNat 287 272 ≤ q.at_ → exec (.composite die) s = .next (s.composeEnd die q off r.toNat))) ∧
      (∀ p c x y w h, q.op = .split p c x y w h → exec (.laysplitCopy die) s = .next (s.splitRun die q p c x y w h)) ∧
      (∀ t u, q.op = .merge t u → exec (.laymergeFold die) s = .next (s.mergeRun die q t u) ∧
        (q.snap = [] → s.layerMine q.owner.ctx t = true → s.layerMine q.owner.ctx u = true →
          exec (.laymergeFold die) s = .next (s.mergeSteps die q t u)) ∧
        ∀ x y, q.snap = [(t, x), (u, y)] → y.get 2 ≤ q.at_ → exec (.laymergeFold die) s = .next (s.endComp die q none)) ∧
      (∀ p c x y w h m, q.op = .split p c x y w h → q.snap = m → m.length = 2 → h ≤ q.at_ →
        exec (.laysplitCopy die) s = .next (s.endComp die q none))) ∧
    (∀ c cs, c < 2 ^ 32 → c / 2 ^ 24 = 255 → blend (c :: cs) = c)

/-- R347 to R350, R359 to R361: TRIEMIT sends a record to the members of its set whose bins its box meets, or an end mark to
every member, the set's entry read as a load reads it, with ECC for poison in it (TVAL 0: log entry 13); a delivered record
waits at its core, with a ticket; TRIPOP and TRIPOPN take the oldest record of a set; TRIPOP waits and TRIPOPN gives −2 where there is none; TRIDONE ends a ticket; PXLOCK takes a quad that no live lock and no older
ticket stands before, which acquires, and waits otherwise; PXUNLK frees it; TRIDONE and PXUNLK wait for the thread's remote accesses, which
they release. A record is delivered when its core's buffer has room for its context's and no earlier record of its set waits for that core.
Log entries 26, 40 and 41 name the first sequence number, end marks, and the choice among tickets of one number; that an
operation is held until earlier remote accesses are performed is log entry 4's choice. -/
def Obligations.RasterDelivery : Prop :=
  ∀ (s : State) (d a b : SReg) (src tgt thr : Nat), (s.core s.curCore).errs.faults = [] → (s.core s.curCore).lsPoison = [] →
    let core := s.curCore
    let c := s.core core
    let v := s.ackAll s.iss.thr
    let set := (s.src b).toNat % 64
    let id := (s.src b).toNat / 65536 % 65536
    let pa := (s.ctx s.cur.ctx).multicast % 2 ^ 40 + 256 * set
    let read := (List.range 4).foldl (fun u i => u.replied s.iss.thr (pa + 64 * i)) s
    (s.Ready [a, b] none →
      ((s.src a).getLsbD 63 = true → s.memPoisoned pa 256 = true → exec (.triemit a b) s = .next (read.trap (eccMem 0))) ∧
      (∀ cores, s.memPoisoned pa 256 = false → s.multicastSet s.cur.ctx set = some cores → s.layerMine s.cur.ctx id = true →
        ((s.src a).getLsbD 63 = true → exec (.triemit a b) s = .next
          ((cores.foldl (fun s c => s.send c (.triangle { set := set, seq := 0, mark := true, layer := id }) true) read).retire [a, b])) ∧
        ((s.src a).getLsbD 63 = false → (s.src a).toNat % 64 = 0 → (s.src a).toNat + 64 ≤ 0x60000 →
          let r := s.lsRead core (s.src a).toNat 64
          let px := fun (k : Nat) => pixelOf (r / 2 ^ (32 * k))
          let l := s.layer id
          let u := read.takeSeq s.cur.ctx set
          (∀ x0 x1 y0 y1, boxAxis (l.get 1) (px 0) (px 3) (px 6) = some (x0, x1) →
            boxAxis (l.get 2) (px 1) (px 4) (px 7) = some (y0, y1) →
            let t : Tri := { set := set, seq := u.2, layer := id, x0 := x0, x1 := x1, y0 := y0, y1 := y1,
                             data := putAt (BitVec.ofNat 512 r) 448 32 u.2 }
            exec (.triemit a b) s = .next (((cores.zipIdx.filter fun e => ownsBin (l.get 1) cores.length e.2 x0 x1 y0 y1).foldl
              (fun s e => s.send e.1 (.triangle t) true) u.1).retire [a, b])) ∧
          (boxAxis (l.get 1) (px 0) (px 3) (px 6) = none → exec (.triemit a b) s = .next (u.1.retire [a, b])))) ∧
      ((s.src a).getLsbD 63 = true → s.memPoisoned pa 256 = false → s.multicastSet s.cur.ctx set = none →
        exec (.triemit a b) s = .next (read.trap { cause := 15, tval := BitVec.ofNat 64 (set + 4 * 4096) }))) ∧
    (∀ m t, m.body = .triangle t → m.tgt = tgt → s.takesTri m = (!s.hasTask tgt m.owner.ctx ||
      (decide ((s.core tgt).tris.countP (fun r => decide (r.ctx = m.owner.ctx)) < 64) &&
        !(s.net.takeWhile fun x => decide (x ≠ m)).any (·.triangleOf m.owner.ctx t.set tgt)))) ∧
    (takeMsg src tgt (fun x => s.takesTri x && !x.held && x.cleared s.net) [] s.net = none → exec (.triangleDeliver src tgt) s = .next s) ∧
    (∀ m rest t, takeMsg src tgt (fun x => s.takesTri x && !x.held && x.cleared s.net) [] s.net = some (m, rest) →
      m.body = .triangle t → s.isFree (tgt * 8 + 7) = true →
      let u : State := { s with net := rest }
      (s.hasTask tgt m.owner.ctx = false → exec (.triangleDeliver src tgt) s = .next (u.answer m 0 (some 2))) ∧
      (s.hasTask tgt m.owner.ctx = true → exec (.triangleDeliver src tgt) s = .next
        ((u.setCore tgt { s.core tgt with tris := (s.core tgt).tris ++ [{ ctx := m.owner.ctx, tri := t }]
                                          tickets := if t.mark then (s.core tgt).tickets
                                            else (s.core tgt).tickets ++ [{ ctx := m.owner.ctx, tri := t }] }).answer m 0 none))) ∧
    (s.Ready [a] (some d) false →
      let off := (s.src a).toNat % 2 ^ 20
      let k := (s.src a).toNat / 2 ^ 20 % 64
      off % 64 = 0 → off + 64 ≤ 0x60000 →
      (∀ x i, i ∈ [Instr.tripop d a, .tripopn d a] → s.oldestTri core s.cur.ctx k = some x →
        let u := s.takeTri s.iss.thr off x
        exec i s = .next (u.1.commit [a] [.s d] [(.s d, u.2.setWidth 512)] (.ready s.cycle)) ∧
        u.2 = (if x.tri.mark then BitVec.allOnes 64 else BitVec.ofNat 64 x.tri.seq)) ∧
      (s.oldestTri core s.cur.ctx k = none →
        exec (.tripop d a) s = .next (s.block (.triangle k off d) [a]) ∧
        exec (.tripopn d a) s = .next (s.commit [a] [.s d] [(.s d, ((-2 : W64)).setWidth 512)] (.ready s.cycle)))) ∧
    (∀ w k off r x, (s.thread thr).st = .waiting → (s.thread thr).wait = some w → w.w = .triangle k off r →
      s.oldestTri (coreOf thr) (s.thread thr).ctx k = some x → exec (.tripopComplete thr) s = .next (s.unblock thr w fun v =>
        ({ (v.takeTri thr off x).1 with iss := { thr := thr, b := { w.b with la := 0 } } } : State).commit [] [.s r]
          [(.s r, (v.takeTri thr off x).2.setWidth 512)] (.ready (v.takeTri thr off x).1.cycle))) ∧
    (s.Ready [a] none → s.cur.remOut ≠ [] → exec (.tridone a) s = .next s ∧ exec (.pxunlk a) s = .next s) ∧
    (s.Ready [a] none → s.cur.remOut = [] →
      (s.ticket? s.iss.thr s.cur.ctx ((s.src a).toNat % 2 ^ 32) = none →
        exec (.tridone a) s = .next (v.trap { cause := 16, tval := BitVec.ofNat 64 (7 * 65536) })) ∧
      (∀ k, s.ticket? s.iss.thr s.cur.ctx ((s.src a).toNat % 2 ^ 32) = some k → exec (.tridone a) s = .next ((v.setCore core { v.core core with
        tickets := c.tickets.filter fun u => decide (u ≠ k)
        locks := c.locks.filter fun l => !(decide (l.ctx = k.ctx) && decide (l.set = k.tri.set) && decide (l.seq = k.tri.seq)) }).retire [a])) ∧
      ((∀ k ∈ c.tickets, k.popper ≠ some (s.iss.thr, s.cur.inc)) → exec (.pxunlk a) s = .next (v.retire [a])) ∧
      (∀ k, c.tickets.find? (fun k => decide (k.popper = some (s.iss.thr, s.cur.inc)) && c.locks.any fun l => decide (l.ctx = k.ctx) &&
          decide (l.quad = (s.src a).toNat % 2 ^ 32) && decide (l.set = k.tri.set) && decide (l.seq = k.tri.seq)) = some k →
        exec (.pxunlk a) s = .next ((v.setCore core { v.core core with
          tickets := c.tickets.map fun u => if u = k then { u with given := (s.src a).toNat % 2 ^ 32 :: u.given } else u
          locks := c.locks.filter fun l => !(decide (l.ctx = k.ctx) && decide (l.quad = (s.src a).toNat % 2 ^ 32)) }).retire [a]))) ∧
    (s.Ready [a, b] none → ∀ k, s.ticket? s.iss.thr s.cur.ctx ((s.src a).toNat % 2 ^ 32) = some k →
      let quad := (s.src b).toNat % 2 ^ 32
      let l := s.layer k.tri.layer
      2 * (quad % 65536) < l.get 1 → 2 * (quad / 65536) < l.get 2 →
      (c.grantable k quad = true ↔ (∀ l ∈ c.locks, l.quad ≠ quad) ∧ c.locks.length < 64 ∧ ∀ u ∈ c.tickets,
        newer (BitVec.ofNat 32 k.tri.seq) (BitVec.ofNat 32 u.tri.seq) = true → u.tri.covers quad = true → quad ∈ u.given) ∧
      (c.grantable k quad = true → exec (.pxlock a b) s = .next (((s.lockQuad core k quad).fromNow s.iss.thr).retire [a, b])) ∧
      (c.grantable k quad = false → exec (.pxlock a b) s = .next (s.block (.pixel k.tri.set k.tri.seq quad) [a, b]))) ∧
    (∀ w k set seq quad, (s.thread thr).st = .waiting → (s.thread thr).wait = some w → w.w = .pixel set seq quad →
      (s.core (coreOf thr)).tickets.find? (fun k => decide (k.ctx = (s.thread thr).ctx) && decide (k.tri.set = set) &&
        decide (k.tri.seq = seq)) = some k → exec (.pxlockGrant thr) s = .next (
          if (s.core (coreOf thr)).grantable k quad then s.unblock thr w fun v => ((v.lockQuad (coreOf thr) k quad).fromNow thr).done else s))

/-! ### Halyard (23_link) -/

/-- R365 to R372, R374, R377: a transfer whose descriptor passes its checks takes the next number of class 3 and enters the
core's network queue, or at a FAILED endpoint completes at once with REMOTE; the first transfer that may, before any that is stalled,
and whose reads no store of its thread on its way comes before (11_engines R212), sends its next packet, of at most 4,096 bytes and within one page of the remote address; an answer, under ROD to the oldest packet, is placed or ends
the transfer and leaves the congestion window open, and to a packet that no port has taken there is none; a packet is sent again, and after 64 tries the endpoint fails. A port comes UP when it trains and goes DOWN when its signal is lost. The
port a packet goes by and the order of the checks are log entries 10, 11 and 27; when remote accesses are performed is log entry
4. -/
def Obligations.HalyardTransfers : Prop :=
  ∀ (s u : State) (a : SReg) (core port ep k : Nat) (bs : List (BitVec 8)), (s.core s.curCore).errs.faults = [] →
    (s.core s.curCore).lsPoison = [] →
    let me := s.curCore
    let o := (s.src a).toNat
    let w := s.lsRead me o 64
    let n := s.cur.timeIssued 3 + 1
    let own := s.owner s.iss.thr s.iss.b.pc
    let numbered := s.setCur { s.cur with issued := tput s.cur.issued 3 n, ops := s.cur.ops ++ [{ cls := 3, num := n }] }
    (∀ i op, (i, op) ∈ [(Instr.hput a, HOp.put), (.hget a, .get), (.hamo a, .amo), (.hsend a, .send)] →
      (16 ≤ (s.core me).netQueued.length → exec i s = .next s) ∧
      (s.Ready [a] none → (s.core me).netQueued.length < 16 →
        (o % 64 ≠ 0 → exec i s = .next (s.trap { cause := 4, tval := s.src a })) ∧
        (o % 64 = 0 → 0x60000 < o + 64 → exec i s = .next (s.trap { cause := 6, tval := s.src a })) ∧
        (o % 64 = 0 → o + 64 ≤ 0x60000 →
          (∀ e, s.netCheck s.cur.ctx op w = some e → exec i s = .next (s.trap e)) ∧
          (s.netCheck s.cur.ctx op w = none → (s.ep (netEp w)).st ≠ .failed →
            let q : NetReq := { owner := own, num := n, op := op, ep := netEp w, desc := BitVec.ofNat 512 w, order := s.dev.nextXfer }
            exec i s = .next ((({ numbered with dev := { s.dev with nextXfer := s.dev.nextXfer + 1 } } : State).setCore me
              { s.core me with nq := (s.core me).nq ++ [q] }).retire [a])) ∧
          (s.netCheck s.cur.ctx op w = none → (s.ep (netEp w)).st = .failed →
            exec i s = .next (((numbered.setEp (netEp w) { s.ep (netEp w) with err := 5 }).finishOp own 3 n 0
              (some { cause := 15, tval := BitVec.ofNat 64 (5 * 4096 + netEp w * 65536) })).retire [a]))))) ∧
    (∀ q, ((s.core core).nq.takeWhile fun q => q.stall.isNone).find?
        (fun q => decide (q.sent < netLen q.desc.toNat) && s.mayStart q && !s.netBehind q) = some q → q.op = .put →
      let d := q.desc.toNat
      let remote := bits d 199 128 + q.sent
      let len := min (netLen d - q.sent) (4096 - remote % 4096)
      s.locRead q.owner (netLocal d) q.sent len = (u, .ok bs) → ∃ t p, exec (.transferPacketSend core) s = .next t ∧
        (t.ep q.ep).pkts = (u.ep q.ep).pkts ++ [p] ∧ p.msg.remote = remote % 2 ^ 72 ∧ p.msg.len = len ∧ p.msg.data = bs ∧
        remote % 4096 + len ≤ 4096) ∧
    (((s.core core).nq.takeWhile fun q => q.stall.isNone).find?
        (fun q => decide (q.sent < netLen q.desc.toNat) && s.mayStart q && !s.netBehind q) = none → exec (.transferPacketSend core) s = .next s) ∧
    (∀ (p : OutPkt) r, (s.ep ep).pkts[k]? = some p → p.port = none → exec (.packetAck ep k r) s = .next s) ∧
    (∀ p c q, (s.ep ep).pkts[k]? = some p → s.xferOf p = some (c, q) → p.port ≠ none → p.reply = none → q.stall = none →
      ∃ win, let y : Endpoint := { s.ep ep with window := win }
        let t : State := { s with free := s.free + 1 }
        exec (.packetAck ep k .retry) s = .next (t.setEp ep { y with pkts := y.pkts.set k { p with backoff := true } }) ∧
        (y.rod = false ∨ k = 0 →
          (∀ r, exec (.packetAck ep k (.refused r)) s = .next ((t.setEp ep { y with err := r.toNat }).endXfer c q
            (some { cause := 15, tval := BitVec.ofNat 64 (r.toNat * 4096 + ep * 65536) }))) ∧
          (∀ data, (q.op = .put ∨ q.op = .send) → exec (.packetAck ep k (.done data)) s =
            .next ((t.setEp ep { y with pkts := y.pkts.eraseIdx k }).netAcked c q p.msg.len)) ∧
          (∀ data, (q.op = .get ∨ q.op = .amo) → data.length = p.msg.len → exec (.packetAck ep k (.done data)) s =
            .next ((t.setEp ep { y with pkts := y.pkts.set k { p with reply := some data } }).netPlace c q k p data))) ∧
        (y.rod = true → k ≠ 0 → ∀ r, r ≠ .retry → exec (.packetAck ep k r) s = .next s)) ∧
    (∀ p, (s.ep ep).pkts[k]? = some p → p.reply = none →
      ((p.tries < 64 ∨ p.backoff = true) → ∃ t p', exec (.retransmit ep k) s = .next t ∧ (t.ep ep).pkts = (s.ep ep).pkts.set k p' ∧
        p'.msg = p.msg ∧ p'.tries = (if p.backoff then p.tries else p.tries + 1) ∧ (t.ep ep).retrans = (s.ep ep).retrans + 1) ∧
      (64 ≤ p.tries → p.backoff = false → (s.ep ep).st = .opened → ∃ t, exec (.retransmitLimit ep k) s = .next t ∧
        (t.ep ep).st = .failed ∧ (t.ep ep).err = 5 ∧ (t.ep ep).pkts = [])) ∧
    (port < 12 →
      (s.port port = .down → exec (.trainingSucceeds port) s = .next { s with ports := tset .down s.ports port .up }) ∧
      (s.port port = .up → ∃ t, exec (.signalLost port) s = .next t ∧ t.port port = .down) ∧
      (s.port port = .up → ∃ t, exec (.portDisable port) s = .next t ∧ t.port port = .disabled) ∧
      (s.port port = .down → exec (.portDisable port) s = .next { s with ports := tset .down s.ports port .disabled }) ∧
      (s.port port = .disabled → ∃ t, exec (.portEnable port) s = .next t ∧ t.port port = .down))

/-- R364, R372, R373, R375 to R379: a packet that arrives at an OPEN endpoint and is authentic is served in the
endpoint's context: a write is placed and credited, a read answered with its bytes, an atomic performed once, a command
handed to the endpoint's queue; one for an endpoint that is not OPEN is refused, one that is not authentic is only
counted apart, and one out of order under ROD dropped (both the model's choice: log entry 27). R376: at an ROD endpoint of VF 0 that the node table names, a write and a read name physical addresses of
exported pages, and are answered absent elsewhere; an access of the device's own goes out once, by the endpoint the table names, and is an
error where none is OPEN; its answer is kept for what asked. CCRD reads an endpoint's counters and EPSTAT its state. How a packet of
the load-store domain is told apart, and when an access goes out, is log entry 12, and the open values of CCRD log entry 10. -/
def Obligations.HalyardArrivals : Prop :=
  ∀ (s u v : State) (ep pa ty : Nat) (p : Packet) (bs : List (BitVec 8)) (d a b : SReg),
    let x := s.ep ep
    let n := p.va.toNat % 4096
    let fin := fun (t : State) (m : OutMsg) =>
      let t := if p.duplicate then t else t.setEp ep { t.ep ep with arrived := (t.ep ep).arrived + 1 }
      ({ t with out := t.out ++ [m] } : State)
    let ok := x.st = .opened ∧ (x.security = 0 ∨ p.authentic = true)
    let inOrder := x.rod = false ∨ p.duplicate = true ∨ p.seq = x.arrived
    let all := fun (t : State) => ∀ i ∈ [Instr.packetWrite ep p, .packetRead ep p, .packetAtomic ep p, .packetSend ep p], exec i s = .next t
    (x.st ≠ .opened → all { s with out := s.out ++ [OutMsg.nack ep] }) ∧
    (x.st = .opened → x.security ≠ 0 → p.authentic = false → all (s.setEp ep { x with unauth := x.unauth + 1 })) ∧
    (ok → ¬inOrder → all s) ∧
    (ok → inOrder → x.cmds = false → x.rod = true → (s.ctx x.ctx).vf = 0 → (∃ node, (node, ep) ∈ s.dev.nodes) → p.duplicate = false →
      let at_ := p.va.toNat % 2 ^ 40
      let here := fun (k : Nat) => p.va.toNat / 2 ^ 40 = s.dev.node ∧ at_ + k ≤ Config.memBytes ∧ at_ / 4096 ∈ s.dev.exports
      (p.data ≠ [] → n + p.data.length ≤ 4096 → exec (.packetWrite ep p) s = .next (
        if here p.data.length then fin (s.memWrite none at_ p.data) (.packet ep (.done [])) else fin s (.absent ep))) ∧
      (0 < p.len → n + p.len ≤ 4096 → s.memPoisoned at_ p.len = false → exec (.packetRead ep p) s = .next (fin s
        (if here p.len then .packet ep (.done (s.memGet at_ p.len)) else .absent ep)))) ∧
    (ok → inOrder → x.cmds = false → (∀ e ∈ s.dev.nodes, e.2 ≠ ep) →
      (p.data ≠ [] → n + p.data.length ≤ 4096 →
        (p.duplicate = true → exec (.packetWrite ep p) s = .next { s with out := s.out ++ [OutMsg.packet ep (.done [])] }) ∧
        (p.duplicate = false → s.devWrite (.packet ep) x.ctx p.va.toNat p.data = (u, .ok bs) →
          exec (.packetWrite ep p) s = .next (u.packetDone ep x.ctx p p.data.length []))) ∧
      (0 < p.len → n + p.len ≤ 4096 → s.devRead (.packet ep) x.ctx (pieces p.va.toNat p.len) = (u, .ok bs) →
        exec (.packetRead ep p) s = .next (fin u (.packet ep (.done bs)))) ∧
      (p.va.toNat % 8 = 0 → p.amo.toNat ≤ 2 → p.duplicate = false →
        s.xlateDev x.ctx .atomic p.va.toNat = (v, .ok v.dev.node pa ty) → v.memPoisoned pa 8 = false →
        let old : W64 := BitVec.ofNat 64 (v.memRead pa 8)
        let new := if p.amo.toNat = 0 then old + p.operand else if p.amo.toNat = 1 then p.operand
          else if old = p.compare then p.operand else old
        exec (.packetAtomic ep p) s = .next ((v.memPut pa 8 new.toNat).packetDone ep x.ctx p 8 (toBytes 8 old.toNat)))) ∧
    (p.credit = none → s.packetDone ep x.ctx p n bs = fin s (.packet ep (.done bs))) ∧
    (∀ (w : Asker) (op : HOp) (node va k e : Nat) (data : List (BitVec 8)),
      let m : NetMsg := { op := op, remote := node * 2 ^ 40 + pa, len := k, data := data }
      let got := s.remoteAccess w op node pa va k data
      (∀ r, s.answered w m = some r → got.2 = gotOf va k r ∧ got.1.eps = s.eps) ∧
      (s.answered w m = none →
        (s.farEp node = none → got = (s, .ok (List.replicate k 0) (some { cause := 15, tval := BitVec.ofNat 64 va }))) ∧
        (s.farEp node = some e →
          let sent := ∃ q ∈ (s.ep e).pkts, q.asker = some w ∧ q.msg = m
          got.2 = .wait ∧ got.1.mem = s.mem ∧ (sent ∨ s.mayAccess e k = false → got.1.eps = s.eps) ∧
          (¬sent → s.mayAccess e k = true →
            ∃ q, (got.1.ep e).pkts = (s.ep e).pkts ++ [q] ∧ q.msg = m ∧ q.asker = some w)))) ∧
    (∀ (q : OutPkt) (w : Asker) (r : Reply) (k : Nat), x.pkts[k]? = some q → s.xferOf q = none → q.port ≠ none →
      q.reply = none → q.asker = some w → s.asks w = true → (x.rod = false ∨ k = 0) → r ≠ .retry →
      (∀ data, r = .done data → data.length = q.msg.len) →
      ∃ t, exec (.packetAck ep k r) s = .next t ∧ (t.ep ep).pkts = x.pkts.eraseIdx k ∧
        t.dev.answers = s.dev.answers ++ [{ who := w, va := q.va, msg := q.msg, reply := r }]) ∧
    (ok → inOrder → x.cmds = true → p.data.length = 64 → p.duplicate = false →
      let r := s.commandIn x.queue (BitVec.ofNat 512 (ofBytes p.data))
      exec (.packetSend ep p) s = .next (if r.2 then fin r.1 (.packet ep (.done []))
        else { r.1 with out := r.1.out ++ [OutMsg.nack ep] })) ∧
    (s.Ready [a, b] (some d) false → let e := (s.src a).toNat % 4096
      let y := s.ep e
      let k := (s.src b).toNat % 8
      let err := fun (reason : Nat) => (Host.Outcome.next (s.trap { cause := 17, tval := BitVec.ofNat 64 (reason + e * 256) }) :
        Host.Outcome State Fault Refusal)
      ((y.st = .free ∨ y.ctx ≠ s.cur.ctx) → exec (.ccrd d a b) s = err 2) ∧
      (y.st ≠ .free → y.ctx = s.cur.ctx → 5 < k → exec (.ccrd d a b) s = err 6) ∧
      (y.st ≠ .free → y.ctx = s.cur.ctx → k ≤ 5 → ∃ r, exec (.ccrd d a b) s =
          .next (({ s with free := s.free + 1 } : State).commit [a, b] [.s d] [(.s d, BitVec.ofNat 512 r)] (.ready s.cycle)) ∧
        (k = 0 → r = y.window % 2 ^ 64) ∧ (k = 3 → r = (y.pkts.map fun p => p.msg.len).sum % 2 ^ 64) ∧ (k = 4 → r = y.retrans % 2 ^ 64) ∧
        (k = 5 → 1 ≤ r ∧ r ≤ 64) ∧ (k = 2 → r < 65536))) ∧
    (s.Ready [a] (some d) false → let e := (s.src a).toNat % 4096
      let y := s.ep e
      let out := min 256 (s.cores.map fun c => (c.2.nq.filter fun t => decide (t.ep = e)).length).sum
      exec (.epstat d a) s = .next (s.commit [a] [.s d] [(.s d, BitVec.ofNat 512 (
        if y.st = .free ∨ y.ctx ≠ s.cur.ctx then 0
        else (if y.st = .failed then 2 else 1) + (if y.rod then 16 else 0) + (if y.cmds then 32 else 0) + y.err * 4096 + out * 65536 +
          y.ctx * 2 ^ 32))] (.ready s.cycle)))

/-! ### The device (24_device) -/

/-- R2, R380 to R383, R386, R389, R390, R393: DEVICE_RESET brings back the state of reset; BOOT, once, sets the node and
the tables, makes context 0, and writes the boot record at address 0, and faults where the structures the flash places
are outside memory, misaligned, or one over another; the power limit and the grant keep to their ranges; a lasting uncorrectable error of memory poisons
its dword; a watchdog that expires and SHROUD fence a core, SHROUD for VF 0 only and at the end of its core cycle, so that the
fence comes after everything else in it (25_ordering R397). 10_matrix R202, 24_device R387,
19_queue R327, R328: the steps of MQCTL, ELSEL and VFCTL: stop asks for a freeze and its end lets a queue that is not
saved run, maskerr is cleared, the selected log is emptied, and a reset of a VF other than 0 starts when none is in
progress. The stop of BOOT and injection in other arrays are log entry 34; that a power limit outside 1,200 to 2,400 W
changes nothing is the model's choice, log entry 32, and that SHROUD is held while remote accesses of its thread are not
performed log entry 4. -/
def Obligations.DeviceEvents : Prop :=
  (
    ∀ (s : State) (c : BootCfg) (n die idle core pa : Nat) (a : SReg),
      exec .deviceReset s = .next { State.reset with free := s.free } ∧
      (∀ x, s.dev.ctxBase = some x → exec (.boot c) s = .next s) ∧
      (s.dev.ctxBase = none → bootFits c = false → exec (.boot c) s = .fault .bootOutsideMemory) ∧
      (s.dev.ctxBase = none → bootFits c = true → ∃ t, exec (.boot c) s = .next t ∧ t.dev.node = c.node.toNat ∧
        t.dev.ctxBase = some c.ctxTable ∧ t.dev.qBase = some c.queueTable ∧ (t.ctx 0).st = .live ∧ (t.ctx 0).sysok = true ∧
        (t.queue 0).st = .running ∧ (t.ep 0).st = .opened ∧ t.memRead 0 8 = 1 ∧ t.memRead 8 8 = c.node.toNat ∧
        t.memRead 48 8 = c.freeBase % 2 ^ 64) ∧
      exec (.powerLimitSet n) s = .next (if 1200 ≤ n ∧ n ≤ 2400 then { s with dev := { s.dev with power := n } } else s) ∧
      (die < 4 → idle ≤ 7 → exec (.reefGrant die idle) s = .next (s.setDie die { s.die die with idle := idle })) ∧
      (pa / 8 * 8 ∉ s.poison → exec (.softError (.memory pa false false)) s = .next { s with poison := s.poison ++ [pa / 8 * 8] }) ∧
      (∀ clean, exec (.softError (.memory pa true clean)) s = .next s) ∧
      (core < 1536 → 2 ^ 24 ≤ (s.core core).watch →
        exec (.watchdogExpire core) s = .next ((s.setCore core { s.core core with watch := 0 }).fence core)) ∧
      (core < 1536 → (s.core core).watch < 2 ^ 24 → exec (.watchdogExpire core) s = .next s) ∧
      (s.cur.tstate.getLsbD 2 = true →
        (s.cur.vf ≠ 0 → exec (.shroud a) s = .next (s.trap { cause := 2, tval := 3 * 4096 })) ∧
        (s.cur.vf = 0 → s.Ready [a] none → let x := (s.src a).toNat % 2048
          (1536 ≤ x → exec (.shroud a) s = .next (s.trap { cause := 15, tval := BitVec.ofNat 64 (x + 4096) })) ∧
          (x < 1536 → s.cur.remOut ≠ [] → exec (.shroud a) s = .next s) ∧
          (x < 1536 → s.cur.remOut = [] → let u := s.ackAll s.iss.thr
            exec (.shroud a) s = .next
              { u.retire [a] with dev := { (u.retire [a]).dev with fences := (u.retire [a]).dev.fences ++ [x] } }))) ∧
      (s.dev.fences = [core] → (s.clu (core / 8)).spare = none → (s.tick.core core).fenced = true)) ∧
  (
    ∀ (s : State) (core : Nat) (v : W64),
      exec (.mqctlStop core true) s = .next (s.setCore core { s.core core with mqStop := true }) ∧
      exec (.mqctlStop core false) s = .next (s.setCore core
        { s.core core with mqStop := false, mqFrozen := (s.core core).mqFrozen && (s.core core).mqSaved }) ∧
      exec (.mqctlMaskerrClear core) s = .next (s.setCore core { s.core core with mqMaskErr := false }) ∧
      exec (.elselClear core) s = .next (s.setCore core { s.core core with errs := { (s.core core).errs with
        logs := tput (s.core core).errs.logs ((s.core core).errs.elsel.toNat / 2 ^ 8 % 2 ^ 8) [] } }) ∧
      (v.getLsbD 0 = true → s.dev.vfPhase = 0 → v.toNat / 2 ^ 16 % 16 ≠ 0 →
        ∃ t, exec (.vfctlReset v) s = .next t ∧ t.dev.vfPhase = 1 ∧ t.dev.vfNo = v.toNat / 2 ^ 16 % 16 ∧
          t.dev.vfGrace = s.cycle + v.toNat / 2 ^ 32 % 2 ^ 16 * 1800 ∧
          ∀ q, (s.queue q).vf = v.toNat / 2 ^ 16 % 16 → (s.queue q).st = .running → (t.queue q).st = .stopped))

/-! ### Steps, encodings, frames and reset (02_encoding, 03_thread, 07_memory, 24_device) -/

/-- R43 to R45, R55, R58, R59: a step runs the instruction that stands at the program counter: in the issue turn of a core
that has not issued in this cycle, for the first slot in the order of the cycle that does not hold its bundle, the words
fetched at the thread's pc decode to an instruction, and with nothing that holds it back the step is its execution on
the state in which it is the bundle being issued, with the turn noted after it, and for a short bundle what its registers
depend on; a turn that waits for a walk of the page table is no bundle of a handler's count, and one that traps is (so log
entry 29); a word is fetched from the core's instruction cache, or from the memory its address translates to. A step of
the device named by the agenda is its execution, with what comes of the registers it writes late noted, and
what other devices have answered to it (log entry 12); of SPAWNs of one cycle for one core the lowest slot's comes first (log entry
3); a ping waits until its core has had its turn, and pre-emption and a
watchdog's fence until the cores they act on have had theirs and the pings that can arrive there (log entries 3 and 34). -/
def Obligations.StepRunsDecoded : Prop :=
  (∀ (s : State) (core k la : Nat) (rest : List Move) (pre post : List Nat) (i : Instr) (ws : List (BitVec 16)) (s2 : State),
    s.agenda = .issue core :: rest →
    let u : State := { s with agenda := rest }
    let t := core * 8 + k
    let th := u.thread t
    let b : Bundle := { pc := th.pc, words := ws, la := la }
    let s1 : State := { (u.fetchEffect t ws.length).readRegs t i with iss :=
      { thr := t, b := b, dep := if (sourcesOf i).contains (.s 30) then u.moment
          else max (th.depOf (sourcesOf i)) (th.sysDepOf (sysReads i)) } }
    ((∀ d a b, i ≠ .spawn d a b ∧ i ≠ .spawnw d a b) ∨ u.spawnWaits core = false) →
    (s.core core).issued ≠ some s.cycle → slotOrder s.cycle = pre ++ k :: post →
    (∀ j ∈ pre, u.prepare (core * 8 + j) = .hold) → u.competes t = true → th.follows = false →
    decodeWith (u.fetchWord t) = .ok (.ok i la, ws) → th.spent = false → th.poison = none → th.blockers i = [] →
    (isLong i = false ∨ th.outstanding < 4) → s1.regsBad t i = false → exec i s1 = .next s2 →
    (s2.iss.turn = .ran → heldBy i s1 s2 = false →
      let written := if isLong i = false ∧ executed (s2.thread t) = true then destsOf i else []
      step s = .next (((s2.depend t i).wroteRegs t written).issuedBy t th true)) ∧
    (s2.iss.turn = .walking → step s = .next (s2.issuedBy t th false false)) ∧
    (s2.iss.turn = .trapped → th.pend = [] → step s = .next (s2.issuedBy t th false))) ∧
  (∀ (s : State) (core : Nat) (rest : List Move), s.agenda = .issue core :: rest →
    ({ s with agenda := rest } : State).spawnWaits core = true → step s = .next { s with agenda := rest }) ∧
  (∀ (s t : State) (i : Instr) (rest : List Move), s.agenda = .dev i :: rest → isBundle i = false →
    let u : State := { s with agenda := rest }
    (u.beforeTurn i = false → exec i u = .next t → step s = .next (u.lateWrote t.settled)) ∧
    (u.beforeTurn i = true → step s = .next u ∧
      ((∃ k, i ∈ [Instr.wakeArrive k, .resumeArrive k, .abortArrive k] ∧ (u.turn (coreOf k)).isSome = true) ∨
       (∃ core, u.onCore i core = true ∧ ((u.turn core).isSome = true ∨
         ∃ m ∈ u.net, m.tgt = core ∧ ∃ p ∈ pingMoves m, (u.due p).isSome = true)) ∧
         ((∃ die, i = .preemptionTrigger die) ∨ (∃ ser g, i = .groupSaveComplete ser g) ∨ ∃ c, i = .watchdogExpire c)))) ∧
  (∀ (s : State) (t n pa ty : Nat), let va := (s.thread t).wordAddr n
    let c := s.core (coreOf t)
    va < 2 ^ 64 → s.Unasked (s.fetcher t) → (s.xlate (coreOf t) (s.thread t).ctx .fetch va).2 = .ok s.dev.node pa ty →
    (c.icached pa = none → s.memPoisoned pa 2 = false → s.fetchWord t n = .ok (BitVec.ofNat 16 (s.memRead pa 2))) ∧
    (∀ e, c.icached pa = some e → c.fetchBad pa = false → s.fetchWord t n = .ok (BitVec.ofNat 16 (ofBytes (e.bytes pa 2)))))

/-- R27 to R35: words of instructions of several pages, as the spec's examples write them, decode to it: VADD.e16
under a mask, VMULH.e32, VLD with a lookahead and an offset, COPY, TXREQ with a lookahead, WAITTL and VCLT.e32. -/
def Obligations.DecodingIsRight : Prop :=
  decodeWords [0xFA80, 0xFC03, 0x014D] = some (.ok (.vadd 1 1 2 3 2) 0, [0xFA80, 0xFC03, 0x014D]) ∧
  decodeWords [0xFC03, 0x1CBA] = some (.ok (.vmulh 2 4 5 6 0) 0, [0xFC03, 0x1CBA]) ∧
  decodeWords [0xFC24, 0x0142] = some (.ok (.vld 1 2 0 2) 1, [0xFC24, 0x0142]) ∧
  decodeWords [0xFC07, 0x00E0] = some (.ok (.copy 7) 0, [0xFC07, 0x00E0]) ∧
  decodeWords [0xFC27, 0x0DC0] = some (.ok (.txreq 5 6) 1, [0xFC27, 0x0DC0]) ∧
  decodeWords [0xFC07, 0x11C0] = some (.ok (.waittl 1 6) 0, [0xFC07, 0x11C0]) ∧
  decodeWords [0xFC03, 0x6296] = some (.ok (.vcltE32 2 4 5 0) 0, [0xFC03, 0x6296])

/-- R27 to R35, R42, R49: decoding the canonical words of a well-formed bundle, with any lookahead its class allows and
whatever follows it (HANDLER_LIMIT and ILLEGAL_ENCODING happen to a bundle and are encoded by none), gives back the instruction and the
lookahead, and takes exactly those words. -/
def Obligations.EncodeDecode : Prop :=
  ∀ (i : Instr) (la : Nat) (rest : List (BitVec 16)), isBundle i = true → i ≠ .handlerLimit →
    (∀ idx reason, i ≠ .illegalEncoding idx reason) → i.wf = true → (la = 0 ∨ isLong i = true ∧ la < 16) →
    decodeWords (encode i la ++ rest) = some (.ok i la, encode i la)

/-- R59, R67 and 01_machine R24: what completing does: a bundle that retires leaves the device and the other threads as they
are, writes at most its destination, and goes on at the next bundle; one that commits also waits as an outstanding bundle
of its thread with its window, its destinations and its values, and the link it popped as it was, so that an error that comes
late leaves that unchanged (R67). -/
def Obligations.CompletingFrame : Prop :=
  ∀ (s : State) (srcs : List SReg) (d : SReg) (v : W64) (ds : List Reg) (vals : List (Reg × V512)) (due : Due) (err : Option Err),
    (s.cur.gang = none → (s.retire srcs).cur = { s.cur with pc := s.iss.b.next, past := s.iss.b.nextOver }) ∧
    (s.cur.gang = none → (s.retireS srcs d v).cur = { (if d = 31#5 then s.cur else s.cur.writeS d v) with
      pc := s.iss.b.next, past := s.iss.b.nextOver }) ∧
    (s.cur.gang = none → (s.commit srcs ds vals due err).cur = { s.cur with
      pc := s.iss.b.next, past := s.iss.b.nextOver,
      pend := s.cur.pend ++ [{ b := s.iss.b, win := s.iss.b.la, dests := ds, vals := vals, due := due, err := err
                               popped := if 30#5 ∈ srcs then s.upLink s.iss.thr else none }] }) ∧
    (d.toNat ≠ 0 → d.toNat < 30 → (s.cur.writeS d v).readS d = v) ∧
    (∀ r, r ≠ d → (s.cur.writeS d v).readS r = s.cur.readS r) ∧ (s.cur.writeS 0 v) = s.cur ∧
    (∀ t, (t = s.retire srcs ∨ t = s.retireS srcs d v ∨ t = s.commit srcs ds vals due err) →
      SameDevice s t ∧ SameMemory s t ∧ t.cur.pc = s.iss.b.next ∧ ∀ n, n ≠ s.iss.thr → s.cur.gang = none → t.thread n = s.thread n)

/-- R66, R67, R112, R113: the frame of short instructions that write one register and no flags: with ready operands each completes,
and leaves unchanged every register but its destination, FFLAGS and every other special register of the thread, every
other thread (but for its gang's own course), the local stores, accumulators and queues, and every byte of memory. -/
def Obligations.RegisterFrame : Prop :=
  ∀ (s : State) (d a b : SReg) (p q : AReg) (x y z : VReg) (m e g : MReg) (w : BitVec 2) (im : Imm) (i : Instr) (srcs : List SReg)
    (dst : Option SReg) (dest : Reg),
    (i, srcs, dst, dest) ∈
      ([Instr.add d a b, .addw d a b, .sub d a b, .subw d a b, .and d a b, .or d a b, .xor d a b, .andn d a b, .sll d a b,
        .srl d a b, .sra d a b, .ror d a b, .ceq d a b, .cne d a b, .clt d a b, .cltn d a b, .mul d a b, .mulw d a b,
        .mulh d a b, .mulhn d a b, .min d a b, .max d a b, .minn d a b, .maxn d a b, .bext d a b, .bexts d a b,
        .bmsk d a b].map fun i => (i, [a, b], some d, Reg.s d)) ++
      ([Instr.sel d a b, .bins d a b, .fshl d a b, .fshr d a b].map fun i => (i, [d, a, b], some d, Reg.s d)) ++
      ([Instr.addi d a im, .andi d a im, .ori d a im, .xori d a im, .slli d a im, .srli d a im, .srai d a im, .clti d a im,
        .mov d a, .clz d a, .ctz d a, .popc d a, .brev d a, .bexti d a im, .bextsi d a im, .sextb d a, .sexth d a, .sextw d a,
        .zextw d a, .abs d a, .neg d a].map fun i => (i, [a], some d, Reg.s d)) ++
      ([Instr.vextr w d x b m].map fun i => (i, [b], some d, Reg.s d)) ++
      ([Instr.vins w x a b m].map fun i => (i, [a, b], (none : Option SReg), Reg.v x)) ++
      ([Instr.li d im, .movs d p, .movsh d p, .mpop d e, .mfirst d e, .mmovs d e, .vredadd d x m, .vredmin d x m, .vredmax d x m,
        .tlrd d im, .mqstat d, .crd d im].map fun i => (i, ([] : List SReg), some d, Reg.s d)) ++
      ([Instr.adda p q a, .adda2 p q a, .adda4 p q a, .adda8 p q a, .mova p a, .movah p a].map fun i =>
        (i, [a], (none : Option SReg), Reg.a p)) ++
      ([Instr.addai p q im, .movaa p q].map fun i => (i, ([] : List SReg), (none : Option SReg), Reg.a p)) ++
      ([Instr.vadd w x y z m, .vsub w x y z m, .vmul w x y z m, .vmulh w x y z m, .vand x y z m, .vor x y z m, .vxor x y z m,
        .vandn x y z m, .vsll w x y z m, .vsrl w x y z m, .vsra w x y z m, .vmin w x y z m, .vmax w x y z m, .vminn w x y z m,
        .vmaxn w x y z m, .vsel x y z m, .viota w x m, .vwiden8 x y m, .vwiden16 x y m, .vnarrow16 x y m, .vnarrow8 x y m,
        .vperm w x y z m, .vmov x y m, .vscanadd x y m].map fun i => (i, ([] : List SReg), (none : Option SReg), Reg.v x)) ++
      ([Instr.vbcast w x a m, .vsldn w x y a m, .vslup w x y a m].map fun i => (i, [a], (none : Option SReg), Reg.v x)) ++
      ([Instr.vceqE32 e y z m, .vcneE32 e y z m, .vcltE32 e y z m, .vcltnE32 e y z m, .vceqE16 e y z m, .vcneE16 e y z m,
        .vcltE16 e y z m, .vcltnE16 e y z m, .vceqE8 e y z m, .vcneE8 e y z m, .vcltE8 e y z m, .vcltnE8 e y z m, .mand e g m, .mor e g m, .mxor e g m, .mandn e g m].map fun i =>
        (i, ([] : List SReg), (none : Option SReg), Reg.m e)) ++
      ([Instr.mmovm e a].map fun i => (i, [a], (none : Option SReg), Reg.m e)) →
    s.Ready srcs dst → ∃ t, exec i s = .next t ∧ RegsKept s t (some dest) ∧ SameMemory s t ∧ SameDevice s t ∧ SameThreads s t ∧
      t.cur.pc = s.iss.b.next

/-- R76 to R78, R145, R146: the frame of branches and jumps to an address of the code range, which write no register but a
link, and of stores: a store that performs leaves every register and special register of its thread, and every byte of memory outside the bytes it stores, where its
address translates to, as its translation left it; which write of its slice the thread has seen moves on (log entry 4). -/
def Obligations.BranchAndStoreFrame : Prop :=
  ∀ (s u : State) (a d : SReg) (m : MReg) (p e : AReg) (x : BitVec 3) (im : Imm) (z pa ty : Nat),
    let tgt : Int := (s.iss.b.pc.toNat : Int) + 2 * im.toInt
    (0 ≤ tgt → tgt < 2 ^ 64 →
      (s.Ready [a] none → ∀ i ∈ [Instr.bz a im, .bnz a im, .bltz a im, .bgez a im, .bgtz a im, .blez a im],
        ∃ t, exec i s = .next t ∧ RegsKept s t none ∧ SameMemory s t ∧ SameDevice s t ∧ SameThreads s t) ∧
      (∀ i ∈ [Instr.bmany m im, .bmnone m im, .j im], ∃ t, exec i s = .next t ∧ RegsKept s t none ∧ SameMemory s t ∧
        SameDevice s t ∧ SameThreads s t) ∧
      (∃ t, exec (.jal im) s = .next t ∧ RegsKept s t (some (.s 28)) ∧ SameMemory s t ∧ SameDevice s t ∧ SameThreads s t)) ∧
    (let ea := s.cur.readA p + BitVec.ofInt 72 (im.toInt * z)
     let start := if x.toNat = 0 then s else s.ackAll s.iss.thr
     ea.toNat % z = 0 → (x.toNat ≠ 0 → s.cur.remOut = []) → s.Unasked (s.asker s.iss.thr) →
      start.xlate s.curCore s.cur.ctx .store ea.toNat = (u, .ok s.dev.node pa ty) →
      let kept := fun (i : Instr) => ∃ t, exec i s = .next t ∧ RegsKept s t none ∧
        SameThreads (s.setCur { s.cur with seen := t.cur.seen }) t ∧ t.cur.pc = s.iss.b.next ∧ (∀ n, n < pa ∨ pa + z ≤ n → t.memRead n 1 = u.memRead n 1) ∧
        ∀ c, (t.core c).ls = (s.core c).ls ∧ (t.core c).acc = (s.core c).acc ∧ (t.core c).mq = (s.core c).mq
      (s.Ready [d] none → (z = 1 → kept (.stb d p x im)) ∧ (z = 2 → kept (.sth d p x im)) ∧ (z = 4 → kept (.stw d p x im)) ∧
        (z = 8 → kept (.std d p x im))) ∧
      (z = 16 → kept (.sta e p x im)))

/-- R67, R168, R78, R76, R24: in each instruction named, a source s31 or a destination s30 traps QUEUE with the register and
reason 0, a pop with no upstream link reason 3, and a push with no downstream link reason 1; an empty upstream link
and a full downstream one make the bundle wait. JR and JALR to an odd address trap MISALIGN with it, and a taken
branch or jump outside the low 2^64 bytes traps ADDR with reason 4. Which check comes first is log entry 11. -/
def Obligations.OperandTraps : Prop :=
  (
    ∀ (s : State) (d a b : SReg) (im : Imm) (i : Instr) (srcs : List SReg),
      (i, srcs) ∈
        ([Instr.add d a b, .addw d a b, .sub d a b, .subw d a b, .and d a b, .or d a b, .xor d a b, .andn d a b, .sll d a b,
          .srl d a b, .sra d a b, .ror d a b, .ceq d a b, .cne d a b, .clt d a b, .cltn d a b, .mul d a b, .mulw d a b,
          .mulh d a b, .mulhn d a b, .min d a b, .max d a b, .minn d a b, .maxn d a b].map fun i => (i, [a, b])) ++
        ([Instr.addi d a im, .andi d a im, .ori d a im, .xori d a im, .slli d a im, .srli d a im, .srai d a im,
          .clti d a im, .mov d a, .clz d a, .ctz d a, .popc d a].map fun i => (i, [a])) →
      let up := s.upLink s.iss.thr
      let down := s.downLink s.iss.thr
      let queue := fun (reg reason : Nat) =>
        (Host.Outcome.next (s.trap { cause := 10, tval := BitVec.ofNat 64 (reg + reason * 256) }) :
          Host.Outcome State Fault Refusal)
      (31#5 ∈ srcs → exec i s = queue 31 0) ∧
      (31#5 ∉ srcs →
        (d = 30#5 → exec i s = queue 30 0) ∧
        (d ≠ 30#5 → 30#5 ∈ srcs → up = none → exec i s = queue 30 3) ∧
        ((30#5 ∈ srcs → up ≠ none) → d = 31#5 → down = none → exec i s = queue 31 1) ∧
        (∀ l, d ≠ 30#5 → (d = 31#5 → down ≠ none) → 30#5 ∈ srcs → up = some l → l.vals = [] →
          exec i s = .next (s.block .pop)) ∧
        (∀ l, (30#5 ∈ srcs → s.CanPop) → d = 31#5 → down = some l → 16 ≤ l.vals.length →
          exec i s = .next (s.block .push)))) ∧
  (
    ∀ (s : State) (d a : SReg) (m : MReg) (i : Imm),
      let odd : Host.Outcome State Fault Refusal := .next (s.trap { cause := 4, tval := s.src a })
      ((s.src a).getLsbD 0 = true → (s.Ready [a] none → exec (.jr a) s = odd) ∧
        (s.Ready [a] (some d) → exec (.jalr d a) s = odd)) ∧
      (let t : Int := (s.iss.b.pc.toNat : Int) + 2 * i.toInt
       let far : BitVec 72 := BitVec.ofInt 72 t
       let addr : Host.Outcome State Fault Refusal := .next (s.trap
         { cause := 5, tval := far.setWidth 64, high := far.extractLsb' 64 8 ++ 4#8 ++ 0#48 })
       (t < 0 ∨ 2 ^ 64 ≤ t) →
         exec (.j i) s = addr ∧ exec (.jal i) s = addr ∧ (s.cur.readM m ≠ 0 → exec (.bmany m i) s = addr) ∧
         (s.cur.readM m = 0 → exec (.bmnone m i) s = addr) ∧
         (s.Ready [a] none →
           let x := (s.src a).toInt
           (x = 0 → exec (.bz a i) s = addr) ∧ (x ≠ 0 → exec (.bnz a i) s = addr) ∧ (x < 0 → exec (.bltz a i) s = addr) ∧
           (0 ≤ x → exec (.bgez a i) s = addr) ∧ (0 < x → exec (.bgtz a i) s = addr) ∧
           (x ≤ 0 → exec (.blez a i) s = addr))))

/-- R227, R233 to R237, R240, R62: a load or a store whose translation fails hard traps ADDR with the address and the reason.
One that meets a soft fault traps HANDLER with reason 3 in slot 7, and ADDR with reason 5 where the context has no
fault ring; otherwise its thread is DROPPED at its bundle, and where the ring has room and asks for no credit, and no
record of the cluster waits, the record stands in the ring and its head has moved on. -/
def Obligations.FaultedAccesses : Prop :=
  (
    ∀ (s u : State) (d : SReg) (a e : AReg) (x : BitVec 3) (im : Imm) (z r c : Nat),
      let ea := s.cur.readA a + BitVec.ofInt 72 (im.toInt * z)
      let hard := fun (r : Nat) => (Host.Outcome.next (u.trap
        { cause := 5, tval := ea.setWidth 64, high := ea.extractLsb' 64 8 ++ BitVec.ofNat 8 r ++ 0#48 }) :
          Host.Outcome State Fault Refusal)
      let start := if x.toNat = 0 then s else s.ackAll s.iss.thr
      ea.toNat % z = 0 → s.Unasked (s.asker s.iss.thr) →
      ((if x.toNat = 0 then s else s.flushL1 s.curCore).xlate s.curCore s.cur.ctx .load ea.toNat = (u, .hard r) →
        (s.Ready [] (some d) false → ∀ i, (z, i) ∈ [(1, Instr.ldb d a x im), (1, .ldbz d a x im), (2, .ldh d a x im),
          (2, .ldhz d a x im), (4, .ldw d a x im), (4, .ldwz d a x im), (8, .ldd d a x im)] → exec i s = hard r) ∧
        (z = 16 → exec (.lda e a x im) s = hard r)) ∧
      ((if x.toNat = 0 then s else s.flushL1 s.curCore).xlate s.curCore s.cur.ctx .load ea.toNat = (u, .soft c) →
        (s.Ready [] (some d) false → ∀ i, (z, i) ∈ [(1, Instr.ldb d a x im), (1, .ldbz d a x im), (2, .ldh d a x im),
          (2, .ldhz d a x im), (4, .ldw d a x im), (4, .ldwz d a x im), (8, .ldd d a x im)] →
          exec i s = .next (u.softFault c 0 ea.toNat)) ∧
        (z = 16 → exec (.lda e a x im) s = .next (u.softFault c 0 ea.toNat))) ∧
      (start.xlate s.curCore s.cur.ctx .store ea.toNat = (u, .hard r) → (x.toNat ≠ 0 → s.cur.remOut = []) →
        (s.Ready [d] none → ∀ i, (z, i) ∈ [(1, Instr.stb d a x im), (2, .sth d a x im), (4, .stw d a x im), (8, .std d a x im)] →
          exec i s = hard r) ∧
        (z = 16 → exec (.sta e a x im) s = hard r)) ∧
      (start.xlate s.curCore s.cur.ctx .store ea.toNat = (u, .soft c) → (x.toNat ≠ 0 → s.cur.remOut = []) →
        (s.Ready [d] none → ∀ i, (z, i) ∈ [(1, Instr.stb d a x im), (2, .sth d a x im), (4, .stw d a x im), (8, .std d a x im)] →
          exec i s = .next (u.softFault c 1 ea.toNat)) ∧
        (z = 16 → exec (.sta e a x im) s = .next (u.softFault c 1 ea.toNat)))) ∧
  (
    ∀ (s : State) (cause kind va : Nat), va < 2 ^ 72 → cause < 256 → kind < 4 → s.iss.thr < 12288 → s.cur.ctx < 256 →
      let t := s.iss.thr
      let addr := BitVec.ofNat 72 va
      let u := s.softFault cause kind va
      (slotOf t = 7 → u = s.trap { cause := 11, tval := addr.setWidth 64, high := 3#16 ++ 0#48 }) ∧
      (slotOf t ≠ 7 →
        (s.faultRing s.cur.ctx = none → u = s.trap
          { cause := 5, tval := addr.setWidth 64, high := addr.extractLsb' 64 8 ++ 5#8 ++ 0#48 }) ∧
        (∀ base size, s.faultRing s.cur.ctx = some (base, size) →
          (s.cur.gang = none → s.cur.pend = [] → u.cur = { s.cur with st := .dropped }) ∧ u.cur.st = .dropped ∧ u.cur.pc = s.cur.pc ∧
          (let head := s.memRead base 8
           let rcd := base + 64 + 32 * (head % size)
           (s.clu (cluOf t)).frecs = [] → (head + 2 ^ 64 - s.memRead (base + 8) 8) % 2 ^ 64 < size →
           s.memRead (base + 25) 1 / 8 % 2 = 0 →
           u.memRead base 8 = (head + 1) % 2 ^ 64 ∧ u.memRead rcd 9 = va ∧ u.memRead (rcd + 9) 1 = cause ∧
           u.memRead (rcd + 12) 8 = s.timens % 2 ^ 64 ∧ u.memRead (rcd + 24) 8 = s.iss.b.pc.toNat ∧
           (∀ p, (p < base ∨ base + 8 ≤ p) → (p < rcd ∨ rcd + 32 ≤ p) → u.memRead p 1 = s.memRead p 1)))))

/-- R221 to R227: one step of a walk reads the entry of its level's index: a pointer to a table of the device's own memory
leads to the next level; an entry with V, R, W and X 0 is INVALID; a well-formed leaf at level 2 or below is found with
its class; a leaf at level 3 or 4 is malformed. What a leaf gives: with the permission lacking ADDR reason 2, a soft fault
of cause 1, 2 or 4 for an absent page, a write of a copy-on-write page and a compressed one, and otherwise the page's
node and its address with the offset in the page. That COW stands in for W in an ABSENT or a COMPRESSED leaf too is the model's
choice (log entry 42); what the device that holds a page of another node reports of it is not stated here (R225's last
sentences; log entry 12). -/
def Obligations.WalkOutcomes : Prop :=
  (
    ∀ (s : State) (va n table : Nat),
      let pte := table + 8 * (va / 2 ^ (12 * n + 12) % 4096)
      let e : W64 := BitVec.ofNat 64 (s.memRead pte 8)
      let ppn := bits e.toNat 61 22
      let node := bits e.toNat 21 10
      let v := e.getLsbD 0
      let r := e.getLsbD 1
      let w := e.getLsbD 2
      let x := e.getLsbD 3
      let cow := e.getLsbD 6
      let got := s.walkFrom va (n + 1) table
      (s.memPoisoned pte 8 = true → got = .ecc) ∧
      (s.memPoisoned pte 8 = false →
      (v = true → r = false → w = false → x = false → bits e.toNat 9 4 = 0 → node = s.dev.node → ppn % 8 = 0 →
        ppn < 2 ^ 28 → 1 ≤ n → ppn * 4096 + 32768 ≤ Config.memBytes → got = s.walkFrom va n (ppn * 4096)) ∧
      (v = false → r = false → w = false → x = false → got = .hard 1) ∧
      ((r = true ∨ w = true ∨ x = true) →
        (2 < n → got = .hard 3) ∧
        (n ≤ 2 → (w = true → r = true) → (cow = true → w = false ∧ r = true) → bits e.toNat 9 8 ≠ 3 → ppn < 2 ^ 28 →
          ppn % 2 ^ (12 * n) = 0 → (node = s.dev.node → ppn * 4096 + 2 ^ (12 * n + 12) ≤ Config.memBytes) →
          got = .leaf (if v = false then .absent else if e.getLsbD 7 then .compressed else if cow then .cow else .present)
            e n pte) ∧
        ((w = true ∧ r = false) ∨ (cow = true ∧ (w = true ∨ r = false)) ∨ bits e.toNat 9 8 = 3 ∨ 2 ^ 28 ≤ ppn → got = .hard 3)))) ∧
  (
    ∀ (k : Kind) (cls : Pte) (e : W64) (lvl va : Nat), cls ∈ [Pte.present, .cow, .absent, .compressed] →
      let r := e.getLsbD 1
      let w := e.getLsbD 2 || (e.getLsbD 6 && r)
      let held := match k with | .load => r | .store => w | .atomic => r && w | .fetch => e.getLsbD 3
      let found := Xlat.ok (bits e.toNat 21 10) (bits e.toNat 61 22 * 4096 + va % 2 ^ (12 * lvl + 12)) (bits e.toNat 9 8)
      leafOutcome k cls e lvl va =
        if held = false then .hard 2
        else if cls = .absent then .soft 1
        else if cls = .compressed then .soft 4
        else if cls = .cow ∧ (k = .store ∨ k = .atomic) then .soft 2
        else found)

/-- The memory's canonical form is kept by every step (log entries 2 and 3 name the agenda and the loading of a program). -/
def Obligations.StepKeepsMemoryCanonical : Prop :=
  ∀ s t : State, Memory.wf s.mem = true → step s = .next t → Memory.wf t.mem = true

/-- R380: in the state of reset, to which DEVICE_RESET returns, the cycle counter is 0, every thread slot is FREE with every
register 0, every context, queue and endpoint is FREE, every layer RETIRED and every port DOWN, no message, tag, group or
link is left, memory reads 0 and is in canonical form, the cores' stores, accumulators and caches are empty, and VF 0
holds every slot, tag and queue. Log entries 15, 32 and 33 name what R380 leaves to inference or open. -/
def Obligations.ResetState : Prop :=
  let s := State.reset
  s.cycle = 0 ∧ (∀ t, s.thread t = {}) ∧ (∀ t, (s.thread t).st = .free) ∧ (∀ c, (s.ctx c).st = .free) ∧ (∀ q, (s.queue q).st = .free) ∧
  (∀ p, s.port p = .down) ∧ (∀ l, (s.layer l).st = .retired) ∧ (∀ e, (s.ep e).st = .free) ∧ s.net = [] ∧ s.tags = [] ∧
  s.groups = [] ∧ s.links = [] ∧ s.poison = [] ∧ (∀ a n, s.memRead a n = 0) ∧ Memory.wf s.mem = true ∧
  (∀ c, (s.core c).ls = [] ∧ (s.core c).acc = [] ∧ (s.core c).mq = [] ∧ (s.core c).l1 = [] ∧ (s.core c).fenced = false) ∧
  (∀ c, (s.clu c).tlb = []) ∧ (s.vf 0).slots = 2 ^ 24 - 1 ∧ (s.vf 0).tags = 2 ^ 18 ∧ (s.vf 0).queues = 1024
end

