-- ==== Sys2Proof/Laws/Tab.lean ====
section
/-! SUPPORT. Sparse tables: reading after writing, and the canonical form kept by every write. -/

namespace Sys2Proof.Machine

variable {α : Type}

@[simp] theorem tget_nil (d : α) (k : Nat) : tget d [] k = d := rfl
@[simp] theorem tfind_nil (k : Nat) : tfind ([] : Tab α) k = none := rfl

/-! ### Reading after writing -/

theorem tget_tput (d : α) (m : Tab α) (k j : Nat) (v : α) : tget d (tput m k v) j = if j = k then v else tget d m j := by
  induction m <;> grind [tput, tget]
theorem tfind_tput (m : Tab α) (k j : Nat) (v : α) : tfind (tput m k v) j = if j = k then some v else tfind m j := by
  induction m <;> grind [tput, tfind]
theorem tget_terase (d : α) (m : Tab α) (k j : Nat) : tget d (terase m k) j = if j = k then d else tget d m j := by
  induction m <;> grind [terase, tget]

@[simp] theorem tget_tput_same (d : α) (m : Tab α) (k : Nat) (v : α) : tget d (tput m k v) k = v := by simp [tget_tput]
theorem tget_tput_other (d : α) (m : Tab α) {k j : Nat} (v : α) (h : j ≠ k) : tget d (tput m k v) j = tget d m j := by
  simp [tget_tput, h]
@[simp] theorem tfind_tput_same (m : Tab α) (k : Nat) (v : α) : tfind (tput m k v) k = some v := by simp [tfind_tput]

variable [DecidableEq α]

theorem tget_tset (d : α) (m : Tab α) (k j : Nat) (v : α) : tget d (tset d m k v) j = if j = k then v else tget d m j := by
  grind [tset, tget_tput, tget_terase]
@[simp] theorem tget_tset_same (d : α) (m : Tab α) (k : Nat) (v : α) : tget d (tset d m k v) k = v := by simp [tget_tset]
theorem tget_tset_other (d : α) (m : Tab α) {k j : Nat} (v : α) (h : j ≠ k) : tget d (tset d m k v) j = tget d m j := by
  simp [tget_tset, h]

/-! ### The canonical form -/

/-- No key of a table is below `b`. -/
def fromKey (b : Nat) (m : Tab α) : Prop := ∀ e ∈ m, b ≤ e.1

/-- The canonical form from the head on: what follows has higher keys. -/
theorem twf_cons (d : α) (e : Nat × α) (m : Tab α) :
    twf d (e :: m) = true ↔ e.2 ≠ d ∧ fromKey (e.1 + 1) m ∧ twf d m = true := by
  induction m generalizing e <;> grind [twf, fromKey]

omit [DecidableEq α] in
theorem fromKey_tput {b k : Nat} {m : Tab α} (v : α) (hk : b ≤ k) (h : fromKey b m) : fromKey b (tput m k v) := by
  induction m <;> grind [tput, fromKey]

/-- A write keeps the canonical form. -/
theorem twf_tset (d : α) (m : Tab α) (k : Nat) (v : α) (h : twf d m = true) : twf d (tset d m k v) = true := by
  unfold tset
  split_ifs with hv
  · induction m <;> grind [terase, twf_cons, fromKey]
  · induction m <;> grind [tput, twf_cons, fromKey, fromKey_tput, twf]

omit [DecidableEq α] in
theorem tget_below {d : α} {m : Tab α} {b k : Nat} (h : fromKey b m) (hk : k < b) : tget d m k = d := by
  induction m <;> grind [tget, fromKey]

/-- The head of a table in canonical form is what reads at its key, and nothing reads below it. -/
theorem tget_head {d : α} {e : Nat × α} {m : Tab α} (h : twf d (e :: m) = true) (k : Nat) :
    tget d (e :: m) k = if k = e.1 then e.2 else if k < e.1 then d else tget d m k := by
  have := (twf_cons d e m).1 h
  have := tget_below (d := d) (k := k) this.2.1
  grind [tget]

/-- Two tables in canonical form that read alike are the same table. -/
theorem tab_ext (d : α) (m n : Tab α) (hm : twf d m = true) (hn : twf d n = true)
    (h : ∀ k, tget d m k = tget d n k) : m = n := by
  induction m generalizing n with
  | nil =>
    match n with
    | [] => rfl
    | f :: q => have := h f.1; grind [tget_head hn, tget_nil, twf_cons]
  | cons e r ih =>
    match n with
    | [] => have := h e.1; grind [tget_head hm, tget_nil, twf_cons]
    | f :: q =>
      have hr := (twf_cons d e r).1 hm
      have hq := (twf_cons d f q).1 hn
      have he := h e.1
      have hf := h f.1
      rw [tget_head hm, tget_head hn] at he hf
      have key : e.1 = f.1 := by grind
      have tail : r = q := ih q hr.2.2 hq.2.2 fun k => by
        have := h k
        have := tget_below (d := d) (k := k) hr.2.1
        have := tget_below (d := d) (k := k) hq.2.1
        grind [tget_head hm, tget_head hn]
      rw [tail, Prod.ext key (by grind)]

end Sys2Proof.Machine
end

