-- ==== Sys2Proof/Laws/State.lean ====
section
/-! SUPPORT. What each update of the state leaves in each field. -/

namespace Sys2Proof.Machine

/-! ### setThread -/

@[simp] theorem State.setThread_iss (s : State) (t : Nat) (x : Thread) : (s.setThread t x).iss = s.iss := rfl
@[simp] theorem State.setThread_agenda (s : State) (t : Nat) (x : Thread) : (s.setThread t x).agenda = s.agenda := rfl
@[simp] theorem State.setThread_free (s : State) (t : Nat) (x : Thread) : (s.setThread t x).free = s.free := rfl
@[simp] theorem State.setThread_births (s : State) (t : Nat) (x : Thread) : (s.setThread t x).births = s.births := rfl
@[simp] theorem State.setThread_gangs (s : State) (t : Nat) (x : Thread) : (s.setThread t x).gangs = s.gangs := rfl
@[simp] theorem State.setThread_moment (s : State) (t : Nat) (x : Thread) : (s.setThread t x).moment = s.moment := rfl
@[simp] theorem State.setThread_cycle (s : State) (t : Nat) (x : Thread) : (s.setThread t x).cycle = s.cycle := rfl
@[simp] theorem State.setThread_thr (s : State) (t : Nat) (x : Thread) : (s.setThread t x).thr = tput s.thr t x := rfl
@[simp] theorem State.setThread_cores (s : State) (t : Nat) (x : Thread) : (s.setThread t x).cores = s.cores := rfl
@[simp] theorem State.setThread_clus (s : State) (t : Nat) (x : Thread) : (s.setThread t x).clus = s.clus := rfl
@[simp] theorem State.setThread_dies (s : State) (t : Nat) (x : Thread) : (s.setThread t x).dies = s.dies := rfl
@[simp] theorem State.setThread_mem (s : State) (t : Nat) (x : Thread) : (s.setThread t x).mem = s.mem := rfl
@[simp] theorem State.setThread_poison (s : State) (t : Nat) (x : Thread) : (s.setThread t x).poison = s.poison := rfl
@[simp] theorem State.setThread_ctxs (s : State) (t : Nat) (x : Thread) : (s.setThread t x).ctxs = s.ctxs := rfl
@[simp] theorem State.setThread_queues (s : State) (t : Nat) (x : Thread) : (s.setThread t x).queues = s.queues := rfl
@[simp] theorem State.setThread_vfs (s : State) (t : Nat) (x : Thread) : (s.setThread t x).vfs = s.vfs := rfl
@[simp] theorem State.setThread_tags (s : State) (t : Nat) (x : Thread) : (s.setThread t x).tags = s.tags := rfl
@[simp] theorem State.setThread_kernels (s : State) (t : Nat) (x : Thread) : (s.setThread t x).kernels = s.kernels := rfl
@[simp] theorem State.setThread_nextSer (s : State) (t : Nat) (x : Thread) : (s.setThread t x).nextSer = s.nextSer := rfl
@[simp] theorem State.setThread_heldDone (s : State) (t : Nat) (x : Thread) : (s.setThread t x).heldDone = s.heldDone := rfl
@[simp] theorem State.setThread_groups (s : State) (t : Nat) (x : Thread) : (s.setThread t x).groups = s.groups := rfl
@[simp] theorem State.setThread_links (s : State) (t : Nat) (x : Thread) : (s.setThread t x).links = s.links := rfl
@[simp] theorem State.setThread_layers (s : State) (t : Nat) (x : Thread) : (s.setThread t x).layers = s.layers := rfl
@[simp] theorem State.setThread_eps (s : State) (t : Nat) (x : Thread) : (s.setThread t x).eps = s.eps := rfl
@[simp] theorem State.setThread_ports (s : State) (t : Nat) (x : Thread) : (s.setThread t x).ports = s.ports := rfl
@[simp] theorem State.setThread_net (s : State) (t : Nat) (x : Thread) : (s.setThread t x).net = s.net := rfl
@[simp] theorem State.setThread_out (s : State) (t : Nat) (x : Thread) : (s.setThread t x).out = s.out := rfl
@[simp] theorem State.setThread_dev (s : State) (t : Nat) (x : Thread) : (s.setThread t x).dev = s.dev := rfl

/-! ### setCore -/

@[simp] theorem State.setCore_iss (s : State) (c : Nat) (x : Core) : (s.setCore c x).iss = s.iss := rfl
@[simp] theorem State.setCore_agenda (s : State) (c : Nat) (x : Core) : (s.setCore c x).agenda = s.agenda := rfl
@[simp] theorem State.setCore_free (s : State) (c : Nat) (x : Core) : (s.setCore c x).free = s.free := rfl
@[simp] theorem State.setCore_births (s : State) (c : Nat) (x : Core) : (s.setCore c x).births = s.births := rfl
@[simp] theorem State.setCore_gangs (s : State) (c : Nat) (x : Core) : (s.setCore c x).gangs = s.gangs := rfl
@[simp] theorem State.setCore_moment (s : State) (c : Nat) (x : Core) : (s.setCore c x).moment = s.moment := rfl
@[simp] theorem State.setCore_cycle (s : State) (c : Nat) (x : Core) : (s.setCore c x).cycle = s.cycle := rfl
@[simp] theorem State.setCore_thr (s : State) (c : Nat) (x : Core) : (s.setCore c x).thr = s.thr := rfl
@[simp] theorem State.setCore_cores (s : State) (c : Nat) (x : Core) : (s.setCore c x).cores = tput s.cores c x := rfl
@[simp] theorem State.setCore_clus (s : State) (c : Nat) (x : Core) : (s.setCore c x).clus = s.clus := rfl
@[simp] theorem State.setCore_dies (s : State) (c : Nat) (x : Core) : (s.setCore c x).dies = s.dies := rfl
@[simp] theorem State.setCore_mem (s : State) (c : Nat) (x : Core) : (s.setCore c x).mem = s.mem := rfl
@[simp] theorem State.setCore_poison (s : State) (c : Nat) (x : Core) : (s.setCore c x).poison = s.poison := rfl
@[simp] theorem State.setCore_ctxs (s : State) (c : Nat) (x : Core) : (s.setCore c x).ctxs = s.ctxs := rfl
@[simp] theorem State.setCore_queues (s : State) (c : Nat) (x : Core) : (s.setCore c x).queues = s.queues := rfl
@[simp] theorem State.setCore_vfs (s : State) (c : Nat) (x : Core) : (s.setCore c x).vfs = s.vfs := rfl
@[simp] theorem State.setCore_tags (s : State) (c : Nat) (x : Core) : (s.setCore c x).tags = s.tags := rfl
@[simp] theorem State.setCore_kernels (s : State) (c : Nat) (x : Core) : (s.setCore c x).kernels = s.kernels := rfl
@[simp] theorem State.setCore_nextSer (s : State) (c : Nat) (x : Core) : (s.setCore c x).nextSer = s.nextSer := rfl
@[simp] theorem State.setCore_heldDone (s : State) (c : Nat) (x : Core) : (s.setCore c x).heldDone = s.heldDone := rfl
@[simp] theorem State.setCore_groups (s : State) (c : Nat) (x : Core) : (s.setCore c x).groups = s.groups := rfl
@[simp] theorem State.setCore_links (s : State) (c : Nat) (x : Core) : (s.setCore c x).links = s.links := rfl
@[simp] theorem State.setCore_layers (s : State) (c : Nat) (x : Core) : (s.setCore c x).layers = s.layers := rfl
@[simp] theorem State.setCore_eps (s : State) (c : Nat) (x : Core) : (s.setCore c x).eps = s.eps := rfl
@[simp] theorem State.setCore_ports (s : State) (c : Nat) (x : Core) : (s.setCore c x).ports = s.ports := rfl
@[simp] theorem State.setCore_net (s : State) (c : Nat) (x : Core) : (s.setCore c x).net = s.net := rfl
@[simp] theorem State.setCore_out (s : State) (c : Nat) (x : Core) : (s.setCore c x).out = s.out := rfl
@[simp] theorem State.setCore_dev (s : State) (c : Nat) (x : Core) : (s.setCore c x).dev = s.dev := rfl

/-! ### setClu -/

@[simp] theorem State.setClu_iss (s : State) (c : Nat) (x : Cluster) : (s.setClu c x).iss = s.iss := rfl
@[simp] theorem State.setClu_agenda (s : State) (c : Nat) (x : Cluster) : (s.setClu c x).agenda = s.agenda := rfl
@[simp] theorem State.setClu_free (s : State) (c : Nat) (x : Cluster) : (s.setClu c x).free = s.free := rfl
@[simp] theorem State.setClu_births (s : State) (c : Nat) (x : Cluster) : (s.setClu c x).births = s.births := rfl
@[simp] theorem State.setClu_gangs (s : State) (c : Nat) (x : Cluster) : (s.setClu c x).gangs = s.gangs := rfl
@[simp] theorem State.setClu_moment (s : State) (c : Nat) (x : Cluster) : (s.setClu c x).moment = s.moment := rfl
@[simp] theorem State.setClu_cycle (s : State) (c : Nat) (x : Cluster) : (s.setClu c x).cycle = s.cycle := rfl
@[simp] theorem State.setClu_thr (s : State) (c : Nat) (x : Cluster) : (s.setClu c x).thr = s.thr := rfl
@[simp] theorem State.setClu_cores (s : State) (c : Nat) (x : Cluster) : (s.setClu c x).cores = s.cores := rfl
@[simp] theorem State.setClu_clus (s : State) (c : Nat) (x : Cluster) : (s.setClu c x).clus = tput s.clus c x := rfl
@[simp] theorem State.setClu_dies (s : State) (c : Nat) (x : Cluster) : (s.setClu c x).dies = s.dies := rfl
@[simp] theorem State.setClu_mem (s : State) (c : Nat) (x : Cluster) : (s.setClu c x).mem = s.mem := rfl
@[simp] theorem State.setClu_poison (s : State) (c : Nat) (x : Cluster) : (s.setClu c x).poison = s.poison := rfl
@[simp] theorem State.setClu_ctxs (s : State) (c : Nat) (x : Cluster) : (s.setClu c x).ctxs = s.ctxs := rfl
@[simp] theorem State.setClu_queues (s : State) (c : Nat) (x : Cluster) : (s.setClu c x).queues = s.queues := rfl
@[simp] theorem State.setClu_vfs (s : State) (c : Nat) (x : Cluster) : (s.setClu c x).vfs = s.vfs := rfl
@[simp] theorem State.setClu_tags (s : State) (c : Nat) (x : Cluster) : (s.setClu c x).tags = s.tags := rfl
@[simp] theorem State.setClu_kernels (s : State) (c : Nat) (x : Cluster) : (s.setClu c x).kernels = s.kernels := rfl
@[simp] theorem State.setClu_nextSer (s : State) (c : Nat) (x : Cluster) : (s.setClu c x).nextSer = s.nextSer := rfl
@[simp] theorem State.setClu_heldDone (s : State) (c : Nat) (x : Cluster) : (s.setClu c x).heldDone = s.heldDone := rfl
@[simp] theorem State.setClu_groups (s : State) (c : Nat) (x : Cluster) : (s.setClu c x).groups = s.groups := rfl
@[simp] theorem State.setClu_links (s : State) (c : Nat) (x : Cluster) : (s.setClu c x).links = s.links := rfl
@[simp] theorem State.setClu_layers (s : State) (c : Nat) (x : Cluster) : (s.setClu c x).layers = s.layers := rfl
@[simp] theorem State.setClu_eps (s : State) (c : Nat) (x : Cluster) : (s.setClu c x).eps = s.eps := rfl
@[simp] theorem State.setClu_ports (s : State) (c : Nat) (x : Cluster) : (s.setClu c x).ports = s.ports := rfl
@[simp] theorem State.setClu_net (s : State) (c : Nat) (x : Cluster) : (s.setClu c x).net = s.net := rfl
@[simp] theorem State.setClu_out (s : State) (c : Nat) (x : Cluster) : (s.setClu c x).out = s.out := rfl
@[simp] theorem State.setClu_dev (s : State) (c : Nat) (x : Cluster) : (s.setClu c x).dev = s.dev := rfl

/-! ### setDie -/

@[simp] theorem State.setDie_iss (s : State) (d : Nat) (x : Die) : (s.setDie d x).iss = s.iss := rfl
@[simp] theorem State.setDie_agenda (s : State) (d : Nat) (x : Die) : (s.setDie d x).agenda = s.agenda := rfl
@[simp] theorem State.setDie_free (s : State) (d : Nat) (x : Die) : (s.setDie d x).free = s.free := rfl
@[simp] theorem State.setDie_births (s : State) (d : Nat) (x : Die) : (s.setDie d x).births = s.births := rfl
@[simp] theorem State.setDie_gangs (s : State) (d : Nat) (x : Die) : (s.setDie d x).gangs = s.gangs := rfl
@[simp] theorem State.setDie_moment (s : State) (d : Nat) (x : Die) : (s.setDie d x).moment = s.moment := rfl
@[simp] theorem State.setDie_cycle (s : State) (d : Nat) (x : Die) : (s.setDie d x).cycle = s.cycle := rfl
@[simp] theorem State.setDie_thr (s : State) (d : Nat) (x : Die) : (s.setDie d x).thr = s.thr := rfl
@[simp] theorem State.setDie_cores (s : State) (d : Nat) (x : Die) : (s.setDie d x).cores = s.cores := rfl
@[simp] theorem State.setDie_clus (s : State) (d : Nat) (x : Die) : (s.setDie d x).clus = s.clus := rfl
@[simp] theorem State.setDie_dies (s : State) (d : Nat) (x : Die) : (s.setDie d x).dies = tput s.dies d x := rfl
@[simp] theorem State.setDie_mem (s : State) (d : Nat) (x : Die) : (s.setDie d x).mem = s.mem := rfl
@[simp] theorem State.setDie_poison (s : State) (d : Nat) (x : Die) : (s.setDie d x).poison = s.poison := rfl
@[simp] theorem State.setDie_ctxs (s : State) (d : Nat) (x : Die) : (s.setDie d x).ctxs = s.ctxs := rfl
@[simp] theorem State.setDie_queues (s : State) (d : Nat) (x : Die) : (s.setDie d x).queues = s.queues := rfl
@[simp] theorem State.setDie_vfs (s : State) (d : Nat) (x : Die) : (s.setDie d x).vfs = s.vfs := rfl
@[simp] theorem State.setDie_tags (s : State) (d : Nat) (x : Die) : (s.setDie d x).tags = s.tags := rfl
@[simp] theorem State.setDie_kernels (s : State) (d : Nat) (x : Die) : (s.setDie d x).kernels = s.kernels := rfl
@[simp] theorem State.setDie_nextSer (s : State) (d : Nat) (x : Die) : (s.setDie d x).nextSer = s.nextSer := rfl
@[simp] theorem State.setDie_heldDone (s : State) (d : Nat) (x : Die) : (s.setDie d x).heldDone = s.heldDone := rfl
@[simp] theorem State.setDie_groups (s : State) (d : Nat) (x : Die) : (s.setDie d x).groups = s.groups := rfl
@[simp] theorem State.setDie_links (s : State) (d : Nat) (x : Die) : (s.setDie d x).links = s.links := rfl
@[simp] theorem State.setDie_layers (s : State) (d : Nat) (x : Die) : (s.setDie d x).layers = s.layers := rfl
@[simp] theorem State.setDie_eps (s : State) (d : Nat) (x : Die) : (s.setDie d x).eps = s.eps := rfl
@[simp] theorem State.setDie_ports (s : State) (d : Nat) (x : Die) : (s.setDie d x).ports = s.ports := rfl
@[simp] theorem State.setDie_net (s : State) (d : Nat) (x : Die) : (s.setDie d x).net = s.net := rfl
@[simp] theorem State.setDie_out (s : State) (d : Nat) (x : Die) : (s.setDie d x).out = s.out := rfl
@[simp] theorem State.setDie_dev (s : State) (d : Nat) (x : Die) : (s.setDie d x).dev = s.dev := rfl

/-! ### setKernel -/

@[simp] theorem State.setKernel_iss (s : State) (k : Nat) (x : Kernel) : (s.setKernel k x).iss = s.iss := rfl
@[simp] theorem State.setKernel_agenda (s : State) (k : Nat) (x : Kernel) : (s.setKernel k x).agenda = s.agenda := rfl
@[simp] theorem State.setKernel_free (s : State) (k : Nat) (x : Kernel) : (s.setKernel k x).free = s.free := rfl
@[simp] theorem State.setKernel_births (s : State) (k : Nat) (x : Kernel) : (s.setKernel k x).births = s.births := rfl
@[simp] theorem State.setKernel_gangs (s : State) (k : Nat) (x : Kernel) : (s.setKernel k x).gangs = s.gangs := rfl
@[simp] theorem State.setKernel_moment (s : State) (k : Nat) (x : Kernel) : (s.setKernel k x).moment = s.moment := rfl
@[simp] theorem State.setKernel_cycle (s : State) (k : Nat) (x : Kernel) : (s.setKernel k x).cycle = s.cycle := rfl
@[simp] theorem State.setKernel_thr (s : State) (k : Nat) (x : Kernel) : (s.setKernel k x).thr = s.thr := rfl
@[simp] theorem State.setKernel_cores (s : State) (k : Nat) (x : Kernel) : (s.setKernel k x).cores = s.cores := rfl
@[simp] theorem State.setKernel_clus (s : State) (k : Nat) (x : Kernel) : (s.setKernel k x).clus = s.clus := rfl
@[simp] theorem State.setKernel_dies (s : State) (k : Nat) (x : Kernel) : (s.setKernel k x).dies = s.dies := rfl
@[simp] theorem State.setKernel_mem (s : State) (k : Nat) (x : Kernel) : (s.setKernel k x).mem = s.mem := rfl
@[simp] theorem State.setKernel_poison (s : State) (k : Nat) (x : Kernel) : (s.setKernel k x).poison = s.poison := rfl
@[simp] theorem State.setKernel_ctxs (s : State) (k : Nat) (x : Kernel) : (s.setKernel k x).ctxs = s.ctxs := rfl
@[simp] theorem State.setKernel_queues (s : State) (k : Nat) (x : Kernel) : (s.setKernel k x).queues = s.queues := rfl
@[simp] theorem State.setKernel_vfs (s : State) (k : Nat) (x : Kernel) : (s.setKernel k x).vfs = s.vfs := rfl
@[simp] theorem State.setKernel_tags (s : State) (k : Nat) (x : Kernel) : (s.setKernel k x).tags = s.tags := rfl
@[simp] theorem State.setKernel_kernels (s : State) (k : Nat) (x : Kernel) : (s.setKernel k x).kernels = tput s.kernels k x := rfl
@[simp] theorem State.setKernel_nextSer (s : State) (k : Nat) (x : Kernel) : (s.setKernel k x).nextSer = s.nextSer := rfl
@[simp] theorem State.setKernel_heldDone (s : State) (k : Nat) (x : Kernel) : (s.setKernel k x).heldDone = s.heldDone := rfl
@[simp] theorem State.setKernel_groups (s : State) (k : Nat) (x : Kernel) : (s.setKernel k x).groups = s.groups := rfl
@[simp] theorem State.setKernel_links (s : State) (k : Nat) (x : Kernel) : (s.setKernel k x).links = s.links := rfl
@[simp] theorem State.setKernel_layers (s : State) (k : Nat) (x : Kernel) : (s.setKernel k x).layers = s.layers := rfl
@[simp] theorem State.setKernel_eps (s : State) (k : Nat) (x : Kernel) : (s.setKernel k x).eps = s.eps := rfl
@[simp] theorem State.setKernel_ports (s : State) (k : Nat) (x : Kernel) : (s.setKernel k x).ports = s.ports := rfl
@[simp] theorem State.setKernel_net (s : State) (k : Nat) (x : Kernel) : (s.setKernel k x).net = s.net := rfl
@[simp] theorem State.setKernel_out (s : State) (k : Nat) (x : Kernel) : (s.setKernel k x).out = s.out := rfl
@[simp] theorem State.setKernel_dev (s : State) (k : Nat) (x : Kernel) : (s.setKernel k x).dev = s.dev := rfl

/-! ### setGroup -/

@[simp] theorem State.setGroup_iss (s : State) (k g : Nat) (x : Group) : (s.setGroup k g x).iss = s.iss := rfl
@[simp] theorem State.setGroup_agenda (s : State) (k g : Nat) (x : Group) : (s.setGroup k g x).agenda = s.agenda := rfl
@[simp] theorem State.setGroup_free (s : State) (k g : Nat) (x : Group) : (s.setGroup k g x).free = s.free := rfl
@[simp] theorem State.setGroup_births (s : State) (k g : Nat) (x : Group) : (s.setGroup k g x).births = s.births := rfl
@[simp] theorem State.setGroup_gangs (s : State) (k g : Nat) (x : Group) : (s.setGroup k g x).gangs = s.gangs := rfl
@[simp] theorem State.setGroup_moment (s : State) (k g : Nat) (x : Group) : (s.setGroup k g x).moment = s.moment := rfl
@[simp] theorem State.setGroup_cycle (s : State) (k g : Nat) (x : Group) : (s.setGroup k g x).cycle = s.cycle := rfl
@[simp] theorem State.setGroup_thr (s : State) (k g : Nat) (x : Group) : (s.setGroup k g x).thr = s.thr := rfl
@[simp] theorem State.setGroup_cores (s : State) (k g : Nat) (x : Group) : (s.setGroup k g x).cores = s.cores := rfl
@[simp] theorem State.setGroup_clus (s : State) (k g : Nat) (x : Group) : (s.setGroup k g x).clus = s.clus := rfl
@[simp] theorem State.setGroup_dies (s : State) (k g : Nat) (x : Group) : (s.setGroup k g x).dies = s.dies := rfl
@[simp] theorem State.setGroup_mem (s : State) (k g : Nat) (x : Group) : (s.setGroup k g x).mem = s.mem := rfl
@[simp] theorem State.setGroup_poison (s : State) (k g : Nat) (x : Group) : (s.setGroup k g x).poison = s.poison := rfl
@[simp] theorem State.setGroup_ctxs (s : State) (k g : Nat) (x : Group) : (s.setGroup k g x).ctxs = s.ctxs := rfl
@[simp] theorem State.setGroup_queues (s : State) (k g : Nat) (x : Group) : (s.setGroup k g x).queues = s.queues := rfl
@[simp] theorem State.setGroup_vfs (s : State) (k g : Nat) (x : Group) : (s.setGroup k g x).vfs = s.vfs := rfl
@[simp] theorem State.setGroup_tags (s : State) (k g : Nat) (x : Group) : (s.setGroup k g x).tags = s.tags := rfl
@[simp] theorem State.setGroup_kernels (s : State) (k g : Nat) (x : Group) : (s.setGroup k g x).kernels = s.kernels := rfl
@[simp] theorem State.setGroup_nextSer (s : State) (k g : Nat) (x : Group) : (s.setGroup k g x).nextSer = s.nextSer := rfl
@[simp] theorem State.setGroup_heldDone (s : State) (k g : Nat) (x : Group) : (s.setGroup k g x).heldDone = s.heldDone := rfl
@[simp] theorem State.setGroup_groups (s : State) (k g : Nat) (x : Group) : (s.setGroup k g x).groups = tput s.groups (groupKey k g) x := rfl
@[simp] theorem State.setGroup_links (s : State) (k g : Nat) (x : Group) : (s.setGroup k g x).links = s.links := rfl
@[simp] theorem State.setGroup_layers (s : State) (k g : Nat) (x : Group) : (s.setGroup k g x).layers = s.layers := rfl
@[simp] theorem State.setGroup_eps (s : State) (k g : Nat) (x : Group) : (s.setGroup k g x).eps = s.eps := rfl
@[simp] theorem State.setGroup_ports (s : State) (k g : Nat) (x : Group) : (s.setGroup k g x).ports = s.ports := rfl
@[simp] theorem State.setGroup_net (s : State) (k g : Nat) (x : Group) : (s.setGroup k g x).net = s.net := rfl
@[simp] theorem State.setGroup_out (s : State) (k g : Nat) (x : Group) : (s.setGroup k g x).out = s.out := rfl
@[simp] theorem State.setGroup_dev (s : State) (k g : Nat) (x : Group) : (s.setGroup k g x).dev = s.dev := rfl

/-! ### dropGroup -/

@[simp] theorem State.dropGroup_iss (s : State) (k g : Nat) : (s.dropGroup k g).iss = s.iss := rfl
@[simp] theorem State.dropGroup_agenda (s : State) (k g : Nat) : (s.dropGroup k g).agenda = s.agenda := rfl
@[simp] theorem State.dropGroup_free (s : State) (k g : Nat) : (s.dropGroup k g).free = s.free := rfl
@[simp] theorem State.dropGroup_births (s : State) (k g : Nat) : (s.dropGroup k g).births = s.births := rfl
@[simp] theorem State.dropGroup_gangs (s : State) (k g : Nat) : (s.dropGroup k g).gangs = s.gangs := rfl
@[simp] theorem State.dropGroup_moment (s : State) (k g : Nat) : (s.dropGroup k g).moment = s.moment := rfl
@[simp] theorem State.dropGroup_cycle (s : State) (k g : Nat) : (s.dropGroup k g).cycle = s.cycle := rfl
@[simp] theorem State.dropGroup_thr (s : State) (k g : Nat) : (s.dropGroup k g).thr = s.thr := rfl
@[simp] theorem State.dropGroup_cores (s : State) (k g : Nat) : (s.dropGroup k g).cores = s.cores := rfl
@[simp] theorem State.dropGroup_clus (s : State) (k g : Nat) : (s.dropGroup k g).clus = s.clus := rfl
@[simp] theorem State.dropGroup_dies (s : State) (k g : Nat) : (s.dropGroup k g).dies = s.dies := rfl
@[simp] theorem State.dropGroup_mem (s : State) (k g : Nat) : (s.dropGroup k g).mem = s.mem := rfl
@[simp] theorem State.dropGroup_poison (s : State) (k g : Nat) : (s.dropGroup k g).poison = s.poison := rfl
@[simp] theorem State.dropGroup_ctxs (s : State) (k g : Nat) : (s.dropGroup k g).ctxs = s.ctxs := rfl
@[simp] theorem State.dropGroup_queues (s : State) (k g : Nat) : (s.dropGroup k g).queues = s.queues := rfl
@[simp] theorem State.dropGroup_vfs (s : State) (k g : Nat) : (s.dropGroup k g).vfs = s.vfs := rfl
@[simp] theorem State.dropGroup_tags (s : State) (k g : Nat) : (s.dropGroup k g).tags = s.tags := rfl
@[simp] theorem State.dropGroup_kernels (s : State) (k g : Nat) : (s.dropGroup k g).kernels = s.kernels := rfl
@[simp] theorem State.dropGroup_nextSer (s : State) (k g : Nat) : (s.dropGroup k g).nextSer = s.nextSer := rfl
@[simp] theorem State.dropGroup_heldDone (s : State) (k g : Nat) : (s.dropGroup k g).heldDone = s.heldDone := rfl
@[simp] theorem State.dropGroup_groups (s : State) (k g : Nat) : (s.dropGroup k g).groups = terase s.groups (groupKey k g) := rfl
@[simp] theorem State.dropGroup_links (s : State) (k g : Nat) : (s.dropGroup k g).links = s.links := rfl
@[simp] theorem State.dropGroup_layers (s : State) (k g : Nat) : (s.dropGroup k g).layers = s.layers := rfl
@[simp] theorem State.dropGroup_eps (s : State) (k g : Nat) : (s.dropGroup k g).eps = s.eps := rfl
@[simp] theorem State.dropGroup_ports (s : State) (k g : Nat) : (s.dropGroup k g).ports = s.ports := rfl
@[simp] theorem State.dropGroup_net (s : State) (k g : Nat) : (s.dropGroup k g).net = s.net := rfl
@[simp] theorem State.dropGroup_out (s : State) (k g : Nat) : (s.dropGroup k g).out = s.out := rfl
@[simp] theorem State.dropGroup_dev (s : State) (k g : Nat) : (s.dropGroup k g).dev = s.dev := rfl

/-! ### setLayer -/

@[simp] theorem State.setLayer_iss (s : State) (l : Nat) (x : Layer) : (s.setLayer l x).iss = s.iss := rfl
@[simp] theorem State.setLayer_agenda (s : State) (l : Nat) (x : Layer) : (s.setLayer l x).agenda = s.agenda := rfl
@[simp] theorem State.setLayer_free (s : State) (l : Nat) (x : Layer) : (s.setLayer l x).free = s.free := rfl
@[simp] theorem State.setLayer_births (s : State) (l : Nat) (x : Layer) : (s.setLayer l x).births = s.births := rfl
@[simp] theorem State.setLayer_gangs (s : State) (l : Nat) (x : Layer) : (s.setLayer l x).gangs = s.gangs := rfl
@[simp] theorem State.setLayer_moment (s : State) (l : Nat) (x : Layer) : (s.setLayer l x).moment = s.moment := rfl
@[simp] theorem State.setLayer_cycle (s : State) (l : Nat) (x : Layer) : (s.setLayer l x).cycle = s.cycle := rfl
@[simp] theorem State.setLayer_thr (s : State) (l : Nat) (x : Layer) : (s.setLayer l x).thr = s.thr := rfl
@[simp] theorem State.setLayer_cores (s : State) (l : Nat) (x : Layer) : (s.setLayer l x).cores = s.cores := rfl
@[simp] theorem State.setLayer_clus (s : State) (l : Nat) (x : Layer) : (s.setLayer l x).clus = s.clus := rfl
@[simp] theorem State.setLayer_dies (s : State) (l : Nat) (x : Layer) : (s.setLayer l x).dies = s.dies := rfl
@[simp] theorem State.setLayer_mem (s : State) (l : Nat) (x : Layer) : (s.setLayer l x).mem = s.mem := rfl
@[simp] theorem State.setLayer_poison (s : State) (l : Nat) (x : Layer) : (s.setLayer l x).poison = s.poison := rfl
@[simp] theorem State.setLayer_ctxs (s : State) (l : Nat) (x : Layer) : (s.setLayer l x).ctxs = s.ctxs := rfl
@[simp] theorem State.setLayer_queues (s : State) (l : Nat) (x : Layer) : (s.setLayer l x).queues = s.queues := rfl
@[simp] theorem State.setLayer_vfs (s : State) (l : Nat) (x : Layer) : (s.setLayer l x).vfs = s.vfs := rfl
@[simp] theorem State.setLayer_tags (s : State) (l : Nat) (x : Layer) : (s.setLayer l x).tags = s.tags := rfl
@[simp] theorem State.setLayer_kernels (s : State) (l : Nat) (x : Layer) : (s.setLayer l x).kernels = s.kernels := rfl
@[simp] theorem State.setLayer_nextSer (s : State) (l : Nat) (x : Layer) : (s.setLayer l x).nextSer = s.nextSer := rfl
@[simp] theorem State.setLayer_heldDone (s : State) (l : Nat) (x : Layer) : (s.setLayer l x).heldDone = s.heldDone := rfl
@[simp] theorem State.setLayer_groups (s : State) (l : Nat) (x : Layer) : (s.setLayer l x).groups = s.groups := rfl
@[simp] theorem State.setLayer_links (s : State) (l : Nat) (x : Layer) : (s.setLayer l x).links = s.links := rfl
@[simp] theorem State.setLayer_layers (s : State) (l : Nat) (x : Layer) : (s.setLayer l x).layers = tput s.layers l x := rfl
@[simp] theorem State.setLayer_eps (s : State) (l : Nat) (x : Layer) : (s.setLayer l x).eps = s.eps := rfl
@[simp] theorem State.setLayer_ports (s : State) (l : Nat) (x : Layer) : (s.setLayer l x).ports = s.ports := rfl
@[simp] theorem State.setLayer_net (s : State) (l : Nat) (x : Layer) : (s.setLayer l x).net = s.net := rfl
@[simp] theorem State.setLayer_out (s : State) (l : Nat) (x : Layer) : (s.setLayer l x).out = s.out := rfl
@[simp] theorem State.setLayer_dev (s : State) (l : Nat) (x : Layer) : (s.setLayer l x).dev = s.dev := rfl

/-! ### Reading what was set -/

@[simp] theorem State.thread_setThread_same (s : State) (t : Nat) (x : Thread) : (s.setThread t x).thread t = x := by
  simp [State.thread]
theorem State.thread_setThread_other (s : State) {t u : Nat} (x : Thread) (h : u ≠ t) : (s.setThread t x).thread u = s.thread u :=
  tget_tput_other _ _ _ h
@[simp] theorem State.core_setCore_same (s : State) (c : Nat) (x : Core) : (s.setCore c x).core c = x := by
  simp [State.core]
theorem State.core_setCore_other (s : State) {c d : Nat} (x : Core) (h : d ≠ c) : (s.setCore c x).core d = s.core d :=
  tget_tput_other _ _ _ h
@[simp] theorem State.clu_setClu_same (s : State) (c : Nat) (x : Cluster) : (s.setClu c x).clu c = x := by
  simp [State.clu]
theorem State.clu_setClu_other (s : State) {c d : Nat} (x : Cluster) (h : d ≠ c) : (s.setClu c x).clu d = s.clu d :=
  tget_tput_other _ _ _ h
@[simp] theorem State.die_setDie_same (s : State) (d : Nat) (x : Die) : (s.setDie d x).die d = x := by
  simp [State.die]
theorem State.die_setDie_other (s : State) {c d : Nat} (x : Die) (h : d ≠ c) : (s.setDie c x).die d = s.die d :=
  tget_tput_other _ _ _ h
@[simp] theorem State.kernel_setKernel_same (s : State) (k : Nat) (x : Kernel) : (s.setKernel k x).kernel k = x := by
  simp [State.kernel]
theorem State.kernel_setKernel_other (s : State) {k j : Nat} (x : Kernel) (h : j ≠ k) :
    (s.setKernel k x).kernel j = s.kernel j := tget_tput_other _ _ _ h
@[simp] theorem State.group?_setGroup_same (s : State) (k g : Nat) (x : Group) : (s.setGroup k g x).group? k g = some x := by
  simp [State.group?]
@[simp] theorem State.layer_setLayer_same (s : State) (l : Nat) (x : Layer) : (s.setLayer l x).layer l = x := by
  simp [State.layer]
@[simp] theorem State.setThread_cur (s : State) (x : Thread) : (s.setCur x).cur = x := by
  simp [State.setCur, State.cur]

@[simp] theorem State.core_setThread (s : State) (t : Nat) (x : Thread) (j : Nat) : (s.setThread t x).core j = s.core j := rfl
@[simp] theorem State.clu_setThread (s : State) (t : Nat) (x : Thread) (j : Nat) : (s.setThread t x).clu j = s.clu j := rfl
@[simp] theorem State.die_setThread (s : State) (t : Nat) (x : Thread) (j : Nat) : (s.setThread t x).die j = s.die j := rfl
@[simp] theorem State.ctx_setThread (s : State) (t : Nat) (x : Thread) (j : Nat) : (s.setThread t x).ctx j = s.ctx j := rfl
@[simp] theorem State.queue_setThread (s : State) (t : Nat) (x : Thread) (j : Nat) : (s.setThread t x).queue j = s.queue j := rfl
@[simp] theorem State.vf_setThread (s : State) (t : Nat) (x : Thread) (j : Nat) : (s.setThread t x).vf j = s.vf j := rfl
@[simp] theorem State.kernel_setThread (s : State) (t : Nat) (x : Thread) (j : Nat) : (s.setThread t x).kernel j = s.kernel j := rfl
@[simp] theorem State.layer_setThread (s : State) (t : Nat) (x : Thread) (j : Nat) : (s.setThread t x).layer j = s.layer j := rfl
@[simp] theorem State.thread_setCore (s : State) (c : Nat) (x : Core) (j : Nat) : (s.setCore c x).thread j = s.thread j := rfl
@[simp] theorem State.clu_setCore (s : State) (c : Nat) (x : Core) (j : Nat) : (s.setCore c x).clu j = s.clu j := rfl
@[simp] theorem State.die_setCore (s : State) (c : Nat) (x : Core) (j : Nat) : (s.setCore c x).die j = s.die j := rfl
@[simp] theorem State.ctx_setCore (s : State) (c : Nat) (x : Core) (j : Nat) : (s.setCore c x).ctx j = s.ctx j := rfl
@[simp] theorem State.queue_setCore (s : State) (c : Nat) (x : Core) (j : Nat) : (s.setCore c x).queue j = s.queue j := rfl
@[simp] theorem State.vf_setCore (s : State) (c : Nat) (x : Core) (j : Nat) : (s.setCore c x).vf j = s.vf j := rfl
@[simp] theorem State.kernel_setCore (s : State) (c : Nat) (x : Core) (j : Nat) : (s.setCore c x).kernel j = s.kernel j := rfl
@[simp] theorem State.layer_setCore (s : State) (c : Nat) (x : Core) (j : Nat) : (s.setCore c x).layer j = s.layer j := rfl
@[simp] theorem State.thread_setClu (s : State) (c : Nat) (x : Cluster) (j : Nat) : (s.setClu c x).thread j = s.thread j := rfl
@[simp] theorem State.core_setClu (s : State) (c : Nat) (x : Cluster) (j : Nat) : (s.setClu c x).core j = s.core j := rfl
@[simp] theorem State.die_setClu (s : State) (c : Nat) (x : Cluster) (j : Nat) : (s.setClu c x).die j = s.die j := rfl
@[simp] theorem State.ctx_setClu (s : State) (c : Nat) (x : Cluster) (j : Nat) : (s.setClu c x).ctx j = s.ctx j := rfl
@[simp] theorem State.queue_setClu (s : State) (c : Nat) (x : Cluster) (j : Nat) : (s.setClu c x).queue j = s.queue j := rfl
@[simp] theorem State.vf_setClu (s : State) (c : Nat) (x : Cluster) (j : Nat) : (s.setClu c x).vf j = s.vf j := rfl
@[simp] theorem State.kernel_setClu (s : State) (c : Nat) (x : Cluster) (j : Nat) : (s.setClu c x).kernel j = s.kernel j := rfl
@[simp] theorem State.layer_setClu (s : State) (c : Nat) (x : Cluster) (j : Nat) : (s.setClu c x).layer j = s.layer j := rfl
@[simp] theorem State.thread_setDie (s : State) (d : Nat) (x : Die) (j : Nat) : (s.setDie d x).thread j = s.thread j := rfl
@[simp] theorem State.core_setDie (s : State) (d : Nat) (x : Die) (j : Nat) : (s.setDie d x).core j = s.core j := rfl
@[simp] theorem State.clu_setDie (s : State) (d : Nat) (x : Die) (j : Nat) : (s.setDie d x).clu j = s.clu j := rfl
@[simp] theorem State.ctx_setDie (s : State) (d : Nat) (x : Die) (j : Nat) : (s.setDie d x).ctx j = s.ctx j := rfl
@[simp] theorem State.queue_setDie (s : State) (d : Nat) (x : Die) (j : Nat) : (s.setDie d x).queue j = s.queue j := rfl
@[simp] theorem State.vf_setDie (s : State) (d : Nat) (x : Die) (j : Nat) : (s.setDie d x).vf j = s.vf j := rfl
@[simp] theorem State.kernel_setDie (s : State) (d : Nat) (x : Die) (j : Nat) : (s.setDie d x).kernel j = s.kernel j := rfl
@[simp] theorem State.layer_setDie (s : State) (d : Nat) (x : Die) (j : Nat) : (s.setDie d x).layer j = s.layer j := rfl
@[simp] theorem State.thread_setKernel (s : State) (k : Nat) (x : Kernel) (j : Nat) : (s.setKernel k x).thread j = s.thread j := rfl
@[simp] theorem State.core_setKernel (s : State) (k : Nat) (x : Kernel) (j : Nat) : (s.setKernel k x).core j = s.core j := rfl
@[simp] theorem State.clu_setKernel (s : State) (k : Nat) (x : Kernel) (j : Nat) : (s.setKernel k x).clu j = s.clu j := rfl
@[simp] theorem State.die_setKernel (s : State) (k : Nat) (x : Kernel) (j : Nat) : (s.setKernel k x).die j = s.die j := rfl
@[simp] theorem State.ctx_setKernel (s : State) (k : Nat) (x : Kernel) (j : Nat) : (s.setKernel k x).ctx j = s.ctx j := rfl
@[simp] theorem State.queue_setKernel (s : State) (k : Nat) (x : Kernel) (j : Nat) : (s.setKernel k x).queue j = s.queue j := rfl
@[simp] theorem State.vf_setKernel (s : State) (k : Nat) (x : Kernel) (j : Nat) : (s.setKernel k x).vf j = s.vf j := rfl
@[simp] theorem State.layer_setKernel (s : State) (k : Nat) (x : Kernel) (j : Nat) : (s.setKernel k x).layer j = s.layer j := rfl
@[simp] theorem State.thread_setGroup (s : State) (k g : Nat) (x : Group) (j : Nat) : (s.setGroup k g x).thread j = s.thread j := rfl
@[simp] theorem State.core_setGroup (s : State) (k g : Nat) (x : Group) (j : Nat) : (s.setGroup k g x).core j = s.core j := rfl
@[simp] theorem State.clu_setGroup (s : State) (k g : Nat) (x : Group) (j : Nat) : (s.setGroup k g x).clu j = s.clu j := rfl
@[simp] theorem State.die_setGroup (s : State) (k g : Nat) (x : Group) (j : Nat) : (s.setGroup k g x).die j = s.die j := rfl
@[simp] theorem State.ctx_setGroup (s : State) (k g : Nat) (x : Group) (j : Nat) : (s.setGroup k g x).ctx j = s.ctx j := rfl
@[simp] theorem State.queue_setGroup (s : State) (k g : Nat) (x : Group) (j : Nat) : (s.setGroup k g x).queue j = s.queue j := rfl
@[simp] theorem State.vf_setGroup (s : State) (k g : Nat) (x : Group) (j : Nat) : (s.setGroup k g x).vf j = s.vf j := rfl
@[simp] theorem State.kernel_setGroup (s : State) (k g : Nat) (x : Group) (j : Nat) : (s.setGroup k g x).kernel j = s.kernel j := rfl
@[simp] theorem State.layer_setGroup (s : State) (k g : Nat) (x : Group) (j : Nat) : (s.setGroup k g x).layer j = s.layer j := rfl
@[simp] theorem State.thread_dropGroup (s : State) (k g : Nat) (j : Nat) : (s.dropGroup k g).thread j = s.thread j := rfl
@[simp] theorem State.core_dropGroup (s : State) (k g : Nat) (j : Nat) : (s.dropGroup k g).core j = s.core j := rfl
@[simp] theorem State.clu_dropGroup (s : State) (k g : Nat) (j : Nat) : (s.dropGroup k g).clu j = s.clu j := rfl
@[simp] theorem State.die_dropGroup (s : State) (k g : Nat) (j : Nat) : (s.dropGroup k g).die j = s.die j := rfl
@[simp] theorem State.ctx_dropGroup (s : State) (k g : Nat) (j : Nat) : (s.dropGroup k g).ctx j = s.ctx j := rfl
@[simp] theorem State.queue_dropGroup (s : State) (k g : Nat) (j : Nat) : (s.dropGroup k g).queue j = s.queue j := rfl
@[simp] theorem State.vf_dropGroup (s : State) (k g : Nat) (j : Nat) : (s.dropGroup k g).vf j = s.vf j := rfl
@[simp] theorem State.kernel_dropGroup (s : State) (k g : Nat) (j : Nat) : (s.dropGroup k g).kernel j = s.kernel j := rfl
@[simp] theorem State.layer_dropGroup (s : State) (k g : Nat) (j : Nat) : (s.dropGroup k g).layer j = s.layer j := rfl
@[simp] theorem State.thread_setLayer (s : State) (l : Nat) (x : Layer) (j : Nat) : (s.setLayer l x).thread j = s.thread j := rfl
@[simp] theorem State.core_setLayer (s : State) (l : Nat) (x : Layer) (j : Nat) : (s.setLayer l x).core j = s.core j := rfl
@[simp] theorem State.clu_setLayer (s : State) (l : Nat) (x : Layer) (j : Nat) : (s.setLayer l x).clu j = s.clu j := rfl
@[simp] theorem State.die_setLayer (s : State) (l : Nat) (x : Layer) (j : Nat) : (s.setLayer l x).die j = s.die j := rfl
@[simp] theorem State.ctx_setLayer (s : State) (l : Nat) (x : Layer) (j : Nat) : (s.setLayer l x).ctx j = s.ctx j := rfl
@[simp] theorem State.queue_setLayer (s : State) (l : Nat) (x : Layer) (j : Nat) : (s.setLayer l x).queue j = s.queue j := rfl
@[simp] theorem State.vf_setLayer (s : State) (l : Nat) (x : Layer) (j : Nat) : (s.setLayer l x).vf j = s.vf j := rfl
@[simp] theorem State.kernel_setLayer (s : State) (l : Nat) (x : Layer) (j : Nat) : (s.setLayer l x).kernel j = s.kernel j := rfl

/-! ### Registers of a thread -/

@[simp] theorem Thread.readS_zero (th : Thread) : th.readS 0 = 0 := rfl
@[simp] theorem Thread.readM_zero (th : Thread) : th.readM 0 = BitVec.allOnes 64 := rfl
@[simp] theorem Thread.writeS_zero (th : Thread) (v : W64) : th.writeS 0 v = th := rfl
@[simp] theorem Thread.writeM_zero (th : Thread) (v : W64) : th.writeM 0 v = th := rfl
theorem Thread.writeS_eq (th : Thread) (r : SReg) (v : W64) (h : r ≠ 0#5) (h' : r.toNat < 30) :
    th.writeS r v = { th with s := tset 0 th.s r.toNat v } := by
  unfold Thread.writeS
  exact if_neg (by simp only [not_or, not_le]; exact ⟨h, h'⟩)
theorem Thread.writeM_eq (th : Thread) (r : MReg) (v : W64) (h : r ≠ 0#3) :
    th.writeM r v = { th with m := tset 0 th.m r.toNat v } := by
  unfold Thread.writeM
  exact if_neg h
theorem Thread.readS_writeS_same (th : Thread) (r : SReg) (v : W64) (h : r ≠ 0#5) (h' : r.toNat < 30) :
    (th.writeS r v).readS r = v := by
  rw [Thread.writeS_eq th r v h h', Thread.readS, if_neg h, tget_tset_same]
theorem Thread.readS_writeS_other (th : Thread) (r q : SReg) (v : W64) (h : q ≠ r) : (th.writeS r v).readS q = th.readS q := by
  unfold Thread.writeS; split
  · rfl
  · simp only [Thread.readS]
    rw [tget_tset_other 0 th.s v (fun e => h (BitVec.eq_of_toNat_eq e))]
@[simp] theorem Thread.readA_writeA_same (th : Thread) (r : AReg) (v : VAddr) : (th.writeA r v).readA r = v := by
  simp [Thread.readA, Thread.writeA]
theorem Thread.readA_writeA_other (th : Thread) (r q : AReg) (v : VAddr) (h : q ≠ r) : (th.writeA r v).readA q = th.readA q :=
  tget_tset_other _ _ _ fun e => h (BitVec.eq_of_toNat_eq e)
@[simp] theorem Thread.readV_writeV_same (th : Thread) (r : VReg) (v : V512) : (th.writeV r v).readV r = v := by
  simp [Thread.readV, Thread.writeV]
theorem Thread.readV_writeV_other (th : Thread) (r q : VReg) (v : V512) (h : q ≠ r) : (th.writeV r v).readV q = th.readV q :=
  tget_tset_other _ _ _ fun e => h (BitVec.eq_of_toNat_eq e)
theorem Thread.readM_writeM_same (th : Thread) (r : MReg) (v : W64) (h : r ≠ 0#3) : (th.writeM r v).readM r = v := by
  rw [Thread.writeM_eq th r v h, Thread.readM, if_neg h, tget_tset_same]
theorem Thread.readM_writeM_other (th : Thread) (r q : MReg) (v : W64) (h : q ≠ r) : (th.writeM r v).readM q = th.readM q := by
  unfold Thread.writeM; split
  · rfl
  · simp only [Thread.readM]
    rw [tget_tset_other 0 th.m v (fun e => h (BitVec.eq_of_toNat_eq e))]

@[simp] theorem Thread.writeS_st (th : Thread) (r : SReg) (v : W64) : (th.writeS r v).st = th.st := by
  unfold Thread.writeS; split <;> rfl
@[simp] theorem Thread.writeS_pc (th : Thread) (r : SReg) (v : W64) : (th.writeS r v).pc = th.pc := by
  unfold Thread.writeS; split <;> rfl
@[simp] theorem Thread.writeS_past (th : Thread) (r : SReg) (v : W64) : (th.writeS r v).past = th.past := by
  unfold Thread.writeS; split <;> rfl
@[simp] theorem Thread.writeS_a (th : Thread) (r : SReg) (v : W64) : (th.writeS r v).a = th.a := by
  unfold Thread.writeS; split <;> rfl
@[simp] theorem Thread.writeS_v (th : Thread) (r : SReg) (v : W64) : (th.writeS r v).v = th.v := by
  unfold Thread.writeS; split <;> rfl
@[simp] theorem Thread.writeS_m (th : Thread) (r : SReg) (v : W64) : (th.writeS r v).m = th.m := by
  unfold Thread.writeS; split <;> rfl
@[simp] theorem Thread.writeS_tstate (th : Thread) (r : SReg) (v : W64) : (th.writeS r v).tstate = th.tstate := by
  unfold Thread.writeS; split <;> rfl
@[simp] theorem Thread.writeS_bank1 (th : Thread) (r : SReg) (v : W64) : (th.writeS r v).bank1 = th.bank1 := by
  unfold Thread.writeS; split <;> rfl
@[simp] theorem Thread.writeS_bank2 (th : Thread) (r : SReg) (v : W64) : (th.writeS r v).bank2 = th.bank2 := by
  unfold Thread.writeS; split <;> rfl
@[simp] theorem Thread.writeS_tscratch (th : Thread) (r : SReg) (v : W64) : (th.writeS r v).tscratch = th.tscratch := by
  unfold Thread.writeS; split <;> rfl
@[simp] theorem Thread.writeS_fsel (th : Thread) (r : SReg) (v : W64) : (th.writeS r v).fsel = th.fsel := by
  unfold Thread.writeS; split <;> rfl
@[simp] theorem Thread.writeS_fflags (th : Thread) (r : SReg) (v : W64) : (th.writeS r v).fflags = th.fflags := by
  unfold Thread.writeS; split <;> rfl
@[simp] theorem Thread.writeS_issued (th : Thread) (r : SReg) (v : W64) : (th.writeS r v).issued = th.issued := by
  unfold Thread.writeS; split <;> rfl
@[simp] theorem Thread.writeS_ops (th : Thread) (r : SReg) (v : W64) : (th.writeS r v).ops = th.ops := by
  unfold Thread.writeS; split <;> rfl
@[simp] theorem Thread.writeS_wakePend (th : Thread) (r : SReg) (v : W64) : (th.writeS r v).wakePend = th.wakePend := by
  unfold Thread.writeS; split <;> rfl
@[simp] theorem Thread.writeS_ctx (th : Thread) (r : SReg) (v : W64) : (th.writeS r v).ctx = th.ctx := by
  unfold Thread.writeS; split <;> rfl
@[simp] theorem Thread.writeS_vf (th : Thread) (r : SReg) (v : W64) : (th.writeS r v).vf = th.vf := by
  unfold Thread.writeS; split <;> rfl
@[simp] theorem Thread.writeS_grp (th : Thread) (r : SReg) (v : W64) : (th.writeS r v).grp = th.grp := by
  unfold Thread.writeS; split <;> rfl
@[simp] theorem Thread.writeS_inc (th : Thread) (r : SReg) (v : W64) : (th.writeS r v).inc = th.inc := by
  unfold Thread.writeS; split <;> rfl
@[simp] theorem Thread.writeS_startPc (th : Thread) (r : SReg) (v : W64) : (th.writeS r v).startPc = th.startPc := by
  unfold Thread.writeS; split <;> rfl
@[simp] theorem Thread.writeS_startSys (th : Thread) (r : SReg) (v : W64) : (th.writeS r v).startSys = th.startSys := by
  unfold Thread.writeS; split <;> rfl
@[simp] theorem Thread.writeS_startArgs (th : Thread) (r : SReg) (v : W64) : (th.writeS r v).startArgs = th.startArgs := by
  unfold Thread.writeS; split <;> rfl
@[simp] theorem Thread.writeS_wait (th : Thread) (r : SReg) (v : W64) : (th.writeS r v).wait = th.wait := by
  unfold Thread.writeS; split <;> rfl
@[simp] theorem Thread.writeS_sleepEnd (th : Thread) (r : SReg) (v : W64) : (th.writeS r v).sleepEnd = th.sleepEnd := by
  unfold Thread.writeS; split <;> rfl
@[simp] theorem Thread.writeS_yieldEnd (th : Thread) (r : SReg) (v : W64) : (th.writeS r v).yieldEnd = th.yieldEnd := by
  unfold Thread.writeS; split <;> rfl
@[simp] theorem Thread.writeS_pend (th : Thread) (r : SReg) (v : W64) : (th.writeS r v).pend = th.pend := by
  unfold Thread.writeS; split <;> rfl
@[simp] theorem Thread.writeS_deps (th : Thread) (r : SReg) (v : W64) : (th.writeS r v).deps = th.deps := by
  unfold Thread.writeS; split <;> rfl
@[simp] theorem Thread.writeS_far (th : Thread) (r : SReg) (v : W64) : (th.writeS r v).far = th.far := by
  unfold Thread.writeS; split <;> rfl
@[simp] theorem Thread.writeS_remSent (th : Thread) (r : SReg) (v : W64) : (th.writeS r v).remSent = th.remSent := by
  unfold Thread.writeS; split <;> rfl
@[simp] theorem Thread.writeS_remOut (th : Thread) (r : SReg) (v : W64) : (th.writeS r v).remOut = th.remOut := by
  unfold Thread.writeS; split <;> rfl
@[simp] theorem Thread.writeS_remErr (th : Thread) (r : SReg) (v : W64) : (th.writeS r v).remErr = th.remErr := by
  unfold Thread.writeS; split <;> rfl
@[simp] theorem Thread.writeS_gang (th : Thread) (r : SReg) (v : W64) : (th.writeS r v).gang = th.gang := by
  unfold Thread.writeS; split <;> rfl
@[simp] theorem Thread.writeS_hand (th : Thread) (r : SReg) (v : W64) : (th.writeS r v).hand = th.hand := by
  unfold Thread.writeS; split <;> rfl
@[simp] theorem Thread.writeS_poison (th : Thread) (r : SReg) (v : W64) : (th.writeS r v).poison = th.poison := by
  unfold Thread.writeS; split <;> rfl
@[simp] theorem Thread.writeA_st (th : Thread) (r : AReg) (v : VAddr) : (th.writeA r v).st = th.st := rfl
@[simp] theorem Thread.writeA_pc (th : Thread) (r : AReg) (v : VAddr) : (th.writeA r v).pc = th.pc := rfl
@[simp] theorem Thread.writeA_past (th : Thread) (r : AReg) (v : VAddr) : (th.writeA r v).past = th.past := rfl
@[simp] theorem Thread.writeA_s (th : Thread) (r : AReg) (v : VAddr) : (th.writeA r v).s = th.s := rfl
@[simp] theorem Thread.writeA_v (th : Thread) (r : AReg) (v : VAddr) : (th.writeA r v).v = th.v := rfl
@[simp] theorem Thread.writeA_m (th : Thread) (r : AReg) (v : VAddr) : (th.writeA r v).m = th.m := rfl
@[simp] theorem Thread.writeA_tstate (th : Thread) (r : AReg) (v : VAddr) : (th.writeA r v).tstate = th.tstate := rfl
@[simp] theorem Thread.writeA_bank1 (th : Thread) (r : AReg) (v : VAddr) : (th.writeA r v).bank1 = th.bank1 := rfl
@[simp] theorem Thread.writeA_bank2 (th : Thread) (r : AReg) (v : VAddr) : (th.writeA r v).bank2 = th.bank2 := rfl
@[simp] theorem Thread.writeA_tscratch (th : Thread) (r : AReg) (v : VAddr) : (th.writeA r v).tscratch = th.tscratch := rfl
@[simp] theorem Thread.writeA_fsel (th : Thread) (r : AReg) (v : VAddr) : (th.writeA r v).fsel = th.fsel := rfl
@[simp] theorem Thread.writeA_fflags (th : Thread) (r : AReg) (v : VAddr) : (th.writeA r v).fflags = th.fflags := rfl
@[simp] theorem Thread.writeA_issued (th : Thread) (r : AReg) (v : VAddr) : (th.writeA r v).issued = th.issued := rfl
@[simp] theorem Thread.writeA_ops (th : Thread) (r : AReg) (v : VAddr) : (th.writeA r v).ops = th.ops := rfl
@[simp] theorem Thread.writeA_wakePend (th : Thread) (r : AReg) (v : VAddr) : (th.writeA r v).wakePend = th.wakePend := rfl
@[simp] theorem Thread.writeA_ctx (th : Thread) (r : AReg) (v : VAddr) : (th.writeA r v).ctx = th.ctx := rfl
@[simp] theorem Thread.writeA_vf (th : Thread) (r : AReg) (v : VAddr) : (th.writeA r v).vf = th.vf := rfl
@[simp] theorem Thread.writeA_grp (th : Thread) (r : AReg) (v : VAddr) : (th.writeA r v).grp = th.grp := rfl
@[simp] theorem Thread.writeA_inc (th : Thread) (r : AReg) (v : VAddr) : (th.writeA r v).inc = th.inc := rfl
@[simp] theorem Thread.writeA_startPc (th : Thread) (r : AReg) (v : VAddr) : (th.writeA r v).startPc = th.startPc := rfl
@[simp] theorem Thread.writeA_startSys (th : Thread) (r : AReg) (v : VAddr) : (th.writeA r v).startSys = th.startSys := rfl
@[simp] theorem Thread.writeA_startArgs (th : Thread) (r : AReg) (v : VAddr) : (th.writeA r v).startArgs = th.startArgs := rfl
@[simp] theorem Thread.writeA_wait (th : Thread) (r : AReg) (v : VAddr) : (th.writeA r v).wait = th.wait := rfl
@[simp] theorem Thread.writeA_sleepEnd (th : Thread) (r : AReg) (v : VAddr) : (th.writeA r v).sleepEnd = th.sleepEnd := rfl
@[simp] theorem Thread.writeA_yieldEnd (th : Thread) (r : AReg) (v : VAddr) : (th.writeA r v).yieldEnd = th.yieldEnd := rfl
@[simp] theorem Thread.writeA_pend (th : Thread) (r : AReg) (v : VAddr) : (th.writeA r v).pend = th.pend := rfl
@[simp] theorem Thread.writeA_deps (th : Thread) (r : AReg) (v : VAddr) : (th.writeA r v).deps = th.deps := rfl
@[simp] theorem Thread.writeA_far (th : Thread) (r : AReg) (v : VAddr) : (th.writeA r v).far = th.far := rfl
@[simp] theorem Thread.writeA_remSent (th : Thread) (r : AReg) (v : VAddr) : (th.writeA r v).remSent = th.remSent := rfl
@[simp] theorem Thread.writeA_remOut (th : Thread) (r : AReg) (v : VAddr) : (th.writeA r v).remOut = th.remOut := rfl
@[simp] theorem Thread.writeA_remErr (th : Thread) (r : AReg) (v : VAddr) : (th.writeA r v).remErr = th.remErr := rfl
@[simp] theorem Thread.writeA_gang (th : Thread) (r : AReg) (v : VAddr) : (th.writeA r v).gang = th.gang := rfl
@[simp] theorem Thread.writeA_hand (th : Thread) (r : AReg) (v : VAddr) : (th.writeA r v).hand = th.hand := rfl
@[simp] theorem Thread.writeA_poison (th : Thread) (r : AReg) (v : VAddr) : (th.writeA r v).poison = th.poison := rfl
@[simp] theorem Thread.writeV_st (th : Thread) (r : VReg) (v : V512) : (th.writeV r v).st = th.st := rfl
@[simp] theorem Thread.writeV_pc (th : Thread) (r : VReg) (v : V512) : (th.writeV r v).pc = th.pc := rfl
@[simp] theorem Thread.writeV_past (th : Thread) (r : VReg) (v : V512) : (th.writeV r v).past = th.past := rfl
@[simp] theorem Thread.writeV_s (th : Thread) (r : VReg) (v : V512) : (th.writeV r v).s = th.s := rfl
@[simp] theorem Thread.writeV_a (th : Thread) (r : VReg) (v : V512) : (th.writeV r v).a = th.a := rfl
@[simp] theorem Thread.writeV_m (th : Thread) (r : VReg) (v : V512) : (th.writeV r v).m = th.m := rfl
@[simp] theorem Thread.writeV_tstate (th : Thread) (r : VReg) (v : V512) : (th.writeV r v).tstate = th.tstate := rfl
@[simp] theorem Thread.writeV_bank1 (th : Thread) (r : VReg) (v : V512) : (th.writeV r v).bank1 = th.bank1 := rfl
@[simp] theorem Thread.writeV_bank2 (th : Thread) (r : VReg) (v : V512) : (th.writeV r v).bank2 = th.bank2 := rfl
@[simp] theorem Thread.writeV_tscratch (th : Thread) (r : VReg) (v : V512) : (th.writeV r v).tscratch = th.tscratch := rfl
@[simp] theorem Thread.writeV_fsel (th : Thread) (r : VReg) (v : V512) : (th.writeV r v).fsel = th.fsel := rfl
@[simp] theorem Thread.writeV_fflags (th : Thread) (r : VReg) (v : V512) : (th.writeV r v).fflags = th.fflags := rfl
@[simp] theorem Thread.writeV_issued (th : Thread) (r : VReg) (v : V512) : (th.writeV r v).issued = th.issued := rfl
@[simp] theorem Thread.writeV_ops (th : Thread) (r : VReg) (v : V512) : (th.writeV r v).ops = th.ops := rfl
@[simp] theorem Thread.writeV_wakePend (th : Thread) (r : VReg) (v : V512) : (th.writeV r v).wakePend = th.wakePend := rfl
@[simp] theorem Thread.writeV_ctx (th : Thread) (r : VReg) (v : V512) : (th.writeV r v).ctx = th.ctx := rfl
@[simp] theorem Thread.writeV_vf (th : Thread) (r : VReg) (v : V512) : (th.writeV r v).vf = th.vf := rfl
@[simp] theorem Thread.writeV_grp (th : Thread) (r : VReg) (v : V512) : (th.writeV r v).grp = th.grp := rfl
@[simp] theorem Thread.writeV_inc (th : Thread) (r : VReg) (v : V512) : (th.writeV r v).inc = th.inc := rfl
@[simp] theorem Thread.writeV_startPc (th : Thread) (r : VReg) (v : V512) : (th.writeV r v).startPc = th.startPc := rfl
@[simp] theorem Thread.writeV_startSys (th : Thread) (r : VReg) (v : V512) : (th.writeV r v).startSys = th.startSys := rfl
@[simp] theorem Thread.writeV_startArgs (th : Thread) (r : VReg) (v : V512) : (th.writeV r v).startArgs = th.startArgs := rfl
@[simp] theorem Thread.writeV_wait (th : Thread) (r : VReg) (v : V512) : (th.writeV r v).wait = th.wait := rfl
@[simp] theorem Thread.writeV_sleepEnd (th : Thread) (r : VReg) (v : V512) : (th.writeV r v).sleepEnd = th.sleepEnd := rfl
@[simp] theorem Thread.writeV_yieldEnd (th : Thread) (r : VReg) (v : V512) : (th.writeV r v).yieldEnd = th.yieldEnd := rfl
@[simp] theorem Thread.writeV_pend (th : Thread) (r : VReg) (v : V512) : (th.writeV r v).pend = th.pend := rfl
@[simp] theorem Thread.writeV_deps (th : Thread) (r : VReg) (v : V512) : (th.writeV r v).deps = th.deps := rfl
@[simp] theorem Thread.writeV_far (th : Thread) (r : VReg) (v : V512) : (th.writeV r v).far = th.far := rfl
@[simp] theorem Thread.writeV_remSent (th : Thread) (r : VReg) (v : V512) : (th.writeV r v).remSent = th.remSent := rfl
@[simp] theorem Thread.writeV_remOut (th : Thread) (r : VReg) (v : V512) : (th.writeV r v).remOut = th.remOut := rfl
@[simp] theorem Thread.writeV_remErr (th : Thread) (r : VReg) (v : V512) : (th.writeV r v).remErr = th.remErr := rfl
@[simp] theorem Thread.writeV_gang (th : Thread) (r : VReg) (v : V512) : (th.writeV r v).gang = th.gang := rfl
@[simp] theorem Thread.writeV_hand (th : Thread) (r : VReg) (v : V512) : (th.writeV r v).hand = th.hand := rfl
@[simp] theorem Thread.writeV_poison (th : Thread) (r : VReg) (v : V512) : (th.writeV r v).poison = th.poison := rfl
@[simp] theorem Thread.writeM_st (th : Thread) (r : MReg) (v : W64) : (th.writeM r v).st = th.st := by
  unfold Thread.writeM; split <;> rfl
@[simp] theorem Thread.writeM_pc (th : Thread) (r : MReg) (v : W64) : (th.writeM r v).pc = th.pc := by
  unfold Thread.writeM; split <;> rfl
@[simp] theorem Thread.writeM_past (th : Thread) (r : MReg) (v : W64) : (th.writeM r v).past = th.past := by
  unfold Thread.writeM; split <;> rfl
@[simp] theorem Thread.writeM_s (th : Thread) (r : MReg) (v : W64) : (th.writeM r v).s = th.s := by
  unfold Thread.writeM; split <;> rfl
@[simp] theorem Thread.writeM_a (th : Thread) (r : MReg) (v : W64) : (th.writeM r v).a = th.a := by
  unfold Thread.writeM; split <;> rfl
@[simp] theorem Thread.writeM_v (th : Thread) (r : MReg) (v : W64) : (th.writeM r v).v = th.v := by
  unfold Thread.writeM; split <;> rfl
@[simp] theorem Thread.writeM_tstate (th : Thread) (r : MReg) (v : W64) : (th.writeM r v).tstate = th.tstate := by
  unfold Thread.writeM; split <;> rfl
@[simp] theorem Thread.writeM_bank1 (th : Thread) (r : MReg) (v : W64) : (th.writeM r v).bank1 = th.bank1 := by
  unfold Thread.writeM; split <;> rfl
@[simp] theorem Thread.writeM_bank2 (th : Thread) (r : MReg) (v : W64) : (th.writeM r v).bank2 = th.bank2 := by
  unfold Thread.writeM; split <;> rfl
@[simp] theorem Thread.writeM_tscratch (th : Thread) (r : MReg) (v : W64) : (th.writeM r v).tscratch = th.tscratch := by
  unfold Thread.writeM; split <;> rfl
@[simp] theorem Thread.writeM_fsel (th : Thread) (r : MReg) (v : W64) : (th.writeM r v).fsel = th.fsel := by
  unfold Thread.writeM; split <;> rfl
@[simp] theorem Thread.writeM_fflags (th : Thread) (r : MReg) (v : W64) : (th.writeM r v).fflags = th.fflags := by
  unfold Thread.writeM; split <;> rfl
@[simp] theorem Thread.writeM_issued (th : Thread) (r : MReg) (v : W64) : (th.writeM r v).issued = th.issued := by
  unfold Thread.writeM; split <;> rfl
@[simp] theorem Thread.writeM_ops (th : Thread) (r : MReg) (v : W64) : (th.writeM r v).ops = th.ops := by
  unfold Thread.writeM; split <;> rfl
@[simp] theorem Thread.writeM_wakePend (th : Thread) (r : MReg) (v : W64) : (th.writeM r v).wakePend = th.wakePend := by
  unfold Thread.writeM; split <;> rfl
@[simp] theorem Thread.writeM_ctx (th : Thread) (r : MReg) (v : W64) : (th.writeM r v).ctx = th.ctx := by
  unfold Thread.writeM; split <;> rfl
@[simp] theorem Thread.writeM_vf (th : Thread) (r : MReg) (v : W64) : (th.writeM r v).vf = th.vf := by
  unfold Thread.writeM; split <;> rfl
@[simp] theorem Thread.writeM_grp (th : Thread) (r : MReg) (v : W64) : (th.writeM r v).grp = th.grp := by
  unfold Thread.writeM; split <;> rfl
@[simp] theorem Thread.writeM_inc (th : Thread) (r : MReg) (v : W64) : (th.writeM r v).inc = th.inc := by
  unfold Thread.writeM; split <;> rfl
@[simp] theorem Thread.writeM_startPc (th : Thread) (r : MReg) (v : W64) : (th.writeM r v).startPc = th.startPc := by
  unfold Thread.writeM; split <;> rfl
@[simp] theorem Thread.writeM_startSys (th : Thread) (r : MReg) (v : W64) : (th.writeM r v).startSys = th.startSys := by
  unfold Thread.writeM; split <;> rfl
@[simp] theorem Thread.writeM_startArgs (th : Thread) (r : MReg) (v : W64) : (th.writeM r v).startArgs = th.startArgs := by
  unfold Thread.writeM; split <;> rfl
@[simp] theorem Thread.writeM_wait (th : Thread) (r : MReg) (v : W64) : (th.writeM r v).wait = th.wait := by
  unfold Thread.writeM; split <;> rfl
@[simp] theorem Thread.writeM_sleepEnd (th : Thread) (r : MReg) (v : W64) : (th.writeM r v).sleepEnd = th.sleepEnd := by
  unfold Thread.writeM; split <;> rfl
@[simp] theorem Thread.writeM_yieldEnd (th : Thread) (r : MReg) (v : W64) : (th.writeM r v).yieldEnd = th.yieldEnd := by
  unfold Thread.writeM; split <;> rfl
@[simp] theorem Thread.writeM_pend (th : Thread) (r : MReg) (v : W64) : (th.writeM r v).pend = th.pend := by
  unfold Thread.writeM; split <;> rfl
@[simp] theorem Thread.writeM_deps (th : Thread) (r : MReg) (v : W64) : (th.writeM r v).deps = th.deps := by
  unfold Thread.writeM; split <;> rfl
@[simp] theorem Thread.writeM_far (th : Thread) (r : MReg) (v : W64) : (th.writeM r v).far = th.far := by
  unfold Thread.writeM; split <;> rfl
@[simp] theorem Thread.writeM_remSent (th : Thread) (r : MReg) (v : W64) : (th.writeM r v).remSent = th.remSent := by
  unfold Thread.writeM; split <;> rfl
@[simp] theorem Thread.writeM_remOut (th : Thread) (r : MReg) (v : W64) : (th.writeM r v).remOut = th.remOut := by
  unfold Thread.writeM; split <;> rfl
@[simp] theorem Thread.writeM_remErr (th : Thread) (r : MReg) (v : W64) : (th.writeM r v).remErr = th.remErr := by
  unfold Thread.writeM; split <;> rfl
@[simp] theorem Thread.writeM_gang (th : Thread) (r : MReg) (v : W64) : (th.writeM r v).gang = th.gang := by
  unfold Thread.writeM; split <;> rfl
@[simp] theorem Thread.writeM_hand (th : Thread) (r : MReg) (v : W64) : (th.writeM r v).hand = th.hand := by
  unfold Thread.writeM; split <;> rfl
@[simp] theorem Thread.writeM_poison (th : Thread) (r : MReg) (v : W64) : (th.writeM r v).poison = th.poison := by
  unfold Thread.writeM; split <;> rfl

end Sys2Proof.Machine
end

