-- ==== Sys2Proof/Laws/Memory.lean ====
section
/-! SUPPORT. Memory: what a write leaves and where, and the canonical form every shared operation keeps. -/

namespace Sys2Proof.Machine

open Sys2Proof

/-! ### Bytes -/

theorem putBytes_wf (bs : List (BitVec 8)) : ∀ (m : Tab (BitVec 8)) (a : Nat), Memory.wf m = true →
    Memory.wf (putBytes m a bs) = true := by
  induction bs with
  | nil => intro m a h; exact h
  | cons b r ih => intro m a h; exact ih _ _ (twf_tset 0 m a b h)

theorem putBytes_outside (bs : List (BitVec 8)) : ∀ (m : Tab (BitVec 8)) (a j : Nat), j < a ∨ a + bs.length ≤ j →
    tget 0 (putBytes m a bs) j = tget 0 m j := by
  induction bs with
  | nil => intro m a j _; rfl
  | cons b r ih =>
    intro m a j h
    have hr : j < a + 1 ∨ a + 1 + r.length ≤ j := by simp only [List.length_cons] at h; omega
    have hj : j ≠ a := by simp only [List.length_cons] at h; omega
    rw [putBytes, ih _ _ _ hr, tget_tset_other _ _ _ hj]

theorem putBytes_inside (bs : List (BitVec 8)) : ∀ (m : Tab (BitVec 8)) (a i : Nat), i < bs.length →
    tget 0 (putBytes m a bs) (a + i) = bs.getD i 0 := by
  induction bs with
  | nil => intro m a i h; simp at h
  | cons b r ih =>
    intro m a i h
    cases i with
    | zero => rw [putBytes, putBytes_outside _ _ _ _ (by omega)]; simp
    | succ i =>
      have := ih (tset 0 m a b) (a + 1) i (by simpa using h)
      rw [putBytes, show a + (i + 1) = a + 1 + i by omega, this]; simp

theorem ofBytes_toBytes (n : Nat) : ∀ x, ofBytes (toBytes n x) = x % 256 ^ n := by
  induction n with
  | zero => intro x; simp [toBytes, ofBytes, Nat.mod_one]
  | succ n ih =>
    intro x
    simp only [toBytes, ofBytes, ih, BitVec.toNat_ofNat]
    rw [show (2 : Nat) ^ 8 = 256 from rfl, pow_succ, Nat.mul_comm (256 ^ n) 256, Nat.mod_mul]

theorem length_toBytes (n : Nat) : ∀ x, (toBytes n x).length = n := by
  induction n with
  | zero => intro x; rfl
  | succ n ih => intro x; simp [toBytes, ih]

/-! ### One write -/

@[simp] theorem State.invalidate_mem (s : State) (w : Option Nat) (ls : List Nat) : (s.invalidate w ls).mem = s.mem := rfl
@[simp] theorem State.memWrite_mem (s : State) (w : Option Nat) (a : Nat) (bs : List (BitVec 8)) :
    (s.memWrite w a bs).mem = putBytes s.mem a bs := rfl

theorem State.memWrite_outside (s : State) (w : Option Nat) (a p : Nat) (bs : List (BitVec 8))
    (h : p < a ∨ a + bs.length ≤ p) : (s.memWrite w a bs).memRead p 1 = s.memRead p 1 := by
  simp only [State.memRead, State.memGet, List.range_one, List.map_cons, List.map_nil, Nat.add_zero, State.memWrite_mem,
    putBytes_outside _ _ _ _ h]

theorem State.memWrite_same (s : State) (w : Option Nat) (a : Nat) (bs : List (BitVec 8)) :
    (s.memWrite w a bs).memGet a bs.length = bs := by
  apply List.ext_getElem
  · simp [State.memGet]
  · intro i h1 h2
    simp only [State.memGet, State.memWrite_mem, List.getElem_map, List.getElem_range, putBytes_inside _ _ _ _ h2]
    simp [List.getD_eq_getElem?_getD, h2]

theorem State.memPut_same (s : State) (a n x : Nat) : (s.memPut a n x).memRead a n = x % 256 ^ n := by
  have := s.memWrite_same none a (toBytes n x)
  rw [length_toBytes] at this
  rw [State.memPut, State.memRead, this, ofBytes_toBytes]

/-! ### The canonical form (entry 2 names what memory no one has written reads as) -/

theorem State.reset_wf : Memory.wf State.reset.mem = true := rfl

theorem foldl_wf {α : Type} {f : State → α → State} (hf : ∀ s a, Memory.wf s.mem = true → Memory.wf (f s a).mem = true)
    (l : List α) : ∀ s, Memory.wf s.mem = true → Memory.wf (l.foldl f s).mem = true := by
  induction l with
  | nil => exact fun s h => h
  | cons a r ih => exact fun s h => ih _ (hf s a h)

theorem foldl_mem {α : Type} {f : State → α → State} (hf : ∀ s a, (f s a).mem = s.mem) (l : List α) :
    ∀ s, (l.foldl f s).mem = s.mem := by
  induction l with
  | nil => exact fun s => rfl
  | cons a r ih => exact fun s => (ih _).trans (hf s a)

variable {s : State}

theorem State.memWrite_wf (w : Option Nat) (a : Nat) (bs : List (BitVec 8)) (h : Memory.wf s.mem = true) :
    Memory.wf (s.memWrite w a bs).mem = true := putBytes_wf _ _ _ h
theorem State.memPut_wf (a n x : Nat) (h : Memory.wf s.mem = true) : Memory.wf (s.memPut a n x).mem = true :=
  putBytes_wf _ _ _ h
theorem State.setCtx_wf (c : Nat) (x : Ctx) (h : Memory.wf s.mem = true) : Memory.wf (s.setCtx c x).mem = true := by
  grind [State.setCtx, State.memPut_wf]
theorem State.setQueue_wf (q : Nat) (x : Queue) (h : Memory.wf s.mem = true) : Memory.wf (s.setQueue q x).mem = true := by
  grind [State.setQueue, State.memPut_wf]
theorem State.savedWrite_wf (key core o : Nat) (bs : List (BitVec 8)) (h : Memory.wf s.mem = true) :
    Memory.wf (s.savedWrite key core o bs).mem = true := by
  grind [State.savedWrite, State.memWrite_wf]

/-! ### Operations that leave memory alone -/

@[simp] theorem State.takeFree_mem : s.takeFree.2.mem = s.mem := rfl
@[simp] theorem State.arrayError_mem (core array : Nat) (row : BitVec 32) (y : BitVec 8) (ctx : Nat) (c d : Bool) :
    (s.arrayError core array row y ctx c d).mem = s.mem := by
  unfold State.arrayError; repeat' split
  all_goals rfl
@[simp] theorem State.arrayTouch_mem (core array : Nat) (p : Nat → Bool) (ctx : Nat) :
    (s.arrayTouch core array p ctx).mem = s.mem := foldl_mem (fun s f => by simp) _ _
@[simp] theorem State.lsTouch_mem (core o n ctx : Nat) : (s.lsTouch core o n ctx).mem = s.mem := State.arrayTouch_mem _ _ _ _
@[simp] theorem State.lsWrite_mem (core o : Nat) (bs : List (BitVec 8)) : (s.lsWrite core o bs).mem = s.mem := rfl
@[simp] theorem State.reduce_mem (ms : List Nat) (num n : Nat) : (s.reduce ms num n).mem = s.mem := by
  simp only [State.reduce]
  split
  · rfl
  · split
    · apply foldl_mem
      intro s m
      split <;> rfl
    · rfl
@[simp] theorem State.dissolveAt_mem (ms : List Nat) (num k : Nat) : (s.dissolveAt ms num k).mem = s.mem := by
  apply foldl_mem
  exact fun s m => rfl
@[simp] theorem State.lead_mem (t : Nat) (next : Option W64) (way : Bool) : (s.lead t next way).mem = s.mem := by
  simp only [State.lead]
  repeat' split
  iterate 2 rfl
  refine (foldl_mem ?_ _ _).trans rfl
  intro s m
  grind [State.setThread_mem]
@[simp] theorem State.leave_mem (t : Nat) (shared : Bool) : (s.leave t shared).mem = s.mem := by
  grind [State.leave, State.lead_mem, State.dissolveAt_mem, State.setThread_mem]
@[simp] theorem State.ackAll_mem (t : Nat) : (s.ackAll t).mem = s.mem := by
  grind [State.ackAll, State.setCore_mem]
@[simp] theorem State.flushL1_mem (c : Nat) : (s.flushL1 c).mem = s.mem := rfl
@[simp] theorem State.pop_mem (t : Nat) : (s.pop t).mem = s.mem := rfl
@[simp] theorem State.push_mem (t : Nat) (v : W64) : (s.push t v).mem = s.mem := rfl
@[simp] theorem State.endLinks_mem (t : Nat) : (s.endLinks t).mem = s.mem := rfl
@[simp] theorem State.slotWritten_mem (t : Nat) : (s.slotWritten t).mem = s.mem := by
  grind [State.slotWritten, State.setCore_mem]
@[simp] theorem State.startThread_mem (t : Nat) (pc : W64) (args : List W64) (ctx vf : Nat) :
    (s.startThread t pc args ctx vf).mem = s.mem :=
  State.slotWritten_mem t
@[simp] theorem State.endThread_mem (t : Nat) : (s.endThread t).mem = s.mem := rfl
@[simp] theorem State.retireLayer_mem (l : Nat) : (s.retireLayer l).mem = s.mem := rfl
@[simp] theorem State.setTlb_mem (id : TlbId) (l : List TlbEnt) : (s.setTlb id l).mem = s.mem := by cases id <;> rfl
@[simp] theorem State.tlbWrote_mem (id : TlbId) (key : Nat) : (s.tlbWrote id key).mem = s.mem := by cases id <;> rfl
@[simp] theorem State.gather_mem (id : TlbId) (ctx va : Nat) (d : Bool) : (s.gather id ctx va d).mem = s.mem :=
  State.setTlb_mem _ _
@[simp] theorem State.l1Fill_mem (core base : Nat) : (s.l1Fill core base).mem = s.mem := by
  grind [State.l1Fill, State.setCore_mem]
@[simp] theorem State.performedAt_mem (t slice m : Nat) : (s.performedAt t slice m).mem = s.mem := rfl
@[simp] theorem State.replied_mem (t pa : Nat) : (s.replied t pa).mem = s.mem := rfl
@[simp] theorem State.loadOwn_mem (t pa n ty : Nat) : (s.loadOwn t pa n ty).1.mem = s.mem := by
  simp only [State.loadOwn]; repeat' split
  all_goals simp
@[simp] theorem State.readOwn_mem (t pa va n ty : Nat) : (s.readOwn t pa va n ty).1.mem = s.mem :=
  State.loadOwn_mem _ _ _ _
@[simp] theorem State.sendOwn_mem (e : Nat) (m : NetMsg) (w : Option Asker) (va : Nat) (acc : Option Nat) :
    (s.sendOwn e m w va acc).mem = s.mem := by
  unfold State.sendOwn; split <;> rfl
@[simp] theorem State.noteAsk_mem (w : Asker) (m : NetMsg) (found : Bool) : (s.noteAsk w m found).mem = s.mem := by
  cases w <;> rfl
@[simp] theorem State.remoteAccess_mem (w : Asker) (op : HOp) (node pa va n : Nat) (data : List (BitVec 8)) (r : AmoReq) :
    (s.remoteAccess w op node pa va n data r).1.mem = s.mem := by
  grind [State.remoteAccess, State.noteAsk_mem, State.sendOwn_mem]
/-- An access sent before is looked up: memory is as it was. -/
theorem State.sentBefore_mem {w : Asker} {op : HOp} {va n : Nat} {data : List (BitVec 8)} {x : State × Got}
    (h : s.sentBefore w op va n data = some x) : x.1.mem = s.mem := by
  unfold State.sentBefore at h
  grind [State.noteAsk_mem]
theorem State.orSent_wf (w : Asker) (op : HOp) (va n : Nat) (k : State × Got) (data : List (BitVec 8))
    (h : Memory.wf s.mem = true) (hk : Memory.wf k.1.mem = true) : Memory.wf (s.orSent w op va n k data).1.mem = true := by
  unfold State.orSent
  cases e : s.sentBefore w op va n data with
  | none => exact hk
  | some x => simpa [State.sentBefore_mem e] using h
theorem State.orSent_mem (w : Asker) (op : HOp) (va n : Nat) (k : State × Got) (data : List (BitVec 8))
    (hk : k.1.mem = s.mem) : (s.orSent w op va n k data).1.mem = s.mem := by
  unfold State.orSent
  cases e : s.sentBefore w op va n data with
  | none => exact hk
  | some x => exact State.sentBefore_mem e
@[simp] theorem State.settled_mem : s.settled.mem = s.mem := rfl
@[simp] theorem State.dropAnswers_mem (t : Nat) : (s.dropAnswers t).mem = s.mem := rfl
@[simp] theorem State.moveTo_mem (next : W64) (past way : Bool) : (s.moveTo next past way).mem = s.mem := by
  grind [State.moveTo, State.lead_mem, State.dissolveAt_mem, State.setThread_mem]
@[simp] theorem State.done_mem : s.done.mem = s.mem := State.moveTo_mem _ _ _
@[simp] theorem State.setCur_mem (x : Thread) : (s.setCur x).mem = s.mem := rfl
@[simp] theorem State.popIf_mem (srcs : List SReg) : (s.popIf srcs).mem = s.mem := by unfold State.popIf; split <;> rfl
@[simp] theorem State.retire_mem (srcs : List SReg) : (s.retire srcs).mem = s.mem := by simp [State.retire]
@[simp] theorem State.putS_mem (d : SReg) (v : W64) : (s.putS d v).mem = s.mem := by
  unfold State.putS; split <;> simp
@[simp] theorem State.retireS_mem (srcs : List SReg) (d : SReg) (v : W64) : (s.retireS srcs d v).mem = s.mem := by
  simp [State.retireS]
@[simp] theorem State.retireT_mem (srcs : List SReg) (f : Thread → Thread) : (s.retireT srcs f).mem = s.mem := by
  simp [State.retireT]
@[simp] theorem State.commit_mem (srcs : List SReg) (dests : List Reg) (vals : List (Reg × V512)) (due : Due)
    (err : Option Err) (lod mem : Bool) : (s.commit srcs dests vals due err lod mem).mem = s.mem := by
  simp [State.commit]
@[simp] theorem State.waitWalk_mem (core ctx va : Nat) : (s.waitWalk core ctx va).mem = s.mem := rfl
@[simp] theorem State.wentFar_mem (t : Nat) : (s.wentFar t).mem = s.mem := rfl

/-! ### Credits and records -/

@[simp] theorem State.awCreditAt_mem (core o : Nat) (n : BitVec 32) : (s.awCreditAt core o n).mem = s.mem := rfl
theorem State.savedModify_wf (key core o : Nat) (bs : List (BitVec 8)) (h : Memory.wf s.mem = true) :
    Memory.wf (s.savedModify key core o bs).mem = true := by
  grind [State.savedModify, State.savedWrite_wf]
theorem State.credit_wf (ctx core o : Nat) (n : BitVec 32) (grp : Option (Nat × Nat)) (h : Memory.wf s.mem = true) :
    Memory.wf (s.credit ctx core o n grp).1.mem = true := by
  grind [State.credit, State.savedModify_wf, State.awCreditAt_mem, State.lsTouch_mem]
theorem State.ringPut_wf {base size rcd : Nat} {t : State} (ht : s.ringPut base size rcd = some t)
    (h : Memory.wf s.mem = true) : Memory.wf t.mem = true := by
  simp only [State.ringPut] at ht
  split at ht
  · cases ht; exact State.memPut_wf _ _ _ (State.memPut_wf _ _ _ h)
  · cases ht
theorem State.ringHeld_wf (base : Nat) (h : Memory.wf s.mem = true) : Memory.wf (s.ringHeld base).mem = true :=
  State.memPut_wf _ _ _ (State.memPut_wf _ _ _ h)
theorem State.ringCredit_wf (ctx base : Nat) (h : Memory.wf s.mem = true) : Memory.wf (s.ringCredit ctx base).mem = true := by
  grind [State.ringCredit, State.credit_wf]
theorem State.faultWrite_wf {r : FaultRec} {t : State} (ht : s.faultWrite r = some t) (h : Memory.wf s.mem = true) :
    Memory.wf t.mem = true := by
  grind [State.faultWrite, State.ringPut_wf, State.ringCredit_wf, Option.map_eq_some_iff]
theorem State.faultEmit_wf (clu : Nat) (r : FaultRec) (h : Memory.wf s.mem = true) :
    Memory.wf (s.faultEmit clu r).mem = true := by
  grind [State.faultEmit, State.faultWrite_wf, State.ringHeld_wf, State.setClu_mem]

/-! ### Traps and accesses -/

theorem State.kill_wf (c : Nat) (note : Option KillNote) (killer : Option Nat) (h : Memory.wf s.mem = true) :
    Memory.wf (s.kill c note killer).mem = true := by
  simp only [State.kill]
  split
  · apply State.setCtx_wf
    refine foldl_wf (fun s e h => by simpa using h) _ _ ?_
    exact foldl_wf (fun s e h => State.setQueue_wf _ _ h) _ _ h
  · exact h
theorem State.takeTrap_wf (t : Nat) (b : Bundle) (tepc : W64) (e : Err) (shared : Bool) (h : Memory.wf s.mem = true) :
    Memory.wf (s.takeTrap t b tepc e shared).mem = true := by
  have hd : Memory.wf (s.leave t shared).mem = true := by simpa using h
  grind [State.takeTrap, State.kill_wf, State.setThread_mem]
theorem State.trap_wf (e : Err) (shared : Bool) (h : Memory.wf s.mem = true) : Memory.wf (s.trap e shared).mem = true :=
  State.takeTrap_wf _ _ _ _ _ h
theorem State.block_wf (w : Wait) (srcs : List SReg) (h : Memory.wf s.mem = true) :
    Memory.wf (s.block w srcs).mem = true := by
  unfold State.block; split
  exacts [State.trap_wf _ _ h, by simpa using h]
theorem State.withOps_wf (srcs : List SReg) (dst : Option SReg) (k : (SReg → W64) → State) (late : Bool)
    (hk : ∀ v, Memory.wf (k v).mem = true) (h : Memory.wf s.mem = true) :
    Memory.wf (s.withOps srcs dst k late).mem = true := by
  unfold State.withOps; split
  exacts [State.trap_wf _ _ h, h, State.block_wf _ _ h, hk _]
theorem State.release_wf (k : State → State) (hk : ∀ u, Memory.wf u.mem = true → Memory.wf (k u).mem = true)
    (h : Memory.wf s.mem = true) : Memory.wf (s.release k).mem = true := by
  unfold State.release; split
  exacts [hk _ (by simpa using h), h]
theorem State.system_wf (k : State) (hk : Memory.wf k.mem = true) (h : Memory.wf s.mem = true) :
    Memory.wf (s.system k).mem = true := by
  unfold State.system; split
  exacts [hk, State.trap_wf _ _ h]
theorem State.softFault_wf (cause kind va : Nat) (shared : Bool) (h : Memory.wf s.mem = true) :
    Memory.wf (s.softFault cause kind va shared).mem = true := by
  simp only [State.softFault]; repeat' split
  · exact State.trap_wf _ _ h
  · exact State.trap_wf _ _ h
  · exact State.faultEmit_wf _ _ (by simpa using h)
theorem State.adWrite_wf (t : TlbEnt) (h : Memory.wf s.mem = true) : Memory.wf (s.adWrite t).mem = true := by
  grind [State.adWrite, State.memPut_wf]
theorem State.tlbFill_wf (id : TlbId) (t : TlbEnt) (h : Memory.wf s.mem = true) : Memory.wf (s.tlbFill id t).mem = true := by
  grind [State.tlbFill, State.setTlb_mem, State.tlbWrote_mem, State.adWrite_wf]
theorem State.xlate_wf (core ctx : Nat) (k : Kind) (va : Nat) (h : Memory.wf s.mem = true) :
    Memory.wf (s.xlate core ctx k va).1.mem = true := by
  grind (splits := 20) [State.xlate, State.gather_mem, State.tlbFill_wf, State.arrayTouch_mem, State.takeFree_mem]
theorem State.xlateDev_wf (ctx : Nat) (k : Kind) (va : Nat) (h : Memory.wf s.mem = true) :
    Memory.wf (s.xlateDev ctx k va).1.mem = true := by
  grind [State.xlateDev, State.adWrite_wf]
theorem State.storeOwn_wf (t pa : Nat) (bs : List (BitVec 8)) (h : Memory.wf s.mem = true) :
    Memory.wf (s.storeOwn t pa bs).mem = true := putBytes_wf _ _ _ h
theorem State.rmwOwn_wf (t pa n : Nat) (f : Nat → Option Nat) (h : Memory.wf s.mem = true) :
    Memory.wf (s.rmwOwn t pa n f).1.mem = true := by
  grind [State.rmwOwn, State.memWrite_wf, State.setCore_mem, State.replied_mem, State.performedAt_mem]
theorem State.readAt_wf (t va n : Nat) (h : Memory.wf s.mem = true) : Memory.wf (s.readAt t va n).1.mem = true := by
  refine State.orSent_wf _ _ _ _ _ _ h ?_
  grind [State.xlate_wf, State.readOwn_mem, State.remoteAccess_mem, State.wentFar_mem]
theorem State.writeAt_wf (t va : Nat) (bs : List (BitVec 8)) (h : Memory.wf s.mem = true) :
    Memory.wf (s.writeAt t va bs).1.mem = true := by
  refine State.orSent_wf _ _ _ _ _ _ h ?_
  grind [State.xlate_wf, State.storeOwn_wf, State.remoteAccess_mem, State.wentFar_mem]
theorem State.rmwFar_mem (w : Asker) (node pa va : Nat) (f : Nat → Option Nat) (req : Option AmoReq) :
    (s.rmwFar w node pa va f req).1.mem = s.mem := by
  unfold State.rmwFar
  split
  · simp
  · have h := State.orSent_mem (s := s) w .get va 8 (s.remoteAccess w .get node pa va 8) [] (State.remoteAccess_mem ..)
    grind [State.remoteAccess_mem, State.orSent_mem]
theorem State.rmwAt_wf (t va : Nat) (f : Nat → Option Nat) (req : Option AmoReq) (h : Memory.wf s.mem = true) :
    Memory.wf (s.rmwAt t va f req).1.mem = true := by
  unfold State.rmwAt
  split
  · split
    · exact State.orSent_wf _ _ _ _ _ _ h h
    · simpa [State.rmwFar_mem] using h
  · grind [State.xlate_wf, State.rmwOwn_wf, State.rmwFar_mem, State.wentFar_mem, State.flushL1_mem]
theorem State.onGot_wf (g : Got) (kind : Kind) (va : Nat) (k : List (BitVec 8) → Option Err → State)
    (hk : ∀ bs e, Memory.wf (k bs e).mem = true) (h : Memory.wf s.mem = true) :
    Memory.wf (s.onGot g kind va k).mem = true := by
  unfold State.onGot; split
  exacts [hk _ _, State.trap_wf _ _ h, State.softFault_wf _ _ _ _ h, h, h]

end Sys2Proof.Machine
end

