-- ==== Sys2Proof/Laws/Ops.lean ====
section
/-! SUPPORT. What each shared operation does, said once. -/

namespace Sys2Proof.Machine

open Sys2Proof

/-! ### Operands -/

/-- Operands that name no link port are ready. -/
theorem State.Ready.plain {s : State} {srcs : List SReg} {dst : Option SReg} {room : Bool}
    (h : 31#5 ∉ srcs ∧ 30#5 ∉ srcs ∧ dst ≠ some 30#5 ∧ dst ≠ some 31#5) : s.Ready srcs dst room :=
  ⟨h.1, h.2.2.1, fun hp => absurd hp h.2.1, fun hd => absurd hd h.2.2.2⟩

/-- With ready operands a bundle goes on with the values of its sources. -/
theorem State.operands_ready {s : State} {srcs : List SReg} {dst : Option SReg} {late : Bool}
    (h : s.Ready srcs dst (!late)) : s.operands srcs dst late = .go (if 30#5 ∈ srcs then s.src 30#5 else 0#64) := by
  have h1 := h.sources
  have h2 := h.target
  simp only [State.operands, State.src, if_neg h1, if_neg h2, if_true]
  rcases Classical.em (30#5 ∈ srcs) with hp | hp <;> rcases Classical.em (dst = some 31#5) with hd | hd
  · obtain ⟨u, hu, hv⟩ := h.pops hp
    obtain ⟨k, hk, hr⟩ := h.pushes hd
    cases late <;> simp_all
  · obtain ⟨u, hu, hv⟩ := h.pops hp
    simp_all
  · obtain ⟨k, hk, hr⟩ := h.pushes hd
    cases late <;> simp_all
  · simp_all

/-- The value function a ready bundle goes on with. -/
def State.vals (s : State) (srcs : List SReg) (r : SReg) : W64 :=
  if r = 30#5 then (if 30#5 ∈ srcs then s.src 30#5 else 0#64) else s.cur.readS r

theorem State.withOps_ready {s : State} {srcs : List SReg} {dst : Option SReg} {late : Bool} {k : (SReg → W64) → State}
    (h : s.Ready srcs dst (!late)) : s.withOps srcs dst k late = k (s.vals srcs) := by
  unfold State.withOps
  rw [State.operands_ready h]
  rfl

/-- It is `src` on the sources. -/
theorem State.vals_of_mem {s : State} {srcs : List SReg} {r : SReg} (h : r ∈ srcs) : s.vals srcs r = s.src r := by
  grind [State.vals, State.src]

/-- All a read of operands can do: trap, be held, wait, or go on with the values of `s`. -/
theorem State.withOps_cases (s : State) (srcs : List SReg) (dst : Option SReg) (k : (SReg → W64) → State) (late : Bool) :
    (∃ e, s.withOps srcs dst k late = s.trap e) ∨ s.withOps srcs dst k late = s ∨
    (∃ w, s.withOps srcs dst k late = s.block w) ∨
    ∃ qin, s.withOps srcs dst k late = k fun r => if r = 30#5 then qin else s.cur.readS r := by
  unfold State.withOps
  split
  exacts [.inl ⟨_, rfl⟩, .inr (.inl rfl), .inr (.inr (.inl ⟨_, rfl⟩)), .inr (.inr (.inr ⟨_, rfl⟩))]

/-- A release with nothing outstanding goes on, its thread's stores acknowledged. -/
theorem State.release_clear {s : State} (h : s.cur.remOut = []) (k : State → State) :
    s.release k = k (s.ackAll s.iss.thr) := if_pos h

/-- A core has accepted nothing new where nothing is on its way to it. -/
theorem State.ackAll_clear {s : State} {t : Nat} (h : (s.core (coreOf t)).path = []) : s.ackAll t = s := by
  simp [State.ackAll, h]

/-! ### Local stores and gangs -/

/-- With no injected fault a read of an array finds none. -/
theorem State.arrayTouch_clean {s : State} {c : Nat} (h : (s.core c).errs.faults = []) (array : Nat) (p : Nat → Bool)
    (x : Nat) : s.arrayTouch c array p x = s := by
  simp [State.arrayTouch, h]

theorem State.lsTouch_clean {s : State} {c : Nat} (h : (s.core c).errs.faults = []) (o n x : Nat) :
    s.lsTouch c o n x = s := State.arrayTouch_clean h _ _ _

theorem State.lsPoisoned_clean {s : State} {c : Nat} (h : (s.core c).lsPoison = []) (o n : Nat) :
    s.lsPoisoned c o n = false := by
  simp [State.lsPoisoned, h]

theorem State.members_alone {s : State} {t : Nat} (h : (s.thread t).gang = none) : s.members t = [t] := by
  simp [State.members, h]

/-- A thread in no gang: the next address is all that changes. -/
theorem State.moveTo_alone {s : State} (h : s.cur.gang = none) (next : W64) (past way : Bool) :
    s.moveTo next past way = s.setCur { s.cur with pc := next, past := past } := by
  have h' : (s.thread s.iss.thr).gang = none := h
  simp only [State.moveTo]
  grind [State.setCur, State.cur]

theorem State.done_alone {s : State} (h : s.cur.gang = none) :
    s.done = s.setCur { s.cur with pc := s.iss.b.next, past := s.iss.b.nextOver } := State.moveTo_alone h _ _ _

/-- A thread in no gang leaves none. -/
theorem State.leave_alone {s : State} {t : Nat} (h : (s.thread t).gang = none) (shared : Bool) : s.leave t shared = s := by
  simp [State.leave, h]

/-! ### Accesses of other devices -/

/-- All an access of another device can do: give its answer, find no endpoint, or wait, its packet sent at most now. -/
theorem State.remoteAccess_cases (s : State) (w : Asker) (op : HOp) (node pa va n : Nat) (data : List (BitVec 8)) (r : AmoReq) :
    (∃ a, s.remoteAccess w op node pa va n data r = (a, .wait)) ∨
    (∃ m a, s.remoteAccess w op node pa va n data r = (s.noteAsk w m true, gotOf va n a)) ∨
    (s.farEp node = none ∧ s.remoteAccess w op node pa va n data r =
      (s, .ok (List.replicate n 0) (some { cause := 15, tval := BitVec.ofNat 64 va }))) := by
  simp only [State.remoteAccess]
  split
  · exact .inr (.inl ⟨_, _, rfl⟩)
  · split
    · next h => exact .inr (.inr ⟨h, rfl⟩)
    · split <;> exact .inl ⟨_, rfl⟩

/-- Where nothing is on its way and nothing is answered, no one has sent anything. -/
theorem State.Unasked.quiet {s : State} {w : Asker} (h : s.dev.answers = [] ∧ ∀ e ∈ s.eps, e.2.pkts = []) : s.Unasked w :=
  ⟨by simp [h.1], fun e m p q => by simp [h.2 e m] at q⟩

/-- An asker that has sent nothing has not made its access before. -/
theorem State.Unasked.sentBefore {s : State} {w : Asker} (h : s.Unasked w) (op : HOp) (va n : Nat) (data : List (BitVec 8)) :
    s.sentBefore w op va n data = none := by
  have ha : s.dev.answers.find? (fun a => decide (a.who = w) && decide (a.va = va) && decide (a.msg.op = op) &&
      decide (a.msg.len = n) && decide (a.msg.data = data)) = none :=
    List.find?_eq_none.2 fun a m => by simp [h.answers a m]
  have hp : (s.eps.findSome? fun (_, e) => e.pkts.find? fun (p : OutPkt) => decide (p.asker = some w) && decide (p.va = va) &&
      decide (p.msg.op = op) && decide (p.msg.len = n) && decide (p.msg.data = data)) = none :=
    List.findSome?_eq_none_iff.2 fun e m => List.find?_eq_none.2 fun p q => by simp [h.packets e m p q]
  simp only [State.sentBefore, ha, hp]

theorem State.Unasked.orSent {s : State} {w : Asker} (h : s.Unasked w) (op : HOp) (va n : Nat) (k : State × Got)
    (data : List (BitVec 8)) : s.orSent w op va n k data = k := by
  simp [State.orSent, h.sentBefore]

theorem State.Unasked.rmwSent {s : State} {t : Nat} (h : s.Unasked (s.asker t)) (va : Nat) : s.rmwSent t va = false := by
  have ha := h.answers
  have hp := h.packets
  simp only [State.rmwSent, Bool.or_eq_false_iff, List.any_eq_false]
  exact ⟨fun a m => by simp [ha a m], fun e m => by
    simp only [List.any_eq_true, not_exists, not_and]
    exact fun p q => by simp [hp e m p q]⟩

/-- A thread's bundle notes nothing: its answers go with its turn. -/
@[simp] theorem State.noteAsk_thread (s : State) (t inc : Nat) (m : NetMsg) (found : Bool) :
    s.noteAsk (.thread t inc) m found = s := rfl

/-- A read of a multicast set with no poison in its entry goes on with its members, the entry read. -/
theorem State.withSet_clean {s : State} {set : Nat} {cores : List Nat} {k : State → List Nat → State}
    (hp : s.memPoisoned ((s.ctx s.cur.ctx).multicast % 2 ^ 40 + 256 * set) 256 = false)
    (hm : s.multicastSet s.cur.ctx set = some cores) :
    s.withSet set k = k ((List.range 4).foldl (fun u i => u.replied s.iss.thr
      ((s.ctx s.cur.ctx).multicast % 2 ^ 40 + 256 * set + 64 * i)) s) cores := by
  simp only [State.withSet, hp, hm]; rfl

end Sys2Proof.Machine
end

