-- ==== Sys2Proof/Tests/Slice0.lean ====
section
/-! SUPPORT. Tests of the model on single words and single steps, with results from the spec's worked examples or by hand
from its rules; ill-formed instructions; and a state and operands that meet the hypotheses of each statement. -/

namespace Sys2Proof.Tests

open Sys2Proof Sys2Proof.Machine

set_option Elab.async false

/-! ### States the tests start from -/

/-- The device with its first thread as given, about to issue the bundle at `pc`. -/
def one (th : Thread) (pc : W64 := 0x20000) : State :=
  { State.reset with thr := [(0, th)], iss := { thr := 0, b := { pc := pc, words := [0x058A], la := 0 } } }

/-- A thread in system mode whose s1 to s4 are as given. -/
def task (v1 v2 v3 v4 : W64) : Thread :=
  { st := .runnable, tstate := 4, inc := 1, s := [(1, v1), (2, v2), (3, v3), (4, v4)] }

/-- What the issuing thread holds after an instruction. -/
def after (i : Instr) (s : State) : Thread :=
  match exec i s with
  | .next t => t.cur
  | _ => {}

/-- The values of the youngest outstanding bundle after an instruction. -/
def late (i : Instr) (s : State) : List (Reg × V512) :=
  match (after i s).pend.getLast? with
  | some p => p.vals
  | none => []

/-- The state after an instruction. -/
def then_ (i : Instr) (s : State) : State :=
  match exec i s with
  | .next t => t
  | _ => State.reset

/-- The state with a remote access of the issuing thread not yet performed. -/
def busy (s : State) : State := s.setCur { s.cur with remOut := [1] }

/-- Who asks, in the tests below: the task of `one`. -/
def who : Owner := { thr := 0, inc := 1, ctx := 0, vf := 0, grp := none, pc := 0 }

/-! ### Decoding: words the spec's examples give -/

theorem test_decode_sub : decodeWords [0x058A] = some (.ok (.sub 5 4 2) 0, [0x058A]) := by decide +kernel
theorem test_decode_li : decodeWords [0xF800, 0x64FF] = some (.ok (.li 4 255) 0, [0xF800, 0x64FF]) := by decide +kernel
theorem test_decode_addai : decodeWords [0xFA14, 0x7FF0] = some (.ok (.addai 15 15 (BitVec.ofInt 47 (-16))) 0, [0xFA14, 0x7FF0]) := by
  decide +kernel
theorem test_decode_mul : decodeWords [0xFC01, 0x05AC] = some (.ok (.mul 5 5 3) 0, [0xFC01, 0x05AC]) := by decide +kernel
theorem test_decode_divw : decodeWords [0xFA40, 0xFC41, 0x0DDC] = some (.ok (.divw 5 6 7) 2, [0xFA40, 0xFC41, 0x0DDC]) := by
  decide +kernel
theorem test_decode_bexti : decodeWords [0xF810, 0xFC01, 0x2DCC] = some (.ok (.bexti 5 6 524) 0, [0xF810, 0xFC01, 0x2DCC]) := by
  decide +kernel
theorem test_decode_fadd : decodeWords [0xFA40, 0xFC01, 0x4DDC] = some (.ok (.fadd 5 6 7 1) 0, [0xFA40, 0xFC01, 0x4DDC]) := by
  decide +kernel
theorem test_decode_amoadd : decodeWords [0xFAC0, 0xFC02, 0x7D58] = some (.ok (.amoadd 5 2 6 3) 0, [0xFAC0, 0xFC02, 0x7D58]) := by
  decide +kernel
theorem test_decode_fence : decodeWords [0xFC02, 0xA063] = some (.ok (.fence 99) 0, [0xFC02, 0xA063]) := by decide +kernel
theorem test_decode_vsra : decodeWords [0xFC03, 0x394F] = some (.ok (.vsra 3 1 2 3 0) 0, [0xFC03, 0x394F]) := by decide +kernel
theorem test_decode_vsel : decodeWords [0xFA40, 0xFC03, 0xC14C] = some (.ok (.vsel 1 2 3 1) 0, [0xFA40, 0xFC03, 0xC14C]) := by
  decide +kernel
theorem test_decode_vlds : decodeWords [0xFC04, 0x114E] = some (.ok (.vlds 2 1 2 3 0) 0, [0xFC04, 0x114E]) := by decide +kernel
theorem test_decode_vscatl : decodeWords [0xFC04, 0x494D] = some (.ok (.vscatl 1 1 2 3 0) 0, [0xFC04, 0x494D]) := by decide +kernel
theorem test_decode_fmtset : decodeWords [0xFC05, 0x0054] = some (.ok (.fmtset 2 5) 0, [0xFC05, 0x0054]) := by decide +kernel
theorem test_decode_mdrainw : decodeWords [0xFC06, 0x1BC1] = some (.ok (.mdrainw 3 6) 0, [0xFC06, 0x1BC1]) := by decide +kernel
theorem test_decode_neteval : decodeWords [0xFA20, 0xFC06, 0x3488] = some (.ok (.neteval 20 4 2) 0, [0xFA20, 0xFC06, 0x3488]) := by
  decide +kernel
theorem test_decode_waitgen : decodeWords [0xFC07, 0x2DDC] = some (.ok (.waitgen 5 6 7) 0, [0xFC07, 0x2DDC]) := by decide +kernel
theorem test_decode_spawn : decodeWords [0xFC08, 0x054C] = some (.ok (.spawn 5 2 3) 0, [0xFC08, 0x054C]) := by decide +kernel
theorem test_decode_ldlod : decodeWords [0xFC09, 0x0EA8] = some (.ok (.ldlod 6 5 2) 0, [0xFC09, 0x0EA8]) := by decide +kernel
theorem test_decode_triemit : decodeWords [0xFC09, 0x20DC] = some (.ok (.triemit 6 7) 0, [0xFC09, 0x20DC]) := by decide +kernel
theorem test_decode_hget : decodeWords [0xFC0A, 0x08C0] = some (.ok (.hget 6) 0, [0xFC0A, 0x08C0]) := by decide +kernel
theorem test_decode_csrr : decodeWords [0xFC0F, 0x0530] = some (.ok (.csrr 5 0x030) 0, [0xFC0F, 0x0530]) := by decide +kernel
/-- R42: a REG word twice is reason 2 at the second; page 11 is reserved, reason 7. -/
theorem test_decode_refuses : (decodeWords [0xFC0B, 0x0000]).map (·.1) = some (.bad 1 7) := by decide +kernel

/-! ### Ill-formed instructions: one term for each check -/

theorem smoke_signed_high : (Instr.addi 1 1 (2 ^ 40)).wf = false := by decide +kernel
theorem smoke_signed_low : (Instr.bz 1 (BitVec.ofInt 47 (-(2 ^ 40) - 1))).wf = false := by decide +kernel
theorem smoke_signed_high_register : (Instr.li 9 (2 ^ 34)).wf = false := by decide +kernel
theorem smoke_unsigned : (Instr.ori 1 1 (2 ^ 41)).wf = false := by decide +kernel
theorem smoke_shift : (Instr.slli 1 1 64).wf = false := by decide +kernel
theorem smoke_field_length : (Instr.bexti 1 1 63).wf = false := by decide +kernel
theorem smoke_field_length_long : (Instr.bextsi 1 1 (65 * 64)).wf = false := by decide +kernel
theorem smoke_coordinate : (Instr.crd 1 16).wf = false := by decide +kernel
theorem smoke_scope : (Instr.ldb 1 1 5 0).wf = false := by decide +kernel
theorem smoke_fence : (Instr.fence 160).wf = false := by decide +kernel
theorem smoke_handler : (Instr.msg 0 1 2).wf = false := by decide +kernel
theorem smoke_payload : (Instr.msg 1 1 28).wf = false := by decide +kernel
theorem smoke_install : (Instr.hset 1 8).wf = false := by decide +kernel
theorem smoke_pair : (Instr.cvtef 1 2 3).wf = false := by decide +kernel
theorem smoke_class : (Instr.waittl 5 1).wf = false := by decide +kernel
theorem smoke_counter : (Instr.tlrd 1 5).wf = false := by decide +kernel
theorem smoke_texture_result : (Instr.texldNearest 28 0 0 0).wf = false := by decide +kernel
theorem smoke_texture_coordinates : (Instr.texldBilinear 0 30 0 0).wf = false := by decide +kernel
theorem smoke_block : (Instr.ldlod 31 0 0).wf = false := by decide +kernel
theorem smoke_system_register : (Instr.csrr 1 4096).wf = false := by decide +kernel
theorem smoke_trap : (Instr.trap 256).wf = false := by decide +kernel

/-! ### Single steps -/

/-- R66: s0 is not written. -/
theorem test_add_wraps : (after (.add 3 1 2) (one (task (BitVec.allOnes 64) 2 0 0))).readS 3 = 1 := by decide +kernel
theorem test_add_to_zero : (after (.add 0 1 2) (one (task 5 2 0 0))).readS 0 = 0 := by decide +kernel
theorem test_addw_sign : (after (.addw 3 1 2) (one (task 0x7FFFFFFF 1 0 0))).readS 3 = 0xFFFFFFFF80000000 := by decide +kernel
theorem test_sub_order : (after (.sub 3 1 2) (one (task 5 7 0 0))).readS 3 = 0xFFFFFFFFFFFFFFFE := by decide +kernel
theorem test_sll_64 : (after (.sll 3 1 2) (one (task 1 64 0 0))).readS 3 = 0 := by decide +kernel
theorem test_sra_all : (after (.sra 3 1 2) (one (task 0x8000000000000000 100 0 0))).readS 3 = BitVec.allOnes 64 := by decide +kernel
theorem test_ror_mod : (after (.ror 3 1 2) (one (task 1 65 0 0))).readS 3 = 0x8000000000000000 := by decide +kernel
theorem test_clt_signed : (after (.clt 3 1 2) (one (task (BitVec.allOnes 64) 0 0 0))).readS 3 = 1 := by decide +kernel
theorem test_cltn_unsigned : (after (.cltn 3 1 2) (one (task (BitVec.allOnes 64) 0 0 0))).readS 3 = 0 := by decide +kernel
theorem test_ori_zero_extends : (after (.ori 3 1 (BitVec.ofNat 47 (2 ^ 41 - 1))) (one (task 0 0 0 0))).readS 3 = 0x1FFFFFFFFFF := by
  decide +kernel
theorem test_mulh : (after (.mulh 3 1 2) (one (task (BitVec.allOnes 64) 2 0 0))).readS 3 = BitVec.allOnes 64 := by decide +kernel
/-- R79: the most negative number divided by -1 is itself. -/
theorem test_div_overflow : late (.div 3 1 2) (one (task 0x8000000000000000 (BitVec.allOnes 64) 0 0)) =
    [(.s 3, 0x8000000000000000)] := by decide +kernel
/-- R79: a zero divisor traps with cause 3 and the dividend; TVEC1 is 0x4000. -/
theorem test_div_zero : (fun (t : Thread) => (t.pc, t.bank1.tcause, t.bank1.tval, t.tstate))
    (after (.div 3 1 2) (one { task 77 0 0 0 with bank1 := { tvec := 0x4000 } })) = (0x4000, 3, 77, 13) := by decide +kernel
theorem test_ctz_zero : (after (.ctz 3 1) (one (task 0 0 0 0))).readS 3 = 64 := by decide +kernel
theorem test_bext_cut : (after (.bext 3 1 2) (one (task 0xF000000000000000 0x103C 0 0))).readS 3 = 0xF := by decide +kernel
theorem test_fshl : (after (.fshl 3 1 2) (one (task 0x8000000000000000 4 1 0))).readS 3 = 0x18 := by decide +kernel
/-- R76: a branch counts words from its own address. -/
theorem test_branch_back : (after (.bnz 1 (BitVec.ofInt 47 (-2))) (one (task 1 0 0 0))).pc = 0x1FFFC := by decide +kernel
theorem test_branch_not_taken : (after (.bz 1 (BitVec.ofInt 47 (-2))) (one (task 1 0 0 0))).pc = 0x20002 := by decide +kernel
/-- R78: JALR reads its target before it writes the link. -/
theorem test_jalr_same : (fun (t : Thread) => (t.pc, t.readS 1)) (after (.jalr 1 1) (one (task 0x30000 0 0 0))) = (0x30000, 0x20002) := by
  decide +kernel
/-- R74: the index is scaled and signed, modulo 2^72. -/
theorem test_adda8 : (after (.adda8 1 1 1) (one (task (BitVec.allOnes 64) 0 0 0))).readA 1 = 0xFFFFFFFFFFFFFFFFF8 := by decide +kernel
/-- R314: TRAP saves the next address; RETT goes back with the mode kept in pm. -/
theorem test_trap : (fun (t : Thread) => (t.pc, t.bank1.tcause, t.bank1.tepc, t.bank1.tval, t.tstate))
    (after (.trap 5) (one { task 0 0 0 0 with tstate := 0, bank1 := { tvec := 0x4000 } })) = (0x4000, 13, 0x20002, 5, 5) := by
  decide +kernel
theorem test_rett : (fun (t : Thread) => (t.pc, t.tstate))
    (after .rett (one { task 0 0 0 0 with tstate := 5, bank1 := { tepc := 0x1234 } })) = (0x1234, 0) := by decide +kernel
theorem test_csrr_user : (after (.csrr 3 0x030) (one { task 0 0 0 0 with tstate := 0, bank1 := { tvec := 0x4000 } })).bank1.tval =
    0x1030 := by decide +kernel
/-- R140, R148: bytes of the own local store are little-endian; an offset past its end traps LOCAL. -/
theorem test_stl : ((then_ (.stl 1 2 1 0) (one (task 0x100 0xABCD 0 0))).lsRead 0 0x101 1) = 0xAB := by decide +kernel
theorem test_ldl_end : (after (.ldl 3 3 1 0) (one { task 0x60000 0 0 0 with bank1 := { tvec := 0x4000 } })).bank1.tcause = 6 := by
  decide +kernel
/-- R161: a credit past the target moves the generation on and keeps the rest. -/
theorem test_credit : awCredit (3 + 2 * 2 ^ 32 + 7 * 2 ^ 64) 5 = 3 + 1 * 2 ^ 32 + 9 * 2 ^ 64 := by decide +kernel
/-- R117: lanes wrap at their width; a masked-off lane is kept. -/
theorem test_vadd_lane : (fun (v : V512) => (laneOf 8 v 0, laneOf 8 v 1))
    ((after (.vadd 0 1 2 3 2) (one { task 0 0 0 0 with v := [(1, 0x7700), (2, 0xFFFF), (3, 0x0202)], m := [(2, 1)] })).readV 1) =
    (1, 0x77) := by decide +kernel
/-- R119: bits past the element count are cleared. -/
theorem test_vceq_clears : (after (.vceqE32 1 2 3 0) (one { task 0 0 0 0 with m := [(1, BitVec.allOnes 64)] })).readM 1 = 0xFFFF := by
  decide +kernel
/-- R108: 1.0 + 1.0 in FP32 is 2.0. -/
theorem test_fadd : (after (.fadd 3 1 2 0) (one (task 0x3F800000 0x3F800000 0 0))).readS 3 = 0x40000000 := by decide +kernel
/-- R180: the worked slice gives 4,096.0, where a sticky sum would round up. -/
theorem test_slice_sum : sliceSum (.fin false 0 0)
    ([.fin false 1 12, .fin false 1 (-12), .fin false 7 (-26), .fin true 7 (-26), .fin false 3 (-26)] ++ List.replicate 43 (.fin false 0 0)) =
    0x45800000 := by decide +kernel
/-- R215: the CRC-32C of the nine digits 1 to 9, the check value of that code. -/
theorem test_crc : crc32c [0x31, 0x32, 0x33, 0x34, 0x35, 0x36, 0x37, 0x38, 0x39] = 0xE3069283#32 := by decide +kernel
/-- 03_thread: QUIT leaves its slot FREE from the next core cycle on, with no register kept. -/
theorem test_quit : after .quit (one (task 1 2 3 4)) = { freed := 1 } := by decide +kernel

/-! ### States and operands that meet the hypotheses of the statements -/

/-- The task of `one` between an upstream link with a value and a downstream link with room. -/
def linked (full : List W64) : State :=
  { one (task 5 7 1 0) with links := [{ ctx := 0, src := 1, dst := 0, vals := [9] }, { ctx := 0, src := 0, dst := 2, vals := full }] }

theorem linked_ready : (linked []).Ready [30, 1] (some 31) :=
  ⟨by decide, by decide, fun _ => ⟨_, rfl, by decide⟩, fun _ => ⟨_, rfl, fun _ => by decide⟩⟩

theorem witness_ScalarResults : (one (task 5 64 0 0)).Ready [1, 2] (some 3) ∧ (linked []).Ready [30, 1] (some 31) ∧
    (one (task 5 0 0 0)).Ready [1] (some 0) ∧ (one (task 5 0 0 0)).Ready [] (some 3) :=
  ⟨.plain (by decide), linked_ready, .plain (by decide), .plain (by decide)⟩

theorem witness_AddressResults : (one (task 5 0 0 0)).Ready [1] none ∧ (one (task 5 0 0 0)).Ready [] (some 29) :=
  ⟨.plain (by decide), .plain (by decide)⟩

theorem witness_BranchesAndJumps : let s := one (task 0x30000 0 0 0)
    let i : Imm := BitVec.ofInt 47 (-2)
    ((0x1FFFC#64).toNat : Int) = (s.iss.b.pc.toNat : Int) + 2 * i.toInt ∧ s.Ready [1] none ∧ s.Ready [1] (some 1) ∧
      (s.src 1).getLsbD 0 = false := ⟨by decide, .plain (by decide), .plain (by decide), by decide⟩

theorem witness_PageOneResults : let s := one (task 0x8000000000000000 4 1 0)
    s.Ready [1, 2] (some 3) ∧ s.Ready [1] (some 3) ∧ s.Ready [3, 1, 2] (some 3) ∧ s.src 1 ≠ 0 ∧ s.src 5 = 0 :=
  ⟨.plain (by decide), .plain (by decide), .plain (by decide), by decide, by decide⟩

theorem witness_Divides : let s := one (task 0x8000000000000000 (BitVec.allOnes 64) 0x100000000 0)
    s.Ready [1, 2] (some 3) false ∧ (s.core s.curCore).divBusy ≤ s.cycle ∧ s.src 2 ≠ 0 ∧ s.src 0 = 0 ∧
      (s.src 2).setWidth 32 ≠ (0 : BitVec 32) ∧ (s.src 3).setWidth 32 = (0 : BitVec 32) :=
  by and_intros <;> first | exact .plain (by decide) | decide +kernel

/-- A task of group 0 of kernel 0 on core 0, whose group also holds slot 1 if `more`. -/
def grouped (more : Bool) (v1 v2 : W64) : State :=
  { one { task v1 v2 0 0 with grp := some (0, 0) } with
    thr := (0, { task v1 v2 0 0 with grp := some (0, 0) }) :: (if more then [(1, { grp := some (0, 0) })] else [])
    kernels := [(0, { st := .active, groups := 1, w := 1, p := 1, n := 2 })]
    groups := [(0, { st := .placed, slots := [[0, 1]] })] }

theorem witness_SpawnStartsTask : let s := grouped true 0 0x4000
    s.Ready [1, 2] (some 3) ∧ (s.src 2).getLsbD 0 = false ∧ s.cur.grp = some (0, 0) ∧ (s.group? 0 0).isSome ∧
      slotOf s.iss.thr ≠ 7 ∧ (s.src 1).toNat % 8 < (s.kernel 0).w * (s.kernel 0).p ∧ spawnable s (0, 0) 1 ∧
      ∀ u, u < 1 → coreOf u = 0 → ¬spawnable s (0, 0) u := by
  refine ⟨.plain (by decide), by decide, by decide, by decide, by decide, by decide, ⟨by decide, by decide, by decide⟩, ?_⟩
  intro u hu _ h
  obtain rfl : u = 0 := by omega
  exact absurd h.2.1 (by decide)

theorem witness_SpawnFindsNone : let s := grouped false 0 0x4000
    s.cur.grp = some (0, 0) ∧ (s.group? 0 0).isSome ∧ (s.src 1).toNat % 8 < (s.kernel 0).w * (s.kernel 0).p ∧
      (∀ u, coreOf u = 0 → ¬spawnable s (0, 0) u) ∧
      (s.kernel 0).w * (s.kernel 0).p ≤ ((grouped false 1 0x4000).src 1).toNat % 8 := by
  refine ⟨by decide, by decide, by decide, ?_, by decide⟩
  intro u _ h
  by_cases hu : u = 0
  · subst hu; exact absurd h.2.1 (by decide)
  · have : (grouped false 0 0x4000).thread u = {} := by
      simp [State.thread, grouped, tget, Ne.symm hu]
    have h3 := h.2.2
    rw [this] at h3
    exact absurd h3 (by decide)

/-- A message from a task of core 1, at core 0, where a task of its context runs if `here`, with a handler installed at `pc`. -/
def mail (l : Load) (here : Bool) (pc : W64) : State :=
  { one (task 0 0 0 0) with
    thr := if here then [(0, task 0 0 0 0), (8, task 0 0 0 0)] else [(8, task 0 0 0 0)]
    ctxs := [(0, { st := .live, handlers := [(1, pc)] })]
    net := [{ owner := { thr := 8, inc := 1, ctx := 0, vf := 0, grp := none, pc := 0 }, src := 1, tgt := 0, num := 1, body := l }] }

/-- A ping that finds its thread on its slot, or saved in group 0 of kernel 0, or nowhere. -/
def pinged (k : PingKind) (here saved : Bool) : State :=
  let g : Group := if saved then { st := .saved, save := { threads := [(0, task 0 0 0 0)] } } else {}
  { mail (.ping k 0) here 0 with kernels := [(0, {})], groups := [(0, g)] }

theorem witness_Pings : (one (task 12287 0 0 0)).Ready [1] none ∧ (one (task 12287 0 0 0)).cur.tstate.getLsbD 2 = true ∧
    ((one (task 12287 0 0 0)).src 1).toNat % 16384 < 12288 ∧
    ∀ k ∈ [PingKind.wake, .resume, .abort], ∀ here saved,
      let s := pinged k here saved
      s.net.find? (fun x => decide (x.body = .ping k 0) && x.first s.net) = s.net.head? ∧ s.net.length = 1 ∧
      (here = true → (s.thread 0).st ≠ .free ∧ (s.thread 0).ctx = 0) ∧ (here = false → (s.thread 0).st = .free) ∧
      (s.savedAt 0 0).isSome = saved ∧
      (tfind ((s.endSavedLinks 0 0).changeSaved 0 0 fun th => { grp := th.grp }).groups 0).isSome = true := by
  refine ⟨.plain (by decide), by decide, by decide, by decide +kernel⟩

/-- Two members of a group, of which the second waits in GANG2 if `waits`. -/
def pair (waits : Bool) : State :=
  { one (task 1 2 0 0) with thr := [(0, { task 1 2 0 0 with grp := some (0, 0) }),
      (8, { task 1 2 0 0 with
        grp := some (0, 0), st := if waits then .waiting else .runnable,
        wait := if waits then some { b := {}, w := .gang 2 } else none })] }

theorem witness_GangForms : slotOf (pair true).iss.thr ≠ 7 ∧
    (∀ w, ∀ k, k < 2 → ((((pair w).leave 0 true).thread (gangMember 0 2 k)).st ≠ .free ∧
      (((pair w).leave 0 true).thread (gangMember 0 2 k)).grp = ((pair w).leave 0 true).cur.grp)) ∧
    (∀ k, k < 2 → gangMember 0 2 k ≠ 0 → (((pair true).leave 0 true).thread (gangMember 0 2 k)).inGangWait 2 = true) ∧
    (∃ k, k < 2 ∧ gangMember 0 2 k ≠ 0 ∧ (((pair false).leave 0 true).thread (gangMember 0 2 k)).inGangWait 2 = false) ∧
    (∃ k, k < 2 ∧ (((one (task 0 0 0 0)).leave 0 true).thread (gangMember 0 2 k)).st = .free) :=
  ⟨by decide, by decide, by decide, ⟨1, by decide⟩, ⟨1, by decide⟩⟩

/-- A thread that waits for something. -/
def waits (w : Wait) : Thread := { task 0 0 0 0 with st := .waiting, wait := some { b := {}, w := w } }

theorem witness_ThreadControl : (one (task 5 0 0 0)).Ready [1] none ∧ slotOf (one (task 5 0 0 0)).iss.thr ≠ 7 ∧
    (one (task 5 0 0 0)).cur.wakePend = false ∧ (one { task 5 0 0 0 with wakePend := true }).cur.wakePend = true ∧
    (let th := (one { task 0 0 0 0 with st := .sleeping, sleepEnd := some 0 }).thread 0
     th.st = .sleeping ∧ th.sleepEnd = some 0 ∧ 0 ≤ State.reset.cycle) ∧
    (let s := { linked [] with thr := [(0, waits .pop)] }
     (s.thread 0).st = .waiting ∧ (s.upLink 0).map (·.vals) = some [9]) ∧
    (let s := { linked [1] with thr := [(0, waits .push)] }
     (s.thread 0).st = .waiting ∧ (s.downLink 0).map (·.vals) = some [1]) ∧
    (let s := { grouped true 0 0 with thr := [(0, { waits (.spawn 0 0x4000 5) with grp := some (0, 0) }), (1, { grp := some (0, 0) })] }
     (s.thread 0).st = .waiting ∧ (s.thread 0).grp = some (0, 0) ∧ s.freeSlot 0 (0, 0) = some 1 ∧ (s.thread 0).remOut = [] ∧
       s.downLink 0 = none ∧ ({ s with links := (linked []).links } : State).downLink 0 = some { ctx := 0, src := 0, dst := 2 }) ∧
    (∀ k, k < 2 → ({ pair true with thr := [(0, waits (.gang 2)), (8, waits (.gang 2))] }.thread (gangMember 0 2 k)).inGangWait 2 =
      true) :=
  ⟨.plain (by decide), by and_intros <;> decide +kernel⟩

/-- A thread with one outstanding bundle. -/
def pending (p : Pend) : Thread := { task 0 0 0 0 with pend := [p] }

theorem witness_LongLatencyAndLimits :
    (let p : Pend := { b := {}, win := 0, dests := [.s 5], vals := [(.s 5, 7)], due := .ready 0 }
     ((one (pending p)).thread 0).pend[0]? = some p ∧ p.due = .ready 0 ∧ p.err = none ∧ ∀ e ∈ p.vals, e.1 ≠ Reg.s 31) ∧
    (∀ full ∈ [[], List.replicate 16 (1 : W64)],
      let p : Pend := { b := {}, win := 0, dests := [.s 31], vals := [(.s 31, 7)], due := .ready 0 }
      (({ linked full with thr := [(0, pending p)] } : State).thread 0).pend[0]? = some p ∧
        (({ linked full with thr := [(0, pending p)] } : State).downLink 0).map (·.vals.length) = some full.length) ∧
    (({ linked [] with thr := [(0, { task 0 0 0 0 with remOut := [1] })] } : State).thread 0).remOut ≠ [] ∧
    (one (pending { b := {}, win := 0, dests := [], due := .ready 0 })).downLink 0 = none := by decide +kernel

/-- The first 64 GiB mapped onto themselves, with a task whose a1 is `a`. -/
def mapped (a : VAddr) (v1 v2 : W64) : State :=
  let s := State.reset.withFetchWord 16 0
  { s with agenda := [], thr := [(0, { task v1 v2 0 0 with a := [(1, a)] })], iss := (one {}).iss }

/-- Was every byte answered, without an error? -/
def isOk : Got → Bool
  | .ok _ none => true
  | _ => false

theorem witness_Loads : (mapped 0x20008 0 0).Ready [] (some 5) false ∧
    (let s := mapped 0x20008 0 0
     (s.cur.readA 1 + BitVec.ofInt 72 ((BitVec.ofInt 47 (-1) : Imm).toInt * (8 : Nat))).toNat % 8 = 0 ∧
       isOk (s.readAt 0 0x20000 8).2 = true ∧ isOk ((s.flushL1 0).readAt 0 0x20000 16).2 = true ∧
       (s.xlate 0 0 .load 0x20000).2 = .ok 0 0x20000 0 ∧ (s.xlate 0 0 .load 0x20000).1.memPoisoned 0x20000 8 = false ∧
       ∀ e ∈ ((s.xlate 0 0 .load 0x20000).1.core (coreOf 0)).l1, e.addr ≠ 0x20000 / 64 * 64) ∧
    (let e : Line := { addr := 0x20000, data := 7 }
     let s : State := { mapped 0x20008 0 0 with cores := [(0, { l1 := [e] })] }
     s.l1Hit 0 0x20008 (s.floor 0 (sliceOf 0x20008)) = some e) ∧
    (mapped 0x20008 0 0).Unasked ((mapped 0x20008 0 0).asker 0) :=
  ⟨.plain (by decide), by decide +kernel, by decide +kernel, .quiet (by decide +kernel)⟩

theorem witness_Stores : (mapped 0x20008 0 0).Ready [1] none ∧
    (let s := mapped 0x20008 0 0
     (s.cur.readA 1 + BitVec.ofInt 72 ((0 : Imm).toInt * (8 : Nat))).toNat % 8 = 0 ∧
       (s.xlate s.curCore s.cur.ctx .store 0x20008).2 = .ok s.dev.node 0x20008 0 ∧
       (s.core 0).dtlb.length < 128 ∧ (s.core 0).itlb.length < 64 ∧ (s.clu 0).tlb.length < 4096) ∧
    (let s := (mapped 0x20008 0 0).ackAll 0
     (s.xlate s.curCore s.cur.ctx .store 0x20008).2 = .ok s.dev.node 0x20008 0) ∧
    (busy (mapped 0x20008 0 0)).Ready [1] none ∧ (busy (mapped 0x20008 0 0)).cur.remOut ≠ [] ∧
    (mapped 0x20008 0 0).Unasked ((mapped 0x20008 0 0).asker 0) :=
  ⟨.plain (by decide), by decide +kernel, by decide +kernel, .plain (by decide), by decide +kernel, .quiet (by decide +kernel)⟩

theorem witness_MisalignedAccessTraps : (mapped 0x20001 0 0).Ready [] (some 5) false ∧ (mapped 0x20001 0 0).Ready [1] none ∧
    (mapped 0x20001 0 0).Ready [1] (some 5) false ∧ (mapped 0x20001 0 0).Ready [5, 1] (some 5) false ∧
    ((mapped 0x20001 0 0).cur.readA 1).toNat % 8 ≠ 0 ∧
    (∀ z ∈ [2, 4, 8, 16], ((mapped 0x20001 0 0).cur.readA 1 + BitVec.ofInt 72 ((0 : Imm).toInt * (z : Nat))).toNat % z ≠ 0) :=
  ⟨.plain (by decide), .plain (by decide), .plain (by decide), .plain (by decide), by decide +kernel, by decide +kernel⟩

theorem witness_Atomics : (mapped 0x20008 0 0).Ready [1] (some 5) false ∧ (mapped 0x20008 0 0).Ready [5, 1] (some 5) false ∧
    (let s := mapped 0x20008 0 0
     (s.cur.readA 1).toNat % 8 = 0 ∧ s.onFar .atomic 0x20008 = false ∧ s.cur.remOut = [] ∧
       isOk (((s.ackAll 0).fromNow 0).rmwAt 0 0x20008 fun x => some (x + 1)).2 = true ∧
       isOk (((s.ackAll 0).flushL1 0).rmwAt 0 0x20008 fun x => some (x + 1)).2 = true ∧
       isOk (s.rmwAt 0 0x20008 fun _ => none).2 = true ∧
       (s.xlate (coreOf 0) (s.thread 0).ctx .atomic 0x20008).2 = .ok s.dev.node 0x20008 0 ∧
       (s.xlate (coreOf 0) (s.thread 0).ctx .atomic 0x20008).1.memPoisoned 0x20008 8 = false) ∧
    (mapped 0x20008 0 0).Unasked ((mapped 0x20008 0 0).asker 0) :=
  ⟨.plain (by decide), .plain (by decide), by decide +kernel, .quiet (by decide +kernel)⟩

theorem witness_LocalAccesses : (one (task 0x5FFF8 0 0 0)).Ready [1] (some 5) false ∧ (one (task 0x5FFF8 0 0 0)).Ready [5, 1] none ∧
    (one (task 0x5FFF8 0 0 0)).Ready [1, 2] (some 5) false ∧ (one (task 0x5FFF8 0 0 0)).Ready [5, 1, 2] (some 5) false ∧
    (let s := one (task 0x5FFF8 0 0 0)
     (s.core s.curCore).errs.faults = [] ∧ (s.core s.curCore).lsPoison = [] ∧ (s.src 1).toNat % 8 = 0 ∧ (s.src 1).toNat + 8 ≤ 0x60000) ∧
    ((one (task 0x60001 0 0 0)).src 1).toNat % 2 ≠ 0 ∧ ((one (task 0x60000 0 0 0)).src 1).toNat % 8 = 0 ∧
    (busy (one (task 0x5FFF8 0 0 0))).Ready [5, 1, 2] (some 5) false ∧ (busy (one (task 0x5FFF8 0 0 0))).Ready [5, 1] none ∧
    (busy (one (task 0x5FFF8 0 0 0))).Ready [1, 2] (some 5) false ∧ (busy (one (task 0x5FFF8 0 0 0))).cur.remOut ≠ [] ∧
    0x60000 < ((one (task 0x60000 0 0 0)).src 1).toNat + 1 :=
  by and_intros <;> first | exact .plain (by decide) | decide +kernel

/-- The message is the oldest between its cores, not held, with slot 7 free and a task of its context there if `here`. -/
def mailOk (l : Load) (here : Bool) (pc : W64) : Bool :=
  let s := mail l here pc
  [Load.builtin, Load.handled].any (fun kind => kind l &&
    (takeMsg 1 0 (fun x => kind x.body && !x.held && x.cleared s.net) [] s.net).isSome) && s.isFree 7 && decide (s.hasTask 0 0 = here) &&
    (s.core 0).errs.faults.isEmpty && (s.core 0).lsPoison.isEmpty

theorem witness_RemoteAndMessages : (one (task 1535 0x5FFF8 0 0)).Ready [1, 2] (some 5) false ∧
    (one (task 1535 0x5FFF8 0 0)).Ready [5, 1, 2] none ∧ (one (task 1535 0x5FFF8 0 0)).Ready [5, 1, 2] (some 5) false ∧
    (one (task 0 0 0 0)).Ready [1] none ∧
    (let s := one (task 1535 0x5FFF8 0 0)
     (s.src 1).toNat < 1536 ∧ (s.src 2).toNat % 8 = 0 ∧ (s.src 2).toNat + 8 ≤ 0x60000 ∧ (s.src 5).getLsbD 0 = false) ∧
    (let k : Handling := { sender := 9, third := 0x5FFF8 }
     (one { task 0 0 0 0 with hand := some k }).cur.hand = some k ∧ k.replied = false ∧ k.third.toNat % 8 = 0 ∧
       k.third.toNat + 8 ≤ 0x60000) ∧
    1536 ≤ ((one (task 1536 0x5FFF9 0 0)).src 1).toNat ∧ ((one (task 0 0x5FFF9 0 0)).src 2).toNat % 2 ≠ 0 ∧
    0x60000 < ((one (task 0 0x60000 0 0)).src 2).toNat + 1 ∧ ((one (task 0 0x60000 0 0)).src 2).toNat % 8 = 0 ∧
    (one (task 0 0 0 0)).cur.hand = none ∧ ((one (task 1 0 0 0)).src 1).getLsbD 0 = true ∧
    (let k : Handling := { sender := 9, third := 1, replied := true }
     (one { task 0 0 0 0 with hand := some k }).cur.hand = some k ∧ k.third.toNat % 8 ≠ 0) ∧
    (let k : Handling := { sender := 9, third := 0x60000 }
     (one { task 0 0 0 0 with hand := some k }).cur.hand = some k ∧ k.third.toNat % 8 = 0 ∧ 0x60000 < k.third.toNat + 8) ∧
    (mail (.radd 20 7 false) false 0).savedHome 0 0 16 16 = none ∧
    (let s := one (task 0 0 0 0)
     (s.core 0).dtlb.any (·.covers 0 0) = false ∧ (s.clu 0).tlb.any (·.covers 0 0) = false) ∧
    (let s : State := { one (task 0 0 0 0) with clus := [(0, { tlb := [{ ctx := 0, lvl := 0, page := 0, leaf := 0, pte := 0 }] })] }
     (s.clu 0).tlb.any (·.covers 0 0) = true) ∧
    [Load.rld 8 8, .rst 8 8 7, .radd 20 7 true, .radd 8 7 false, .reply 8 7 3, .msg 1 7 8 9].all (fun l =>
      mailOk l true 0 && mailOk l true 0x4000 && mailOk l false 0) = true :=
  by and_intros <;> first | exact .plain (by decide) | decide +kernel

theorem witness_FencesAndCaches :
    (let s := one (task 0 0 0 0)
     ((99 : Imm).toNat / 16 % 2 = 0) ∧ ((115 : Imm).toNat / 16 % 2 = 1) ∧ s.cur.remOut = [] ∧ s.cur.remErr = []) ∧
    (one { task 0 0 0 0 with remOut := [1] }).cur.remOut ≠ [] ∧
    (let e : Nat × Err := (1, { cause := 15 })
     (one { task 0 0 0 0 with remErr := [e] }).cur.remErr = [e] ∧ (one { task 0 0 0 0 with remErr := [e] }).cur.remOut = []) ∧
    (one { task 0 0 0 0 with far := true }).cur.far = true ∧
    (let e : StoreEnt := { thr := 0, inc := 1, vf := 0, addr := 0x400, bytes := [1], moment := 1 }
     let s : State := { State.reset with cores := [(0, { path := [.inval 64 1, .ack e] }), (1, { path := [.ack e, .inval 64 1] })] }
     (s.core 0).path = [.inval 64 1, .ack e] ∧ (s.core 1).path = [.ack e, .inval 64 1] ∧
       (FromSlice.inval 64 1).slice ≠ sliceOf e.addr) := by decide +kernel

theorem witness_ArrivalWords : (one (task 0x10 5 3 0)).Ready [1, 2] none ∧ (one (task 0x10 5 3 0)).Ready [1, 2] (some 5) ∧
    (one (task 3 0x10 3 0)).Ready [3, 1, 2] none ∧
    (let s := one (task 0x5FFF0 (BitVec.ofInt 64 (-1)) 3 0)
     (s.src 1).toNat % 16 = 0 ∧ (s.src 1).toNat + 16 ≤ 0x60000 ∧ (s.core s.curCore).errs.faults = [] ∧
       (s.core s.curCore).lsPoison = [] ∧
       1 ≤ (BitVec.ofNat 32 (s.lsRead 0 0x5FFF8 4) - (s.src 2).setWidth 32).toNat ∧
       (BitVec.ofNat 32 (s.lsRead 0 0x5FFF8 4) - (s.src 2).setWidth 32).toNat ≤ 2 ^ 31) ∧
    (let s := one (task 0x10 0 3 0)
     BitVec.ofNat 32 (s.lsRead 0 0x18 4) = (s.src 2).setWidth 32) ∧
    (let s := one (task 0x10 1 3 0)
     2 ^ 31 < (BitVec.ofNat 32 (s.lsRead 0 0x18 4) - (s.src 2).setWidth 32).toNat) ∧
    ((one (task 1535 0x10 0 0)).src 1).toNat < 1536 ∧
    (let s := one (waits (.generation 0x10 0xFFFFFFFF 5))
     (s.thread 0).st = .waiting ∧ s.downLink 0 = none ∧ (s.core 0).errs.faults = [] ∧ (s.core 0).lsPoison = [] ∧ 1 ≤ (BitVec.ofNat 32 (s.lsRead (coreOf 0) 0x18 4) - 0xFFFFFFFF#32).toNat) ∧
    (let s : State := { linked [] with thr := [(0, waits (.generation 0x10 0xFFFFFFFF 31))] }
     (s.thread 0).st = .waiting ∧ (s.downLink 0).map (·.vals) = some [] ∧ (s.thread 0).remOut = []) ∧
    (let s := mail (.credit 0x10 3) true 0
     (takeMsg 1 0 (fun x => x.body.credits && !x.held && x.cleared s.net) [] s.net).isSome ∧ s.isFree 7 = true ∧ s.hasTask 0 0 = true ∧
       (s.core 0).errs.faults = []) ∧
    (let s := mail (.credit 0x10 3) false 0
     (takeMsg 1 0 (fun x => x.body.credits && !x.held && x.cleared s.net) [] s.net).isSome ∧ s.isFree 7 = true ∧
       s.hasTask 0 0 = false ∧ s.savedHome 0 0 0x10 16 = none) :=
  by and_intros <;> first | exact .plain (by decide) | decide +kernel

/-- A configured multicast set: the entry of set 3 in memory names core 0 alone, with this memory poisoned. -/
def multicasts (poison : List Nat) : State :=
  { one (task 3 0x10 3 0) with
    ctxs := [(0, { st := .live, multicast := 0x4000 })]
    mem := putBytes [] (0x4000 + 3 * 256) (toBytes 256 (2 ^ 1536 + 1)), poison := poison }

theorem witness_ArrivalMulticast : ((multicasts []).multicastSet (multicasts []).cur.ctx 3).isSome = true ∧
    ((multicasts []).src 1).toNat % 64 = 3 ∧ (multicasts []).memPoisoned 0x4300 256 = false ∧
    (multicasts [0x43F8]).memPoisoned 0x4300 256 = true := by decide +kernel

theorem witness_ChainLinks :
    (let s : State := { one { task 0x4001 0 0 0 with grp := some (0, 0) } with
      thr := [(0, { task 0x4001 0 0 0 with grp := some (0, 0) }), (1, { task 0 0 0 0 with grp := some (0, 0) })] }
     (s.src 1).getLsbD 14 = true ∧ (s.src 1).toNat % 16384 ≠ 0 ∧ (s.src 1).toNat % 16384 < 12288 ∧ s.cur.grp ≠ none ∧
       (s.thread 1).grp = s.cur.grp ∧ 1 / 64 = 0 / 64 ∧ s.upLink 1 = none ∧ s.downLink 0 = none) ∧
    ((linked []).src 1).getLsbD 14 = false ∧ ((linked []).downLink 0).map (·.vals) = some [] ∧
    ((linked [1]).downLink 0).map (·.vals) = some [1] ∧ (one (task 0 0 0 0)).downLink 0 = none ∧
    (let s := { linked [] with thr := [(0, waits .disconnect)] }
     (s.thread 0).st = .waiting ∧ (s.downLink 0).map (·.vals) = some []) ∧
    ((linked []).src 3).getLsbD 0 = true ∧ ((linked []).src 4).getLsbD 0 = false := by decide +kernel

theorem witness_PrivilegeTraps : (one { task 0 0 0 0 with tstate := 0 }).cur.tstate.getLsbD 2 = false ∧
    (one (task 0 0 0 0)).cur.tstate.getLsbD 2 = true ∧ (one (task 0 0 0 0)).cur.tstate.toNat % 4 = 0 ∧
    (one (task 0 0 0 0)).csr 0 0xFFF = none ∧
    (let s : State := { one { task 3 0 0 0 with vf := 1 } with ctxs := [(3, { st := .live, vf := 2 })] }
     s.cur.vf ≠ 0 ∧ (s.ctx ((s.src 1).toNat % 256)).st ≠ .free ∧ (s.ctx ((s.src 1).toNat % 256)).vf ≠ s.cur.vf) := by decide +kernel

theorem witness_SystemRegisters : (one (task 7 0 0 0)).Ready [] (some 5) ∧ (one (task 7 0 0 0)).Ready [1] none ∧
    (one (task 7 0 0 0)).cur.tstate.getLsbD 2 = true ∧ (one (task 7 0 0 0)).cur.vf = 0 ∧ (one (task 7 0 0 0)).dev.vfPhase = 0 ∧
    ({ one (task 7 0 0 0) with dev := { vfPhase := 3 } } : State).dev.vfPhase ≠ 0 ∧
    ((one (task 0xFFF0FFFF 0 0 0)).src 1).toNat / 2 ^ 16 % 16 = 0 :=
  ⟨.plain (by decide), .plain (by decide), by decide, by decide, by decide, by decide, by decide⟩

/-- A thread at a trap level, with a vector for level 1 of its own and one for level 2 of its context, or with none. -/
def atLevel (level : W64) (vectors : Bool) : State :=
  { one { task 0 0 0 0 with tstate := 4 + level, bank1 := { tvec := if vectors then 0x4000 else 0 } } with
    ctxs := [(0, { st := .live, tvec2 := if vectors then 0x5000 else 0 })] }

theorem witness_TrapsTaken : ((atLevel 0 true).thread 0).tstate.toNat % 4 + 1 = 1 ∧ ((atLevel 1 true).thread 0).tstate.toNat % 4 + 1 = 2 ∧
    ((atLevel 0 true).thread 0).gang = none ∧ ((atLevel 1 true).thread 0).pend = [] ∧
    (((atLevel 0 true).thread 0).bank 1).tvec.toNat / 2 ≠ 0 ∧ (((atLevel 1 true).thread 0).bank 2).tvec.toNat / 2 = 0 ∧
    ((atLevel 1 true).ctx 0).tvec2.toNat / 2 ≠ 0 := by decide +kernel

theorem witness_TrapsKill : ((atLevel 2 true).ctx ((atLevel 2 true).thread 0).ctx).st = .live ∧
    2 ≤ ((atLevel 2 true).thread 0).tstate.toNat % 4 ∧ ((atLevel 0 false).thread 0).tstate.toNat % 4 = 0 ∧
    ((atLevel 0 false).thread 0).bank1.tvec.toNat / 2 = 0 ∧ ((atLevel 0 false).ctx 0).tvec1.toNat / 2 = 0 ∧
    ((atLevel 1 false).thread 0).tstate.toNat % 4 = 1 ∧ ((atLevel 1 false).thread 0).bank2.tvec.toNat / 2 = 0 ∧
    ((atLevel 1 false).ctx 0).tvec2.toNat / 2 = 0 ∧ ((atLevel 2 true).thread 0).gang = none ∧
    (let s : State := { grouped true 0 0 with queues := [(5, { st := .running })] }
     (s.thread 0).grp = some (0, 0) ∧ (s.kernel 0).ctx = (s.thread 0).ctx ∧ (s.queue 5).ctx = (s.thread 0).ctx ∧ (s.queue 5).st ≠ .free) :=
  by decide +kernel

theorem witness_TrapAndReturn : ∀ n ∈ [1, 2], let s := one { task 0 0 0 0 with tstate := BitVec.ofNat 64 (4 + n) }
    s.cur.tstate.getLsbD 2 = true ∧ s.cur.gang = none ∧ s.cur.tstate.toNat % 4 = n := by decide +kernel

theorem witness_Translation : (one (task 0x100 0 0 0)).Ready [1] none ∧ (one (task 0x100 0 0 0)).cur.tstate.getLsbD 2 = true ∧
    (one (task 0x100 0 0 0)).cur.vf = 0 ∧ (one (task 0x100 0 0 0)).translated (fun _ => true) = false ∧
    (one (task 0x100 0 0 0)).cur.remOut = [] ∧ (busy (one (task 0x100 0 0 0))).cur.remOut ≠ [] ∧
    (let s := one (pending { b := {}, win := 0, dests := [], due := .msave [] })
     s.translated (fun c => decide (c = 0)) = true ∧ s.translated (fun c => decide (c = 1)) = false) ∧
    (let w : Walk := { core := 0, ctx := 0, va := 0x20000, shoot := 0 }
     let s : State := { mapped 0 0 0 with clus := [(0, { walks := [w] })] }
     (s.clu 0).walks = [w] ∧ w.shoot = s.dev.shoot ∧
       (match s.walk w.ctx w.va with | .leaf .present _ _ _ => true | _ => false) = true ∧ (s.clu 0).tlb = [] ∧ (s.core 0).dtlb = []) ∧
    (let w : Walk := { core := 0, ctx := 0, va := 0x20000, shoot := 0, thr := some 0 }
     let s : State := { mapped 0 0 0 with clus := [(0, { walks := [w, { w with thr := some 1 }] })] }
     (s.clu 0).walks = [w, { w with thr := some 1 }] ∧ w.shoot = s.dev.shoot) ∧
    (let e : TlbEnt := { ctx := 0, lvl := 1, page := 0, leaf := 0, pte := 0, a := true }
     let s : State := { State.reset with clus := [(0, { tlb := [e], walks := [{ core := 0, ctx := 0, va := 0, shoot := 7 }] })],
                                         cycle := 2 ^ 20 }
     (s.tlb (.second 0))[0]? = some e ∧ e.a = true ∧ e.since + 2 ^ 20 ≤ s.cycle ∧ (7 : Nat) ≠ s.dev.shoot) ∧
    (let r : FaultRec := { ctx := 0, data := 0 }
     let s : State := { mapped 0 0 0 with clus := [(0, { frecs := [r] })], ctxs := [(0, { (mapped 0 0 0).ctx 0 with fring := 0x30000 })] }
     (s.clu 0).frecs = [r] ∧ r.retryAt ≤ s.cycle ∧ (s.faultWrite r).isSome) :=
  ⟨.plain (by decide), by and_intros <;> decide +kernel⟩

theorem witness_FloatResults : (one (task 0 0 0 0)).Ready [1, 2] (some 5) ∧ (one (task 0 0 0 0)).Ready [5, 1, 2] (some 5) ∧
    (one (task 0 0 0 0)).Ready [1] (some 5) ∧ acceptFloat ((one (task 0 0 0 0)).slotWord 0) = none ∧
    acceptFloat ((one { task 0 0 0 0 with fsel := 3 }).slotWord 0) = some 8 ∧
    acceptFloat ((one { task 0 0 0 0 with fsel := 31 }).slotWord 0) = some 7 :=
  by and_intros <;> first | exact .plain (by decide) | decide +kernel

/-- The state of `mapped` with bytes at 0x20008. -/
def holding (n x : Nat) (v1 v2 : W64) : State :=
  let s := mapped 0x20008 v1 v2
  { s with mem := putBytes s.mem 0x20008 (toBytes n x) }

theorem witness_FormatTable : (one (task 7 0 0 0)).Ready [1] none ∧ (one (task 7 0 0 0)).Ready [1] (some 5) false ∧
    (one (task 7 0 0 0)).src 1 = 7 ∧ ((mapped 0x20001 8 0).cur.readA 1).toNat % 8 ≠ 0 ∧
    wordCheck 0x120E8349#64 = none ∧ wordCheck 0x80000000#64 = some 1 ∧ kindOf 0x4004#64 = 4 ∧ wordCheck 0x4004#64 = none ∧
    isOk ((holding 8 0x120E8349 8 0).readAt 0 0x20008 8).2 = true ∧ valueCheck 0x120E8349#64 [] = none ∧
    valueCheck 0x4004#64 (List.replicate 16 0) = some 5 ∧
    isOk ((holding 8 0x4004 8 0).readPieces 0 (pieces 0x20010 64)).2 = true ∧ State.reset.freeVersion 0 8 = some 0 :=
  by and_intros <;> first | exact .plain (by decide) | decide +kernel

theorem witness_FormatConversions : (one (task (2 + 3 * 32) 0 0 0)).Ready [1] none ∧
    kindOf ((State.reset.ctx 0).fmtWord 8) = 0 ∧ kindOf ((State.reset.ctx 0).fmtWord 2) ≠ 0 ∧ kindOf ((State.reset.ctx 0).fmtWord 3) ≠ 4 ∧
    (State.reset.snap 0 2).fmt.W = 16 ∧ (State.reset.snap 0 3).fmt.W = 8 ∧
    (∀ n ∈ [8, 2 + 8 * 32, 3, 8 * 32, 3 * 32], ((one (task (BitVec.ofNat 64 n) 0 0 0)).src 1).toNat = n) ∧
    (let s : State := { one (task (9 * 32) 0 0 0) with ctxs := [(0, { fmts := [(9, { word := 0x4004 })] })] }
     kindOf ((s.ctx 0).fmtWord 9) = 4 ∧ kindOf ((s.ctx 0).fmtWord 0) ≠ 0) :=
  by and_intros <;> first | exact .plain (by decide) | decide +kernel

theorem witness_FormatWaits : let p : Pend := { b := {}, win := 0, dests := [], due := .format 8 0x4004 [] true }
    ((one (pending p)).thread 0).pend[0]? = some p ∧ (one (pending p)).freeVersion ((one (pending p)).thread 0).ctx 8 = some 0 := by
  decide +kernel

theorem witness_VectorResults : (one (task 15 0 0 0)).Ready [1] none ∧ (one (task 15 0 0 0)).Ready [1] (some 5) ∧
    (one (task 15 0 0 0)).Ready [5, 1] none := ⟨.plain (by decide), .plain (by decide), .plain (by decide)⟩

theorem witness_MaskResults : acceptFloat ((one (task 0 0 0 0)).slotWord 0) = none ∧ (one (task 15 0 0 0)).Ready [] (some 5) ∧
    (one (task 15 0 0 0)).Ready [1] none := ⟨by decide +kernel, .plain (by decide), .plain (by decide)⟩

theorem witness_VectorFloats : acceptFloat ((one (task 0 0 0 0)).slotWord 3) = none ∧ ((one (task 0 0 0 0)).core 0).sfu = [] ∧
    (∀ slot ∈ [0, 3], acceptFloat ((one { task 0 0 0 0 with fsel := 31 * 2 ^ 15 + 31 }).slotWord slot) = some 7) ∧
    (let e : SfuEnt := { owner := { thr := 0, inc := 1, ctx := 0, vf := 0, grp := none, pc := 0 }, at_ := 0, flags := 0 }
     let s : State := { one (task 0 0 0 0) with cores := [(0, { sfu := [e] })] }
     (s.core 0).sfu = [e] ∧ e.at_ ≤ s.cycle ∧ (s.thread e.owner.thr).inc = e.owner.inc ∧ (s.thread e.owner.thr).st ≠ .free) := by
  decide +kernel

theorem witness_Reductions : (one (task 0 0 0 0)).Ready [] (some 5) ∧ (one (task 0 0 0 0)).Ready [1] (some 5) false ∧
    (one (task 0 0 0 0)).cur.gang = none ∧ (one (task 0 0 0 0)).members 0 = [0] ∧
    acceptFloat ((one (task 0 0 0 0)).slotWord 0) = none ∧ acceptFloat ((one { task 0 0 0 0 with fsel := 31 }).slotWord 0) = some 7 ∧
    (one { task 0 0 0 0 with gang := some { size := 2, index := 1 } }).cur.gang = some { size := 2, index := 1 } ∧
    (let g : Gang := { size := 2, index := 1, ahead := [{ b := {}, n := 0, next := none, slot := 3, entry := 0 }] }
     (one { task 0 0 0 0 with gang := some g }).cur.gang = some g ∧ acceptFloat (0 : W64) = some 7) :=
  by and_intros <;> first | exact .plain (by decide) | decide +kernel

theorem witness_VectorMemory : (mapped 0x20040 0 0).Ready [1] none ∧
    (let s := mapped 0x20040 0 0
     (effAddr (s.cur.readA 1) 0 64).toNat % 64 = 0 ∧ (s.cur.readM 0).toNat % 2 ^ 16 ≠ 0 ∧ (s.cur.readM 1).toNat % 2 ^ 16 = 0 ∧
       (let r := s.checkElems 0 .load 4 [(0, 0x20040), (15, 0x2007C)]
        r.2.1.length = 2 ∧ r.2.2 = none ∧ farParts 4 (fun _ => []) r.2.1 = []) ∧
       (let r := s.checkElems 0 .store 8 [(7, 0x20048)]
        r.2.1.length = 1 ∧ r.2.2 = none ∧ probes r.2.1 = [] ∧ r.1.mayPut [] = true) ∧
       (s.checkElems 0 .load 4 [(0, 0x20042)]).2.2 = some (.trap { cause := 4, tval := 0x20042 }) ∧
       (s.checkElems 0 .load 4 [(0, 2 ^ 36)]).2.2 = some (.trap (addrErr (2 ^ 36) 1)) ∧
       s.putsSent 0 = none ∧ s.readBefore (s.asker 0) 0x20040 = none ∧
       (s.xlate 0 0 .load 0x20040).2 = .ok 0 0x20040 0 ∧ (s.core 0).l1 = []) ∧
    (effAddr ((mapped 0x20020 0 0).cur.readA 1) 0 64).toNat % 64 ≠ 0 ∧
    (let a : FarAns := { who := .thread 0 1, va := 0x20040, msg := { op := .put, remote := 2 ^ 40, len := 64 }, reply := .done [] }
     ({ mapped 0x20040 0 0 with dev := { answers := [a] } } : State).putsSent 0 = some (.ok [] none)) :=
  ⟨.plain (by decide), by decide +kernel, by decide +kernel, by decide +kernel⟩

/-- Two neighbouring lanes of another device's page go out as one access; of two at one address the higher goes (R133). -/
theorem test_far_lanes :
    let far := fun (l : List (Nat × Nat)) => farParts 4 (fun k => [BitVec.ofNat 8 k])
      (l.map fun (k, va) => ({ lane := k, va := va, at_ := .far 1 va } : Elem))
    far [(0, 0x40), (1, 0x44), (2, 0x40)] = [{ va := 0x44, node := 1, pa := 0x44, n := 4, data := [1] },
      { va := 0x40, node := 1, pa := 0x40, n := 4, data := [2] }] ∧
    far [(0, 0x40), (1, 0x44)] = [{ va := 0x40, node := 1, pa := 0x40, n := 8, data := [0, 1] }] := by decide +kernel

theorem witness_VectorLocal : (one (task 0x5FFC0 0 0 0)).Ready [1] none ∧
    (let s := one (task 0x5FFC0 0 0 0)
     (s.core s.curCore).errs.faults = [] ∧ (s.core s.curCore).lsPoison = [] ∧ (s.src 1).toNat % 64 = 0 ∧
       (∀ k, k < 16 → (s.cur.readM 0).getLsbD k = true → ((0x5FFC0 + 4 * k : Nat) : Int) % (4 : Nat) = 0 ∧
         0 ≤ ((0x5FFC0 + 4 * k : Nat) : Int) ∧ ((0x5FFC0 + 4 * k : Nat) : Int) + (4 : Nat) ≤ 0x60000) ∧
       (s.cur.readM 0).toNat % 2 ^ 16 ≠ 0) ∧
    ((one (task 0x20 0 0 0)).src 1).toNat % 64 ≠ 0 ∧ 0x60000 < ((0x60000 + 4 * 0 : Nat) : Int) + (4 : Nat) :=
  ⟨.plain (by decide), by decide +kernel, by decide +kernel, by decide +kernel⟩

/-- The descriptor of a copy of one row of 64 bytes within the local store of core 0, and a compressing transform's record. -/
def copyDesc : Nat := 0x1000 + 0x2000 * 2 ^ 128 + 2 ^ 256 + 64 * 2 ^ 288 + 2 ^ 408 + 2 ^ 409
def txRecord : Nat := 2 + 2 ^ 5 + 0x100 * 2 ^ 8 + 64 * 2 ^ 32 + 0x1000 * 2 ^ 64

/-- A task whose s1 is `off`, where its core's local store holds `n` bytes. -/
def stored (off n x : Nat) (c : Core := {}) : State :=
  { one (task (BitVec.ofNat 64 off) 0 0 0) with cores := [(0, { c with ls := putBytes [] off (toBytes n x) })] }

theorem witness_EngineRequests : (stored 0x40 64 copyDesc).Ready [1] none ∧ (stored 0x40 64 copyDesc).Ready [1] (some 5) false ∧
    (stored 0x40 64 copyDesc).Ready [] (some 5) ∧
    (let s := stored 0x40 64 copyDesc
     (s.core s.curCore).errs.faults = [] ∧ (s.core s.curCore).lsPoison = [] ∧ (s.core 0).cq.length < 8 ∧ (s.src 1).toNat % 64 = 0 ∧
       (s.src 1).toNat + 64 ≤ 0x60000 ∧ copyCheck (s.lsRead 0 0x40 64) none none (s.src 1) = none ∧
       copyCheck 0 none none (s.src 1) = some (engErr 21)) ∧
    (let s := stored 0x40 32 txRecord
     txCheck (s.lsRead 0 0x40 32) = none ∧ txCheck 5 = some (engErr 27) ∧ (s.clu 0).txq.length < 16) ∧
    (let o : Owner := { who with thr := 8, sent := 1 }
     let c : CopyReq := { owner := o, num := 1, desc := 0 }
     let x : TxReq := { owner := o, num := 1, recd := 0 }
     let s : State := { mail (.rst 8 8 7) true 0 with cores := [(0, { cq := [c] })], clus := [(0, { txq := [x] })] }
     (s.core 0).cq.head? = some c ∧ (s.clu 0).txq.head? = some x ∧ s.storesOut o = true ∧ s.storesOut { o with sent := 0 } = false) ∧
    ((stored 0x5FFC1 64 0).src 1).toNat % 32 ≠ 0 ∧ 0x60000 < ((stored 0x60000 64 0).src 1).toNat + 32 :=
  by and_intros <;> first | exact .plain (by decide) | decide +kernel

theorem witness_EngineFull : let q : CopyReq := { owner := { thr := 0, inc := 1, ctx := 0, vf := 0, grp := none, pc := 0 }, num := 1, desc := 0 }
    8 ≤ ((stored 0 0 0 { cq := List.replicate 8 q }).core 0).cq.length ∧
    (let r : TxReq := { owner := q.owner, num := 1, recd := 0 }
     16 ≤ (({ stored 0 0 0 with clus := [(0, { txq := List.replicate 16 r })] } : State).clu 0).txq.length) := by decide +kernel

/-- Timelines: number 1 done, number 2 outstanding; and one that ended in error. -/
def timed (ops : List TimeOp) : Thread := { task 2 0 0 0 with issued := [(1, 2)], ops := ops }

theorem witness_EngineTimelines :
    (let th := timed [{ cls := 1, num := 2 }]
     th.timeDone 1 = 1 ∧ th.timeDone 1 < min 2 (th.timeIssued 1) ∧ min 1 (th.timeIssued 1) ≤ th.timeDone 1 ∧ th.timeError 1 1 = none ∧
       (∀ o ∈ th.ops, o.cls = 1 → 1 ≤ o.num ∧ o.num ≤ th.timeIssued 1)) ∧
    (timed [{ cls := 1, num := 2, complete := true, err := some { cause := 15 } }]).timeError 1 2 =
      some { cls := 1, num := 2, complete := true, err := some { cause := 15 } } ∧
    (let s := one { timed [] with st := .waiting, wait := some { b := {}, w := .timeline 1 2 } }
     (s.thread 0).st = .waiting ∧ min 2 ((s.thread 0).timeIssued 1) ≤ (s.thread 0).timeDone 1) := by decide +kernel

theorem witness_EngineSteps :
    (let o : Owner := { thr := 0, inc := 1, ctx := 0, vf := 0, grp := none, pc := 0 }
     let q : CopyReq := { owner := o, num := 1, desc := BitVec.ofNat 512 copyDesc }
     let s := stored 0x40 64 copyDesc { cq := [q] }
     let p := planOf q.desc.toNat none none
     let s : State := s.setClu 0 { s.clu 0 with ccore := 0, cAt := some s.cycle }
     (stored 0x40 64 copyDesc { cq := [q] }).copyHead 0 = some q ∧ (stored 0x40 64 copyDesc { cq := [q] }).copyTurn 0 = true ∧
       s.copyTurn 0 = false ∧ q.stall = none ∧ p.kind = 0 ∧ p.overlap = false ∧ p.credit = none ∧
       (match (s.locReadAll o p.src [(0, 64)]).2 with | .ok _ => true | _ => false) = true ∧
       (match (s.locWrite o p.dst 0 (List.replicate 64 1)).2 with | .ok _ => true | _ => false) = true ∧
       (let s := stored 0x40 64 copyDesc { cq := [{ q with past := true }] }
        (s.core 0).cq = [{ q with past := true }])) ∧
    (let o : Owner := { thr := 0, inc := 1, ctx := 0, vf := 0, grp := none, pc := 0 }
     let q : CopyReq := { owner := o, num := 1, desc := 0, stall := some { retry := 0, va := 0x5000, cause := 1, kind := 0 } }
     let s := stored 0 0 0 { cq := [q] }
     (s.core 0).cq = [q] ∧ q.past = false ∧ 0 ≤ s.cycle ∧ s.storesOut q.owner = false ∧ s.copyTurn 0 = true ∧ s.writeBehind q.owner (some (.loc 0 0)) none = false ∧
       ({ s with net := (mail (.rst 8 8 7) true 0).net.map fun m => { m with src := 0, tgt := 1 } } : State).writeBehind q.owner (some (.loc 1 0)) none =
         true ∧
       (s.setClu 0 { s.clu 0 with ccore := 0, cAt := some s.cycle }).copyTurn 0 = false) := by decide +kernel

theorem witness_Transforms : ∀ op, op < 5 →
    let o : Owner := { thr := 0, inc := 1, ctx := 0, vf := 0, grp := none, pc := 0 }
    let q : TxReq := { owner := o, num := 1, recd := BitVec.ofNat 256 (txRecord - 2 + op + (256 - 64) * 2 ^ 32 + 2 ^ 6 + 0x2000 * 2 ^ 136) }
    let s : State := { stored 0x40 64 0 with clus := [(0, { txq := [q] })] }
    (s.clu 0).txq = [q] ∧ q.stall = none ∧ s.txBehind q = false ∧ txOp q.recd.toNat = op ∧
      (match (s.locRead o (txSrc q.recd.toNat) 0 (txLen q.recd.toNat)).2 with | .ok _ => true | _ => false) = true ∧
      (s.txWrite 0 q [1, 2] 1).2.isSome = true := by decide +kernel

/-! Witnesses of the matrix unit and what follows it. -/

/-- The worked slice's operand: one BF16 slice a row, rows 96 bytes apart, own core, at 0x1000. -/
def operandWord : W64 := BitVec.ofNat 64 (0x1000 + 2 ^ 23 + 2 * 2 ^ 24 + 96 * 2 ^ 29 + 2 ^ 41)
/-- A drain of FP32 rows to own core, at 0x2000, without and with a wake of handler 1. -/
def drainWord (wake : Bool) : W64 := BitVec.ofNat 64 (0x2000 + 2 ^ 31 + 128 * 2 ^ 37 + (if wake then 2 ^ 52 else 0))
/-- A NETEVAL record: one layer, one input, one output, entries 2. -/
def netRecord : Nat := 1 + 2 ^ 8 + 2 ^ 40 + 2 * 2 ^ 56 + 2 * 2 ^ 64 + 0x400 * 2 ^ 128 + 0x800 * 2 ^ 256

theorem witness_MatrixRequests : (one (task operandWord operandWord 0 0)).Ready [1, 2] none ∧
    (one (task operandWord operandWord 0 0)).Ready [1] none ∧ (one (task operandWord operandWord 0 0)).Ready [] (some 5) ∧
    (let s := one (task operandWord operandWord 0 0)
     (s.core s.curCore).mqCount < 16 ∧ operandCheck 0 false operandWord (s.operand operandWord) = none ∧
       operandCheck 1 false operandWord (s.operand operandWord) = none ∧
       matrixFmt [(s.operand operandWord).fmt, (s.operand operandWord).fmt] = none ∧
       operandCheck 0 true operandWord (s.operand operandWord) = some (mdescErr 6 0) ∧
       operandCheck 1 false 0 (s.operand 0) = some (mdescErr 4 1) ∧
       s.drainCheck false (drainWord false) (s.snap s.cur.ctx 0) = none ∧ s.drainCheck true (drainWord true) (s.snap s.cur.ctx 0) = none ∧
       s.cur.remOut = [] ∧ (busy s).cur.remOut ≠ [] ∧ ((busy s).core s.curCore).mqCount < 16 ∧
       s.drainCheck true (drainWord false) (s.snap s.cur.ctx 0) = some (mdescErr 9 0) ∧ kindOf (s.snap s.cur.ctx 9).word = 0 ∧
       s.drainCheck false (BitVec.ofNat 64 (0x2000 + 2 ^ 31 + 9 * 2 ^ 32)) (s.snap s.cur.ctx 9) = some (fmtErr 7 9)) ∧
    (let s := one (task operandWord (BitVec.ofNat 64 (2 ^ 49 + operandWord.toNat)) 0 0)
     operandCheck 0 true (s.src 2) (s.operand (s.src 2)) = none ∧ (s.operand (s.src 2)).k * 2 ≠ (s.operand operandWord).k) ∧
    (let s := stored 0x40 48 netRecord
     (s.core s.curCore).errs.faults = [] ∧ (s.core s.curCore).lsPoison = [] ∧ (s.src 1).toNat % 16 = 0 ∧ (s.src 1).toNat + 48 ≤ 0x60000 ∧
       netCheck (BitVec.ofNat 384 (s.lsRead 0 0x40 48)) 30 0 (s.snap 0 2) (s.snap 0 2) = none ∧
       netCheck (BitVec.ofNat 384 (s.lsRead 0 0x40 48)) 31 0 (s.snap 0 2) (s.snap 0 2) = some (mdescErr 12 2)) ∧
    (let e : MEnt := { owner := { who with thr := 8, sent := 1 }, num := 1, op := .mma 0 true (State.reset.operand 0) (State.reset.operand 0) }
     let s : State := { mail (.rst 8 8 7) true 0 with cores := [(0, { mq := [e] })] }
     (s.core 0).mqHead = some e ∧ s.storesOut e.owner = true) ∧
    16 ≤ ((stored 0 0 0 { mq := List.replicate 16 { owner := who, num := 1, op := .mzero 0 } }).core 0).mqCount :=
  by and_intros <;> first | exact .plain (by decide) | decide +kernel

/-- A core whose matrix queue holds one entry. -/
def queued (e : MEnt) : State := { one (task 0 0 0 0) with cores := [(0, { mq := [e] })] }
/-- The entry of an operation of the task. -/
def entry (op : MOp) : MEnt := { owner := who, num := 1, op := op }

theorem witness_MatrixSteps :
    (∀ op ∈ [MOp.mzero 3, .mma 3 true (State.reset.operand operandWord) (State.reset.operand operandWord)],
      (queued (entry op)).matrixNext 0 = some (0, 0) ∧ min 7 ((queued (entry op)).die 0).idle ≤ ((queued (entry op)).clu 0).mphase ∧
        ((queued (entry op)).core 0).mqHead = some (entry op) ∧ ((queued (entry op)).core 0).spill = [] ∧
        ((queued (entry op)).core 0).errs.faults = [] ∧ ((queued (entry op)).core 0).accPoison = []) ∧
    (let e := { entry (.accrd 1 2 1 7) with steps := 1 }
     ((queued e).core 0).mqHead = some e ∧ e.op.total ≤ e.steps ∧ e.refused = none ∧ ((queued e).thread 0).st ≠ .free ∧
       ((queued e).thread 0).inc = e.owner.inc) ∧
    (let e := { entry (.drain 1 (drainWord false) (State.reset.snap 0 0) false) with steps := 4, refused := some (remoteErr 0 2) }
     ((queued e).core 0).mqHead = some e ∧ e.op.total ≤ e.steps ∧ e.op.reads = false) ∧
    (let e := { entry (.drain 1 (drainWord true) (State.reset.snap 0 0) true) with steps := 4, sent := true }
     ((queued e).core 0).mq.find? (fun e => e.sent && !e.acked) = some e) ∧
    (let e := { entry (.drain 1 (drainWord true) (State.reset.snap 0 0) true) with steps := 4, sent := true, acked := true }
     let s : State := { queued e with ctxs := [(0, { st := .live, handlers := [(1, 0x4000)] })], thr := [(1, { grp := some (0, 0) })] }
     ((queued e).core 0).mq.find? (fun e => e.acked) = some e ∧
       tget 0 ((queued e).ctx 0).handlers (bits (drainWord true).toNat 54 52) = 0 ∧ (s.core (drainCore (drainWord true) 0)).fenced = false ∧
       (({ queued e with cores := [(0, { mq := [e], fenced := true })] } : State).core (drainCore (drainWord true) 0)).fenced = true ∧
       tget 0 (s.ctx 0).handlers (bits (drainWord true).toNat 54 52) ≠ 0 ∧ s.wakeSlot (drainCore (drainWord true) 0) 0 = some 1) ∧
    (let e : Spawn := { owner := who, pc := 0x4000, args := [], handler := 1 }
     let first : Spawn := { e with owner := { who with ctx := 1 } }
     let s : State := { State.reset with cores := [(0, { spawnQ := [first, e] })], thr := [(1, { grp := some (0, 0) })] }
     (s.core 0).spawnQ = [first] ++ [e] ∧ (∀ x ∈ [first], s.wakeSlot 0 x.owner.ctx = none) ∧
       (∃ x ∈ (s.core 0).spawnQ, x.owner.ctx = who.ctx) ∧ (¬∃ x ∈ [first], x.owner.ctx = who.ctx) ∧ s.wakeSlot 0 0 = some 1 ∧ (s.core 0).spawnQ.length < 4 ∧ State.reset.wakeSlot 0 0 = none) ∧
    (let s : State := { State.reset with cores := [(0, { mqStop := true })] }
     s.freezeAsked 0 = true ∧ (s.core 0).mqFrozen = false ∧ (s.core 0).startedBusy = false ∧
       (let t : State := { State.reset with cores := [(0, { mqFrozen := true })] }
        t.freezeAsked 0 = false ∧ (t.core 0).mqFrozen = true ∧ (t.core 0).mqSaved = false)) ∧
    (let c : Core := { mq := [entry (.mzero 0)], mqFrozen := true }
     c.mqFrozen = true ∧ c.spill.length < 64 ∧ c.mq ≠ []) := by decide +kernel


/-- Was a save area translated whole? -/
def allPlaced : State × Got × Nat × List AreaPart → Bool
  | (_, .ok [] none, _, _) => true
  | _ => false

/-- A save area at 0x20000 whose header holds version `ver`, with no entry in the queue and none in the spill ring. -/
def areaState (ver : Nat) : State :=
  let s := mapped 0x20000 0 0
  { s with mem := putBytes s.mem 0x20000 (toBytes 64 ver) }

theorem witness_MatrixSaves : ∀ ver ∈ [0, 1],
    let s := areaState ver
    let r := s.areaPlaces 0 .load (pageParts 0x20000 41536)
    s.cur.tstate.getLsbD 2 = true ∧ (s.cur.readA 1).toNat % 256 = 0 ∧ allPlaced r = true ∧
      allPlaced (s.areaPlaces 0 .store (pageParts 0x20000 41536)) = true ∧ r.1.placesPoisoned r.2.2.2 = false ∧
      bits (ofBytes ((r.1.getParts (r.2.2.2.take 1)).take 64)) 63 0 = ver ∧
      bits (ofBytes ((r.1.getParts (r.2.2.2.take 1)).take 64)) 127 64 = 0 := by decide +kernel

def output : Decl := { va := 0x30000, pa := 0x30000, id := 7, gen := 1, mul := 0, add := 0, count := 1 }
/-- A task of a kernel with an output of one tile, whose buffer record stands at 0x30000. -/
def publisher (tags : List TagEnt) : State :=
  { grouped true 0 0 with
    mem := putBytes [] 0x30000 (toBytes 32 (7 + 2 ^ 32 + 1 * 2 ^ 128))
    ctxs := [(0, { st := .live })]
    vfs := [(0, { slots := 1, tags := 1, queues := 1 })]
    tags := tags
    kernels := [(0, { st := .active, groups := 1, w := 1, p := 1, n := 2, outputs := [output] })] }
def pub : HeldPub := { num := 0, ctx := 0, vf := 0, ser := 0, id := 7, pa := 0x30000, va := 0x30000, tile := 0, gen := 1 }
def isApplied : PubIs → Bool
  | .applied _ => true
  | .held => false
def tagOf (gen : BitVec 32) (ready : Bool) (pending : Nat) : TagEnt :=
  { ctx := 0, id := 7, tile := 0, vf := 0, gen := gen, ready := ready, pending := pending, pa := 0x30000 }

theorem witness_TagsAndPushes : (publisher []).Ready [1, 2] none ∧ (holding 32 0 0x20020 0).Ready [1, 2] (some 5) false ∧
    (publisher []).cur.grp = some (0, 0) ∧ slotOf (publisher []).iss.thr ≠ 7 ∧ ((publisher []).kernel 0).outputs.length = 1 ∧
    (publisher []).bufTiles 0x30000 = 1 ∧ isApplied ((publisher []).publishInTurn pub) = true ∧
    isApplied ((publisher [tagOf 0 false 0]).publishInTurn pub) = false ∧ (tagOf 0 false 0).bad = false ∧
    ((publisher []).kernel 0).outputs[1]? = none ∧ ((publisher []).clu 0).held.length < 64 ∧ (publisher []).cur.remOut = [] ∧
    (busy (publisher [])).cur.remOut ≠ [] ∧ farHome 0x30000 = false ∧ (publisher []).memPoisoned (0x30000 + 16) 4 = false ∧
    ({ publisher [] with poison := [0x30010] } : State).memPoisoned (0x30000 + 16) 4 = true ∧
    64 ≤ (({ publisher [] with clus := [(0, { held := List.replicate 64 pub })] } : State).clu 0).held.length :=
  ⟨.plain (by decide), .plain (by decide), by decide +kernel⟩

/-- The four cases of a publication, and no entry where the VF has room. -/
theorem witness_Publications : (publisher []).dev.fallen.contains (pub.pa, pub.gen) = false ∧ (publisher []).tag? 0 7 0 = none ∧
    ((publisher []).tagRoom 0 (0, 7, 0)).isSome ∧
    (∀ e ∈ [tagOf 1 false 0, tagOf 0 true 0, tagOf 0 true 3, tagOf 0x80000001 false 0, tagOf 2 true 0], (publisher [e]).tag? 0 7 0 = some e) ∧
    ((1 : BitVec 32) - 0x80000001).toNat = 2 ^ 31 ∧ 2 ^ 31 < ((1 : BitVec 32) - 2).toNat := by decide +kernel

/-- A page of node 1, which endpoint 5 reaches, with an answer to the task's read of a buffer record at 0x20020. -/
def away : State :=
  let s := mapped 0 0x20020 0
  { s with
    mem := putBytes s.mem 0x18000 (toBytes 8 (1024 + 0x3F)), eps := [(5, { st := .opened })]
    dev := { s.dev with
      nodes := [(1, 5)]
      answers := [{ who := .thread 0 1, va := 0x20020, msg := { op := .get, remote := 2 ^ 40 + 0x20020, len := 32 }
                    reply := .done (toBytes 32 (2 ^ 128)) }] } }

/-- A buffer record whose line the L1 holds while its done generation in memory has come to carry poison, and one of another
device. -/
theorem witness_TagWaitsElse :
    (let s := holding 64 (2 ^ (192 + 128)) 0x20020 0
     let u : State := { s with poison := [0x20028]
                               cores := [(0, { l1 := [{ addr := 0x20000, data := BitVec.ofNat 512 (s.memRead 0x20000 64) }] })] }
     u.Ready [1, 2] none ∧ (u.xlate 0 0 .load 0x20020).2 = .ok 0 0x20020 0 ∧ isOk (u.readAt 0 0x20020 32).2 = true ∧
       ((u.readAt 0 0x20020 32).1.tagSeen (.thread 0 1) 0 0 0x20020 0 1).2 = .bad ∧
       (u.tagSeen (.waiting 0 1) 0 0 0x20020 0 1).2 = .bad) ∧
    away.Ready [1, 2] none ∧ (away.xlate 0 0 .load 0x20020).2 = .ok 1 0x20020 0 ∧ isOk (away.readAt 0 0x20020 32).2 = true ∧
    away.readPlace (.thread 0 1) 0x20020 32 = some (2 ^ 40 + 0x20020) ∧
    ((away.readAt 0 0x20020 32).1.tagSeen (.thread 0 1) 0 0 (2 ^ 40 + 0x20020) 0 1).2 = .wait :=
  by and_intros <;> first | exact .plain (by decide) | decide +kernel

theorem witness_TagWaits : isOk ((holding 24 0 0x20020 0).readAt 0 0x20020 32).2 = true ∧ 0x20020 % 32 = 0 ∧
    (let s := holding 64 (2 ^ (192 + 128)) 0x20020 0
     0 < bits (ofBytes (s.memGet 0x20020 32)) 151 128 ∧ (s.xlate 0 s.cur.ctx .load 0x20020).2 = .ok 0 0x20020 0 ∧
       s.readPlace (.thread 0 1) 0x20020 32 = none ∧ s.tag? 0 0 0 = none ∧ (s.tagSeen (.thread 0 1) 0 0 0x20020 0 1).2 = .no ∧ (s.tagSeen (.waiting 0 1) 0 0 0x20020 0 0).2 = .yes) ∧
    (let s := one (waits (.tag 7 0x30000 0 1))
     (s.thread 0).st = .waiting) ∧
    (let s : State := { publisher [] with clus := [(0, { held := [pub] })] }
     (s.clu 0).held = [pub] ∧ s.tag? pub.ctx pub.id pub.tile = none ∧ (∀ q ∈ s.heldFor pub, pub.num ≤ q.num) ∧
       isApplied ((s.setClu 0 { s.clu 0 with held := (s.clu 0).held.filter fun q => decide (q ≠ pub) }).publish pub) = true) ∧
    (let wait : HeldPub := { pub with num := 1, id := 8 }
     let next : HeldPub := { pub with num := 2 }
     let s : State := { publisher [{ tagOf 0 true 1 with id := 8 }] with clus := [(0, { held := [next, wait, pub] })] }
     (s.clu 0).held = [next, wait] ++ [pub] ∧ (∀ q ∈ s.heldFor pub, pub.num ≤ q.num) ∧ (∃ r ∈ s.heldFor next, r.num < next.num) ∧
       (s.tag? 0 8 0).map (·.pending) = some 1 ∧ s.tag? 0 7 0 = none) ∧
    (let h : HeldDone := { pa := 0x30000, gen := 1 }
     let s : State := { publisher [] with heldDone := [h] }
     s.heldDone[0]? = some h ∧ s.bufDone h.pa = h.gen - 1) := by decide +kernel

/-- A device-fed queue of the task's context, whose ring stands at 0x40000. -/
def fed (st : QState) (placed : List Nat) : State :=
  { one (task 0 0x40 0 0) with
    ctxs := [(0, { st := .live })], vfs := [(0, { slots := 16, tags := 1, queues := 1 })]
    queues := [(0, { st := st, devFed := true, csize := 0, cring := 0x40000, ering := 0x50000, placed := placed })] }

theorem witness_QueuePushes : (fed .running []).Ready [1, 2] none ∧
    (∀ st ∈ [QState.running, .halted], (fed st []).queueCheck 0 true = none ∧ (fed st []).queueCheck 0 false = none) ∧
    ((fed .running []).src 2).toNat % 64 = 0 ∧ ((fed .running []).src 2).toNat + 64 ≤ 0x60000 ∧
    ((fed .running []).core 0).errs.faults = [] ∧ ((fed .running []).core 0).lsPoison = [] ∧
    (fed .running []).vfPlaced 0 < ((fed .running []).vf 0).slots ∧
    (({ fed .running [] with vfs := [(0, { slots := 0 })] } : State).vf 0).slots ≤ (fed .running []).vfPlaced 0 ∧
    2 ^ (0 + 4) ≤ ((fed .running (List.range 16)).queue 0).placed.length :=
  ⟨.plain (by decide), by decide +kernel⟩


theorem witness_LevelOfDetailLoads : (one (task 0x20000 0x40 0 0)).Ready [2] none ∧ (one (task 0x20000 0x40 0 0)).Ready [1, 2] none ∧
    lodCheck (1 + 2 ^ 6) false = none ∧ lodCheck (2 + 2 ^ 6 + 2 * 2 ^ 256 + 2 ^ 304) true = none ∧
    acceptMatrix 2 ((State.reset.ctx 0).fmtWord 2) = none ∧ ((one (task 0 0 0 0)).src 1).toNat < 32 * 1 ∧
    32 * 1 ≤ ((one (task 32 0 0 0)).src 1).toNat ∧ (lodCheck 0 false).isSome ∧ (lodCheck 0 true).isSome ∧
    ((one (task 0x20000 0x40 0 0)).core 0).errs.faults = [] ∧ ((one (task 0x20000 0x40 0 0)).core 0).lsPoison = [] ∧
    (∀ e ∈ ((one (task 0 0 0 0)).core 0).lod.recs, e.1 ≠ (one (task 0 0 0 0)).cur.ctx) ∧
    (one (task 0 0 0 0)).lodOut 0 = false ∧ (one (task 0 0 0 0)).cur.remOut = [] ∧ (busy (one (task 0 0 0 0))).cur.remOut ≠ [] ∧
    (one (pending { b := {}, win := 0, dests := [], due := .ready 0, lod := true })).lodOut 0 = true ∧
    (let s := stored 0 0 0 { lod := { recs := [(0, 5)] } }
     (s.core 0).lod.recs = [(0, 5)] ∧ s.cur.ctx = 0) ∧ (one (task 0 0 0 0)).cur.tstate.getLsbD 2 = true :=
  ⟨.plain (by decide), .plain (by decide), by decide +kernel⟩

/-! Witnesses of kernels, queues, groups, layers, Halyard, the device and steps. -/

/-- A kernel of one group whose group has ended, in a state. -/
def ended (st : KState) : State :=
  { State.reset with kernels := [(0, { st := st, groups := 1, done := 1, w := 1, p := 1, n := 1 })], ctxs := [(0, { st := .dead })] }

theorem witness_KernelsEnd :
    (∀ st ∈ [KState.active, .faulting, .stopping], let s := ended st
      (s.kernel 0).st ≠ .ended ∧ (s.kernel 0).killed = false ∧ (s.kernel 0).ending = false ∧ (s.kernel 0).groups ≤ (s.kernel 0).done ∧
        s.kernelIdle 0 = true) ∧
    (let s := ended .active
     (s.ctx 0).st = .dead ∧ (s.ctx 0).killDone = false ∧ (s.ctx 0).note = none ∧
       s.storesFar 0 = false ∧
       s.kernels.filter (fun e => decide (e.2.ctx = 0) && decide (e.2.st ≠ .ended) && e.2.killed) = [] ∧
       ({ s with eps := [(5, { pkts := [{ order := 0, off := 0, port := some 0, acc := some 0
                                          msg := { op := .put, remote := 2 ^ 40, len := 1 } }] })] } : State).storesFar 0 = true) ∧
    (∀ n ∈ [0, 2, 1], let s : State := { State.reset with queues := [(0, { st := .running, n := n })] }
     ((s.queue 0).n ≠ 0 ∧ (s.queue 0).n ≤ (s.queue 0).unnotified + 1 ↔ n = 1)) ∧
    (let k : Kernel := { st := .active, killed := true }
     let s : State := { ended .active with kernels := [(0, k)] }
     s.kernels.filter (fun e => decide (e.2.ctx = 0) && decide (e.2.st ≠ .ended) && e.2.killed) = [(0, k)] ∧
       (let two : State := { s with kernels := [(0, k), (1, k)], ctxs := [(0, { st := .dead, note := some { ser := 1, bytes := [4, 0, 3, 2], addr := 8 } })] }
        two.kernels.filter (fun e => decide (e.2.ctx = 0) && decide (e.2.st ≠ .ended) && e.2.killed) = [(0, k), (1, k)] ∧
          (two.ctx 0).st = .dead ∧ (two.ctx 0).note.isSome)) ∧
    (let r : Rec := { status := 0, ser := 0, cause := 0, addr := 0, seq := 0 }
     ∀ head ∈ [0, 16], let s : State := { State.reset with
        queues := [(0, { st := .running, ering := 0x50000, n := 1, t := 1, recs := [r], unnotified := 1 })]
        mem := putBytes [] 0x50000 (toBytes 8 head), cycle := 1800 }
      (s.queue 0).recs = [r] ∧ (s.queue 0).recRetry ≤ s.cycle ∧ (s.ringPut 0x50000 16 0).isSome = decide (head = 0) ∧
        (s.queue 0).st ≠ .free ∧ (s.queue 0).n ≠ 0 ∧ (s.queue 0).t ≠ 0 ∧ (s.queue 0).unnotified ≠ 0 ∧
        (s.queue 0).firstRec + 1800 * (s.queue 0).t ≤ s.cycle ∧ (s.queue 0).old = []) ∧
    (let r : Rec := { status := 0, ser := 0, cause := 0, addr := 0, seq := 0 }
     let o : OldRec := { base := 0x50000, size := 16, r := r }
     let s : State := { State.reset with queues := [(0, { old := [o] })], eps := [(0, { st := .opened })] }
     (s.queue 0).old = [o] ∧ (s.queue 0).recs = [] ∧ o.retryAt ≤ s.cycle ∧ (s.ringPut o.base o.size (recordOf s.timens r)).isSome ∧
       (s.ep (s.queue 0).ep).st = .opened ∧ (State.reset.kernel 0).ring = none) := by decide +kernel

/-- A queue of VF 0 whose next command is `c`, in the mapping of `mapped`. -/
def asked (c : Nat) (x : Queue := {}) : State :=
  let s := mapped 0 0 0
  { s with
    mem := putBytes s.mem 0x40000 (toBytes 64 c), vfs := [(0, { slots := 16, tags := 1, queues := 2 })]
    queues := [(0, { x with st := .running, cring := 0x40000, ering := 0x50000, placed := [0] })] }

theorem witness_QueueCommands :
    (∀ c ∈ [0, 1 + 0x30000 * 2 ^ 64, 2 + 0x30000 * 2 ^ 64, 3 + 0x30000 * 2 ^ 64, 4, 256],
      (asked c).nextCmd 0 = some c ∧ cmdFormOk c = true ∧ (asked c).drained 0 = true) ∧ (asked 0).Unasked (.queue 0) ∧
    (∀ c ∈ [6, 0x10000, 512], (asked c).nextCmd 0 = some c ∧ cmdFormOk c = false ∧ c / 256 % 2 = 0) ∧
    (let s : State := { asked 256 with kernels := [(0, { st := .active })] }
     s.nextCmd 0 = some 256 ∧ s.drained 0 = false) ∧
    ((asked 0).xlateDev 0 .load 0x30000).2 = .ok 0 0x30000 0 ∧ ((asked 0).xlateDev 0 .store 0x30000).2 = .ok 0 0x30000 0 ∧
    objectOk 0 = false ∧ objectOk (2 ^ 64 + 2 ^ 96 + 2 ^ 100 + 2 ^ 104) = true ∧
    (∀ x : Block, x ∈ [.drain, .wait] → (({ asked (2 + 0x30000 * 2 ^ 64) with
      queues := [(0, { st := .blocked, block := some x, cring := 0x40000 })] } : State).queue 0).st = .blocked) ∧
    ({ asked (2 + 0x30000 * 2 ^ 64) with queues := [(0, { st := .blocked, block := some .wait, cring := 0x40000 })] } : State).waitMet 0 =
      true ∧
    ({ State.reset with ctxs := [(3, { st := .dead, killDone := true })] } : State).killFinished 3 = true ∧
    (State.reset.ctx 3).suspending = none ∧
    (let s := (asked (1 + 0x30000 * 2 ^ 64)).memPut 0x30000 256 (2 ^ 64 + 2 ^ 96 + 2 ^ 100 + 2 ^ 104)
     objectOk (s.memRead 0x30000 256) = true ∧ bits (s.memRead 0x30000 256) 118 112 = 0 ∧
       (match (s.recordsAt 0 0 0 [] []).2 with | .ok _ => true | _ => false) = true) ∧
    (let x : Queue := { st := .running, next := 2 ^ 32 - 1, placed := [2 ^ 32 - 1] }
     (0 + 2 ^ 32 - x.next) % 2 ^ 32 < 2 ^ (x.csize + 4) ∧ 0 ∉ x.placed ∧ x.devFed = false ∧ x.st ≠ .free) :=
  ⟨by decide +kernel, .quiet (by decide +kernel), by decide +kernel⟩

/-- A management command: its number, A, B and C. -/
def mgmt (n a b c : Nat) : Nat := 5 + n * 2 ^ 64 + a * 2 ^ 128 + b * 2 ^ 192 + c * 2 ^ 256

theorem witness_Management :
    (∀ n, n < 13 → let c := mgmt n 1 2 3
      (asked c).nextCmd 0 = some c ∧ cmdFormOk c = true ∧ (asked c).drained 0 = true ∧ c % 256 = 5 ∧ c / 2 ^ 64 % 256 = n ∧
        argA c = 1 ∧ argB c = 2 ∧ argC c = 3) ∧
    ((asked 0).queue 0).vf = 0 ∧ ((asked 0 { vf := 1 }).queue 0).vf ≠ 0 ∧ ((asked 0).ctx 1).st = .free ∧ ((asked 0).ctx 0).st = .live ∧
    (asked 0).ownAddr 0x60000 256 = true ∧ ((asked 0).ctxOfImage ((asked 0).memRead 0x60000 256)).isSome ∧
    ((asked 0).queue 1).st = .free ∧ ((asked 0).ctx 0).vf = 0 ∧
    ((asked 0).queues.filter fun e => decide (e.2.st ≠ .free) && decide (e.2.vf = 0)).length < ((asked 0).vf 0).queues ∧
    (asked 0).ownAddr 0x70000 (64 + 32 * 2 ^ 4) = true ∧ ((asked 0).ep 5).st = .free ∧ (asked 0).epBusy 5 = false ∧
    ({ asked 0 with cores := [(0, { nq := [{ owner := who, num := 1, op := .put, ep := 5, desc := 0, order := 0 }] })] } :
      State).epBusy 5 = true ∧
    (∀ e ∈ [EpState.free, .opened, .failed], (({ asked 0 with eps := [(5, { st := e })] } : State).ep 5).st = e) ∧ (asked 0).memRead 0x60000 64 < 2 ^ 192 ∧
    1 ≤ bits (2 ^ 48) 52 48 ∧ bits (2 ^ 48) 52 48 ≤ 16 ∧
    (({ asked 0 with ctxs := [(1, { st := .live, suspending := some 3 })] } : State).ctx 1).suspending ≠ none ∧
    (∀ st ∈ [CtxState.suspended, .dead], (({ asked 0 with ctxs := [(1, { st := st, killDone := true })] } : State).ctx 1).st = st) := by
  decide +kernel

theorem witness_SuspendsAndResets :
    (let s : State := { State.reset with ctxs := [(1, { st := .live, suspending := some 0 })] }
     (s.ctx 1).suspending = some 0 ∧ s.allSaved 1 = true ∧
       ({ s with kernels := [(0, { st := .active, ctx := 1, groups := 1 })] } : State).allSaved 1 = false ∧
       (s.queue 0).st ≠ .blocked ∧
       (({ s with queues := [(0, { st := .blocked, block := some (.suspend 1) })] } : State).queue 0).block = some (.suspend 1)) ∧
    (let c := mgmt 10 15 65535 0
     (asked c).nextCmd 0 = some c ∧ cmdFormOk c = true ∧ (asked c).drained 0 = true ∧ 0 < argA c ∧ argA c < 16 ∧ argB c < 2 ^ 16 ∧
       (asked c).dev.vfPhase = 0) ∧
    (let s : State := { State.reset with dev := { vfPhase := 1, vfNo := 2 }, ctxs := [(1, { st := .live, vf := 2 })] }
     s.dev.vfPhase = 1 ∧ s.dev.vfGrace ≤ s.cycle ∧ (s.ctx 1).vf = s.dev.vfNo) ∧
    (let s : State := { State.reset with dev := { vfPhase := 2, vfNo := 2 }, ctxs := [(1, { st := .dead, vf := 2, killDone := true })]
                                         cores := [(4, { lastVf := some 2 })], queues := [(7, { st := .halted, vf := 2 })] }
     s.dev.vfPhase = 2 ∧ s.vfCount s.dev.vfNo = 0 ∧ s.dev.vfQueue = none ∧
       (∀ e ∈ s.ctxs, e.2.vf = s.dev.vfNo → e.2.st ≠ .free → s.killFinished e.1 = true) ∧
       s.scrubs s.dev.vfNo 4 = true ∧ s.scrubs s.dev.vfNo 5 = false ∧ (s.ctx 1).vf = s.dev.vfNo ∧ (s.ctx 1).st ≠ .free ∧
       (s.queue 7).vf = s.dev.vfNo ∧ (s.queue 7).st ≠ .free ∧
       (∀ p ∈ [3, 4], ({ s with dev := { s.dev with vfPhase := p } } : State).dev.vfPhase = p)) := by decide +kernel

/-- A kernel of `n` groups of one core and one slot. -/
def kernelOf (n prio : Nat) : Kernel := { st := .active, groups := n, w := 1, p := 1, n := 1, code := 0x4000, args := [1, 2, 3, 4], prio := prio }

theorem witness_GroupLife :
    (let s : State := { State.reset with kernels := [(0, kernelOf 8 0)], ctxs := [(0, { st := .live })] }
     (s.kernel 0).st = .active ∧ (s.kernel 0).killed = false ∧ groupIndex 0 0 0 < (s.kernel 0).groups ∧
       s.heldReady 0 7 0 = false) ∧
    (let s : State := { State.reset with kernels := [(0, kernelOf 8 0)], ctxs := [(0, { st := .live })], groups := [(0, { st := .ready })] }
     ((s.candidates 0).foldr rankInsert []).length = 1 ∧ (s.tryPlace 0 0 0).isSome ∧ (s.die 0).placedAt = none ∧
       (s.group? 0 0).isSome ∧ (s.kernel 0).args.length = 4 ∧ 1 ≤ (s.kernel 0).n ∧ 1 ≤ (s.kernel 0).w * (s.kernel 0).p ∧
       s.freeSlots 0 (s.kernel 0).prio ≠ [] ∧ (∀ e ∈ s.groups, e.2.st = .waiting → ∀ i ∈ e.2.inputs, farHome i.pa = false)) ∧
    (let g : Group := { st := .placed, slots := [[0]] }
     let s : State := { State.reset with kernels := [(0, kernelOf 1 0)], groups := [(0, g)] }
     let t : State := { s with thr := [(0, { task 0 0 0 0 with grp := some (0, 0) })] }
     s.group? 0 0 = some g ∧ (∀ t ∈ g.threads, s.isFree t = true) ∧ (s.core 0).spawnQ = [] ∧
       (∃ n ∈ g.threads, (t.thread n).st ≠ .free)) ∧
    (let g : Group := { st := .placed, slots := [[0]] }
     let w : Group := { st := .ready, failing := some 0 }
     let s : State := { State.reset with kernels := [(0, kernelOf 1 0), (1, kernelOf 1 2)], groups := [(0, g), (33554435, w)], cycle := 90000
                                         ctxs := [(0, { st := .live, saveSize := 4096, saveCount := 1 })] }
     dieOfGroup 1 3 = 0 ∧ (s.die 0).preempt = none ∧ (33554435, w) ∈ s.groups ∧
       (s.kernel 0).prio + 2 ≤ (s.kernel (33554435 / 33554432)).prio ∧ (s.saveArea 0 0 g).isSome = true ∧
       s.groups.filter (fun e => decide (e.2.st = .placed) && decide (e.2.clu / 48 = 0) && !e.2.saving) = [(0, g)]) ∧
    (let g : Group := { st := .placed, slots := [[0]], saving := true }
     let s : State := { State.reset with kernels := [(0, kernelOf 1 0)], groups := [(0, g)]
                                         cores := [(0, { mqFrozen := true })]
                                         ctxs := [(0, { st := .live, saveSize := 4096, saveCount := 1 })] }
     s.group? 0 0 = some g ∧ s.toBeSaved 0 0 g = true ∧ s.saveReady 0 0 g = true ∧ (s.areaFor 0 0 g).isSome ∧
       (∀ c ∈ g.cores, (s.core c).fenced = false ∧ (s.core c).errs.faults = [] ∧ (s.core c).bad = []) ∧ (∀ n ∈ g.threads, (s.core (coreOf n)).bad = [])) ∧
    (let g : Group := { st := .saved, save := { threads := [(0, {})], aborted := true, spawns := [(0, { owner := who, pc := 0, args := [], handler := 1 })] } }
     ({ State.reset with groups := [(0, g)] } : State).group? 0 0 = some g ∧ (∀ e ∈ g.save.threads, e.2.st = .free) ∧ g.save.aborted = true) := by
  decide +kernel

/-- The task of `one` with layer 3 of its context, whose s1 names it and whose s2 is as given. -/
def layered (st : LayerState) (v2 v3 : W64) : State :=
  { one (task 3 v2 v3 0) with ctxs := [(0, { st := .live })]
                              layers := [(3, { st := st, owner := 0, f := [(1, 64), (2, 64)] }), (4, { st := .fresh, owner := 0 })] }

theorem witness_LayerTable : (layered .aging 5 0).Ready [] (some 5) false ∧ (layered .aging 5 0).Ready [3, 1, 2] none ∧
    (layered .aging 5 0).Ready [1, 2] (some 5) false ∧ (layered .aging 5 0).Ready [1] none ∧
    (layered .aging 5 0).Ready [1] (some 5) false ∧
    ((layered .aging 5 0).layer 3).st ≠ .retired ∧ ((layered .aging 5 0).layer 3).owner = (layered .aging 5 0).cur.ctx ∧
    ((layered .retired 5 0).layer 3).st = .retired ∧ (layered .aging 5 0).freeFrom (layered .aging 5 0).layers 0 = some 0 ∧
    layerBad 1 2049 = true ∧ layerBad 1 2048 = false ∧ layerBad 17 32 = true ∧ layerBad 26 0 = false ∧
    isOk ((holding 8 0 0 0).readAt 0 0x20040 64).2 = true ∧
    (let r : Request := { id := 3, e := 9, age := 1 }
     let s : State := { layered .requested 0 0 with queues := [(3, { st := .running, reqs := [r] })] }
     s.queueCheck 3 false = none ∧ (s.queue 3).reqs = [r] ∧ s.queueCheck 2 false ≠ none) :=
  by and_intros <;> first | exact .plain (by decide) | decide +kernel

/-- A composite record of one pixel. -/
def compositeRecord : Nat := 2 ^ 256 + 2 ^ 272 + 4 * 2 ^ 288
/-- A compositor's command of the task. -/
def comp (op : CompOp) : CompReq := { owner := who, num := 1, op := op }

theorem witness_Compositor : (stored 0x40 64 compositeRecord).Ready [1, 2] none ∧ (layered .aging 0x40 0).Ready [1, 2] (some 5) false ∧
    (let s := stored 0x40 64 compositeRecord
     (s.core s.curCore).errs.faults = [] ∧ (s.core s.curCore).lsPoison = [] ∧ (s.die 0).comp.length < 16 ∧ (s.src 1).toNat % 64 = 0 ∧
       (s.src 1).toNat + 64 ≤ 0x60000 ∧ composeOk (s.lsRead 0 0x40 64) 1 = true ∧ composeOk (s.lsRead 0 0x40 64) 0 = false) ∧
    (let s := layered .aging 0x40 0
     s.layerMine 0 3 = true ∧ s.layerMine 0 4 = true ∧ (s.layer 3).st ≠ .empty ∧ (s.layer 4).st ≠ .empty ∧ (3 : Nat) ≠ 4 ∧
       (s.layer 3).get 1 = 64 ∧ (s.layer 3).get 2 = 64 ∧ s.freeFrom s.layers 0 = some 0) ∧
    (∀ op ∈ [CompOp.compose 0 1 (BitVec.ofNat 512 compositeRecord), .split 3 4 0 0 1 1, .merge 3 4],
      let s : State := { layered .aging 0 0 with dies := [(0, { comp := [comp op] })] }
      (s.die 0).comp = [comp op] ∧ (comp op).stall = none ∧ (comp op).stepped = false ∧ s.storesOut who = false ∧
        (comp op).snap = []) ∧
    (let x : Layer := { f := [(1, 64), (2, 64)] }
     let q : CompReq := { comp (.merge 3 4) with snap := [(3, x), (4, x)], at_ := 64 }
     q.snap = [(3, x), (4, x)] ∧ x.get 2 ≤ q.at_) ∧
    (let q : CompReq := { comp (.merge 3 4) with owner := { who with thr := 8, sent := 1 } }
     let s : State := { mail (.rst 8 8 7) true 0 with dies := [(0, { comp := [q] })] }
     (s.die 0).comp.head? = some q ∧ s.storesOut q.owner = true) ∧
    16 ≤ (({ one (task 0 0 0 0) with dies := [(0, { comp := List.replicate 16 (comp (.merge 3 4)) })] } : State).die 0).comp.length ∧
    0xFF123456 < 2 ^ 32 ∧ 0xFF123456 / 2 ^ 24 = 255 :=
  by and_intros <;> first | exact .plain (by decide) | decide +kernel

/-- A thread that has popped ticket 0 of layer 3, whose record covers one pixel. -/
def ticketed (t : Ticket) (locks : List PxLock) (th : Thread := task 0 0 0 0) : State :=
  { one th with
    ctxs := [(0, { st := .live, multicast := 0x4000 })], mem := putBytes [] (0x4000) (toBytes 256 (2 ^ 1536 + 1))
    layers := [(3, { st := .aging, owner := 0, f := [(1, 64), (2, 64)] }), (0, { st := .aging, owner := 0, f := [(1, 64), (2, 64)] })]
    cores := [(0, { tickets := [t], locks := locks, tris := [{ ctx := 0, tri := t.tri }] })] }
def ticket : Ticket := { ctx := 0, tri := { set := 0, seq := 0, layer := 3 }, popper := some (0, 1) }

theorem witness_RasterDelivery : (ticketed ticket []).Ready [1, 2] none ∧ (ticketed ticket []).Ready [1] (some 5) false ∧
    (ticketed ticket []).Ready [1] none ∧
    (let s := ticketed ticket []
     (s.core s.curCore).errs.faults = [] ∧ (s.core s.curCore).lsPoison = [] ∧ (s.multicastSet 0 0).isSome ∧ s.layerMine 0 0 = true ∧
       s.memPoisoned 0x4000 256 = false ∧ ({ s with poison := [0x4000] } : State).memPoisoned 0x4000 256 = true ∧
       boxAxis ((s.layer 0).get 1) 0 5 63 = some (0, 63) ∧ boxAxis ((s.layer 0).get 1) 64 65 66 = none ∧
       (s.oldestTri 0 0 0).isSome ∧ s.oldestTri 0 0 1 = none ∧ s.ticket? 0 0 0 = some ticket ∧ s.ticket? 0 0 1 = none ∧
       (s.core 0).grantable ticket 0 = true ∧ 2 * (0 % 65536) < (s.layer ticket.tri.layer).get 1) ∧
    ((ticketed ticket [{ ctx := 0, quad := 0, set := 0, seq := 0 }]).core 0).grantable ticket 0 = false ∧
    (∀ here ∈ [true, false], let s := mail (.triangle ticket.tri) here 0
      (takeMsg 1 0 (fun x => s.takesTri x && !x.held && x.cleared s.net) [] s.net).isSome ∧ s.isFree 7 = true ∧ s.hasTask 0 0 = here) ∧
    (let s := mail (.triangle ticket.tri) true 0
     let two : State := { s with net := s.net ++ s.net.map fun (m : Msg) => { m with src := 2 } }
     takeMsg 2 0 (fun x => two.takesTri x && !x.held && x.cleared two.net) [] two.net = none) ∧
    (ticketed ticket []).cur.remOut = [] ∧ (busy (ticketed ticket [])).cur.remOut ≠ [] ∧
    (let s : State := { mail (.triangle ticket.tri) true 0 with cores := [(0, { tris := List.replicate 64 { ctx := 0, tri := ticket.tri } })] }
     s.net.map s.takesTri = [false] ∧
       (let other := s.net.map fun m => { m with owner := { m.owner with ctx := 1 } }
        other.map ({ s with net := other } : State).takesTri = [true])) ∧
    ((ticketed ticket [] (waits (.triangle 0 0 5))).thread 0).st = .waiting ∧
    ((ticketed ticket [] (waits (.pixel 0 0 0))).core 0).tickets.find? (fun k => decide (k.ctx = 0) && decide (k.tri.set = 0) &&
      decide (k.tri.seq = 0)) = some ticket :=
  by and_intros <;> first | exact .plain (by decide) | decide +kernel

/-- A transfer of 64 bytes from local offset 0x1000 of core 0 to remote address 0x2000 by endpoint 5. -/
def netDescOf : Nat := 0x1000 + 0x2000 * 2 ^ 128 + 64 * 2 ^ 256 + 5 * 2 ^ 488 + 2 ^ 288
def sender (st : EpState) (x : Endpoint) (nq : List NetReq) : State :=
  { stored 0x40 64 netDescOf { nq := nq } with eps := [(5, { x with st := st })] }
def netReq (op : HOp) : NetReq := { owner := who, num := 1, op := op, ep := 5, desc := BitVec.ofNat 512 netDescOf, order := 0 }
def outPkt : OutPkt := { order := 0, off := 0, msg := { op := .put, remote := 0x2000, len := 64 }, port := some 0 }

theorem witness_HalyardTransfers : (sender .opened {} []).Ready [1] none ∧
    (∀ st ∈ [EpState.opened, .failed], ∀ op ∈ [HOp.put, .get], let s := sender st {} []
      (s.core s.curCore).errs.faults = [] ∧ (s.core s.curCore).lsPoison = [] ∧ (s.core 0).netQueued.length < 16 ∧
        (s.src 1).toNat % 64 = 0 ∧ (s.src 1).toNat + 64 ≤ 0x60000 ∧ s.netCheck 0 op (s.lsRead 0 0x40 64) = none ∧
        (s.netCheck 0 op 1).isSome ∧ (s.ep (netEp netDescOf)).st = st) ∧
    16 ≤ ((sender .opened {} (List.replicate 16 (netReq .put))).core 0).netQueued.length ∧
    (let s := sender .opened {} [netReq .put]
     ((s.core 0).nq.takeWhile fun q => q.stall.isNone).find?
         (fun q => decide (q.sent < netLen q.desc.toNat) && s.mayStart q && !s.netBehind q) = some (netReq .put) ∧
       ((State.reset.core 0).nq.takeWhile fun q => q.stall.isNone) = [] ∧ s.cur.remOut = [] ∧ (busy s).cur.remOut ≠ [] ∧
       (match (s.locRead who (netLocal netDescOf) 0 64).2 with | .ok _ => true | _ => false) = true) ∧
    (∀ op ∈ [HOp.put, .get], ∀ tries ∈ [63, 64], let p := { outPkt with tries := tries }
      let s := sender .opened { pkts := [p] } [netReq op]
      (s.ep 5).pkts[0]? = some p ∧ s.xferOf p = some (0, netReq op) ∧ p.port ≠ none ∧ ({ p with port := none } : OutPkt).port = none ∧ p.reply = none ∧ (netReq op).stall = none ∧ p.backoff = false) ∧
    (∀ st ∈ [Port.up, .disabled], ({ State.reset with ports := [(11, st)] } : State).port 11 = st) ∧ State.reset.port 11 = .down :=
  by and_intros <;> first | exact .plain (by decide) | decide +kernel

/-- An endpoint of the context of `mapped`, with a queue for commands if `cmds`. -/
def receiver (security : Nat) (cmds : Bool) : State :=
  { mapped 0 5 3 with eps := [(5, { st := .opened, security := security, cmds := cmds })] }
def packet (n : Nat) (seq : Nat := 0) : Packet :=
  { seq := seq, va := 0x20FF8, data := List.replicate n 1, len := 8, amo := 2, operand := 1, compare := 0, credit := none, duplicate := false,
    authentic := false }

/-- An endpoint that the node table names, with these pages exported. -/
def domain (pages : List Nat) : State :=
  let s := receiver 0 false
  { s with eps := [(5, { st := .opened, rod := true })], dev := { s.dev with nodes := [(9, 5)], exports := pages } }

theorem test_absent_answer : (then_ (.packetRead 5 (packet 8)) (domain [])).out = [OutMsg.absent 5] := by decide +kernel

theorem witness_HalyardArrivals : (receiver 0 false).Ready [1, 2] (some 5) false ∧ (receiver 0 false).Ready [1] (some 5) false ∧
    ((receiver 0 false).ep 5).st = .opened ∧ ((receiver 0 false).ep 6).st ≠ .opened ∧ ((receiver 7 false).ep 5).security ≠ 0 ∧
    (packet 8).authentic = false ∧ (packet 8).data ≠ [] ∧ (packet 8).va.toNat % 4096 + (packet 8).data.length ≤ 4096 ∧
    (match ((receiver 0 false).devWrite (.packet 5) 0 0x20FF8 (packet 8).data).2 with | .ok _ => true | _ => false) = true ∧
    (match ((receiver 0 false).devRead (.packet 5) 0 (pieces 0x20FF8 8)).2 with | .ok _ => true | _ => false) = true ∧
    ((receiver 0 false).xlateDev 0 .atomic 0x20FF8).2 = .ok 0 0x20FF8 0 ∧ (packet 8).amo.toNat ≤ 2 ∧ (packet 64).data.length = 64 ∧
    ((receiver 0 false).src 1).toNat % 4096 = 5 ∧ ((receiver 0 false).ep 5).ctx = (receiver 0 false).cur.ctx ∧
    ((receiver 0 false).src 2).toNat % 8 ≤ 5 ∧ (∀ e ∈ (receiver 0 false).dev.nodes, e.2 ≠ 5) ∧
    ((domain [0x20]).ep 5).rod = true ∧ (packet 8).seq = ((domain [0x20]).ep 5).arrived ∧
    (packet 8 1).seq ≠ ((domain [0x20]).ep 5).arrived ∧ ((receiver 0 false).ep 5).rod = false ∧ (packet 8).credit = none ∧ ((domain [0x20]).ctx ((domain [0x20]).ep 5).ctx).vf = 0 ∧ (9, 5) ∈ (domain [0x20]).dev.nodes ∧
    (packet 8).duplicate = false ∧ (domain [0x20]).memPoisoned 0x20FF8 8 = false ∧ 0x20FF8 / 4096 ∈ (domain [0x20]).dev.exports ∧
    0x20FF8 / 4096 ∉ (domain []).dev.exports :=
  ⟨.plain (by decide), .plain (by decide), by decide +kernel⟩

/-- A boot flash's tables, apart from each other, with the context table at `a`. -/
def flash (a : Nat) : BootCfg :=
  { node := 3, defects := [], ctxTable := a, queueTable := 0x20000, cring := 0x30000, ering := 0x34000, formatImage := 0x40000,
    multicast := 0x50000, table4 := 0x58000, table3 := 0x60000, table2 := 0x68000, freeBase := 0x70000, peer := 0, security := 0 }

theorem witness_DeviceEvents : bootFits (flash 0x10000) = true ∧ bootFits (flash 0x10001) = false ∧ State.reset.dev.ctxBase = none ∧
    2 ^ 24 ≤ (({ State.reset with cores := [(1535, { watch := 2 ^ 24 })] } : State).core 1535).watch ∧
    (State.reset.core 1535).watch < 2 ^ 24 ∧ (one (task 1535 0 0 0)).Ready [1] none ∧ (one (task 1535 0 0 0)).cur.tstate.getLsbD 2 = true ∧
    (one (task 1535 0 0 0)).cur.vf = 0 ∧ (one { task 0 0 0 0 with vf := 1 }).cur.vf ≠ 0 ∧ ((one (task 1535 0 0 0)).src 1).toNat % 2048 < 1536 ∧
    (let s : State := { State.reset with dev := { State.reset.dev with fences := [9] }, clus := [(1, { spare := none })] }
     s.dev.fences = [9] ∧ (s.clu 1).spare = none) ∧
    1536 ≤ ((one (task 1536 0 0 0)).src 1).toNat % 2048 ∧
    (let v : W64 := 0xFFFF000F0001
     v.getLsbD 0 = true ∧ v.toNat / 2 ^ 16 % 16 ≠ 0 ∧ State.reset.dev.vfPhase = 0) :=
  by and_intros <;> first | exact .plain (by decide) | decide +kernel

/-- The state of `withFetchWord` whose next step runs the instruction of the word. -/
def next (nbits w : Nat) : State := State.reset.withFetchWord nbits w

/-- An access of another device that is to go out, is on its way, is answered, or finds no endpoint. -/
theorem witness_FarAccesses :
    (let m : NetMsg := { op := .get, remote := 2 ^ 40 + 0x20020, len := 32 }
     let s : State := { away with dev := { away.dev with answers := [] } }
     let t := (s.remoteAccess (.thread 0 1) .get 1 0x20020 0x20020 32).1
     away.answered (.thread 0 1) m ≠ none ∧ s.answered (.thread 0 1) m = none ∧ s.farEp 2 = none ∧ s.farEp 1 = some 5 ∧
       s.mayAccess 5 32 = true ∧ (∀ q ∈ (s.ep 5).pkts, q.asker ≠ some (.thread 0 1)) ∧
       (∃ q ∈ (t.ep 5).pkts, q.asker = some (.thread 0 1) ∧ q.msg = m) ∧ t.mayAccess 5 32 = false) ∧
    (let q : OutPkt := { order := 3, off := 0, msg := { op := .get, remote := 2 ^ 40, len := 1 }, port := some 0, asker := some (.thread 0 1) }
     let s : State := { away with eps := [(5, { st := .opened, pkts := [q] })] }
     (s.ep 5).pkts[0]? = some q ∧ s.xferOf q = none ∧ q.port ≠ none ∧ q.reply = none ∧ s.asks (.thread 0 1) = true ∧
       (s.ep 5).rod = false ∧ Reply.done [7] ≠ .retry ∧ [(7 : BitVec 8)].length = q.msg.len) := by decide +kernel

/-- Two SPAWNs of one cycle that name core 2: slot 1 of core 0 and slot 0 of core 1. -/
def spawning : State :=
  let s := next 32 0x054CFC08
  let th : Thread := { s.thread 0 with grp := some (0, 0) }
  { s with
    thr := [(1, th), (8, th)], agenda := []
    groups := [(0, { st := .placed, first := 2 })], kernels := [(0, { st := .active, groups := 1, w := 1, p := 3, n := 2 })] }

theorem witness_StepRunsDecoded : (let s := next 16 0x058A
     let s1 : State := { (s.fetchEffect 0 1).readRegs 0 (.sub 5 4 2) with iss :=
       { thr := 0, b := { pc := 0x20000, words := [0x058A], la := 0 }, dep := max ((s.thread 0).depOf (sourcesOf (.sub 5 4 2))) ((s.thread 0).sysDepOf (sysReads (.sub 5 4 2))) } }
     (sourcesOf (.sub 5 4 2)).contains (.s 30) = false ∧
     s.agenda = [.issue 0] ∧ s1.regsBad 0 (.sub 5 4 2) = false ∧ (then_ (.sub 5 4 2) s1).iss.turn = .ran ∧
       heldBy (.sub 5 4 2) s1 (then_ (.sub 5 4 2) s1) = false ∧ (then_ (.trap 5) s1).iss.turn = .trapped ∧ (s.core 0).issued ≠ some s.cycle ∧ slotOrder s.cycle = 0 :: (slotOrder s.cycle).tail ∧
       s.competes 0 = true ∧ (s.thread 0).follows = false ∧ (s.thread 0).spent = false ∧ (s.thread 0).poison = none ∧
       (s.thread 0).blockers (.sub 5 4 2) = [] ∧ (s.thread 0).outstanding < 4) ∧
    (match decodeWith ((next 16 0x058A).fetchWord 0) with
      | .ok x => decide (x = (Decoded.ok (.sub 5 4 2) 0, [0x058A])) | .error _ => false) = true ∧
    (next 16 0x058A).memPoisoned 0x20000 2 = false ∧
    ((next 16 0x058A).xlate 0 0 .fetch 0x20000).2 = .ok 0 0x20000 0 ∧ isBundle (.storeAck 0) = false ∧
    (next 16 0x058A).beforeTurn (.storeAck 0) = false ∧ (next 16 0x058A).beforeTurn (.wakeArrive 0) = true ∧
    (next 16 0x058A).beforeTurn (.preemptionTrigger 0) = true ∧ (next 16 0x058A).beforeTurn (.preemptionTrigger 1) = false ∧
    ((next 16 0x058A).core 0).icached 0x20000 = none ∧
    (let c : Core := { icache := [{ addr := 0x20000, data := 0x058A }] }
     (c.icached 0x20000).isSome = true ∧ c.fetchBad 0x20000 = false) ∧
    (next 16 0x058A).Unasked ((next 16 0x058A).fetcher 0) ∧ (next 16 0x058A).spawnWaits 0 = false ∧
    spawning.spawnWaits 0 = true :=
  by and_intros <;> first | exact .quiet (by decide +kernel) | decide +kernel

/-- The step of that state is the instruction's: s5 gets s4 - s2, and the thread goes on at the next word. -/
theorem test_step : (match step (next 16 0x058A) with
    | .next t => decide ((t.thread 0).pc = 0x20002 ∧ (t.thread 0).readS 5 = 0) | _ => false) = true := by decide +kernel

theorem witness_EncodeDecode : isBundle (.ldw 5 2 2 3) = true ∧ (Instr.ldw 5 2 2 3).wf = true ∧ isLong (.ldw 5 2 2 3) = true ∧
    (Instr.addi 1 1 (2 ^ 40 - 1)).wf = true ∧ isLong (.addi 1 1 0) = false := by decide +kernel

theorem witness_CompletingFrame : (one (task 0 0 0 0)).cur.gang = none ∧ (29#5).toNat < 30 ∧ (1#5).toNat ≠ 0 := by decide

theorem witness_RegisterFrame : (Instr.add 3 1 2, [(1 : SReg), 2], some (3 : SReg), Reg.s 3) ∈
      ([Instr.add 3 1 2].map fun i => (i, [(1 : SReg), 2], some (3 : SReg), Reg.s 3)) ∧ (one (task 5 7 0 0)).Ready [1, 2] (some 3) ∧
    (linked []).Ready [30, 1] (some 31) := ⟨by simp, .plain (by decide), linked_ready⟩

theorem witness_BranchAndStoreFrame : (mapped 0x20008 0 0).Ready [1] none ∧
    ((mapped 0x20008 0 0).cur.readA 1 + BitVec.ofInt 72 ((0 : Imm).toInt * (8 : Nat))).toNat % 8 = 0 ∧
    ((mapped 0x20008 0 0).xlate 0 0 .store 0x20008).2 = .ok 0 0x20008 0 ∧
    (((mapped 0x20008 0 0).ackAll 0).xlate 0 0 .store 0x20008).2 = .ok 0 0x20008 0 ∧ (mapped 0x20008 0 0).cur.remOut = [] ∧
    (mapped 0x20008 0 0).Unasked ((mapped 0x20008 0 0).asker 0) ∧
    0 ≤ ((one (task 0 0 0 0)).iss.b.pc.toNat : Int) + 2 * (BitVec.ofInt 47 (-2) : Imm).toInt :=
  by and_intros <;> first | exact .plain (by decide) | exact .quiet (by decide +kernel) | decide +kernel

theorem witness_StepKeepsMemoryCanonical : Memory.wf (next 16 0x058A).mem = true ∧
    (match step (next 16 0x058A) with | .next _ => true | _ => false) = true := by decide +kernel

/-! ### Operand traps, faults and walks -/

theorem witness_OperandTraps :
    (let s := one (task 0 0 0 0)
     s.upLink s.iss.thr = none ∧ s.downLink s.iss.thr = none ∧ 31#5 ∈ [31#5, 1#5] ∧ 31#5 ∉ [30#5, 1#5] ∧ 30#5 ∈ [30#5, 1#5]) ∧
    ((linked []).upLink 0).isSome = true ∧
    (let s := { one (task 0 0 0 0) with links := [{ src := 8, dst := 0, ctx := 0 }] }
     (s.upLink s.iss.thr).map (·.vals) = some []) ∧
    (let s := { one (task 0 0 0 0) with links := [{ src := 0, dst := 8, ctx := 0, vals := List.replicate 16 1 }] }
     (s.downLink s.iss.thr).map (·.vals.length) = some 16) ∧
    (one (task 0x30001 0 0 0)).Ready [1] none ∧ (one (task 0x30001 0 0 0)).Ready [1] (some 28) ∧
    ((one (task 0x30001 0 0 0)).src 1).getLsbD 0 = true ∧
    ((one (task 0 0 0 0)).iss.b.pc.toNat : Int) + 2 * (BitVec.ofInt 47 (-65537) : Imm).toInt < 0 ∧
    (one (task 0 0 0 0)).cur.readM 1 = 0 ∧ (one (task 0 0 0 0)).cur.readM 0 ≠ 0 ∧
    ((one (task 0 0 0 0)).src 1).toInt = 0 ∧ ((one (task (-1) 0 0 0)).src 1).toInt < 0 ∧ 0 < ((one (task 1 0 0 0)).src 1).toInt :=
  by and_intros <;> first | exact .plain (by decide) | decide +kernel

/-- A page that is absent for loads and stores, in a context with a fault ring at 0x30000 or with none. -/
def absent (ring : Bool) (slot : Nat := 0) : State :=
  let s := (mapped 0x20008 0 0).memPut 0x18000 8 0x3E
  let s := s.setCtx 0 { s.ctx 0 with fring := if ring then 0x30000 else 0 }
  { s with iss := { s.iss with thr := slot }, thr := [(slot, s.thread 0)] }

theorem witness_FaultedAccesses : (mapped (2 ^ 36) 0 0).Ready [] (some 5) false ∧ (mapped (2 ^ 36) 0 0).Ready [1] none ∧
    (let s := mapped (2 ^ 36) 0 0
     (s.cur.readA 1 + BitVec.ofInt 72 ((0 : Imm).toInt * (16 : Nat))).toNat % 16 = 0 ∧
       s.xlate s.curCore s.cur.ctx .load (2 ^ 36) = (s, .hard 1) ∧ s.xlate s.curCore s.cur.ctx .store (2 ^ 36) = (s, .hard 1)) ∧
    (absent true).Ready [] (some 5) false ∧ (absent true).Ready [1] none ∧
    (let s := absent true
     s.xlate s.curCore s.cur.ctx .load 0x20008 = (s, .soft 1) ∧ s.xlate s.curCore s.cur.ctx .store 0x20008 = (s, .soft 1) ∧
       slotOf s.iss.thr ≠ 7 ∧ s.iss.thr < 12288 ∧ s.cur.ctx < 256 ∧ s.faultRing s.cur.ctx = some (0x30000, 16) ∧
       s.cur.gang = none ∧ s.cur.pend = [] ∧ (s.clu (cluOf s.iss.thr)).frecs = [] ∧
       (s.memRead 0x30000 8 + 2 ^ 64 - s.memRead 0x30008 8) % 2 ^ 64 < 16 ∧ s.memRead 0x30019 1 / 8 % 2 = 0) ∧
    (absent false).faultRing (absent false).cur.ctx = none ∧ slotOf (absent true 7).iss.thr = 7 ∧
    (mapped (2 ^ 36) 0 0).Unasked ((mapped (2 ^ 36) 0 0).asker 0) ∧ (absent true).Unasked ((absent true).asker 0) :=
  by and_intros <;> first | exact .plain (by decide) | exact .quiet (by decide +kernel) | decide +kernel

/-- The tables of the worked walk of 12_page R227. -/
def walked : State :=
  let s := (one (task 0 0 0 0)).setCtx 0 { (one (task 0 0 0 0)).ctx 0 with st := .live, ptroot := 0x100000 }
  ((((s.memPut 0x100008 8 0x42000001).memPut 0x108010 8 0x44000001).memPut 0x110018 8 0x46000001).memPut 0x118020 8
    0x48000001).memPut 0x1200A8 8 0xD159C00007

theorem test_walk_worked : (walked.xlate 0 0 .store 0x001002003004015A28).2 = .ok 0 0x34567A28 0 := by decide +kernel
theorem test_walk_no_fetch : (walked.xlate 0 0 .fetch 0x001002003004015A28).2 = .hard 2 := by decide +kernel

theorem witness_WalkOutcomes :
    (let e : W64 := BitVec.ofNat 64 (walked.memRead (0x100000 + 8 * (0x001002003004015A28 / 2 ^ 60 % 4096)) 8)
     e.getLsbD 0 = true ∧ e.getLsbD 1 = false ∧ e.getLsbD 2 = false ∧ e.getLsbD 3 = false ∧ bits e.toNat 9 4 = 0 ∧
       bits e.toNat 21 10 = walked.dev.node ∧ bits e.toNat 61 22 = 0x108 ∧ 0x108 * 4096 + 32768 ≤ Config.memBytes) ∧
    (BitVec.ofNat 64 (walked.memRead 0x100000 8) : W64) = 0 ∧
    (let e : W64 := BitVec.ofNat 64 (walked.memRead (0x120000 + 8 * (0x001002003004015A28 / 2 ^ 12 % 4096)) 8)
     e.getLsbD 2 = true ∧ e.getLsbD 1 = true ∧ e.getLsbD 6 = false ∧ bits e.toNat 9 8 ≠ 3 ∧ bits e.toNat 61 22 = 0x34567 ∧
       0x34567 * 4096 + 4096 ≤ Config.memBytes) ∧
    (let s := (one (task 0 0 0 0)).memPut 0 8 0x5
     let e : W64 := BitVec.ofNat 64 (s.memRead 0 8)
     e.getLsbD 2 = true ∧ e.getLsbD 1 = false) ∧ walked.memPoisoned 0x100008 8 = false ∧
    ({ walked with poison := [0x100008] } : State).memPoisoned 0x100008 8 = true ∧ Pte.cow ∈ [Pte.present, .cow, .absent, .compressed] :=
  by decide +kernel

end Sys2Proof.Tests
end

/-! SUPPORT. Proofs of the scalar family: scalar, address and control instructions of pages 0 and 1 (04_scalar). What each
shape of instruction does with ready operands, what its result function gives, and from both the statements of the
family. -/

namespace Sys2Proof.Machine

open Sys2Proof

/-! ### Each shape with ready operands (04_scalar R66, R67) -/

section
variable {s : State}

/-- An instruction with ready operands goes on with the values of its sources. -/
theorem next_withOps {srcs : List SReg} {dst : Option SReg} {k : (SReg → W64) → State} {t : State}
    (h : s.Ready srcs dst) (hk : k (s.vals srcs) = t) : (.next (s.withOps srcs dst k) : Out) = .next t := by
  rw [State.withOps_ready h, hk]

@[simp] theorem State.vals_singleton (a : SReg) : s.vals [a] a = s.src a := State.vals_of_mem (by simp)

theorem next_aluR {d a : SReg} {f : W64 → W64} {v : W64} (h : s.Ready [a] (some d)) (hv : f (s.src a) = v) :
    (.next (aluR d a f s) : Out) = .next (s.retireS [a] d v) :=
  next_withOps h (by rw [State.vals_singleton, hv])

theorem next_aluRR {d a b : SReg} {f : W64 → W64 → W64} {v : W64} (h : s.Ready [a, b] (some d))
    (hv : f (s.src a) (s.src b) = v) : (.next (aluRR d a b f s) : Out) = .next (s.retireS [a, b] d v) :=
  next_withOps h (by rw [State.vals_of_mem (by simp), State.vals_of_mem (by simp), hv])

theorem next_aluRRR {d a b : SReg} {f : W64 → W64 → W64 → W64} {v : W64} (h : s.Ready [d, a, b] (some d))
    (hv : f (s.src d) (s.src a) (s.src b) = v) :
    (.next (aluRRR d a b f s) : Out) = .next (s.retireS [d, a, b] d v) :=
  next_withOps h (by
    rw [State.vals_of_mem (by simp), State.vals_of_mem (by simp), State.vals_of_mem (by simp), hv])

/-- ADDA and its scaled forms add a function of the index. -/
theorem next_addrRR {d a : AReg} {b : SReg} {f : W64 → VAddr} {w : VAddr} (h : s.Ready [b] none)
    (hw : f (s.src b) = w) :
    (.next (addrRR d a b (fun x y => x + f y) s) : Out) =
      .next (s.retireT [b] fun th => th.writeA d (th.readA a + w)) :=
  next_withOps h (by simp only [State.vals_singleton, hw])

/-- One source named twice is ready where it is ready once. -/
theorem State.Ready.of_pair {a : SReg} {dst : Option SReg} {room : Bool} (h : s.Ready [a, a] dst room) :
    s.Ready [a] dst room where
  sources := by simpa using h.sources
  target := h.target
  pops := by simpa using h.pops
  pushes := h.pushes

end

/-! ### Results of page 0 (R71 to R73) -/

/-- A shift amount `n` is read as the number `k` it holds: a register's or an immediate's. -/
theorem sll_eq (x : W64) {n : W64} {k : Nat} (h : n.toNat = k) : sll x n = if k < 64 then x <<< k else 0 := by
  simp only [sll, h, ← Nat.not_lt, ite_not]

theorem srl_eq (x : W64) {n : W64} {k : Nat} (h : n.toNat = k) : srl x n = if k < 64 then x >>> k else 0 := by
  simp only [srl, h, ← Nat.not_lt, ite_not]

theorem sra_eq (x : W64) {n : W64} {k : Nat} (h : n.toNat = k) :
    sra x n = if k < 64 then x.sshiftRight k else x.sshiftRight 63 := by
  subst h
  unfold sra
  split
  · rw [Nat.min_eq_left (by omega)]
  · rw [Nat.min_eq_right (by omega)]

theorem ofBool_eq {p : Bool} {q : Prop} [Decidable q] (h : p = true ↔ q) : ofBool p = if q then 1 else 0 := by
  simp [ofBool, h]

theorem immZ_toNat (i : Imm) : (immZ i).toNat = i.toNat := by
  simp only [immZ, BitVec.toNat_setWidth]
  omega

theorem immS_toInt (i : Imm) : (immS i).toInt = i.toInt := BitVec.toInt_signExtend_of_le (by decide)

theorem slt_immS_iff (x : W64) (i : Imm) : x.slt (immS i) = true ↔ x.toInt < i.toInt := by
  rw [BitVec.slt_iff_toInt_lt, immS_toInt]

/-! ### Addresses (R74, R75) -/

/-- An index scaled modulo 2^72 is the scaled number modulo 2^72. -/
theorem signExtend_mul_ofInt (y : W64) (k : Int) :
    y.signExtend 72 * BitVec.ofInt 72 k = BitVec.ofInt 72 (k * y.toInt) := by
  rw [Int.mul_comm, BitVec.ofInt_mul]; rfl

theorem extract_high_byte (v : VAddr) : (v.extractLsb' 64 8).setWidth 64 = (v >>> 64).setWidth 64 := by
  apply BitVec.eq_of_toNat_eq
  simp only [BitVec.toNat_setWidth, BitVec.extractLsb'_toNat, BitVec.toNat_ushiftRight]
  omega

/-! ### Branches (R76 to R78) -/

section
variable {s : State} {t : W64}

/-- A target that a 64-bit address gives lies in the code range (01_machine R24). -/
theorem target_in_range {z : Int} (h : (t.toNat : Int) = z) : 0 ≤ z ∧ z < 2 ^ 64 := by
  have := t.isLt
  omega

theorem State.jumpTo_target (s : State) (srcs : List SReg) {z : Int} (h : (t.toNat : Int) = z) :
    s.jumpTo srcs z = (s.popIf srcs).moveTo t false true := by
  rw [State.jumpTo, if_pos (target_in_range h), ← h]
  simp

theorem next_branchS {a : SReg} {i : Imm} {p : W64 → Bool} {q : Prop} [Decidable q] (h : s.Ready [a] none)
    (ht : (t.toNat : Int) = branchTarget s.iss.b.pc i) (hq : p (s.src a) = true ↔ q) :
    (.next (branchS a i p s) : Out) = .next (if q then (s.popIf [a]).moveTo t false true else s.retire [a]) :=
  next_withOps h (by simp only [State.vals_singleton, hq, State.jumpTo_target s [a] ht])

theorem next_branchM {m : MReg} {i : Imm} {p : W64 → Bool} {q : Prop} [Decidable q]
    (ht : (t.toNat : Int) = branchTarget s.iss.b.pc i) (hq : p (s.cur.readM m) = true ↔ q) :
    (.next (branchM m i p s) : Out) = .next (if q then s.moveTo t false true else s.done) := by
  simp only [branchM, hq, State.jumpTo_target s [] ht]
  rfl

/-- JAL writes its link before it jumps. -/
theorem next_jal {i : Imm} (ht : (t.toNat : Int) = branchTarget s.iss.b.pc i) :
    execJal i s = .next ((s.setCur (s.cur.writeS 28 s.iss.b.next)).moveTo t false true) := by
  simp only [execJal, if_pos (target_in_range ht), State.jumpTo_target _ [] ht]
  rfl

theorem next_jr {a : SReg} (h : s.Ready [a] none) (he : (s.src a).getLsbD 0 = false) :
    execJr a s = .next ((s.popIf [a]).moveTo (s.src a) false) :=
  next_withOps h (by simp only [State.vals_singleton, he, Bool.false_eq_true, if_false])

/-- JALR reads its target before it writes the link. -/
theorem next_jalr {d a : SReg} (h : s.Ready [a] (some d)) (he : (s.src a).getLsbD 0 = false) :
    execJalr d a s = .next (((s.popIf [a]).putS d s.iss.b.next).moveTo (s.src a) false) :=
  next_withOps h (by simp only [State.vals_singleton, he, Bool.false_eq_true, if_false])

end

theorem slt_zero_iff (x : W64) : x.slt 0 = true ↔ x.toInt < 0 := BitVec.slt_iff_toInt_lt
theorem zero_slt_iff (x : W64) : BitVec.slt 0 x = true ↔ 0 < x.toInt := BitVec.slt_iff_toInt_lt
theorem not_slt_zero_iff (x : W64) : (!x.slt 0) = true ↔ 0 ≤ x.toInt := by
  simpa [slt_zero_iff] using (slt_zero_iff x).not
theorem not_zero_slt_iff (x : W64) : (!BitVec.slt 0 x) = true ↔ x.toInt ≤ 0 := by
  simpa using (zero_slt_iff x).not

/-! ### Products (page 1) -/

theorem mul_eq_ofNat (x y : W64) : x * y = BitVec.ofNat 64 (x.toNat * y.toNat) :=
  BitVec.eq_of_toNat_eq (by simp [BitVec.toNat_mul])

theorem low32_mul (x y : W64) : low32 (x * y) = (BitVec.ofNat 32 (x.toNat * y.toNat)).signExtend 64 := by
  rw [low32, mul_eq_ofNat]
  congr 1
  exact BitVec.setWidth_ofNat_of_le (by decide) _

/-- The high half of a number of 128 bits. -/
theorem extract_high_ofInt (p : Int) : (BitVec.ofInt 128 p).extractLsb' 64 64 = BitVec.ofInt 64 (p / 2 ^ 64) := by
  apply BitVec.eq_of_toNat_eq
  simp only [BitVec.extractLsb'_toNat, BitVec.toNat_ofInt, Nat.shiftRight_eq_div_pow]
  omega

theorem extract_high_ofNat (p : Nat) : (BitVec.ofNat 128 p).extractLsb' 64 64 = BitVec.ofNat 64 (p / 2 ^ 64) := by
  apply BitVec.eq_of_toNat_eq
  simp only [BitVec.extractLsb'_toNat, BitVec.toNat_ofNat, Nat.shiftRight_eq_div_pow]
  omega

theorem mulh_eq (x y : W64) :
    (x.signExtend 128 * y.signExtend 128).extractLsb' 64 64 = BitVec.ofInt 64 (x.toInt * y.toInt / 2 ^ 64) := by
  rw [← extract_high_ofInt, BitVec.ofInt_mul]; rfl

theorem mulhn_eq (x y : W64) :
    (x.setWidth 128 * y.setWidth 128).extractLsb' 64 64 = BitVec.ofNat 64 (x.toNat * y.toNat / 2 ^ 64) := by
  rw [← extract_high_ofNat, BitVec.ofNat_mul, BitVec.ofNat_toNat, BitVec.ofNat_toNat]

/-! ### Counts of bits -/

theorem clz_zero : clz 0 = 64 := by decide
theorem ctz_zero : ctz 0 = 64 := by decide
theorem popc_zero : popc 0 = 0 := by decide

/-- The first set bit from the top is the logarithm. -/
theorem clz_toNat {x : W64} (h : x ≠ 0) : (clz x).toNat = 63 - x.toNat.log2 := by
  have hx : x.toNat ≠ 0 := BitVec.toNat_ne.1 h
  have hlog : x.toNat.log2 < 64 := (Nat.log2_lt hx).2 x.isLt
  have hfind : (List.range 64).find? (fun k => x.getLsbD (63 - k)) = some (63 - x.toNat.log2) := by
    refine List.find?_range_eq_some.2 ⟨?_, by simp; omega, fun j hj => ?_⟩
    · rw [Nat.sub_sub_self (by omega)]
      exact Nat.testBit_log2 hx
    · have habove : x.toNat < 2 ^ (63 - j) := (Nat.log2_lt hx).1 (by omega)
      simp [BitVec.getLsbD, Nat.testBit_lt_two_pow habove]
  simp only [clz, hfind, Option.getD_some, BitVec.toNat_ofNat]
  omega

/-- The number of the first set bit from below: it stands alone in what the bits up to it hold. -/
theorem mod_ctz {x : W64} (h : x ≠ 0) : x.toNat % 2 ^ ((ctz x).toNat + 1) = 2 ^ (ctz x).toNat := by
  obtain ⟨n, hn⟩ : ∃ n, x.getLsbD n = true := by
    by_contra hc
    exact h (BitVec.eq_of_getLsbD_eq fun i _ => by simpa using fun hi => hc ⟨i, hi⟩)
  have hsome : ((List.range 64).find? fun k => x.getLsbD k).isSome :=
    List.find?_isSome.2 ⟨n, List.mem_range.2 (BitVec.lt_of_getLsbD hn), hn⟩
  obtain ⟨k, hk⟩ := Option.isSome_iff_exists.1 hsome
  obtain ⟨hset, hlt, hbelow⟩ := List.find?_range_eq_some.1 hk
  have hctz : (ctz x).toNat = k := by
    have := List.mem_range.1 hlt
    simp only [ctz, hk, Option.getD_some, BitVec.toNat_ofNat]
    omega
  rw [hctz]
  refine Nat.eq_of_testBit_eq fun j => ?_
  rw [Nat.testBit_mod_two_pow, Nat.testBit_two_pow]
  rcases Nat.lt_trichotomy j k with hj | rfl | hj
  · have hclear : x.toNat.testBit j = false := by
      simpa [BitVec.testBit_toNat] using hbelow j hj
    simp [hclear, hj.ne']
  · simpa [BitVec.testBit_toNat] using hset
  · have hout : ¬j < k + 1 := by omega
    simp [hout, hj.ne]

theorem popc_toNat (x : W64) : (popc x).toNat = ((List.range 64).filter fun k => x.getLsbD k).length := by
  have := List.length_filter_le (fun k => x.getLsbD k) (List.range 64)
  rw [List.length_range] at this
  rw [popc, BitVec.toNat_ofNat, Nat.mod_eq_of_lt (by omega)]

/-! ### Bit fields and funnel shifts (R80, R81) -/

theorem ctlPos_eq (c : W64) : ctlPos c = c.toNat % 64 := by simp [ctlPos, bits]
theorem ctlLen_eq (c : W64) : ctlLen c = c.toNat / 256 % 128 := by simp [ctlLen, bits]
theorem fieldLen_eq (len pos : Nat) : fieldLen len pos = min len (64 - pos) := by
  unfold fieldLen; omega

theorem bext_eq (x : W64) (pos len : Nat) :
    bext x pos len = BitVec.ofNat 64 (x.toNat / 2 ^ pos % 2 ^ min len (64 - pos)) := by
  rw [bext, fieldLen_eq]

theorem sext_mod (l n : Nat) : sext l (n % 2 ^ l) = (BitVec.ofNat l n).signExtend 64 := by
  have hofNat : BitVec.ofNat l (n % 2 ^ l) = BitVec.ofNat l n := BitVec.eq_of_toNat_eq (by simp)
  rw [sext, hofNat]

/-- An empty field extends to 0, as a number of no bits does. -/
theorem bexts_eq (x : W64) (pos len : Nat) :
    bexts x pos len = (BitVec.ofNat (min len (64 - pos)) (x.toNat / 2 ^ pos)).signExtend 64 := by
  simp only [bexts, fieldLen_eq]
  generalize min len (64 - pos) = l
  split
  · next h =>
    subst h
    rw [BitVec.of_length_zero (x := BitVec.ofNat 0 _)]
    rfl
  · exact sext_mod l _

/-- The length of a field is cut at bit 63. -/
theorem field_fits (len n : Nat) : n % 64 + min len (64 - n % 64) ≤ 64 := by omega

/-- The mask of a field has the field's bits. -/
theorem getLsbD_fieldMask {l pos : Nat} (h : pos + l ≤ 64) (k : Nat) :
    (fieldMask l pos).getLsbD k = decide (pos ≤ k ∧ k < pos + l) := by
  simp only [fieldMask, BitVec.getLsbD_ofNat, Nat.testBit_mul_two_pow, Nat.testBit_two_pow_sub_one]
  rw [Bool.eq_iff_iff]
  simp
  omega

theorem bmsk_eq (x : W64) {l pos : Nat} (h : pos + l ≤ 64) :
    x &&& fieldMask l pos = BitVec.ofNat 64 (x.toNat / 2 ^ pos % 2 ^ l * 2 ^ pos) := by
  refine BitVec.eq_of_getLsbD_eq fun k hk => ?_
  rw [BitVec.getLsbD_and, getLsbD_fieldMask h, BitVec.getLsbD_ofNat, Nat.testBit_mul_two_pow,
    Nat.testBit_mod_two_pow, Nat.testBit_div_two_pow, BitVec.testBit_toNat]
  by_cases hp : pos ≤ k
  · simp [hk, hp, Nat.sub_add_cancel hp, Nat.sub_lt_iff_lt_add hp, Bool.and_comm, Nat.add_comm]
  · simp [hp]

theorem getLsbD_bins (x z : W64) {l pos : Nat} (h : pos + l ≤ 64) (k : Nat) :
    ((z &&& ~~~fieldMask l pos) ||| ((x <<< pos) &&& fieldMask l pos)).getLsbD k =
      if pos ≤ k ∧ k < pos + l then x.getLsbD (k - pos) else z.getLsbD k := by
  simp only [BitVec.getLsbD_or, BitVec.getLsbD_and, BitVec.getLsbD_not, getLsbD_fieldMask h, BitVec.getLsbD_shiftLeft]
  by_cases hin : pos ≤ k ∧ k < pos + l
  · have hk : k < 64 := by omega
    rw [decide_eq_true hin, if_pos hin]
    simp [hin.1, hk]
  · rw [decide_eq_false hin, if_neg hin]
    simpa using BitVec.lt_of_getLsbD

theorem toNat_append_words (x z : W64) : (x ++ z : BitVec 128).toNat = x.toNat * 2 ^ 64 + z.toNat := by
  rw [BitVec.toNat_append, ← Nat.shiftLeft_add_eq_or_of_lt z.isLt, Nat.shiftLeft_eq]

theorem fshl_eq (z x : W64) (pos : Nat) :
    ((z ++ x : BitVec 128) <<< pos).extractLsb' 64 64 =
      BitVec.ofNat 64 ((z.toNat * 2 ^ 64 + x.toNat) * 2 ^ pos / 2 ^ 64) := by
  rw [← extract_high_ofNat, ← toNat_append_words, ← Nat.shiftLeft_eq]; rfl

theorem fshr_eq (x z : W64) (pos : Nat) :
    ((x ++ z : BitVec 128) >>> pos).setWidth 64 = BitVec.ofNat 64 ((x.toNat * 2 ^ 64 + z.toNat) / 2 ^ pos) := by
  rw [← toNat_append_words, ← Nat.shiftRight_eq_div_pow]; rfl

/-! ### Reversal, extension and sign -/

theorem getLsbD_brev (x : W64) {k : Nat} (hk : k < 64) : (brev x).getLsbD k = x.getLsbD (63 - k) := by
  rw [brev, BitVec.getLsbD_reverse, BitVec.getMsbD_eq_getLsbD]
  simp [hk]

theorem zextw_eq (x : W64) : (x.setWidth 32).setWidth 64 = x &&& 0xFFFFFFFF := by
  apply BitVec.eq_of_toNat_eq
  have hmask : (0xFFFFFFFF : W64).toNat = 2 ^ 32 - 1 := rfl
  rw [BitVec.toNat_and, hmask, Nat.and_two_pow_sub_one_eq_mod, BitVec.toNat_setWidth, BitVec.toNat_setWidth]
  omega

theorem neg_eq_ofInt (x : W64) : 0 - x = BitVec.ofInt 64 (-x.toInt) := by
  rw [BitVec.ofInt_neg, BitVec.ofInt_toInt]; simp

theorem abs_eq_ofNat (x : W64) : (if x.slt 0 then 0 - x else x) = BitVec.ofNat 64 x.toInt.natAbs := by
  rw [← BitVec.ofInt_natCast]
  split
  · next h =>
    rw [neg_eq_ofInt, Int.ofNat_natAbs_of_nonpos ((slt_zero_iff x).1 h).le]
  · next h =>
    rw [Int.natAbs_of_nonneg (not_lt.1 (mt (slt_zero_iff x).2 h)), BitVec.ofInt_toInt]

/-! ### The statements -/

/-- Settles O1: by the shape of each instruction and the equation of its result. -/
theorem scalarResults : Obligations.ScalarResults := by
  unfold Obligations.ScalarResults
  refine ⟨fun s d a b h => ?registers, fun s d a i => ⟨fun h => ?immediates, fun h => next_withOps h rfl⟩⟩
  case registers =>
    exact ⟨
      -- ADD, ADDW, SUB, SUBW
      next_aluRR h rfl, next_aluRR h rfl, next_aluRR h rfl, next_aluRR h rfl,
      -- AND, OR, XOR, ANDN
      next_aluRR h rfl, next_aluRR h rfl, next_aluRR h rfl, next_aluRR h rfl,
      -- SLL, SRL, SRA, ROR
      next_aluRR h (sll_eq _ rfl), next_aluRR h (srl_eq _ rfl), next_aluRR h (sra_eq _ rfl), next_aluRR h rfl,
      -- CEQ, CNE, CLT, CLTN
      next_aluRR h (ofBool_eq beq_iff_eq), next_aluRR h (ofBool_eq bne_iff_ne),
      next_aluRR h (ofBool_eq BitVec.slt_iff_toInt_lt), next_aluRR h (ofBool_eq BitVec.ult_iff_toNat_lt)⟩
  case immediates =>
    exact ⟨
      -- ADDI, ANDI, ORI, XORI
      next_aluR h rfl, next_aluR h rfl, next_aluR h rfl, next_aluR h rfl,
      -- SLLI, SRLI, SRAI
      next_aluR h (sll_eq _ (immZ_toNat i)), next_aluR h (srl_eq _ (immZ_toNat i)),
      next_aluR h (sra_eq _ (immZ_toNat i)),
      -- CLTI, MOV
      next_aluR h (ofBool_eq (slt_immS_iff _ i)), next_aluR h rfl⟩

/-- Settles O2: the scaled index is a product modulo 2^72. -/
theorem addressResults : Obligations.AddressResults := by
  unfold Obligations.AddressResults
  refine fun s d a r i => ⟨fun h => ?withIndex, rfl, rfl, fun h => ?toScalar⟩
  case withIndex =>
    exact ⟨
      -- ADDA, ADDA2, ADDA4, ADDA8
      next_addrRR h rfl, next_addrRR h (signExtend_mul_ofInt _ 2), next_addrRR h (signExtend_mul_ofInt _ 4),
      next_addrRR h (signExtend_mul_ofInt _ 8),
      -- MOVA, MOVAH
      next_withOps h (by simp only [State.vals_singleton]),
      next_withOps h (by simp only [State.vals_singleton])⟩
  case toScalar =>
    exact ⟨next_withOps h rfl, next_withOps h (by rw [extract_high_byte])⟩

/-- Settles O3: a target given as a 64-bit address is in the code range, so a jump is a move of the pc there. -/
theorem branchesAndJumps : Obligations.BranchesAndJumps := by
  unfold Obligations.BranchesAndJumps
  refine fun s d a m i t ht => ⟨fun h => ?byRegister, next_branchM ht bne_iff_ne, next_branchM ht beq_iff_eq, ?j,
    next_jal ht, fun h he => next_jalr h he⟩
  case byRegister =>
    exact ⟨
      -- BZ, BNZ
      next_branchS h ht beq_iff_eq, next_branchS h ht bne_iff_ne,
      -- BLTZ, BGEZ, BGTZ, BLEZ
      next_branchS h ht (slt_zero_iff _), next_branchS h ht (not_slt_zero_iff _),
      next_branchS h ht (zero_slt_iff _), next_branchS h ht (not_zero_slt_iff _),
      -- JR
      fun he => next_jr h he⟩
  case j => exact congrArg Host.Outcome.next (State.jumpTo_target s [] ht)

/-- Settles O4: by the shape of each instruction and the equation of its result. -/
theorem pageOneResults : Obligations.PageOneResults := by
  unfold Obligations.PageOneResults
  refine ⟨fun s d a b h => ?arithmetic,
    fun s d a b i => ⟨fun h => ?fields, fun h => ?immediateFields, fun h => ?pairs⟩, fun s d a h => ?oneOperand⟩
  case arithmetic =>
    refine ⟨
      -- MUL, MULW, MULH, MULHN
      next_aluRR h (mul_eq_ofNat _ _), next_aluRR h (low32_mul _ _), next_aluRR h (mulh_eq _ _),
      next_aluRR h (mulhn_eq _ _),
      -- MIN, MAX, MINN, MAXN
      next_aluRR h (if_congr BitVec.slt_iff_toInt_lt rfl rfl), next_aluRR h (if_congr BitVec.slt_iff_toInt_lt rfl rfl),
      next_aluRR h (if_congr BitVec.ult_iff_toNat_lt rfl rfl), next_aluRR h (if_congr BitVec.ult_iff_toNat_lt rfl rfl),
      ?counts⟩
    rintro rfl
    have ha := h.of_pair
    -- CLZ, CTZ, POPC
    exact ⟨_, _, _, next_aluR ha rfl, next_aluR ha rfl, next_aluR ha rfl,
      fun h0 => ⟨h0 ▸ clz_zero, h0 ▸ ctz_zero, h0 ▸ popc_zero⟩,
      fun h0 => ⟨clz_toNat h0, mod_ctz h0⟩, popc_toNat _⟩
  case fields =>
    -- BEXT, BEXTS, BMSK
    exact ⟨next_aluRR h (by rw [bext_eq, ctlPos_eq, ctlLen_eq]),
      next_aluRR h (by rw [bexts_eq, ctlPos_eq, ctlLen_eq]),
      next_aluRR h (by rw [fieldLen_eq, ctlPos_eq, ctlLen_eq, bmsk_eq _ (field_fits _ _)])⟩
  case immediateFields => exact ⟨next_aluR h (bext_eq _ _ _), next_aluR h (bexts_eq _ _ _)⟩
  case pairs =>
    -- BINS, FSHL, FSHR, SEL
    exact ⟨⟨_, next_aluRRR h rfl, fun k => by
        rw [fieldLen_eq, ctlPos_eq, ctlLen_eq, getLsbD_bins _ _ (field_fits _ _)]⟩,
      next_aluRRR h (fshl_eq _ _ _), next_aluRRR h (fshr_eq _ _ _), next_aluRRR h rfl⟩
  case oneOperand =>
    exact ⟨
      -- BREV, SEXTB, SEXTH, SEXTW
      ⟨_, next_aluR h rfl, fun k hk => getLsbD_brev _ hk⟩, next_aluR h rfl, next_aluR h rfl, next_aluR h rfl,
      -- ZEXTW, ABS, NEG
      next_aluR h (zextw_eq _), next_aluR h (abs_eq_ofNat _), next_aluR h (neg_eq_ofInt _)⟩

end Sys2Proof.Machine

/-! SUPPORT. Proofs of the vector family: compares, mask operations and mask moves of pages 3 and 4 (06_vector). What a
merged mask holds bit by bit, what each shape of instruction does, and from both the statement of the family. -/

namespace Sys2Proof.Machine

open Sys2Proof

/-! ### Masks bit by bit (R115) -/

/-- Elements of one bit stand at their own positions. -/
theorem testBit_packLanes_one (l : List Nat) : ∀ k, (packLanes 1 l).testBit k = (l.getD k 0).testBit 0 := by
  induction l with
  | nil => simp [packLanes]
  | cons x xs ih =>
    intro k
    cases k with
    | zero => simp [packLanes, Nat.testBit_zero]
    | succ k =>
      have htail : (x % 2 ^ 1 + 2 ^ 1 * packLanes 1 xs) / 2 = packLanes 1 xs := by omega
      rw [packLanes, Nat.testBit_succ, htail, ih, List.getD_cons_succ]

theorem getLsbD_mergeMask (n : Nat) (m old : W64) (f : Nat → Bool) {k : Nat} (hk : k < 64) :
    (mergeMask n m old f).getLsbD k = (decide (k < n) && if m.getLsbD k then f k else old.getLsbD k) := by
  rw [mergeMask, BitVec.getLsbD_ofNat, testBit_packLanes_one, List.getD_eq_getElem?_getD, List.getElem?_map]
  by_cases hn : k < n
  · have hget : (List.range n)[k]? = some k := by simp [hn]
    rw [hget, Option.map_some, Option.getD_some]
    cases if m.getLsbD k then f k else old.getLsbD k <;> simp [hk, hn]
  · simp [hn]

/-! ### What each shape of instruction completes with -/

@[simp] theorem addFlags_zero (th : Thread) : addFlags th 0 = th := by simp [addFlags]

section
variable {s : State} {i : Instr} {d m : MReg} {a b : VReg}

/-- A bundle with no s-register operand changes the issuing thread as that thread stands. -/
theorem State.retireT_nil_congr {f g : Thread → Thread} (h : f s.cur = g s.cur) : s.retireT [] f = s.retireT [] g :=
  congrArg (fun th => (s.setCur th).done) h

/-- An instruction that completes with a merged mask sets that mask. -/
theorem setsMask_of_mergeMask {n e : Nat} {f : Nat → Bool} {g : Thread → Thread} (hi : exec i s = .next (s.retireT [] g))
    (hg : g s.cur = addFlags (s.cur.writeM d (mergeMask n (s.cur.readM m) (s.cur.readM d) f)) e) :
    SetsMask s i n d m f e :=
  ⟨mergeMask n _ _ f, hi.trans (congrArg _ (State.retireT_nil_congr hg)), fun _ hk => getLsbD_mergeMask n _ _ f hk⟩

theorem setsMask_vecCmp (z : Nat) (f : Nat → Nat → Bool) (hi : exec i s = .next (vecCmp z d a b m f s)) :
    SetsMask s i (512 / z) d m (fun k => f (laneOf z (s.cur.readV a) k) (laneOf z (s.cur.readV b) k)) 0 :=
  setsMask_of_mergeMask hi (addFlags_zero _).symm

/-- An accepted entry serves its slot. -/
theorem State.onSlot_accepted {slot : Nat} {k : Fmt → State} (h : acceptFloat (s.slotWord slot) = none) :
    s.onSlot slot k = k (fmtOf (s.slotWord slot)) := by
  unfold State.slotWord at h ⊢
  simp only [State.onSlot, h]

theorem setsMask_vecFCmp (rel : Val → Val → Bool) {flag e : Nat} (h : acceptFloat (s.slotWord 0) = none)
    (hi : exec i s = .next (vecFCmp d a b m rel flag s)) :
    let f := fmtOf (s.slotWord 0)
    let x := fun k => decodeVal f (laneOf f.W (s.cur.readV a) k)
    let y := fun k => decodeVal f (laneOf f.W (s.cur.readV b) k)
    let nan := (List.range (512 / f.W)).any fun k => (s.cur.readM m).getLsbD k && ((x k).isNan || (y k).isNan)
    (if nan then flag else 0) = e → SetsMask s i (512 / f.W) d m (fun k => rel (x k) (y k)) e := by
  rintro f x y nan rfl
  rw [vecFCmp, State.onSlot_accepted h] at hi
  exact setsMask_of_mergeMask hi rfl

theorem next_maskRead {q : SReg} {e : MReg} {f : W64 → W64} (h : s.Ready [] (some q)) :
    (.next (maskRead q e f s) : Out) = .next (s.retireS [] q (f (s.cur.readM e))) :=
  next_withOps h rfl

end

/-! ### The lowest bit of a mask (R137) -/

/-- Up to the count of trailing zeros, only the bit it names is set. -/
theorem getLsbD_of_le_ctz {x : W64} (h : x ≠ 0) {k : Nat} (hk : k ≤ (ctz x).toNat) :
    x.getLsbD k = decide (k = (ctz x).toNat) := by
  have hlow := congrArg (fun y => y.testBit k) (mod_ctz h)
  simpa [Nat.testBit_mod_two_pow, Nat.lt_succ_of_le hk, Nat.testBit_two_pow, BitVec.testBit_toNat, eq_comm] using hlow

/-- A word with a bit set holds 2^ctz, which is below 2^64. -/
theorem ctz_le (x : W64) : (ctz x).toNat ≤ 64 := by
  by_cases h : x = 0
  · subst h; rw [ctz_zero]; decide
  · have hpow : 2 ^ (ctz x).toNat < 2 ^ 64 :=
      calc 2 ^ (ctz x).toNat = x.toNat % 2 ^ ((ctz x).toNat + 1) := (mod_ctz h).symm
        _ ≤ x.toNat := Nat.mod_le _ _
        _ < 2 ^ 64 := x.isLt
    exact ((Nat.pow_lt_pow_iff_right (by decide)).1 hpow).le

theorem getLsbD_below_ctz (x : W64) {k : Nat} (hk : k < (ctz x).toNat) : x.getLsbD k = false := by
  by_cases h : x = 0
  · subst h; exact BitVec.getLsbD_zero
  · rw [getLsbD_of_le_ctz h hk.le, decide_eq_false hk.ne]

theorem getLsbD_ctz {x : W64} (hx : (ctz x).toNat < 64) : x.getLsbD (ctz x).toNat = true := by
  have h : x ≠ 0 := by
    rintro rfl
    exact absurd hx (by rw [ctz_zero]; decide)
  rw [getLsbD_of_le_ctz h le_rfl, decide_eq_true rfl]

/-! ### The statement -/

/-- Settles O28: a compare completes with a merged mask, whose bits R115 gives. -/
theorem maskResults : Obligations.MaskResults := by
  unfold Obligations.MaskResults
  refine fun s d e g m a b q => ⟨
    -- VCEQ, VCNE, VCLT, VCLTN at widths 32, 16 and 8
    setsMask_vecCmp 32 (fun x y => decide (x = y)) rfl, setsMask_vecCmp 32 (fun x y => decide (x ≠ y)) rfl,
    setsMask_vecCmp 32 (fun x y => decide (sgn 32 x < sgn 32 y)) rfl, setsMask_vecCmp 32 (fun x y => decide (x < y)) rfl,
    setsMask_vecCmp 16 (fun x y => decide (x = y)) rfl, setsMask_vecCmp 16 (fun x y => decide (x ≠ y)) rfl,
    setsMask_vecCmp 16 (fun x y => decide (sgn 16 x < sgn 16 y)) rfl, setsMask_vecCmp 16 (fun x y => decide (x < y)) rfl,
    setsMask_vecCmp 8 (fun x y => decide (x = y)) rfl, setsMask_vecCmp 8 (fun x y => decide (x ≠ y)) rfl,
    setsMask_vecCmp 8 (fun x y => decide (sgn 8 x < sgn 8 y)) rfl, setsMask_vecCmp 8 (fun x y => decide (x < y)) rfl,
    fun hslot => ?floatCompares,
    -- MAND, MOR, MXOR, MANDN
    rfl, rfl, rfl, rfl, fun h => ?maskReads, fun h => ?mmovm⟩
  case floatCompares =>
    -- VFCEQ, VFCLT, VFCLE, VFCUN
    exact ⟨setsMask_vecFCmp Val.eqv hslot rfl (ite_self 0), setsMask_vecFCmp Val.lt hslot rfl rfl,
      setsMask_vecFCmp Val.le hslot rfl rfl,
      setsMask_vecFCmp (fun u v => u.isNan || v.isNan) hslot rfl (ite_self 0)⟩
  case maskReads =>
    -- MMOVS, MPOP, MFIRST
    exact ⟨next_maskRead h, ⟨_, next_maskRead h, popc_toNat _⟩,
      ⟨_, next_maskRead h, ctz_le _, fun _ hk => getLsbD_below_ctz _ hk, getLsbD_ctz⟩⟩
  case mmovm => exact next_withOps h (by rw [State.vals_singleton])

end Sys2Proof.Machine

/-! SUPPORT. Encoding and decoding agree (02_encoding R27 to R42, R49): the decoder's loop over the words of a bundle, the
row of a base word, immediates, and each base format; from these the statement. -/

namespace Sys2Proof

open Machine

/-! ### The loop over prefixes (R30, R31) -/

section
variable {ε : Type} {fetch : Nat → Except ε (BitVec 16)}

/-- From word `j` on, the words read are `ws`. -/
def Reads (fetch : Nat → Except ε (BitVec 16)) : Nat → List (BitVec 16) → Prop
  | _, [] => True
  | j, w :: ws => fetch j = .ok w ∧ Reads fetch (j + 1) ws

theorem reads_append (us ws : List (BitVec 16)) : ∀ j,
    Reads fetch j (us ++ ws) ↔ Reads fetch j us ∧ Reads fetch (j + us.length) ws := by
  induction us with
  | nil => intro j; simp [Reads]
  | cons u us ih =>
    intro j
    rw [List.cons_append, Reads, Reads, ih, List.length_cons, and_assoc, Nat.add_right_comm, ← Nat.add_assoc]

variable {fuel j : Nat} {p : Pre} {acc : List (BitVec 16)}

/-- The base word ends the loop. -/
theorem decodeLoop_base {word : BitVec 16} (hr : fetch j = .ok word) (hw : word.toNat / 2048 ≠ 31) :
    decodeLoop fetch (fuel + 1) j p acc = .ok (decodeBase p j word, word :: acc) := by
  simp only [decodeLoop, hr, if_pos hw]

theorem decodeLoop_immWord {v : Nat} (hv : v < 512) (hj : j ≠ 4) (hs : p.seen ≤ 1)
    (hr : fetch j = .ok (BitVec.ofNat 16 (0xF800 + v))) :
    decodeLoop fetch (fuel + 1) j p acc =
      decodeLoop fetch fuel (j + 1) { p with imm := p.imm * 512 + v, nimm := p.nimm + 1, seen := 1 }
        (BitVec.ofNat 16 (0xF800 + v) :: acc) := by
  have hword : (BitVec.ofNat 16 (0xF800 + v)).toNat = 0xF800 + v := by rw [BitVec.toNat_ofNat]; omega
  have hmark : (0xF800 + v) / 2048 = 31 := by omega
  have hkind : (0xF800 + v) / 512 % 4 = 0 := by omega
  have hlow : (0xF800 + v) % 512 = v := by omega
  have hseen : ¬1 < p.seen := by omega
  simp [decodeLoop, hr, hword, hmark, hkind, hlow, hj, hseen]

theorem decodeLoop_regWord {v : Nat} (hv : v < 512) (hj : j ≠ 4) (hs : p.seen ≤ 1)
    (hr : fetch j = .ok (BitVec.ofNat 16 (0xFA00 + v))) :
    decodeLoop fetch (fuel + 1) j p acc =
      decodeLoop fetch fuel (j + 1) { p with x := v / 64, hd := v / 16 % 4, ha := v / 4 % 4, hb := v % 4, seen := 2 }
        (BitVec.ofNat 16 (0xFA00 + v) :: acc) := by
  have hword : (BitVec.ofNat 16 (0xFA00 + v)).toNat = 0xFA00 + v := by rw [BitVec.toNat_ofNat]; omega
  have hmark : (0xFA00 + v) / 2048 = 31 := by omega
  have hkind : (0xFA00 + v) / 512 % 4 = 1 := by omega
  have hx : (0xFA00 + v) / 64 % 8 = v / 64 := by omega
  have hd : (0xFA00 + v) / 16 % 4 = v / 16 % 4 := by omega
  have ha : (0xFA00 + v) / 4 % 4 = v / 4 % 4 := by omega
  have hb : (0xFA00 + v) % 4 = v % 4 := by omega
  have h2 : p.seen ≠ 2 := by omega
  have h3 : p.seen ≠ 3 := by omega
  simp [decodeLoop, hr, hword, hmark, hkind, hx, hd, ha, hb, hj, h2, h3]

theorem decodeLoop_pageWord {page la : Nat} (hpage : page < 32) (hnz : page ≠ 0) (hla : la < 16) (hj : j ≠ 4)
    (hs : p.seen ≤ 2) (hr : fetch j = .ok (BitVec.ofNat 16 (0xFC00 + la * 32 + page))) :
    decodeLoop fetch (fuel + 1) j p acc =
      decodeLoop fetch fuel (j + 1) { p with la := la, page := page, seen := 3 }
        (BitVec.ofNat 16 (0xFC00 + la * 32 + page) :: acc) := by
  have hword : (BitVec.ofNat 16 (0xFC00 + la * 32 + page)).toNat = 0xFC00 + la * 32 + page := by
    rw [BitVec.toNat_ofNat]; omega
  have hmark : (0xFC00 + la * 32 + page) / 2048 = 31 := by omega
  have hkind : (0xFC00 + la * 32 + page) / 512 % 4 = 2 := by omega
  have hlow : (0xFC00 + la * 32 + page) % 32 = page := by omega
  have hmid : (0xFC00 + la * 32 + page) / 32 % 16 = la := by omega
  have h3 : p.seen ≠ 3 := by omega
  simp [decodeLoop, hr, hword, hmark, hkind, hlow, hmid, hj, h3, hnz]

/-- The IMM words of an immediate, the most significant first. -/
theorem immWords_succ (n w : Nat) (i : Imm) :
    immWords (n + 1) w i = BitVec.ofNat 16 (0xF800 + i.toNat / 2 ^ (w + 9 * n) % 512) :: immWords n w i := by
  simp only [immWords, List.range_succ_eq_map, List.map_cons, List.map_map, Nat.add_sub_cancel, Nat.sub_zero]
  congr 1
  refine List.map_congr_left fun k _ => ?_
  simp only [Function.comp_apply]
  rw [show n - (k + 1) = n - 1 - k by omega]

@[simp] theorem length_immWords (n w : Nat) (i : Imm) : (immWords n w i).length = n := by simp [immWords]

/-- The high digit of `n + 1` digits, and the others. -/
theorem digits_succ (v w n : Nat) :
    v / 2 ^ (w + 9 * n) % 512 * 512 ^ n + v / 2 ^ w % 512 ^ n = v / 2 ^ w % 512 ^ (n + 1) := by
  rw [pow_succ, Nat.mod_mul, pow_add, ← Nat.div_div_eq_div_mul, show 2 ^ (9 * n) = 512 ^ n from pow_mul 2 9 n,
    Nat.mul_comm, Nat.add_comm]

theorem decodeLoop_immWords (w : Nat) (i : Imm) : ∀ (n j : Nat) (p : Pre) (acc : List (BitVec 16)),
    p.seen ≤ 1 → j + n ≤ 4 → Reads fetch j (immWords n w i) →
    decodeLoop fetch (fuel + n) j p acc =
      decodeLoop fetch fuel (j + n) { p with imm := p.imm * 512 ^ n + i.toNat / 2 ^ w % 512 ^ n, nimm := p.nimm + n,
                                             seen := max p.seen (min n 1) } ((immWords n w i).reverse ++ acc) := by
  intro n
  induction n with
  | zero => intro j p acc _ _ _; simp [immWords, Nat.mod_one]
  | succ n ih =>
    intro j p acc hs hj hr
    rw [immWords_succ] at hr ⊢
    rw [← Nat.add_assoc, decodeLoop_immWord (Nat.mod_lt _ (by decide)) (by omega) hs hr.1,
      ih _ _ _ le_rfl (by omega) hr.2]
    have himm : (p.imm * 512 + i.toNat / 2 ^ (w + 9 * n) % 512) * 512 ^ n + i.toNat / 2 ^ w % 512 ^ n =
        p.imm * 512 ^ (n + 1) + i.toNat / 2 ^ w % 512 ^ (n + 1) := by
      rw [← digits_succ]; ring
    have hseen : max 1 (min n 1) = max p.seen (min (n + 1) 1) := by omega
    simp only [himm, hseen, Nat.add_assoc, Nat.add_comm 1, List.reverse_cons, List.append_assoc, List.singleton_append]

/-- A bundle's prefixes read in order: the REG word, where there is one. -/
theorem decodeLoop_regWords {x d a b : Nat} (hx : x < 8) (hd : d < 32) (ha : a < 32) (hb : b < 32)
    (hj : j + (regWords x d a b).length ≤ 4) (hs : p.seen ≤ 1) (hp : p.x = 0 ∧ p.hd = 0 ∧ p.ha = 0 ∧ p.hb = 0)
    (hr : Reads fetch j (regWords x d a b)) : ∃ seen ≤ 2,
    decodeLoop fetch (fuel + (regWords x d a b).length) j p acc =
      decodeLoop fetch fuel (j + (regWords x d a b).length) { p with x := x, hd := d / 8, ha := a / 8, hb := b / 8, seen := seen }
        ((regWords x d a b).reverse ++ acc) := by
  unfold regWords at *
  split_ifs at * with h
  · obtain ⟨h1, h2, h3, h4⟩ := h
    obtain ⟨p1, p2, p3, p4⟩ := hp
    refine ⟨p.seen, by omega, ?_⟩
    cases p
    simp_all [Nat.div_eq_of_lt]
  · refine ⟨2, le_rfl, ?_⟩
    have e : 0xFA00 + x * 64 + d / 8 * 16 + a / 8 * 4 + b / 8 = 0xFA00 + (x * 64 + d / 8 * 16 + a / 8 * 4 + b / 8) := by omega
    simp only [List.length_singleton] at hj ⊢
    rw [e] at hr ⊢
    rw [decodeLoop_regWord (by omega) (by omega) hs hr.1]
    have e1 : (x * 64 + d / 8 * 16 + a / 8 * 4 + b / 8) / 64 = x := by omega
    have e2 : (x * 64 + d / 8 * 16 + a / 8 * 4 + b / 8) / 16 % 4 = d / 8 := by omega
    have e3 : (x * 64 + d / 8 * 16 + a / 8 * 4 + b / 8) / 4 % 4 = a / 8 := by omega
    have e4 : (x * 64 + d / 8 * 16 + a / 8 * 4 + b / 8) % 4 = b / 8 := by omega
    rw [e1, e2, e3, e4]
    rfl

/-- The PAGE word, where there is one. -/
theorem decodeLoop_pageWords {page la : Nat} (hpage : page < 32) (hnz : page = 0 → la = 0) (hla : la < 16)
    (hj : j + (pageWords page la).length ≤ 4) (hs : p.seen ≤ 2) (hp : p.page = 0 ∧ p.la = 0)
    (hr : Reads fetch j (pageWords page la)) : ∃ seen,
    decodeLoop fetch (fuel + (pageWords page la).length) j p acc =
      decodeLoop fetch fuel (j + (pageWords page la).length) { p with la := la, page := page, seen := seen }
        ((pageWords page la).reverse ++ acc) := by
  unfold pageWords at *
  split_ifs at * with h
  · refine ⟨p.seen, ?_⟩
    obtain ⟨h1, h2⟩ := h
    obtain ⟨p1, p2⟩ := hp
    cases p
    simp_all
  · refine ⟨3, ?_⟩
    simp only [List.length_singleton] at hj ⊢
    rw [decodeLoop_pageWord hpage (fun h0 => h ⟨h0, hnz h0⟩) hla (by omega) hs hr.1]
    rfl

end

/-! ### A bundle as prefixes and a base word -/

/-- The parts an encoding lays out in words: `n` IMM words beside a field of `w` bits, the registers and x of the REG word, the
page, and the base word with its opcode and its low bits. -/
structure Layout where
  n : Nat
  w : Nat
  i : Imm
  x : Nat
  d : Nat
  a : Nat
  b : Nat
  page : Nat
  op : Nat
  low : Nat

def Layout.words (l : Layout) (la : Nat) : List (BitVec 16) :=
  immWords l.n l.w l.i ++ regWords l.x l.d l.a l.b ++ pageWords l.page la ++ [BitVec.ofNat 16 (l.op * 2048 + l.low)]

/-- The prefixes as the loop has read them. -/
def Layout.pre (l : Layout) (la seen : Nat) : Pre :=
  { seen := seen, imm := l.i.toNat / 2 ^ l.w % 512 ^ l.n, nimm := l.n, x := l.x, hd := l.d / 8, ha := l.a / 8, hb := l.b / 8,
    page := l.page, la := la }

/-- Its fields have the sizes the words give them, and there are at most four prefixes (R27). -/
structure Layout.Fits (l : Layout) (ahead : Nat) : Prop where
  x : l.x < 8
  d : l.d < 32
  a : l.a < 32
  b : l.b < 32
  page : l.page < 32
  op : l.op < 31
  low : l.low < 2048
  la : ahead < 16
  paged : l.page = 0 → ahead = 0
  prefixes : l.n + (regWords l.x l.d l.a l.b).length + (pageWords l.page ahead).length ≤ 4

/-- The loop reads the words of a layout and decodes its base word. -/
theorem Layout.decodeWith_words {ε : Type} {fetch : Nat → Except ε (BitVec 16)} {l : Layout} {la : Nat} (h : l.Fits la)
    (hr : Reads fetch 0 (l.words la)) : ∃ seen j,
    decodeWith fetch = .ok (decodeBase (l.pre la seen) j (BitVec.ofNat 16 (l.op * 2048 + l.low)), l.words la) := by
  have hpre := h.prefixes
  simp only [Layout.words, reads_append, length_immWords, List.length_append, Nat.zero_add] at hr
  obtain ⟨⟨⟨himm, hreg⟩, hpage⟩, hbase, -⟩ := hr
  obtain ⟨k, hk⟩ : ∃ k, 5 = k + 1 + (pageWords l.page la).length + (regWords l.x l.d l.a l.b).length + l.n :=
    ⟨4 - (l.n + (regWords l.x l.d l.a l.b).length + (pageWords l.page la).length), by omega⟩
  have hword : (BitVec.ofNat 16 (l.op * 2048 + l.low)).toNat / 2048 ≠ 31 := by
    have := h.op; have := h.low
    rw [BitVec.toNat_ofNat]; omega
  obtain ⟨seen, hseen, ereg⟩ := decodeLoop_regWords (fuel := k + 1 + (pageWords l.page la).length)
    (p := { imm := l.i.toNat / 2 ^ l.w % 512 ^ l.n, nimm := l.n, seen := max 0 (min l.n 1) })
    (acc := (immWords l.n l.w l.i).reverse) h.x h.d h.a h.b (by omega) (by simp only; omega) ⟨rfl, rfl, rfl, rfl⟩ hreg
  obtain ⟨seen', epage⟩ := decodeLoop_pageWords (fuel := k + 1)
    (p := { imm := l.i.toNat / 2 ^ l.w % 512 ^ l.n, nimm := l.n, x := l.x, hd := l.d / 8, ha := l.a / 8, hb := l.b / 8,
            seen := seen })
    (acc := (regWords l.x l.d l.a l.b).reverse ++ (immWords l.n l.w l.i).reverse)
    h.page h.paged h.la (by omega) hseen ⟨rfl, rfl⟩ hpage
  have eimm := decodeLoop_immWords (fuel := k + 1 + (pageWords l.page la).length + (regWords l.x l.d l.a l.b).length)
    l.w l.i l.n 0 {} [] (by simp) (by omega) himm
  simp only [Nat.zero_mul, Nat.zero_add, List.append_nil] at eimm
  refine ⟨seen', l.n + (regWords l.x l.d l.a l.b).length + (pageWords l.page la).length, ?_⟩
  rw [decodeWith, hk, eimm, ereg, epage, decodeLoop_base hbase hword]
  simp [Layout.words, Layout.pre]

/-- The reader of a list of words. -/
def readerOf (ws : List (BitVec 16)) (i : Nat) : Except Unit (BitVec 16) := (ws[i]?).elim (.error ()) .ok

theorem reads_readerOf (rest : List (BitVec 16)) : ∀ ws pre : List (BitVec 16),
    Reads (readerOf (pre ++ ws ++ rest)) pre.length ws := by
  intro ws
  induction ws with
  | nil => intro pre; trivial
  | cons w ws ih =>
    intro pre
    refine ⟨by simp [readerOf], ?_⟩
    simpa using ih (pre ++ [w])

theorem decodeWords_of_decodeWith {ws : List (BitVec 16)} {r : Decoded × List (BitVec 16)}
    (h : decodeWith (readerOf ws) = .ok r) : decodeWords ws = some r := by
  have hreader : ∀ {f q}, decodeWith f = q → f = readerOf ws → q = .ok r := by
    rintro f q rfl rfl
    exact h
  unfold decodeWords
  split
  all_goals
    next q hq =>
    have := hreader hq (funext fun i => by unfold readerOf; cases ws[i]? <;> rfl)
    grind

theorem Layout.decodeWords_words {l : Layout} {la : Nat} (h : l.Fits la) (rest : List (BitVec 16)) : ∃ seen j,
    decodeWords (l.words la ++ rest) =
      some (decodeBase (l.pre la seen) j (BitVec.ofNat 16 (l.op * 2048 + l.low)), l.words la) := by
  obtain ⟨seen, j, e⟩ := Layout.decodeWith_words h (reads_readerOf rest (l.words la) [])
  exact ⟨seen, j, decodeWords_of_decodeWith e⟩

/-! ### The row of a base word (R42) -/

/-- The number of bits of a register of a class; an unused field is 0. -/
def Cls.bits : Cls → Nat
  | .s | .v => 5
  | .a => 4
  | .m | .small => 3
  | .no => 0

/-- A register number that its class has passes the checks of the high bits and of unused fields. -/
theorem Cls.fits {c : Cls} {n : Nat} (h : n < 2 ^ c.bits) : n < 32 ∧ c.highOk (n / 8) = true ∧
    (decide (c ≠ .no) || decide (n % 8 = 0)) = true := by
  cases c <;> simp [Cls.bits, Cls.highOk] at h ⊢ <;> omega

/-- What a row's x tells apart of the rows of its opcode: only DIV, BEXT and their like differ by it. -/
def XRule.key : XRule → Nat → Bool
  | .zero, x => decide (x = 0)
  | .one, x => decide (x = 1)
  | _, _ => true

theorem XRule.key_of_ok {r : XRule} {x : Nat} (h : r.ok x = true) : r.key x = true := by
  cases r <;> simp_all [XRule.key, XRule.ok]

/-- A row as an opcode, an f or a c and an x pick it. -/
def Row.picks (op f c x : Nat) (r : Row) : Bool :=
  decide (r.op = op) && (match r.sel with | none => true | some k => decide (k = if r.fmt = .br then c else f)) && r.x.key x

theorem Row.picks_of_selects {r : Row} {w x : Nat} (h : r.selects w x = true) :
    r.picks (w / 2048) (w % 4) (w / 256 % 8) x = true := by
  simp only [Row.selects, Bool.and_eq_true] at h
  obtain ⟨⟨hop, hx⟩, hsel⟩ := h
  simp only [Row.picks, Bool.and_eq_true]
  exact ⟨⟨hop, hsel⟩, XRule.key_of_ok hx⟩

theorem Row.selects_of_picks {r : Row} {w x : Nat} (h : r.picks (w / 2048) (w % 4) (w / 256 % 8) x = true)
    (hx : r.x.ok x = true) : r.selects w x = true := by
  simp only [Row.picks, Bool.and_eq_true] at h
  obtain ⟨⟨hop, hsel⟩, -⟩ := h
  simp only [Row.selects, Bool.and_eq_true]
  exact ⟨⟨hop, hx⟩, hsel⟩

/-- The first row picked is the first selected. -/
theorem find_selects {rows : List Row} {r : Row} {w x : Nat}
    (h : rows.find? (Row.picks (w / 2048) (w % 4) (w / 256 % 8) x) = some r) (hx : r.x.ok x = true) :
    rows.find? (fun r => r.selects w x) = some r := by
  rw [List.find?_eq_some_iff_append] at h ⊢
  obtain ⟨hr, pre, post, rfl, hpre⟩ := h
  refine ⟨Row.selects_of_picks hr hx, pre, post, rfl, fun q hq => ?_⟩
  have := hpre q hq
  have := Row.picks_of_selects (r := q) (w := w) (x := x)
  grind

/-- The base word passes the checks of its row. -/
theorem decodeBase_ok {p : Pre} {j : Nat} {word : BitVec 16} {r : Row}
    (hrow : (pageRows p.page).find? (Row.picks (word.toNat / 2048) (word.toNat % 4) (word.toNat / 256 % 8) p.x) = some r)
    (hx : r.x.ok p.x = true) (h4 : r.fmt = .rr → p.nimm = 0)
    (himm : r.imm.ok p.nimm (immRaw r p word.toNat) = true) (hd : r.d.highOk p.hd = true) (ha : r.a.highOk p.ha = true)
    (hb : r.b.highOk p.hb = true) (hunused : r.unusedOk word.toNat = true)
    (hrange : r.inRange (r.fields p word.toNat) = true) (hgroup : r.group (r.fields p word.toNat) = true)
    (hla : p.la ≠ 0 → r.ll = true) :
    decodeBase p j word = .ok (r.build (r.fields p word.toNat)) p.la := by
  simp only [decodeBase, find_selects hrow hx]
  grind

/-! ### Immediates (R32, R49) -/

/-- The fewest IMM words that hold an immediate are no more than some that do, and hold it. -/
theorem find_words {p : Nat → Bool} {m : Nat} (hm : m ≤ 4) (h : p m = true) :
    ([0, 1, 2, 3].find? p).getD 4 ≤ m ∧ p (([0, 1, 2, 3].find? p).getD 4) = true := by
  simp only [List.find?_cons, List.find?_nil]
  interval_cases m <;> grind

/-- The digits of an immediate put together: its low bits. -/
theorem immRaw_eq (v w n : Nat) : v / 2 ^ w % 512 ^ n * 2 ^ w + v % 2 ^ w = v % 2 ^ (9 * n + w) := by
  rw [Nat.add_comm (9 * n) w, pow_add, show 2 ^ (9 * n) = 512 ^ n from pow_mul 2 9 n, Nat.mod_mul]
  ring

theorem signExt_mod {N : Nat} {i : Imm} (h1 : 1 ≤ N) (h47 : N ≤ 47) (hlo : -(2 : Int) ^ (N - 1) ≤ i.toInt)
    (hhi : i.toInt < (2 : Int) ^ (N - 1)) : signExt N (i.toNat % 2 ^ N) = i := by
  have hdvd : (2 : Int) ^ N ∣ 2 ^ 47 := pow_dvd_pow 2 h47
  have hpow : (2 : Int) ^ N = 2 * 2 ^ (N - 1) := by rw [← pow_succ', Nat.sub_add_cancel h1]
  have hraw : ((i.toNat % 2 ^ N : Nat) : Int) = i.toInt % 2 ^ N := by
    have e : i.toInt % 2 ^ 47 = i.toNat := by
      have := i.isLt
      rw [BitVec.toInt_eq_toNat_cond]
      split <;> omega
    rw [← Int.emod_emod_of_dvd _ hdvd, e]
    norm_cast
  have hi : BitVec.ofInt 47 i.toInt = i := BitVec.ofInt_toInt
  unfold signExt
  rcases lt_or_ge i.toInt 0 with hneg | hpos
  · have e : i.toInt % 2 ^ N = i.toInt + 2 ^ N := by
      rw [← Int.add_emod_right, Int.emod_eq_of_lt (by omega) (by omega)]
    have hge : 2 ^ (N - 1) ≤ i.toNat % 2 ^ N := by
      have hz : ((2 ^ (N - 1) : Nat) : Int) = 2 ^ (N - 1) := by norm_cast
      omega
    rw [if_pos hge, hraw, e, Int.add_sub_cancel, hi]
  · have e : i.toInt % 2 ^ N = i.toInt := Int.emod_eq_of_lt hpos (by omega)
    have hlt : ¬2 ^ (N - 1) ≤ i.toNat % 2 ^ N := by
      have hz : ((2 ^ (N - 1) : Nat) : Int) = 2 ^ (N - 1) := by norm_cast
      omega
    rw [if_neg hlt, ← BitVec.ofInt_natCast, hraw, e, hi]

/-- An immediate beside a field of `w` bits that `m` IMM words are there for: read back from the digits of its `n` words. -/
structure ImmFits (rule : ImmRule) (m n w : Nat) (i : Imm) : Prop where
  words : n ≤ m
  ok : rule.ok n (i.toNat % 2 ^ (9 * n + w)) = true
  value : rule.value (9 * n + w) (i.toNat % 2 ^ (9 * n + w)) = i

theorem immFits_sx {m w : Nat} {i : Imm} (hm : m ≤ 4) (hw : 1 ≤ w ∧ w ≤ 11) (h : fitsSigned w m i = true) :
    ImmFits .sx m (immCount .sx w i) w i := by
  obtain ⟨hle, hfits⟩ := find_words (p := fun n => fitsSigned w n i) hm h
  have hn : immCount .sx w i = ([0, 1, 2, 3].find? (fun n => fitsSigned w n i)).getD 4 := rfl
  rw [← hn] at hle hfits
  simp only [fitsSigned, Bool.and_eq_true, decide_eq_true_eq, Nat.add_comm w] at hfits
  exact ⟨hle, rfl, signExt_mod (by omega) (by omega) hfits.1 hfits.2⟩

/-- An unsigned immediate that `m` IMM words hold, and what its rule asks of up to so many. -/
theorem immFits_zx {rule : ImmRule} {m m' w : Nat} {i : Imm} (hm : m ≤ 4) (hm' : m ≤ m') (h : i.toNat < 2 ^ (9 * m + w))
    (hok : ∀ n ≤ m, rule.ok n i.toNat = true) (hvalue : ∀ bits raw, rule.value bits raw = BitVec.ofNat 47 raw) :
    ImmFits rule m' (immCount .zx w i) w i := by
  obtain ⟨hle, hfits⟩ := find_words (p := fun n => fitsUnsigned w n i) hm (by simpa [fitsUnsigned, Nat.add_comm w] using h)
  have hn : immCount .zx w i = ([0, 1, 2, 3].find? (fun n => fitsUnsigned w n i)).getD 4 := rfl
  rw [← hn] at hle hfits
  have hmod : i.toNat % 2 ^ (9 * immCount .zx w i + w) = i.toNat :=
    Nat.mod_eq_of_lt (by simpa [fitsUnsigned, Nat.add_comm w] using hfits)
  refine ⟨hle.trans hm', ?_, ?_⟩ <;> rw [hmod]
  · exact hok _ hle
  · rw [hvalue, BitVec.ofNat_toNat, BitVec.setWidth_eq]

/-- The control of a bit field is written with one IMM word. -/
theorem immFits_field {m : Nat} {i : Imm} (hm : 1 ≤ m) (h1 : 1 ≤ i.toNat / 64) (h64 : i.toNat / 64 ≤ 64) :
    ImmFits .field m (immCount .one 5 i) 5 i := by
  have hmod : i.toNat % 2 ^ (9 * immCount .one 5 i + 5) = i.toNat :=
    Nat.mod_eq_of_lt (show i.toNat < 2 ^ (9 * 1 + 5) by omega)
  refine ⟨hm, ?_, ?_⟩ <;> rw [hmod]
  · have hlt : i.toNat < 8192 := by omega
    simp [ImmRule.ok, immCount, hlt, h1, h64]
  · simp [ImmRule.value]

theorem room_bounds (page0 : Bool) (regs : List Nat) (x : Nat) : 2 ≤ room page0 regs x ∧ room page0 regs x ≤ 4 := by
  unfold room
  split_ifs <;> omega

/-! ### Each base format (R28) -/

theorem page_lt_of_row {page : Nat} {r : Row} {p : Row → Bool} (h : (pageRows page).find? p = some r) : page ≤ 15 := by
  by_contra hp
  obtain ⟨n, rfl⟩ : ∃ n, page = n + 16 := ⟨page - 16, by omega⟩
  have hnone : pageRows (n + 16) = [] := rfl
  simp [hnone] at h

theorem pageRows_op_lt {page : Nat} (h : page ≤ 15) : (pageRows page).all (fun r => decide (r.op < 31)) = true := by
  interval_cases page <;> rfl

/-- Decoding what encodes `i` gives it back. -/
def Decodes (i : Instr) (la : Nat) : Prop :=
  ∀ rest, decodeWords (encode i la ++ rest) = some (.ok i la, encode i la)

/-- The row of an instruction: the one its opcode, f or c and x pick, whose checks on x and the registers it passes. -/
structure Serves (page op f c x d a b : Nat) (fmt : Fmt) (i : Instr) (r : Row) : Prop where
  row : (pageRows page).find? (Row.picks op f c x) = some r
  fmt : r.fmt = fmt
  x : r.x.ok x = true
  d : d < 2 ^ r.d.bits
  a : a < 2 ^ r.a.bits
  b : b < 2 ^ r.b.bits
  long : isLong i = (r.ll && decide (page ≠ 0))

section
variable {page op f c x d a b la : Nat} {fmt : Fmt} {i : Instr} {r : Row}

theorem Serves.op_lt (h : Serves page op f c x d a b fmt i r) : op < 31 := by
  have hall := pageRows_op_lt (page_lt_of_row h.row)
  have hmem := List.mem_of_find?_eq_some h.row
  have hpick := List.find?_some h.row
  simp only [List.all_eq_true, decide_eq_true_eq] at hall
  simp only [Row.picks, Bool.and_eq_true, decide_eq_true_eq] at hpick
  rw [← hpick.1.1]
  exact hall r hmem

theorem length_regWords (x d a b : Nat) :
    (regWords x d a b).length = if x = 0 ∧ d < 8 ∧ a < 8 ∧ b < 8 then 0 else 1 := by
  unfold regWords; split_ifs <;> rfl

theorem length_pageWords (page la : Nat) : (pageWords page la).length = if page = 0 ∧ la = 0 then 0 else 1 := by
  unfold pageWords; split_ifs <;> rfl

/-- A layout whose base word its row takes decodes to what the row builds. -/
theorem Serves.decodes {l : Layout} (h : Serves l.page l.op f c l.x l.d l.a l.b fmt i r)
    (hla : la = 0 ∨ isLong i = true ∧ la < 16) (hx : l.x < 8) (henc : encode i la = l.words la) (hlow : l.low < 2048)
    (hf : l.low % 4 = f) (hc : l.low / 256 % 8 = c)
    (hprefixes : l.n + (regWords l.x l.d l.a l.b).length + (if l.page = 0 then 0 else 1) ≤ 4)
    (hrr : r.fmt = .rr → l.n = 0) (hw : l.w = r.fmt.immWidth) (hi : l.i.toNat % 2 ^ l.w = l.low % 2 ^ l.w)
    (himm : r.imm.ok l.n (l.i.toNat % 2 ^ (9 * l.n + l.w)) = true)
    (hunused : r.unusedOk (l.op * 2048 + l.low) = true)
    (hflds : ∀ w : Fields, w.f = BitVec.ofNat 2 l.low → w.x = BitVec.ofNat 3 l.x →
      w.d = BitVec.ofNat 5 (l.d / 8 * 8 + l.low / 256 % 8) →
      w.a = BitVec.ofNat 5 (l.a / 8 * 8 + l.low / 32 % 8) → w.b = BitVec.ofNat 5 (l.b / 8 * 8 + l.low / 4 % 8) →
      w.i = r.imm.value (9 * l.n + l.w) (l.i.toNat % 2 ^ (9 * l.n + l.w)) →
      r.inRange w = true ∧ r.group w = true ∧ r.build w = i) : Decodes i la := by
  intro rest
  have hop := h.op_lt
  have hpage := page_lt_of_row h.row
  have hlong : la ≠ 0 → r.ll = true ∧ l.page ≠ 0 := by
    have := h.long
    rcases hla with rfl | ⟨hlong, -⟩ <;> grind
  have hfits : l.Fits la := by
    refine ⟨hx, (Cls.fits h.d).1, (Cls.fits h.a).1, (Cls.fits h.b).1, by omega, hop, hlow, by omega, fun h0 => ?_, ?_⟩
    · by_contra hne
      exact (hlong hne).2 h0
    · rw [length_pageWords]
      split_ifs at hprefixes ⊢ <;> omega
  obtain ⟨seen, j, e⟩ := Layout.decodeWords_words hfits rest
  have hword : (BitVec.ofNat 16 (l.op * 2048 + l.low)).toNat = l.op * 2048 + l.low := by
    rw [BitVec.toNat_ofNat]; omega
  have hraw : immRaw r (l.pre la seen) (l.op * 2048 + l.low) = l.i.toNat % 2 ^ (9 * l.n + l.w) := by
    have hdvd : 2 ^ l.w ∣ 2048 := by
      rw [hw]; cases r.fmt <;> decide
    have hlowbits : (l.op * 2048 + l.low) % 2 ^ l.w = l.i.toNat % 2 ^ l.w := by
      rw [hi, Nat.add_mod, Nat.mod_eq_zero_of_dvd (Dvd.dvd.mul_left hdvd _), Nat.zero_add, Nat.mod_mod]
    simp only [immRaw, Layout.pre, ← hw]
    rw [hlowbits, immRaw_eq]
  have e1 : (l.op * 2048 + l.low) / 2048 = l.op := by omega
  have e2 : (l.op * 2048 + l.low) % 4 = l.low % 4 := by omega
  have e3 : (l.op * 2048 + l.low) / 256 % 8 = l.low / 256 % 8 := by omega
  have e4 : (l.op * 2048 + l.low) / 32 % 8 = l.low / 32 % 8 := by omega
  have e5 : (l.op * 2048 + l.low) / 4 % 8 = l.low / 4 % 8 := by omega
  have e6 : BitVec.ofNat 2 (l.op * 2048 + l.low) = BitVec.ofNat 2 l.low := by
    apply BitVec.eq_of_toNat_eq
    simp only [BitVec.toNat_ofNat]
    omega
  obtain ⟨hrange, hgroup, hbuild⟩ := hflds (r.fields (l.pre la seen) (l.op * 2048 + l.low)) e6 rfl
    (by simp only [Row.fields, e3]; rfl) (by simp only [Row.fields, e4]; rfl) (by simp only [Row.fields, e5]; rfl)
    (by simp only [Row.fields, hraw, immBits, ← hw]; rfl)
  have hbase : decodeBase (l.pre la seen) j (BitVec.ofNat 16 (l.op * 2048 + l.low)) = .ok i la := by
    rw [decodeBase_ok (r := r) (by rw [hword, e1, e2, e3, hf, hc]; exact h.row) h.x hrr (by rw [hword, hraw]; exact himm)
      (Cls.fits h.d).2.1 (Cls.fits h.a).2.1 (Cls.fits h.b).2.1 (by rw [hword]; exact hunused) (by rw [hword]; exact hrange)
      (by rw [hword]; exact hgroup) (fun hne => (hlong hne).1), hword, hbuild]
    rfl
  rw [henc, e, hbase]

end

section
variable {page op f c x d a b la : Nat} {i : Instr} {r : Row}

/-- What `room` allows beside the other prefixes. -/
theorem words_of_room {n page : Nat} {regs : List Nat} (h : n ≤ room (decide (page = 0)) regs x)
    (hregs : (regs.all fun n => decide (n < 8)) = true → d < 8 ∧ a < 8 ∧ b < 8) :
    n + (regWords x d a b).length + (if page = 0 then 0 else 1) ≤ 4 := by
  simp only [room, decide_eq_true_eq, Bool.and_eq_true] at h
  rw [length_regWords]
  grind

/-- RR: registers and x alone. -/
theorem decodes_rr (henc : encFields i = some (.rr page op f x d a b)) (h : Serves page op f (d % 8) x d a b .rr i r)
    (hno : r.imm = .no) (hf : f < 4) (hx : x < 8)
    (hflds : ∀ im, let w : Fields := ⟨BitVec.ofNat 2 f, BitVec.ofNat 3 x, BitVec.ofNat 5 d, BitVec.ofNat 5 a, BitVec.ofNat 5 b, im⟩
      r.inRange w = true ∧ r.group w = true ∧ r.build w = i)
    (hla : la = 0 ∨ isLong i = true ∧ la < 16) : Decodes i la := by
  have hd := Cls.fits h.d
  have ha := Cls.fits h.a
  have hb := Cls.fits h.b
  refine Serves.decodes (l := ⟨0, 0, 0, x, d, a, b, page, op, d % 8 * 256 + a % 8 * 32 + b % 8 * 4 + f⟩) h hla hx ?_ ?_ ?_ ?_
    ?_ (fun _ => rfl) (by rw [h.fmt]; rfl) (by simp [Nat.mod_one]) (by rw [hno]; rfl) ?_ ?_
  all_goals try dsimp only
  · simp [encode, henc, Enc.words, Layout.words, immWords, Nat.add_assoc]
  · omega
  · omega
  · omega
  · rw [length_regWords]; split_ifs <;> omega
  · have h1 : (op * 2048 + (d % 8 * 256 + a % 8 * 32 + b % 8 * 4 + f)) / 256 % 8 = d % 8 := by omega
    have h2 : (op * 2048 + (d % 8 * 256 + a % 8 * 32 + b % 8 * 4 + f)) / 32 % 8 = a % 8 := by omega
    have h3 : (op * 2048 + (d % 8 * 256 + a % 8 * 32 + b % 8 * 4 + f)) / 4 % 8 = b % 8 := by omega
    simp only [Row.unusedOk, h.fmt, h1, h2, h3, hd.2.2, ha.2.2, hb.2.2, Bool.and_self]
  · rintro ⟨_, _, _, _, _, im⟩ rfl rfl rfl rfl rfl -
    have hf' : BitVec.ofNat 2 (d % 8 * 256 + a % 8 * 32 + b % 8 * 4 + f) = BitVec.ofNat 2 f := by
      apply BitVec.eq_of_toNat_eq
      simp only [BitVec.toNat_ofNat]
      omega
    have hd' : d / 8 * 8 + (d % 8 * 256 + a % 8 * 32 + b % 8 * 4 + f) / 256 % 8 = d := by omega
    have ha' : a / 8 * 8 + (d % 8 * 256 + a % 8 * 32 + b % 8 * 4 + f) / 32 % 8 = a := by omega
    have hb' : b / 8 * 8 + (d % 8 * 256 + a % 8 * 32 + b % 8 * 4 + f) / 4 % 8 = b := by omega
    rw [hf', hd', ha', hb']
    exact hflds im

/-- RI: two registers, x and an immediate of five bits and its IMM words. -/
theorem decodes_ri {k : ImmEnc} {im : Imm} (henc : encFields i = some (.ri page op x d a k im))
    (h : ∀ f, Serves page op f (d % 8) x d a 0 .ri i r) (hx : x < 8)
    (himm : ImmFits r.imm (room (decide (page = 0)) [d, a] x) (immCount k 5 im) 5 im)
    (hflds : ∀ f b, let w : Fields := ⟨f, BitVec.ofNat 3 x, BitVec.ofNat 5 d, BitVec.ofNat 5 a, b, im⟩
      r.inRange w = true ∧ r.group w = true ∧ r.build w = i)
    (hla : la = 0 ∨ isLong i = true ∧ la < 16) : Decodes i la := by
  have hd := Cls.fits (h 0).d
  have ha := Cls.fits (h 0).a
  have hfmt := (h 0).fmt
  refine Serves.decodes (l := ⟨immCount k 5 im, 5, im, x, d, a, 0, page, op, d % 8 * 256 + a % 8 * 32 + im.toNat % 32⟩)
    (h _) hla hx ?_ ?_ rfl ?_ (words_of_room himm.words (by grind)) (by rw [hfmt]; rintro ⟨⟩) (by rw [hfmt]; rfl) ?_
    himm.ok ?_ ?_
  all_goals try dsimp only
  · simp [encode, henc, Enc.words, Layout.words, Nat.add_assoc]
  · omega
  · omega
  · omega
  · have h1 : (op * 2048 + (d % 8 * 256 + a % 8 * 32 + im.toNat % 32)) / 256 % 8 = d % 8 := by omega
    simp only [Row.unusedOk, hfmt, h1, hd.2.2]
  · rintro ⟨f, _, _, _, b, _⟩ - rfl rfl rfl - rfl
    have hd' : d / 8 * 8 + (d % 8 * 256 + a % 8 * 32 + im.toNat % 32) / 256 % 8 = d := by omega
    have ha' : a / 8 * 8 + (d % 8 * 256 + a % 8 * 32 + im.toNat % 32) / 32 % 8 = a := by omega
    simp only [hd', ha', himm.value]
    exact hflds f b

/-- RK: one register and an immediate of eight bits and its IMM words. -/
theorem decodes_rk {k : ImmEnc} {im : Imm} (henc : encFields i = some (.rk page op d k im))
    (h : ∀ f, Serves page op f (d % 8) 0 d 0 0 .rk i r)
    (himm : ImmFits r.imm (room (decide (page = 0)) [d] 0) (immCount k 8 im) 8 im)
    (hflds : ∀ f a b, let w : Fields := ⟨f, 0, BitVec.ofNat 5 d, a, b, im⟩
      r.inRange w = true ∧ r.group w = true ∧ r.build w = i)
    (hla : la = 0 ∨ isLong i = true ∧ la < 16) : Decodes i la := by
  have hd := Cls.fits (h 0).d
  have hfmt := (h 0).fmt
  refine Serves.decodes (l := ⟨immCount k 8 im, 8, im, 0, d, 0, 0, page, op, d % 8 * 256 + im.toNat % 256⟩)
    (h _) hla (Nat.zero_lt_succ 7) ?_ ?_ rfl ?_ (words_of_room himm.words (by grind)) (by rw [hfmt]; rintro ⟨⟩)
      (by rw [hfmt]; rfl) ?_
    himm.ok ?_ ?_
  all_goals try dsimp only
  · simp [encode, henc, Enc.words, Layout.words, Nat.add_assoc]
  · omega
  · omega
  · omega
  · have h1 : (op * 2048 + (d % 8 * 256 + im.toNat % 256)) / 256 % 8 = d % 8 := by omega
    simp only [Row.unusedOk, hfmt, h1, hd.2.2]
  · rintro ⟨f, _, _, a, b, _⟩ - rfl rfl - - rfl
    have hd' : d / 8 * 8 + (d % 8 * 256 + im.toNat % 256) / 256 % 8 = d := by omega
    simp only [hd', himm.value]
    exact hflds f a b

/-- BR: a condition, a register and an immediate, on page 0. -/
theorem decodes_br {im : Imm} (henc : encFields i = some (.br op c a im))
    (h : ∀ f, Serves 0 op f c 0 0 a 0 .br i r) (hc : c < 8)
    (himm : ImmFits r.imm (room true [a] 0) (immCount .sx 5 im) 5 im)
    (hflds : ∀ f d b, let w : Fields := ⟨f, 0, d, BitVec.ofNat 5 a, b, im⟩
      r.inRange w = true ∧ r.group w = true ∧ r.build w = i)
    (hla : la = 0 ∨ isLong i = true ∧ la < 16) : Decodes i la := by
  have ha := Cls.fits (h 0).a
  have hfmt := (h 0).fmt
  refine Serves.decodes (l := ⟨immCount .sx 5 im, 5, im, 0, 0, a, 0, 0, op, c * 256 + a % 8 * 32 + im.toNat % 32⟩)
    (h _) hla (Nat.zero_lt_succ 7) ?_ ?_ rfl ?_ (words_of_room himm.words (by grind)) (by rw [hfmt]; rintro ⟨⟩)
      (by rw [hfmt]; rfl) ?_
    himm.ok (by rw [Row.unusedOk, hfmt]) ?_
  all_goals try dsimp only
  · simp [encode, henc, Enc.words, Layout.words, Nat.add_assoc]
  · omega
  · omega
  · omega
  · rintro ⟨f, _, d, _, b, _⟩ - rfl - rfl - rfl
    have ha' : a / 8 * 8 + (c * 256 + a % 8 * 32 + im.toNat % 32) / 32 % 8 = a := by omega
    simp only [ha', himm.value]
    exact hflds f d b

/-- JW: an immediate of eleven bits, on page 0. -/
theorem decodes_jw {im : Imm} (henc : encFields i = some (.jw op im)) (h : ∀ f c, Serves 0 op f c 0 0 0 0 .jw i r)
    (himm : ImmFits r.imm 4 (immCount .sx 11 im) 11 im)
    (hflds : ∀ f d a b, let w : Fields := ⟨f, 0, d, a, b, im⟩
      r.inRange w = true ∧ r.group w = true ∧ r.build w = i)
    (hla : la = 0 ∨ isLong i = true ∧ la < 16) : Decodes i la := by
  have hfmt := (h 0 0).fmt
  refine Serves.decodes (l := ⟨immCount .sx 11 im, 11, im, 0, 0, 0, 0, 0, op, im.toNat % 2048⟩)
    (h _ _) hla (Nat.zero_lt_succ 7) ?_ ?_ rfl rfl ?_ (by rw [hfmt]; rintro ⟨⟩) (by rw [hfmt]; rfl) ?_
    himm.ok (by rw [Row.unusedOk, hfmt]) ?_
  all_goals try dsimp only
  · simp [encode, henc, Enc.words, Layout.words, regWords]
  · omega
  · simpa [regWords] using himm.words
  · omega
  · rintro ⟨f, _, d, a, b, _⟩ - rfl - - - rfl
    rw [himm.value]
    exact hflds f d a b

end

/-- Each well-formed bundle decodes by its row: the cases stand in the order of the shapes of their fields. -/
theorem decodes_of_wf {i : Instr} {la : Nat} (hb : isBundle i = true) (hh : i ≠ .handlerLimit)
    (hill : ∀ idx reason, i ≠ .illegalEncoding idx reason) (hwf : i.wf = true)
    (hla : la = 0 ∨ isLong i = true ∧ la < 16) : Decodes i la := by
  cases i with
  | add d a b | addw d a b | sub d a b | subw d a b | and d a b | or d a b | xor d a b | andn d a b | sll d a b
  | srl d a b | sra d a b | ror d a b | ceq d a b | cne d a b | clt d a b | cltn d a b | adda d a b | adda2 d a b
  | adda4 d a b | adda8 d a b | mul d a b | mulw d a b | mulh d a b | mulhn d a b | div d a b | divn d a b
  | rem d a b | remn d a b | divw d a b | divnw d a b | remw d a b | remnw d a b | min d a b | max d a b
  | minn d a b | maxn d a b | bext d a b | bexts d a b | bins d a b | bmsk d a b | fshl d a b | fshr d a b
  | sel d a b | radd d a b | raddr d a b | mand d a b | mor d a b | mxor d a b | mandn d a b | cvt d a b
  | mma d a b | mmaz d a b | mmas d a b | mmasz d a b | neteval d a b | waitgen d a b | arrive d a b
  | arrivem d a b | spawn d a b | spawnw d a b | tagqry d a b | layset d a b | layget d a b | laysplit d a b
  | ccrd d a b | rld w d a b | rst w d a b | vadd w d a b m | vsub w d a b m | vmul w d a b m | vmulh w d a b m
  | vsll w d a b m | vsrl w d a b m | vsra w d a b m | vmin w d a b m | vmax w d a b m | vminn w d a b m
  | vmaxn w d a b m | vfadd w d a b m | vfsub w d a b m | vfmul w d a b m | vffma w d a b m | vfmin w d a b m
  | vfmax w d a b m | vextr w d a b m | vins w d a b m | vlds w d a b m | vsts w d a b m | vgath w d a b m
  | vscat w d a b m | vgathl w d a b m | vscatl w d a b m | vperm w d a b m | vsldn w d a b m | vslup w d a b m
  | vand d a b m | vor d a b m | vxor d a b m | vandn d a b m | vceqE32 d a b m | vcneE32 d a b m
  | vcltE32 d a b m | vcltnE32 d a b m | vceqE16 d a b m | vcneE16 d a b m | vcltE16 d a b m | vcltnE16 d a b m
  | vceqE8 d a b m | vcneE8 d a b m | vcltE8 d a b m | vcltnE8 d a b m | vfceq d a b m | vfclt d a b m
  | vfcle d a b m | vfcun d a b m | vsel d a b m =>
    exact decodes_rr rfl ⟨rfl, rfl, rfl, d.isLt, a.isLt, b.isLt, rfl⟩ rfl (by omega) (by omega)
      (fun _ => ⟨rfl, rfl, by simp⟩) hla
  | addi d a i | andi d a i | clti d a i | addai d a i | vld d a m i | vst d a m i =>
    exact decodes_ri rfl (fun _ => ⟨rfl, rfl, rfl, d.isLt, a.isLt, Nat.two_pow_pos _, rfl⟩) (by omega) (immFits_sx
      (room_bounds _ _ _).2 (by decide) hwf)
        (fun _ _ => ⟨rfl, rfl, by simp⟩) hla
  | ori d a i | xori d a i =>
    exact decodes_ri rfl (fun _ => ⟨rfl, rfl, rfl, d.isLt, a.isLt, Nat.two_pow_pos _, rfl⟩) (by omega) (immFits_zx
      (room_bounds _ _ _).2 le_rfl (by simpa [fitsUnsigned, Nat.add_comm] using of_decide_eq_true hwf)
      (fun _ _ => rfl) (fun _ _ => rfl))
        (fun _ _ => ⟨rfl, rfl, by simp⟩) hla
  | slli d a i | srli d a i | srai d a i =>
    exact decodes_ri rfl (fun _ => ⟨rfl, rfl, rfl, d.isLt, a.isLt, Nat.two_pow_pos _, rfl⟩) (by omega) (immFits_zx
      (m := 1) (by decide) (le_trans (by decide) (room_bounds _ _ _).1) (Nat.lt_trans (of_decide_eq_true hwf)
      (by decide)) (fun _ _ => hwf) (fun _ _ => rfl))
        (fun _ _ => ⟨rfl, rfl, by simp⟩) hla
  | li d i =>
    exact decodes_rk rfl (fun _ => ⟨rfl, rfl, rfl, d.isLt, Nat.two_pow_pos _, Nat.two_pow_pos _, rfl⟩) (immFits_sx
      (room_bounds _ _ _).2 (by decide) hwf)
        (fun _ _ _ => ⟨rfl, rfl, by simp⟩) hla
  | mov d a | movaa d a | jalr d a | clz d a | ctz d a | popc d a | brev d a | sextb d a | sexth d a | sextw d a
  | zextw d a | abs d a | neg d a | mova d a | movs d a | movah d a | movsh d a | mpop d a | mfirst d a
  | mmovs d a | mmovm d a | gadd d a | gfadd d a | gmin d a | gmax d a | mdrain d a | mdrainw d a | accrd d a
  | accwr d a | txreq d a | qstat d a | tripop d a | tripopn d a | reqpop d a | epstat d a | vrcp d a m
  | vrsq d a m | vexp2 d a m | vlog2 d a m | vsin d a m | vcos d a m | vsqrt d a m | vtanh d a m | vredadd d a m
  | vredfadd d a m | vredmin d a m | vredmax d a m | vwiden8 d a m | vwiden16 d a m | vnarrow16 d a m
  | vnarrow8 d a m | vldl d a m | vstl d a m | vscanadd d a m | vscanfadd d a m | vmov d a m | vbcast w d a m =>
    exact decodes_rr rfl ⟨rfl, rfl, rfl, d.isLt, a.isLt, Nat.two_pow_pos _, rfl⟩ rfl (by omega) (by omega)
      (fun _ => ⟨rfl, rfl, by simp⟩) hla
  | bz a i | bnz a i | bltz a i | bgez a i | bgtz a i | blez a i =>
    exact decodes_br rfl (fun _ => ⟨rfl, rfl, rfl, Nat.two_pow_pos _, a.isLt, Nat.two_pow_pos _, rfl⟩) (by omega)
      (immFits_sx (room_bounds _ _ _).2 (by decide) hwf)
        (fun _ _ _ => ⟨rfl, rfl, by simp⟩) hla
  | bmany a i | bmnone a i =>
    exact decodes_br rfl (fun _ => ⟨rfl, rfl, rfl, Nat.two_pow_pos _, a.isLt, Nat.two_pow_pos _, rfl⟩) (by omega)
      (immFits_sx (room_bounds _ _ _).2 (by decide) (by simpa [Instr.wf, room, a.isLt] using hwf))
        (fun _ _ _ => ⟨rfl, rfl, by simp⟩) hla
  | j i | jal i =>
    exact decodes_jw rfl (fun _ _ => ⟨rfl, rfl, rfl, Nat.two_pow_pos _, Nat.two_pow_pos _, Nat.two_pow_pos _, rfl⟩)
      (immFits_sx le_rfl (by decide) hwf)
        (fun _ _ _ _ => ⟨rfl, rfl, by simp⟩) hla
  | jr a | reply a | msave a | mrstr a | copy a | qcfg a | sleep a | wake a | resume a | abort a | tridone a
  | pxunlk a | layret a | hput a | hget a | hamo a | hsend a | ctxkill a | shroud a | fset w a =>
    exact decodes_rr rfl ⟨rfl, rfl, rfl, Nat.two_pow_pos _, a.isLt, Nat.two_pow_pos _, rfl⟩ rfl (by omega)
      (by omega) (fun _ => ⟨rfl, rfl, by simp⟩) hla
  | bexti d a i | bextsi d a i =>
    exact decodes_ri rfl (fun _ => ⟨rfl, rfl, rfl, d.isLt, a.isLt, Nat.two_pow_pos _, rfl⟩) (by omega)
      (immFits_field (le_trans (by decide) (room_bounds _ _ _).1) (by simp_all [Instr.wf]) (by simp_all [Instr.wf]))
        (fun _ _ => ⟨rfl, rfl, by simp⟩) hla
  | fadd d a b fs | fsub d a b fs | fmul d a b fs | ffma d a b fs | feq d a b fs | flt d a b fs | fle d a b fs
  | funord d a b fs =>
    exact decodes_rr rfl ⟨rfl, rfl, decide_eq_true (by omega), d.isLt, a.isLt, b.isLt, rfl⟩ rfl (by omega)
      (by omega) (fun _ => ⟨rfl, rfl, by simp⟩) hla
  | ftoi d a fs | itof d a fs | ftoin d a fs | itofn d a fs | fabs d a fs | fneg d a fs =>
    exact decodes_rr rfl ⟨rfl, rfl, decide_eq_true (by omega), d.isLt, a.isLt, Nat.two_pow_pos _, rfl⟩ rfl
      (by omega) (by omega) (fun _ => ⟨rfl, rfl, by simp⟩) hla
  | crd d i | hset d i | tlrd d i =>
    exact decodes_rk rfl (fun _ => ⟨rfl, rfl, rfl, d.isLt, Nat.two_pow_pos _, Nat.two_pow_pos _, rfl⟩) (immFits_zx
      (m := 0) (by decide) (Nat.zero_le _) (by simp [Instr.wf] at hwf ⊢; omega)
      (fun _ hn => by simp_all [Instr.wf, ImmRule.ok]) (fun _ _ => rfl))
        (fun _ _ _ => ⟨rfl, rfl, by simp⟩) hla
  | ldb d a x i | ldbz d a x i | ldh d a x i | ldhz d a x i | ldw d a x i | ldwz d a x i | ldd d a x i
  | stb d a x i | sth d a x i | stw d a x i | std d a x i | lda d a x i | sta d a x i =>
    exact decodes_ri rfl (fun _ => ⟨rfl, rfl,
      (Bool.and_eq_true_iff.1 hwf).2, d.isLt, a.isLt, Nat.two_pow_pos _, rfl⟩) (by omega) (immFits_sx
      (room_bounds _ _ _).2 (by decide) (Bool.and_eq_true_iff.1 hwf).1)
        (fun _ _ => ⟨rfl, rfl, by simp⟩) hla
  | ldl w d a x | stl w d a x =>
    exact decodes_rr rfl ⟨rfl, rfl, hwf, d.isLt, a.isLt, Nat.two_pow_pos _, rfl⟩ rfl (by omega) (by omega)
      (fun _ => ⟨rfl, rfl, by simp⟩) hla
  | amoadd d a b x | amoswap d a b x | amoand d a b x | amoor d a b x | amoxor d a b x | amomin d a b x
  | amomax d a b x | amominn d a b x | cas d a b x | ladd d a b x | lswap d a b x | lmin d a b x | lmax d a b x
  | casl d a b x =>
    exact decodes_rr rfl ⟨rfl, rfl, hwf, d.isLt, a.isLt, b.isLt, rfl⟩ rfl (by omega) (by omega)
      (fun _ => ⟨rfl, rfl, by simp⟩) hla
  | fence i | trap i =>
    exact decodes_rk rfl (fun _ => ⟨rfl, rfl, rfl, Nat.two_pow_pos _, Nat.two_pow_pos _, Nat.two_pow_pos _, rfl⟩)
      (immFits_zx (m := 0) (by decide) (Nat.zero_le _) (by simp [Instr.wf] at hwf ⊢; omega)
      (fun _ hn => by simp_all [Instr.wf, ImmRule.ok] <;> omega) (fun _ _ => rfl))
        (fun _ _ _ => ⟨rfl, rfl, by simp⟩) hla
  | pref a i =>
    exact decodes_ri rfl (fun _ => ⟨rfl, rfl, rfl, Nat.two_pow_pos _, a.isLt, Nat.two_pow_pos _, rfl⟩) (by omega)
      (immFits_sx (room_bounds _ _ _).2 (by decide) hwf)
        (fun _ _ => ⟨rfl, rfl, by simp⟩) hla
  | msg d a b | cvtef d a b | texldNearest d a b m | texldBilinear d a b m | texldTrilinear d a b m | ldlod d a b =>
    exact decodes_rr rfl ⟨rfl, rfl, rfl, d.isLt, a.isLt, b.isLt, rfl⟩ rfl (by omega) (by omega)
      (fun _ => by simp_all [Instr.wf, Nat.mod_eq_of_lt d.isLt, BitVec.toNat_eq]) hla
  | viota w d m | mzero d | mqstat d | laynew d =>
    exact decodes_rr rfl ⟨rfl, rfl, rfl, d.isLt, Nat.two_pow_pos _, Nat.two_pow_pos _, rfl⟩ rfl (by omega)
      (by omega) (fun _ => ⟨rfl, rfl, by simp⟩) hla
  | fmtset a b | awset a b | tagpub a b | tagwait a b | qpush a b | evpost a b | triemit a b | pxlock a b
  | laymerge a b | compose a b | tlbinv a b =>
    exact decodes_rr rfl ⟨rfl, rfl, rfl, Nat.two_pow_pos _, a.isLt, b.isLt, rfl⟩ rfl (by omega) (by omega)
      (fun _ => ⟨rfl, rfl, by simp⟩) hla
  | fmtget d b =>
    exact decodes_rr rfl ⟨rfl, rfl, rfl, d.isLt, Nat.two_pow_pos _, b.isLt, rfl⟩ rfl (by omega) (by omega)
      (fun _ => ⟨rfl, rfl, by simp⟩) hla
  | fmtinv b =>
    exact decodes_rr rfl ⟨rfl, rfl, rfl, Nat.two_pow_pos _, Nat.two_pow_pos _, b.isLt, rfl⟩ rfl (by omega)
      (by omega) (fun _ => ⟨rfl, rfl, by simp⟩) hla
  | waittl d a =>
    exact decodes_rr rfl ⟨rfl, rfl, rfl, d.isLt, a.isLt, Nat.two_pow_pos _, rfl⟩ rfl (by omega) (by omega)
      (fun _ => by simp_all [Instr.wf, Nat.mod_eq_of_lt d.isLt]) hla
  | quit | yield | gang2 | gang4 | gang8 | split | texfence | fbflush | rett | harvest =>
    exact decodes_rr rfl ⟨rfl, rfl, rfl, Nat.two_pow_pos _, Nat.two_pow_pos _, Nat.two_pow_pos _, rfl⟩ rfl
      (by omega) (by omega) (fun _ => ⟨rfl, rfl, by simp⟩) hla
  | csrr d i | csrw d i =>
    exact decodes_rk rfl (fun _ => ⟨rfl, rfl, rfl, d.isLt, Nat.two_pow_pos _, Nat.two_pow_pos _, rfl⟩) (immFits_zx
      (m := 1) (by decide) (le_trans (by decide) (room_bounds _ _ _).1) (Nat.lt_trans (of_decide_eq_true hwf)
      (by decide)) (fun _ hn => by simp_all [Instr.wf, ImmRule.ok]) (fun _ _ => rfl))
        (fun _ _ _ => ⟨rfl, rfl, by simp⟩) hla
  | handlerLimit => exact absurd rfl hh
  | illegalEncoding idx reason => exact absurd rfl (hill idx reason)
  | _ => exact absurd hb Bool.false_ne_true

end Sys2Proof

namespace Sys2Proof.Machine

/-- Settles O52: every bundle's canonical words are read back by the row that encodes it. -/
theorem encodeDecode : Obligations.EncodeDecode := by
  unfold Obligations.EncodeDecode
  exact fun i la rest hb hh hill hwf hla => decodes_of_wf hb hh hill hwf hla rest

end Sys2Proof.Machine

/-! SUPPORT. Proofs of the facts of tier 1: words that decode, the state of reset, and what an issue turn and a step of the
device make of the instruction they run (02_encoding, 03_thread, 24_device R380). -/

namespace Sys2Proof.Machine

open Sys2Proof

/-- Settles O51: the decoder run on each list of words. -/
theorem decodingIsRight : Obligations.DecodingIsRight := by
  unfold Obligations.DecodingIsRight
  decide +kernel

theorem ofBytes_replicate_zero (n : Nat) : ofBytes (List.replicate n 0#8) = 0 := by
  induction n with
  | zero => rfl
  | succ n ih => simp [List.replicate_succ, ofBytes, ih]

/-- Memory that lists no byte reads 0. -/
theorem State.memRead_of_mem_nil {s : State} (h : s.mem = []) (a n : Nat) : s.memRead a n = 0 := by
  simp [State.memRead, State.memGet, h, ofBytes_replicate_zero, List.map_const']

/-- Settles O60: every table of the state of reset is empty. -/
theorem resetState : Obligations.ResetState := by
  unfold Obligations.ResetState
  exact ⟨rfl, fun _ => rfl, fun _ => rfl, fun _ => rfl, fun _ => rfl, fun _ => rfl, fun _ => rfl, fun _ => rfl, rfl, rfl, rfl, rfl,
    rfl, State.memRead_of_mem_nil rfl, rfl, fun _ => ⟨rfl, rfl, rfl, rfl, rfl⟩, fun _ => rfl, rfl, rfl, rfl⟩

/-! ### An issue turn (03_thread R55, R59) -/

section
variable {s : State} {core k la : Nat} {pre post : List Nat} {i : Instr} {ws : List (BitVec 16)}

/-- A thread whose words decode to an instruction that nothing holds back runs it. -/
theorem State.prepare_run {t : Nat} (hc : s.competes t = true) (hf : (s.thread t).follows = false)
    (hd : decodeWith (s.fetchWord t) = .ok (.ok i la, ws)) (hs : (s.thread t).spent = false)
    (hp : (s.thread t).poison = none) (hb : (s.thread t).blockers i = [])
    (hl : isLong i = false ∨ (s.thread t).outstanding < 4) :
    s.prepare t = .run i { pc := (s.thread t).pc, words := ws, la := la } := by
  have hfetched : s.fetched t = .bundle (.ok i la) { pc := (s.thread t).pc, words := ws, la := la } := by
    simp only [State.fetched, hf, hd]; rfl
  have hlong : ¬(isLong i = true ∧ 4 ≤ (s.thread t).outstanding) := by
    rintro ⟨h1, h2⟩
    rcases hl with h | h
    · simp [h] at h1
    · omega
  simp only [State.prepare, hc, hfetched, hs, hp, hb, Thread.waitFor, if_neg hlong]
  rfl

theorem State.perform_hold (t : Nat) : s.perform t .hold = none := rfl

/-- The first slot of a core that does not hold its bundle uses the turn. -/
theorem State.turn_first {o : Out} (hi : (s.core core).issued ≠ some s.cycle) (ho : slotOrder s.cycle = pre ++ k :: post)
    (hpre : ∀ j ∈ pre, s.prepare (core * 8 + j) = .hold)
    (hk : s.perform (core * 8 + k) (s.prepare (core * 8 + k)) = some o) : s.turn core = some o := by
  have hnone : pre.findSome? (fun k => s.perform (core * 8 + k) (s.prepare (core * 8 + k))) = none := by
    rw [List.findSome?_eq_none_iff]
    intro j hj
    rw [hpre j hj, State.perform_hold]
  rw [State.turn, if_neg hi, State.pick, ho, List.findSome?_append, hnone, List.findSome?_cons, hk]
  rfl

/-- A core whose first such slot runs no SPAWN waits for none. -/
theorem State.spawnWaits_of_not_spawn {o : Out} {b : Bundle} (ho : slotOrder s.cycle = pre ++ k :: post)
    (hpre : ∀ j ∈ pre, s.prepare (core * 8 + j) = .hold) (hrun : s.prepare (core * 8 + k) = .run i b)
    (hk : s.perform (core * 8 + k) (.run i b) = some o) (hi : ∀ d a b, i ≠ .spawn d a b ∧ i ≠ .spawnw d a b) :
    s.spawnWaits core = false := by
  have hfind : (slotOrder s.cycle).find? (fun k => (s.perform (core * 8 + k) (s.prepare (core * 8 + k))).isSome) = some k := by
    rw [List.find?_eq_some_iff_append]
    refine ⟨by rw [hrun, hk]; rfl, pre, post, ho, fun j hj => ?_⟩
    rw [hpre j hj, State.perform_hold]
    rfl
  have hturn : s.spawnTurn core = none := by
    simp only [State.spawnTurn, hfind, hrun]
    split <;> grind
  simp [State.spawnWaits, hturn]

/-- A turn whose core waits for no SPAWN gives what the first slot's bundle gives. -/
theorem State.issue_first {o : Out} {b : Bundle} (hi : (s.core core).issued ≠ some s.cycle)
    (ho : slotOrder s.cycle = pre ++ k :: post) (hpre : ∀ j ∈ pre, s.prepare (core * 8 + j) = .hold)
    (hrun : s.prepare (core * 8 + k) = .run i b) (hk : s.perform (core * 8 + k) (.run i b) = some o)
    (hspawn : (∀ d a b, i ≠ .spawn d a b ∧ i ≠ .spawnw d a b) ∨ s.spawnWaits core = false) : s.move (.issue core) = o := by
  have hwaits : s.spawnWaits core = false := by
    rcases hspawn with h | h
    · exact State.spawnWaits_of_not_spawn ho hpre hrun hk h
    · exact h
  have hturn : s.turn core = some o := State.turn_first hi ho hpre (by rw [hrun, hk])
  simp [State.move, hwaits, hturn]

/-- What a turn makes of an instruction that executes with a next state. -/
theorem State.perform_run {t : Nat} {b : Bundle} {s1 s2 : State} {o : Option Out}
    (h1 : { (s.fetchEffect t b.words.length).readRegs t i with iss := { thr := t, b := b, dep := s.depFor t i } } = s1)
    (hb : s1.regsBad t i = false) (h2 : exec i s1 = .next s2)
    (ho : (match s2.iss.turn with
      | .walking => some (.next (s2.issuedBy t (s.thread t) false false))
      | .trapped => s.trapTurn s1 s2 t (s.thread t)
      | .ran => if heldBy i s1 s2 then none
        else some (.next (((s2.depend t i).wroteRegs t
          (if !isLong i && executed (s2.thread t) then destsOf i else [])).issuedBy t (s.thread t) true))) = o) :
    s.perform t (.run i b) = o := by
  subst h1 ho
  simp only [State.perform, hb, Bool.false_eq_true, if_false, h2] <;> rfl

end

/-! ### Steps that wait for their core's turn (03_thread R54) -/

theorem pinged_eq_some {i : Instr} {t : Nat} (h : pinged i = some t) :
    i ∈ [Instr.wakeArrive t, .resumeArrive t, .abortArrive t] := by
  cases i <;> simp [pinged] at h ⊢ <;> exact h

/-- Pre-emption and fences alone act on cores. -/
theorem State.onCore_cases {s : State} {i : Instr} {core : Nat} (h : s.onCore i core = true) :
    (∃ die, i = .preemptionTrigger die) ∨ (∃ ser g, i = .groupSaveComplete ser g) ∨ ∃ c, i = .watchdogExpire c := by
  cases i <;> simp [State.onCore] at h ⊢

/-- What a step of the device that must wait waits for. -/
theorem State.beforeTurn_cases {s : State} {i : Instr} (h : s.beforeTurn i = true) :
    (∃ k, i ∈ [Instr.wakeArrive k, .resumeArrive k, .abortArrive k] ∧ (s.turn (coreOf k)).isSome = true) ∨
    ∃ core, s.onCore i core = true ∧ ((s.turn core).isSome = true ∨
      ∃ m ∈ s.net, m.tgt = core ∧ ∃ p ∈ pingMoves m, (s.due p).isSome = true) := by
  unfold State.beforeTurn at h
  split at h
  · next t ht => exact .inl ⟨t, pinged_eq_some ht, h⟩
  · simp only [Bool.or_eq_true, List.any_eq_true, Bool.and_eq_true] at h
    rcases h with ⟨c, -, hc, hturn⟩ | ⟨m, hm, hc, hp⟩
    · exact .inr ⟨c, hc, .inl hturn⟩
    · exact .inr ⟨m.tgt, hc, .inr ⟨m, hm, rfl, hp⟩⟩

theorem step_of_agenda {s : State} {m : Move} {rest : List Move} (h : s.agenda = m :: rest) :
    step s = ({ s with agenda := rest } : State).move m := by
  simp only [step, h]

/-- Settles O50: the turn of a core and the named step of the device, taken apart as `move` puts them together. -/
theorem stepRunsDecoded : Obligations.StepRunsDecoded := by
  unfold Obligations.StepRunsDecoded
  refine ⟨?turn, ?spawns, ?device, ?fetch⟩
  case turn =>
    intro s core k la rest pre post i ws s2 hag u t th b s1 hspawn hissued horder hpre hcomp hfollow hdec hspent hpoison hblock
      hlong hbad hexec
    have hrun : u.prepare t = .run i b := State.prepare_run hcomp hfollow hdec hspent hpoison hblock hlong
    have hout : ∀ o, u.perform t (.run i b) = some o → step s = o := fun o ho =>
      (step_of_agenda hag).trans (State.issue_first hissued horder hpre hrun ho hspawn)
    refine ⟨fun hran hheld => hout _ (State.perform_run rfl hbad hexec ?_),
      fun hwalk => hout _ (State.perform_run rfl hbad hexec ?_), fun htrap hpend => hout _ (State.perform_run rfl hbad hexec ?_)⟩
    · rw [hran]
      refine (if_neg (Bool.eq_false_iff.1 hheld)).trans ?_
      simp only [Bool.and_eq_true, Bool.not_eq_true']
      rfl
    · rw [hwalk]
    · rw [htrap]
      simp only [State.trapTurn]
      rw [show (u.thread t).pend = [] from hpend]
  case spawns =>
    intro s core rest hag hw
    rw [step_of_agenda hag]
    simp [State.move, hw]
  case device =>
    intro s t i rest hag hb u
    rw [step_of_agenda hag]
    refine ⟨fun hbt hexec => ?_, fun hbt => ⟨?_, ?_⟩⟩
    · simp only [State.move, hb, hbt, Bool.false_or, Bool.false_eq_true, if_false, u, hexec]
    · simp only [State.move, hb, hbt, Bool.false_or, if_true, u]
    · refine (State.beforeTurn_cases hbt).imp id fun ⟨core, hc, hrest⟩ => ⟨?_, State.onCore_cases hc⟩
      exact ⟨core, hc, hrest⟩
  case fetch =>
    intro s t n pa ty va c hva hun hx
    have hsent := hun.sentBefore .get va 2 []
    have hlt : ¬2 ^ 64 ≤ va := by omega
    refine ⟨fun hi hp => ?_, fun e hi hbad => ?_⟩
    · simp only [va, c] at hx hsent hlt hi
      simp only [State.fetchWord, if_neg hlt, hsent, hx, hi, hp]
      simp
    · simp only [va, c] at hx hsent hlt hi hbad
      simp only [State.fetchWord, if_neg hlt, hsent, hx, hi, hbad]
      simp

end Sys2Proof.Machine

/-! SUPPORT. What completing a bundle changes (03_thread R59, 04_scalar R67, 01_machine R24): the device kept by each way to
complete, and from that the frame of completing. Two frames that fail where a gang splits. -/

namespace Sys2Proof.Machine

open Sys2Proof

/-! ### The device as it was -/

/-- An error unit as before but for what injection has armed. -/
structure SameErrs (u v : ErrUnit) : Prop where
  rest : { v with einj := u.einj, faults := u.faults } = u
  quiet : u.armed 1 = false → v.einj = u.einj

/-- A core as before but for its L1 and what a write of it does to injection and poison. -/
structure SameCore (c d : Core) : Prop where
  rest : { d with l1 := c.l1, path := c.path, bad := c.bad, errs := c.errs } = c
  errs : SameErrs c.errs d.errs

theorem SameErrs.refl (u : ErrUnit) : SameErrs u u := ⟨rfl, fun _ => rfl⟩

theorem SameErrs.trans {u v w : ErrUnit} (h : SameErrs u v) (k : SameErrs v w) : SameErrs u w where
  rest := by
    have h1 := h.rest
    have k1 := k.rest
    grind
  quiet hu := by
    have hv := h.quiet hu
    exact (k.quiet (by rw [ErrUnit.armed, hv]; exact hu)).trans hv

theorem SameCore.refl (c : Core) : SameCore c c := ⟨rfl, .refl _⟩

theorem SameCore.trans {c d e : Core} (h : SameCore c d) (k : SameCore d e) : SameCore c e where
  rest := by
    have h1 := h.rest
    have k1 := k.rest
    grind
  errs := h.errs.trans k.errs

/-- The same of every core, and of all else but threads and links. -/
theorem sameDevice_of_cores {s t : State} (hrest : { t with thr := s.thr, links := s.links, cores := s.cores } = s)
    (hcores : ∀ c, SameCore (s.core c) (t.core c)) : SameDevice s t where
  rest := hrest
  cores c := by
    have h1 := (hcores c).rest
    have h2 := (hcores c).errs.rest
    rw [h2]
    exact h1
  quiet c := (hcores c).errs.quiet

theorem SameDevice.sameCore {s t : State} (h : SameDevice s t) (c : Nat) : SameCore (s.core c) (t.core c) where
  rest := by
    have h1 := h.cores c
    grind
  errs := ⟨congrArg Core.errs (h.cores c), h.quiet c⟩

theorem SameDevice.refl (s : State) : SameDevice s s := sameDevice_of_cores rfl fun _ => .refl _

theorem SameDevice.trans {s t u : State} (h : SameDevice s t) (k : SameDevice t u) : SameDevice s u := by
  refine sameDevice_of_cores ?_ fun c => (h.sameCore c).trans (k.sameCore c)
  have h1 := h.rest
  have k1 := k.rest
  grind

theorem SameDevice.mem {s t : State} (h : SameDevice s t) : t.mem = s.mem := by
  have := congrArg State.mem h.rest
  exact this
theorem SameDevice.iss {s t : State} (h : SameDevice s t) : t.iss = s.iss := by
  have := congrArg State.iss h.rest
  exact this

theorem SameDevice.sameMemory {s t : State} (h : SameDevice s t) : SameMemory s t := fun p => by
  simp only [State.memRead, State.memGet, h.mem]

/-- Threads alone change. -/
theorem sameDevice_setThread (s : State) (t : Nat) (x : Thread) : SameDevice s (s.setThread t x) :=
  sameDevice_of_cores rfl fun _ => .refl _

theorem sameDevice_foldl {α : Type} {f : State → α → State} (hf : ∀ s a, SameDevice s (f s a)) (l : List α) :
    ∀ s, SameDevice s (l.foldl f s) := by
  induction l with
  | nil => exact .refl
  | cons a r ih => exact fun s => (hf s a).trans (ih _)

theorem sameDevice_setCore {s : State} {n : Nat} {x : Core} (h : SameCore (s.core n) x) : SameDevice s (s.setCore n x) := by
  refine sameDevice_of_cores rfl fun c => ?_
  by_cases hc : c = n
  · subst hc
    simpa [State.core, State.setCore] using h
  · simpa [State.core, State.setCore, tget_tput_other _ _ _ hc] using SameCore.refl _

theorem sameDevice_dissolveAt (s : State) (ms : List Nat) (num k : Nat) : SameDevice s (s.dissolveAt ms num k) :=
  sameDevice_foldl (fun _ _ => sameDevice_setThread _ _ _) ms s

theorem sameDevice_lead (s : State) (t : Nat) (next : Option W64) (way : Bool) : SameDevice s (s.lead t next way) := by
  simp only [State.lead]
  split
  · exact .refl _
  split
  · exact .refl _
  refine (sameDevice_setThread _ _ _).trans (sameDevice_foldl (fun u m => ?_) _ _)
  split
  · split
    · exact sameDevice_setThread _ _ _
    · exact .refl _
  · exact .refl _

theorem sameDevice_moveTo (s : State) (next : W64) (past way : Bool) : SameDevice s (s.moveTo next past way) := by
  simp only [State.moveTo]
  split
  · exact sameDevice_setThread _ _ _
  split
  · have h := fun x => (sameDevice_lead s s.iss.thr (some next) way).trans (sameDevice_setThread _ s.iss.thr x)
    split
    · exact (h _).trans (sameDevice_dissolveAt _ _ _ _)
    · exact h _
  · have h := sameDevice_setThread s
    split
    · split
      · exact h _ _
      · exact (h _ _).trans (sameDevice_dissolveAt _ _ _ _)
    · exact h _ _

theorem sameDevice_done (s : State) : SameDevice s s.done := sameDevice_moveTo _ _ _ _

theorem sameDevice_setCur (s : State) (x : Thread) : SameDevice s (s.setCur x) := sameDevice_setThread _ _ _

theorem sameDevice_flushL1 (s : State) (c : Nat) : SameDevice s (s.flushL1 c) := sameDevice_setCore ⟨rfl, .refl _⟩

/-- Links alone change. -/
theorem sameDevice_links (s : State) (l : List Link) : SameDevice s { s with links := l } :=
  sameDevice_of_cores rfl fun _ => .refl _

theorem sameDevice_pop (s : State) (t : Nat) : SameDevice s (s.pop t) :=
  (sameDevice_flushL1 s _).trans (sameDevice_links _ _)

theorem sameDevice_popIf (s : State) (srcs : List SReg) : SameDevice s (s.popIf srcs) := by
  unfold State.popIf
  split
  · exact sameDevice_pop _ _
  · exact .refl _

theorem sameDevice_push (s : State) (t : Nat) (v : W64) : SameDevice s (s.push t v) := sameDevice_links _ _

/-- An unarmed write of the L1 puts no fault in it. -/
theorem sameErrs_wrote (u : ErrUnit) (hit : Nat → Bool) (key : Nat) : SameErrs u (u.wrote 1 hit key) := by
  unfold ErrUnit.wrote
  dsimp only
  split
  · next h => exact ⟨rfl, fun hu => by simp [hu] at h⟩
  · exact ⟨rfl, fun _ => rfl⟩

theorem sameCore_ackWrote (c : Core) (a n : Nat) : SameCore c (c.ackWrote a n) := by
  unfold Core.ackWrote
  split
  · exact ⟨rfl, sameErrs_wrote _ _ _⟩
  · exact .refl _

theorem sameCore_foldl {α : Type} {f : Core → α → Core} (hf : ∀ c a, SameCore c (f c a)) (l : List α) :
    ∀ c, SameCore c (l.foldl f c) := by
  induction l with
  | nil => exact .refl
  | cons a r ih => exact fun c => (hf c a).trans (ih _)

theorem sameCore_accept (c : Core) (slice n : Nat) : SameCore c (c.accept slice n) := by
  have h := sameCore_foldl (f := FromSlice.wrote) (fun c x => by
    cases x
    · exact .refl _
    · exact sameCore_ackWrote _ _ _) ((c.path.filter fun x => decide (x.slice = slice)).take n) c
  exact ⟨h.rest, h.errs⟩

theorem sameDevice_ackAll (s : State) (t : Nat) : SameDevice s (s.ackAll t) := by
  simp only [State.ackAll]
  split
  · exact .refl _
  · exact sameDevice_setCore (sameCore_foldl (fun c _ => sameCore_accept _ _ _) _ _)

theorem sameDevice_putS (s : State) (d : SReg) (v : W64) : SameDevice s (s.putS d v) := by
  unfold State.putS
  split
  · exact (sameDevice_ackAll _ _).trans (sameDevice_push _ _ _)
  · exact sameDevice_setCur _ _

theorem sameDevice_retire (s : State) (srcs : List SReg) : SameDevice s (s.retire srcs) :=
  (sameDevice_popIf s srcs).trans (sameDevice_done _)

theorem sameDevice_retireS (s : State) (srcs : List SReg) (d : SReg) (v : W64) : SameDevice s (s.retireS srcs d v) :=
  ((sameDevice_popIf s srcs).trans (sameDevice_putS _ _ _)).trans (sameDevice_done _)

theorem sameDevice_retireT (s : State) (srcs : List SReg) (f : Thread → Thread) : SameDevice s (s.retireT srcs f) :=
  ((sameDevice_popIf s srcs).trans (sameDevice_setCur _ _)).trans (sameDevice_done _)

theorem sameDevice_commit (s : State) (srcs : List SReg) (dests : List Reg) (vals : List (Reg × V512)) (due : Due)
    (err : Option Err) (lod mem : Bool) (snaps : List Snap) :
    SameDevice s (s.commit srcs dests vals due err lod mem snaps) :=
  ((sameDevice_popIf s srcs).trans (sameDevice_setCur _ _)).trans (sameDevice_done _)

/-! ### The threads -/

section
variable {s : State}

theorem State.thread_setThread (t : Nat) (x : Thread) (n : Nat) :
    (s.setThread t x).thread n = if n = t then x else s.thread n := tget_tput _ _ _ _ _

@[simp] theorem State.setCur_iss (x : Thread) : (s.setCur x).iss = s.iss := rfl
@[simp] theorem State.cur_setCur (x : Thread) : (s.setCur x).cur = x := State.thread_setThread_same _ _ _

@[simp] theorem State.popIf_iss (srcs : List SReg) : (s.popIf srcs).iss = s.iss := by unfold State.popIf; split <;> rfl
@[simp] theorem State.popIf_thr (srcs : List SReg) : (s.popIf srcs).thr = s.thr := by unfold State.popIf; split <;> rfl
@[simp] theorem State.popIf_thread (srcs : List SReg) (n : Nat) : (s.popIf srcs).thread n = s.thread n := by
  simp [State.thread]
@[simp] theorem State.popIf_cur (srcs : List SReg) : (s.popIf srcs).cur = s.cur := by simp [State.cur]

@[simp] theorem State.ackAll_iss (t : Nat) : (s.ackAll t).iss = s.iss := (sameDevice_ackAll s t).iss
@[simp] theorem State.ackAll_thr (t : Nat) : (s.ackAll t).thr = s.thr := by
  simp only [State.ackAll]; split <;> rfl
@[simp] theorem State.ackAll_thread (t n : Nat) : (s.ackAll t).thread n = s.thread n := by simp [State.thread]
@[simp] theorem State.ackAll_cur (t : Nat) : (s.ackAll t).cur = s.cur := by simp [State.cur]

@[simp] theorem State.putS_iss (d : SReg) (v : W64) : (s.putS d v).iss = s.iss := (sameDevice_putS s d v).iss
theorem State.putS_cur (d : SReg) (v : W64) : (s.putS d v).cur = if d = 31#5 then s.cur else s.cur.writeS d v := by
  unfold State.putS
  split
  · exact s.ackAll_cur _
  · exact State.cur_setCur _
theorem State.putS_thread_other (d : SReg) (v : W64) {n : Nat} (h : n ≠ s.iss.thr) : (s.putS d v).thread n = s.thread n := by
  unfold State.putS
  split
  · exact s.ackAll_thread _ _
  · exact (State.thread_setThread _ _ _).trans (if_neg h)

/-- A thread in no gang that completes goes on at the next bundle, the others as they were. -/
theorem State.done_cur_alone (h : s.cur.gang = none) : s.done.cur = { s.cur with pc := s.iss.b.next, past := s.iss.b.nextOver } := by
  rw [State.done_alone h, State.cur_setCur]

theorem State.done_thread_other (h : s.cur.gang = none) {n : Nat} (hn : n ≠ s.iss.thr) : s.done.thread n = s.thread n := by
  rw [State.done_alone h]
  exact (State.thread_setThread _ _ _).trans (if_neg hn)

theorem Thread.alone_pc (m num k : Nat) (th : Thread) : (th.alone m num k).pc = th.pc := by
  unfold Thread.alone
  have h : ∀ (l : List Pend) (x : Thread) (f : Thread → Pend → Thread), (∀ y p, (f y p).pc = y.pc) → (l.foldl f x).pc = x.pc := by
    intro l
    induction l with
    | nil => exact fun _ _ _ => rfl
    | cons p r ih => exact fun x f hf => (ih _ f hf).trans (hf x p)
  refine h _ _ _ fun y p => ?_
  split
  · split <;> rfl
  · rfl

/-- A gang that dissolves leaves every pc. -/
theorem State.dissolveAt_pc (ms : List Nat) (num k n : Nat) : ((s.dissolveAt ms num k).thread n).pc = (s.thread n).pc := by
  unfold State.dissolveAt
  induction ms generalizing s with
  | nil => rfl
  | cons m r ih =>
    rw [List.foldl_cons, ih, State.thread_setThread]
    split
    · next h =>
      subst h
      rw [Thread.alone_pc]
      repeat' split
      all_goals rfl
    · rfl

theorem State.cur_moveTo_pc (next : W64) (past way : Bool) : (s.moveTo next past way).cur.pc = next := by
  have hiss := (sameDevice_moveTo s next past way).iss
  rw [State.cur, hiss]
  simp only [State.moveTo]
  split
  · simp
  split
  · split
    · rw [State.dissolveAt_pc]; simp
    · simp
  · split
    · split
      · simp
      · rw [State.dissolveAt_pc]; simp
    · simp

theorem State.cur_done_pc : s.done.cur.pc = s.iss.b.next := State.cur_moveTo_pc _ _ _

end

/-- Settles O53: each way to complete keeps the device, and a thread in no gang goes on alone. -/
theorem completingFrame : Obligations.CompletingFrame := by
  unfold Obligations.CompletingFrame
  intro s srcs d v ds vals due err
  refine ⟨fun h => ?retire, fun h => ?retireS, fun h => ?commit,
    fun h0 => Thread.readS_writeS_same _ _ v (fun h => h0 (by rw [h]; rfl)),
    fun _ => Thread.readS_writeS_other _ _ _ v, rfl, ?device⟩
  case retire =>
    rw [State.retire, State.done_cur_alone (by simpa using h)]
    simp
  case retireS =>
    have hcur : ((s.popIf srcs).putS d v).cur = if d = 31#5 then s.cur else s.cur.writeS d v := by
      simp [State.putS_cur]
    have hg : ((s.popIf srcs).putS d v).cur.gang = none := by rw [hcur]; split <;> simpa using h
    rw [State.retireS, State.done_cur_alone hg, hcur]
    simp
  case commit =>
    simp only [State.commit]
    rw [State.done_cur_alone (by simpa using h)]
    simp
  case device =>
    have key : ∀ u, SameDevice s u → u.cur.gang = s.cur.gang → (∀ n, n ≠ s.iss.thr → u.thread n = s.thread n) →
        SameDevice s u.done ∧ SameMemory s u.done ∧ u.done.cur.pc = s.iss.b.next ∧
          ∀ n, n ≠ s.iss.thr → s.cur.gang = none → u.done.thread n = s.thread n := by
      intro u hu hg hn
      have hdone := hu.trans (sameDevice_done u)
      refine ⟨hdone, hdone.sameMemory, by rw [State.cur_done_pc, hu.iss], fun n h1 h2 => ?_⟩
      rw [State.done_thread_other (hg.trans h2) (by rwa [hu.iss]), hn n h1]
    rintro t (rfl | rfl | rfl)
    · exact key _ (sameDevice_popIf _ _) (by simp) (by simp)
    · refine key _ ((sameDevice_popIf _ _).trans (sameDevice_putS _ _ _)) ?_ fun n hn => ?_
      · rw [State.putS_cur]; split <;> simp
      · rw [State.putS_thread_other _ _ (by simpa using hn)]; simp
    · refine key _ ((sameDevice_popIf _ _).trans (sameDevice_setCur _ _)) (by simp) fun n hn => ?_
      exact (State.thread_setThread _ _ _).trans ((if_neg (by simpa using hn)).trans (State.popIf_thread _ _))

/-! ### A gang that splits -/

/-- Two members of a gang of 2, as R63 forms it: thread 0 leads and waits in a GADD, thread 8 is to execute its first bundle, which
for the leader went on at address 0. -/
def splitGang : State :=
  { State.reset with
    thr := [(0, { st := .runnable
                  gang := some { size := 2, index := 0, done := 2, led := 2 }
                  pend := [{ b := { pc := 0, words := [0x058A], la := 0 }, win := 0, dests := [.s 1]
                             due := .gang .add 0 0 [8] 0 1 }] }),
            (8, { st := .runnable
                  gang := some { size := 2, index := 1
                                 ahead := [{ b := { pc := 0x20000, words := [0x058A], la := 0 }, n := 0, next := some 0 }] } })]
    moment := 1
    iss := { thr := 8, b := { pc := 0x20000, words := [0x058A], la := 0 } } }

/-- Refutes O54: where the follower of a gang completes an ADD with another outcome than its leader's, the gang dissolves, and
the leader, outstanding in a reduction that ends so, has FFLAGS depend on the loads of that moment: its dependences change,
which "every other thread (but for its gang's own course)" leaves out. -/
theorem not_registerFrame : ¬ Obligations.RegisterFrame := by
  unfold Obligations.RegisterFrame
  intro h
  obtain ⟨t, ht, -, -, -, hst, -⟩ := h splitGang 3 1 2 0 0 0 0 0 0 0 0 0 0 (.add 3 1 2) [1, 2] (some 3) (.s 3)
    (by simp) (.plain (by decide))
  have hd := congrArg Thread.deps (hst.others 0 (by decide))
  cases ht
  exact absurd hd (by decide +kernel)

/-- Refutes O55: by the same split of a gang, at a jump. -/
theorem not_branchAndStoreFrame : ¬ Obligations.BranchAndStoreFrame := by
  unfold Obligations.BranchAndStoreFrame
  intro h
  obtain ⟨h, -⟩ := h splitGang splitGang 1 1 0 0 0 0 8 0 0 0
  obtain ⟨-, h, -⟩ := h (by decide +kernel) (by decide +kernel)
  obtain ⟨t, ht, -, -, -, hst⟩ := h (.j 8) (by simp)
  have hd := congrArg Thread.deps (hst.others 0 (by decide))
  cases ht
  exact absurd hd (by decide +kernel)

end Sys2Proof.Machine

/-! SUPPORT. Traps of operands, jumps and divides (04_scalar R67, R69, R76 to R79, 08_barrier R168), and one step of a page walk
(12_page R221 to R227). -/

namespace Sys2Proof.Machine

open Sys2Proof

/-! ### Operands that are not ready (R67, R168) -/

section
variable {s : State} {srcs : List SReg} {d : SReg} {k : (SReg → W64) → State}

theorem withOps_source_s31 (h : 31#5 ∈ srcs) (dst : Option SReg) :
    s.withOps srcs dst k = s.trap (queueErr 31 0) := by
  simp [State.withOps, State.operands, h]

theorem withOps_target_s30 (h : 31#5 ∉ srcs) : s.withOps srcs (some 30#5) k = s.trap (queueErr 30 0) := by
  simp [State.withOps, State.operands, h]

theorem withOps_pop_unlinked (h : 31#5 ∉ srcs) (hd : d ≠ 30#5) (hp : 30#5 ∈ srcs) (hu : s.upLink s.iss.thr = none) :
    s.withOps srcs (some d) k = s.trap (queueErr 30 3) := by
  simp [State.withOps, State.operands, h, hd, hp, hu]

theorem withOps_push_unlinked (h : 31#5 ∉ srcs) (hu : 30#5 ∈ srcs → s.upLink s.iss.thr ≠ none)
    (hk : s.downLink s.iss.thr = none) : s.withOps srcs (some 31#5) k = s.trap (queueErr 31 1) := by
  by_cases hp : 30#5 ∈ srcs
  · obtain ⟨l, hl⟩ := Option.ne_none_iff_exists'.1 (hu hp)
    simp [State.withOps, State.operands, h, hp, hl, hk]
  · simp [State.withOps, State.operands, h, hp, hk]

theorem withOps_pop_empty {l : Link} (h : 31#5 ∉ srcs) (hd : d ≠ 30#5) (hk : d = 31#5 → s.downLink s.iss.thr ≠ none)
    (hp : 30#5 ∈ srcs) (hu : s.upLink s.iss.thr = some l) (hv : l.vals = []) :
    s.withOps srcs (some d) k = s.block .pop := by
  have hk' : ¬(d = 31#5 ∧ s.downLink s.iss.thr = none) := fun ⟨h1, h2⟩ => hk h1 h2
  simp [State.withOps, State.operands, h, hd, hp, hu, hv, hk']

theorem withOps_push_full {l : Link} (h : 31#5 ∉ srcs) (hp : 30#5 ∈ srcs → s.CanPop)
    (hk : s.downLink s.iss.thr = some l) (hl : 16 ≤ l.vals.length) :
    s.withOps srcs (some 31#5) k = s.block .push := by
  by_cases h30 : 30#5 ∈ srcs
  · obtain ⟨u, hu, hv⟩ := hp h30
    simp [State.withOps, State.operands, h, h30, hu, hv, hk, hl]
  · simp [State.withOps, State.operands, h, h30, hk, hl]

/-! ### Jumps outside the code range (R76, R78) -/

theorem toNat_append_add {n m : Nat} (x : BitVec n) (y : BitVec m) : (x ++ y).toNat = x.toNat * 2 ^ m + y.toNat := by
  rw [BitVec.toNat_append, ← Nat.shiftLeft_add_eq_or_of_lt y.isLt, Nat.shiftLeft_eq]

/-- An ADDR error as R240 lays it out: the address in TVAL and TWORDH [63:56], the reason in TWORDH [55:48]. -/
theorem addrErr_eq (v : VAddr) {r : Nat} (hr : r < 256) :
    addrErr v.toNat r = { cause := 5, tval := v.setWidth 64, high := v.extractLsb' 64 8 ++ BitVec.ofNat 8 r ++ 0#48 } := by
  have hh : BitVec.ofNat 64 (r * 2 ^ 48 + v.toNat / 2 ^ 64 % 256 * 2 ^ 56) =
      v.extractLsb' 64 8 ++ BitVec.ofNat 8 r ++ 0#48 := by
    apply BitVec.eq_of_toNat_eq
    have hv := v.isLt
    simp only [toNat_append_add, BitVec.toNat_ofNat, BitVec.extractLsb'_toNat, Nat.shiftRight_eq_div_pow]
    omega
  rw [addrErr, hh]
  rfl

theorem State.jumpTo_far (srcs : List SReg) {z : Int} (h : z < 0 ∨ 2 ^ 64 ≤ z) :
    s.jumpTo srcs z = s.trap (addrErr (BitVec.ofInt 72 z).toNat 4) :=
  if_neg (by omega)

theorem next_branchS_far {a : SReg} {i : Imm} {p : W64 → Bool} (h : s.Ready [a] none)
    (ht : branchTarget s.iss.b.pc i < 0 ∨ 2 ^ 64 ≤ branchTarget s.iss.b.pc i) (hp : p (s.src a) = true) :
    (.next (branchS a i p s) : Out) = .next (s.trap (addrErr (BitVec.ofInt 72 (branchTarget s.iss.b.pc i)).toNat 4)) :=
  next_withOps h (by rw [State.vals_singleton, if_pos hp, State.jumpTo_far _ ht])

theorem next_branchM_far {m : MReg} {i : Imm} {p : W64 → Bool}
    (ht : branchTarget s.iss.b.pc i < 0 ∨ 2 ^ 64 ≤ branchTarget s.iss.b.pc i) (hp : p (s.cur.readM m) = true) :
    (.next (branchM m i p s) : Out) = .next (s.trap (addrErr (BitVec.ofInt 72 (branchTarget s.iss.b.pc i)).toNat 4)) := by
  rw [branchM, if_pos hp, State.jumpTo_far _ ht]

end

/-! ### The statements -/

/-- Every instruction of the statement reads its sources, and goes on with their values. -/
theorem exec_withOps {s : State} {d a b : SReg} {im : Imm} {i : Instr} {srcs : List SReg}
    (h : (i, srcs) ∈
        ([Instr.add d a b, .addw d a b, .sub d a b, .subw d a b, .and d a b, .or d a b, .xor d a b, .andn d a b, .sll d a b,
          .srl d a b, .sra d a b, .ror d a b, .ceq d a b, .cne d a b, .clt d a b, .cltn d a b, .mul d a b, .mulw d a b,
          .mulh d a b, .mulhn d a b, .min d a b, .max d a b, .minn d a b, .maxn d a b].map fun i => (i, [a, b])) ++
        ([Instr.addi d a im, .andi d a im, .ori d a im, .xori d a im, .slli d a im, .srli d a im, .srai d a im,
          .clti d a im, .mov d a, .clz d a, .ctz d a, .popc d a].map fun i => (i, [a]))) :
    ∃ k, exec i s = .next (s.withOps srcs (some d) k) := by
  rcases List.mem_append.1 h with h1 | h1 <;> obtain ⟨_, hj, ⟨⟩⟩ := List.mem_map.1 h1
  all_goals
    clear h h1
    revert i
    simp only [List.forall_mem_cons, List.not_mem_nil, false_implies, implies_true, and_true]
    repeat' apply And.intro
    all_goals exact ⟨_, rfl⟩

/-- Settles O56: each way operands are not ready is a case of reading them, and a far target one of a jump. -/
theorem operandTraps : Obligations.OperandTraps := by
  unfold Obligations.OperandTraps
  refine ⟨fun s d a b im i srcs hi => ?_, fun s d a m i => ⟨fun odd => ⟨fun h => ?_, fun h => ?_⟩, fun far => ?_⟩⟩
  · obtain ⟨k, hk⟩ := exec_withOps (s := s) hi
    dsimp only
    simp only [hk]
    refine ⟨fun h => ?_, fun h => ⟨?_, fun hd hp hu => ?_, ?_, fun l hd hdn hp hu hv => ?_, ?_⟩⟩
    · rw [withOps_source_s31 h]; rfl
    · rintro rfl; rw [withOps_target_s30 h]; rfl
    · rw [withOps_pop_unlinked h hd hp hu]; rfl
    · rintro hu rfl hdn; rw [withOps_push_unlinked h hu hdn]; rfl
    · rw [withOps_pop_empty h hd hdn hp hu hv]
    · rintro l hp rfl hl hv; rw [withOps_push_full h hp hl hv]
  · exact next_withOps h (by simp only [State.vals_singleton, odd, if_true])
  · exact next_withOps h (by simp only [State.vals_singleton, odd, if_true])
  · have hfar : branchTarget s.iss.b.pc i < 0 ∨ 2 ^ 64 ≤ branchTarget s.iss.b.pc i := far
    rw [← addrErr_eq _ (by decide)]
    refine ⟨?_, ?_, fun h => next_branchM_far hfar (by simpa using h), fun h => next_branchM_far hfar (by simpa using h),
      fun hr => ⟨fun h => ?_, fun h => ?_, fun h => ?_, fun h => ?_, fun h => ?_, fun h => ?_⟩⟩
    · exact congrArg _ (State.jumpTo_far _ hfar)
    · exact congrArg _ ((if_neg (by omega)).trans (State.jumpTo_far _ hfar))
    · exact next_branchS_far hr hfar (beq_iff_eq.2 (BitVec.toInt_inj.1 h))
    · exact next_branchS_far hr hfar (bne_iff_ne.2 fun e => h (by rw [e]; rfl))
    · exact next_branchS_far hr hfar ((slt_zero_iff _).2 h)
    · exact next_branchS_far hr hfar ((not_slt_zero_iff _).2 h)
    · exact next_branchS_far hr hfar ((zero_slt_iff _).2 h)
    · exact next_branchS_far hr hfar ((not_zero_slt_iff _).2 h)

/-! ### Divides (R69, R79) -/

section
variable {s : State} {w : Bool} {d a b : SReg} {f : W64 → W64 → W64}

/-- With the divider free and a divisor other than 0 the result is known, and comes with its latency. -/
theorem next_divide {wait : Nat} {v : W64} (h : s.Ready [a, b] (some d) false) (hb : (s.core s.curCore).divBusy ≤ s.cycle)
    (hz : (if w then (s.src b).setWidth 32 == (0 : BitVec 32) else s.src b == 0) = false)
    (hw : (if w then 20 else 36) = wait) (hv : f (s.src a) (s.src b) = v) :
    (.next (divide w d a b f s) : Out) =
      .next ((s.setCore s.curCore { s.core s.curCore with divBusy := s.cycle + wait }).commit [a, b] [.s d]
        [(.s d, v.setWidth 512)] (.ready (s.cycle + wait))) := by
  subst hw hv
  rw [divide, if_neg (by omega), State.withOps_ready h]
  simp only [State.vals_of_mem (r := a) (srcs := [a, b]) (by simp), State.vals_of_mem (r := b) (srcs := [a, b]) (by simp), hz,
    Bool.false_eq_true, if_false]

theorem next_divide_zero (h : s.Ready [a, b] (some d) false) (hb : (s.core s.curCore).divBusy ≤ s.cycle)
    (hz : (if w then (s.src b).setWidth 32 == (0 : BitVec 32) else s.src b == 0) = true) :
    (.next (divide w d a b f s) : Out) = .next (s.trap { cause := 3, tval := s.src a }) := by
  rw [divide, if_neg (by omega), State.withOps_ready h]
  simp only [State.vals_of_mem (r := a) (srcs := [a, b]) (by simp), State.vals_of_mem (r := b) (srcs := [a, b]) (by simp), hz,
    if_true]

end

theorem sdiv_eq_ofInt {n : Nat} (x y : BitVec n) : x.sdiv y = BitVec.ofInt n (x.toInt.tdiv y.toInt) :=
  BitVec.eq_of_toInt_eq (by rw [BitVec.toInt_sdiv, BitVec.toInt_ofInt])

theorem srem_eq_ofInt {n : Nat} (x y : BitVec n) : x.srem y = BitVec.ofInt n (x.toInt.tmod y.toInt) := by
  rw [← BitVec.toInt_srem, BitVec.ofInt_toInt]

theorem udiv_eq_ofNat {n : Nat} (x y : BitVec n) : x.udiv y = BitVec.ofNat n (x.toNat / y.toNat) :=
  BitVec.eq_of_toNat_eq (by rw [BitVec.toNat_ofNat, ← BitVec.toNat_udiv, Nat.mod_eq_of_lt (BitVec.isLt _)]; rfl)

theorem umod_eq_ofNat {n : Nat} (x y : BitVec n) : x.umod y = BitVec.ofNat n (x.toNat % y.toNat) :=
  BitVec.eq_of_toNat_eq (by rw [BitVec.toNat_ofNat, ← BitVec.toNat_umod, Nat.mod_eq_of_lt (BitVec.isLt _)]; rfl)

/-- Settles O5: one lemma of the divider, with each result as R79 gives it. -/
theorem divides : Obligations.Divides := by
  unfold Obligations.Divides
  refine ⟨fun s d a b h hb => ⟨fun hy => ?_, fun hy => ?_⟩, fun s d a b h hb => ⟨fun hy => ?_, fun hy => ?_⟩⟩
  · have hz : (s.src b == 0) = false := beq_eq_false_iff_ne.2 hy
    exact ⟨next_divide (w := false) h hb hz rfl (sdiv_eq_ofInt _ _), next_divide (w := false) h hb hz rfl (srem_eq_ofInt _ _),
      next_divide (w := false) h hb hz rfl (udiv_eq_ofNat _ _), next_divide (w := false) h hb hz rfl (umod_eq_ofNat _ _)⟩
  · have hz : ((s.src b).setWidth 32 == (0 : BitVec 32)) = false := beq_eq_false_iff_ne.2 hy
    exact ⟨next_divide (w := true) h hb hz rfl (congrArg (BitVec.signExtend 64) (sdiv_eq_ofInt _ _)),
      next_divide (w := true) h hb hz rfl (congrArg (BitVec.signExtend 64) (srem_eq_ofInt _ _)),
      next_divide (w := true) h hb hz rfl (congrArg (BitVec.signExtend 64) (udiv_eq_ofNat _ _)),
      next_divide (w := true) h hb hz rfl (congrArg (BitVec.signExtend 64) (umod_eq_ofNat _ _))⟩
  · have hz : (s.src b == 0) = true := beq_iff_eq.2 hy
    simp only [List.forall_mem_cons]
    exact ⟨next_divide_zero (w := false) h hb hz, next_divide_zero (w := false) h hb hz, next_divide_zero (w := false) h hb hz,
      next_divide_zero (w := false) h hb hz, by simp⟩
  · have hz : ((s.src b).setWidth 32 == (0 : BitVec 32)) = true := beq_iff_eq.2 hy
    simp only [List.forall_mem_cons]
    exact ⟨next_divide_zero (w := true) h hb hz, next_divide_zero (w := true) h hb hz, next_divide_zero (w := true) h hb hz,
      next_divide_zero (w := true) h hb hz, by simp⟩

/-! ### One step of a page walk (12_page R224 to R227) -/

section
variable {s : State} {n : Nat} {e : W64}

/-- PPN lies below 2^28 where its upper bits are 0. -/
theorem ppn_high (x : Nat) : bits x 61 50 = 0 ↔ bits x 61 22 < 2 ^ 28 := by
  simp only [bits]
  norm_num
  omega

theorem classify_table (hn : 1 ≤ n) (hv : e.getLsbD 0 = true) (hr : e.getLsbD 1 = false) (hw : e.getLsbD 2 = false)
    (hx : e.getLsbD 3 = false) (h94 : bits e.toNat 9 4 = 0) (hnode : bits e.toNat 21 10 = s.dev.node)
    (h8 : bits e.toNat 61 22 % 8 = 0) (hlt : bits e.toNat 61 22 < 2 ^ 28)
    (hm : bits e.toNat 61 22 * 4096 + 32768 ≤ Config.memBytes) :
    s.classify n e = .table (bits e.toNat 61 22 * 4096) := by
  have hp := (ppn_high _).2 hlt
  simp only [State.classify, hv, hr, hw, hx, h94, hnode, h8, hp, hn, hm, Bool.not_true, Bool.or_false, Bool.not_false, Bool.and_true,
    Bool.false_eq_true, if_false, if_true, and_self]

theorem classify_invalid (hv : e.getLsbD 0 = false) (hr : e.getLsbD 1 = false) (hw : e.getLsbD 2 = false)
    (hx : e.getLsbD 3 = false) : s.classify n e = .invalid := by
  simp only [State.classify, hv, hr, hw, hx, Bool.or_false, Bool.not_false, Bool.and_true, if_true]

/-- An entry with R, W or X is malformed by the conditions of R225, or a leaf of its class. -/
theorem classify_leaf (h : e.getLsbD 1 = true ∨ e.getLsbD 2 = true ∨ e.getLsbD 3 = true) :
    s.classify n e = if 2 < n then .malformed
      else if (e.getLsbD 2 && !e.getLsbD 1) ∨ (e.getLsbD 6 && (e.getLsbD 2 || !e.getLsbD 1)) ∨ bits e.toNat 9 8 = 3 ∨
        bits e.toNat 61 50 ≠ 0 ∨ bits e.toNat 61 22 % ppnAlign n ≠ 0 ∨
        (bits e.toNat 21 10 = s.dev.node ∧ Config.memBytes < bits e.toNat 61 22 * 4096 + 4096 * ppnAlign n) then .malformed
      else if !e.getLsbD 0 then .absent else if e.getLsbD 7 then .compressed else if e.getLsbD 6 then .cow else .present := by
  have hany : (e.getLsbD 1 || e.getLsbD 2 || e.getLsbD 3) = true := by
    rcases h with h | h | h <;> simp [h]
  simp only [State.classify, hany, Bool.not_true, Bool.and_false, Bool.false_eq_true, if_false]

/-- Such an entry that keeps the rules of R225 is a leaf of the class its bits name. -/
theorem classify_wellFormed (hany : e.getLsbD 1 = true ∨ e.getLsbD 2 = true ∨ e.getLsbD 3 = true) (hn : n ≤ 2)
    (hwr : e.getLsbD 2 = true → e.getLsbD 1 = true)
    (hcow : e.getLsbD 6 = true → e.getLsbD 2 = false ∧ e.getLsbD 1 = true) (h98 : bits e.toNat 9 8 ≠ 3)
    (hlt : bits e.toNat 61 22 < 2 ^ 28) (hal : bits e.toNat 61 22 % 2 ^ (12 * n) = 0)
    (hm : bits e.toNat 21 10 = s.dev.node → bits e.toNat 61 22 * 4096 + 2 ^ (12 * n + 12) ≤ Config.memBytes) :
    s.classify n e = if e.getLsbD 0 = false then .absent else if e.getLsbD 7 then .compressed
      else if e.getLsbD 6 then .cow else .present := by
  have hp50 := (ppn_high _).2 hlt
  have hpow : 2 ^ (12 * n + 12) = 4096 * ppnAlign n := (pow_add 2 _ 12).trans (Nat.mul_comm _ _)
  rw [classify_leaf hany, if_neg (by omega), if_neg]
  · simp only [Bool.not_eq_true']
  · rintro (h | h | h | h | h | ⟨h1, h2⟩)
    · simp only [Bool.and_eq_true, Bool.not_eq_true'] at h
      simp only [hwr h.1, Bool.true_eq_false, and_false] at h
    · simp only [Bool.and_eq_true, Bool.or_eq_true, Bool.not_eq_true'] at h
      simp only [hcow h.1, Bool.false_eq_true, Bool.true_eq_false, or_self, and_false] at h
    · exact h98 h
    · exact h hp50
    · exact h hal
    · have := hm h1
      omega

/-- One that breaks a rule of R225 is malformed. -/
theorem classify_malformed (hany : e.getLsbD 1 = true ∨ e.getLsbD 2 = true ∨ e.getLsbD 3 = true)
    (hbad : (e.getLsbD 2 = true ∧ e.getLsbD 1 = false) ∨ (e.getLsbD 6 = true ∧ (e.getLsbD 2 = true ∨ e.getLsbD 1 = false)) ∨
      bits e.toNat 9 8 = 3 ∨ 2 ^ 28 ≤ bits e.toNat 61 22) : s.classify n e = .malformed := by
  rw [classify_leaf hany]
  split
  · rfl
  · refine if_pos ?_
    rcases hbad with h | h | h | h
    · exact .inl (by simp only [h, Bool.not_false, Bool.and_self])
    · exact .inr (.inl (by simpa only [Bool.and_eq_true, Bool.or_eq_true, Bool.not_eq_true'] using h))
    · exact .inr (.inr (.inl h))
    · exact .inr (.inr (.inr (.inl fun h0 => absurd ((ppn_high _).1 h0) (by omega))))

theorem walkFrom_leaf {va table : Nat} {cls : Pte}
    (hp : s.memPoisoned (table + 8 * (va / 2 ^ (12 * n + 12) % 4096)) 8 = false)
    (hc : s.classify n (BitVec.ofNat 64 (s.memRead (table + 8 * (va / 2 ^ (12 * n + 12) % 4096)) 8)) = cls)
    (h : cls ∈ [Pte.absent, .compressed, .cow, .present]) :
    s.walkFrom va (n + 1) table = .leaf cls (BitVec.ofNat 64 (s.memRead (table + 8 * (va / 2 ^ (12 * n + 12) % 4096)) 8)) n
      (table + 8 * (va / 2 ^ (12 * n + 12) % 4096)) := by
  simp only [State.walkFrom, hp, Bool.false_eq_true, if_false, hc]
  cases cls <;> simp at h ⊢

end

/-- What a well-formed leaf's bits are of is one of the four classes. -/
theorem leafClass_mem (v x c : Bool) :
    (if v = false then Pte.absent else if x then .compressed else if c then .cow else .present) ∈
      [Pte.absent, .compressed, .cow, .present] := by
  cases v <;> cases x <;> cases c <;> decide

/-- Settles O58: each clause is a case of `classify`, and what a leaf gives one of `leafOutcome`. -/
theorem walkOutcomes : Obligations.WalkOutcomes := by
  unfold Obligations.WalkOutcomes
  refine ⟨fun s va n table => ⟨fun hp => ?_, fun hp => ⟨?_, ?_, fun hany => ⟨fun hn => ?_, ?_, fun hbad => ?_⟩⟩⟩, ?_⟩
  · simp only [State.walkFrom, hp, if_true]
  · intro hv hr hw hx h94 hnode h8 hlt hn hm
    simp only [State.walkFrom, hp, Bool.false_eq_true, if_false, classify_table hn hv hr hw hx h94 hnode h8 hlt hm]
  · intro hv hr hw hx
    simp only [State.walkFrom, hp, Bool.false_eq_true, if_false, classify_invalid hv hr hw hx]
  · simp only [State.walkFrom, hp, Bool.false_eq_true, if_false, classify_leaf hany, hn, if_true]
  · intro hn hwr hcow h98 hlt hal hm
    exact walkFrom_leaf hp (classify_wellFormed hany hn hwr hcow h98 hlt hal hm) (leafClass_mem _ _ _)
  · simp only [State.walkFrom, hp, Bool.false_eq_true, if_false, classify_malformed hany hbad]
  · intro k cls e lvl va hcls
    simp only [List.mem_cons, List.not_mem_nil, or_false] at hcls
    rcases hcls with rfl | rfl | rfl | rfl <;> cases k <;>
      simp only [leafOutcome, permitted, pageBits, Bool.not_eq_true', reduceCtorEq, or_false, or_true, and_false, and_true,
        or_self, if_false, if_true]

end Sys2Proof.Machine

/-! SUPPORT. Accesses whose translation fails (12_page R227, R233 to R240, 03_thread R62): ADDR with its reason, or a thread that
is DROPPED and a record in its ring. -/

namespace Sys2Proof.Machine

open Sys2Proof

/-! ### Numbers in memory -/

section
variable {s : State}

theorem State.memRead_memPut_other (a k x : Nat) {p n : Nat} (h : p + n ≤ a ∨ a + k ≤ p) :
    (s.memPut a k x).memRead p n = s.memRead p n := by
  have hb : ∀ i ∈ List.range n, tget 0 (s.memPut a k x).mem (p + i) = tget 0 s.mem (p + i) := by
    intro i hi
    have hi := List.mem_range.1 hi
    exact putBytes_outside _ _ _ _ (by rw [length_toBytes]; omega)
  simp only [State.memRead, State.memGet, List.map_congr_left hb]

theorem getD_toBytes (k : Nat) : ∀ x i, i < k → ((toBytes k x).getD i 0).toNat = x / 256 ^ i % 256 := by
  induction k with
  | zero => exact fun x i h => absurd h (by omega)
  | succ k ih =>
    intro x i h
    cases i with
    | zero => simp [toBytes]
    | succ i =>
      rw [toBytes, List.getD_cons_succ, ih _ _ (by omega), Nat.div_div_eq_div_mul, pow_succ, Nat.mul_comm]

/-- What little-endian bytes hold, byte by byte. -/
theorem ofBytes_eq_of_getD {l : List (BitVec 8)} : ∀ {y : Nat}, (∀ i < l.length, (l.getD i 0).toNat = y / 256 ^ i % 256) →
    ofBytes l = y % 256 ^ l.length := by
  induction l with
  | nil => intro y _; simp [ofBytes, Nat.mod_one]
  | cons b r ih =>
    intro y h
    have h0 := h 0 (by simp)
    have hr : ofBytes r = y / 256 % 256 ^ r.length := ih fun i hi => by
      have := h (i + 1) (by simpa using hi)
      rwa [List.getD_cons_succ, pow_succ, Nat.mul_comm, ← Nat.div_div_eq_div_mul] at this
    simp only [List.getD_cons_zero, pow_zero, Nat.div_one] at h0
    rw [ofBytes, h0, hr, List.length_cons, pow_succ, Nat.mul_comm (256 ^ _), Nat.mod_mul]

/-- A part of a number written. -/
theorem State.memRead_memPut_part (a k x : Nat) {j n : Nat} (h : j + n ≤ k) :
    (s.memPut a k x).memRead (a + j) n = x / 256 ^ j % 256 ^ n := by
  have hl : ((s.memPut a k x).memGet (a + j) n).length = n := by simp [State.memGet]
  have := ofBytes_eq_of_getD (l := (s.memPut a k x).memGet (a + j) n) (y := x / 256 ^ j) fun i hi => by
    rw [hl] at hi
    have hb : tget 0 (s.memPut a k x).mem (a + (j + i)) = (toBytes k x).getD (j + i) 0 :=
      putBytes_inside _ _ _ _ (by rw [length_toBytes]; omega)
    simp only [State.memGet, List.getD_eq_getElem?_getD, List.getElem?_map, List.getElem?_range hi, Option.map_some,
      Option.getD_some, Nat.add_assoc, hb]
    rw [← List.getD_eq_getElem?_getD, getD_toBytes _ _ _ (by omega), Nat.div_div_eq_div_mul, pow_add]
  rw [State.memRead, this, hl]

theorem getD_ofBytes (l : List (BitVec 8)) : ∀ i, (l.getD i 0).toNat = ofBytes l / 256 ^ i % 256 := by
  induction l with
  | nil => intro i; simp [ofBytes]
  | cons b r ih =>
    intro i
    have hb := b.isLt
    cases i with
    | zero => simp only [List.getD_cons_zero, ofBytes, pow_zero]; omega
    | succ i =>
      rw [List.getD_cons_succ, ih, ofBytes, pow_succ, Nat.mul_comm (256 ^ i) 256, ← Nat.div_div_eq_div_mul]
      congr 2
      omega

/-- A part of a number in memory. -/
theorem State.memRead_part (a k : Nat) {j n : Nat} (h : j + n ≤ k) :
    s.memRead (a + j) n = s.memRead a k / 256 ^ j % 256 ^ n := by
  have hl : (s.memGet (a + j) n).length = n := by simp [State.memGet]
  have := ofBytes_eq_of_getD (l := s.memGet (a + j) n) (y := s.memRead a k / 256 ^ j) fun i hi => by
    rw [hl] at hi
    rw [Nat.div_div_eq_div_mul, ← pow_add, State.memRead, ← getD_ofBytes]
    simp only [State.memGet, List.getD_eq_getElem?_getD, List.getElem?_map, List.getElem?_range hi,
      List.getElem?_range (show j + i < k by omega), Option.map_some, Option.getD_some, Nat.add_assoc]
  rw [State.memRead, this, hl]

/-! ### The turn and the threads, as what the device does leaves them -/

/-- The threads and the bundle being issued are as before. -/
structure SameTurn (s t : State) : Prop where
  thr : t.thr = s.thr
  iss : t.iss = s.iss

theorem SameTurn.refl (s : State) : SameTurn s s := ⟨rfl, rfl⟩
theorem SameTurn.trans {s t u : State} (h : SameTurn s t) (k : SameTurn t u) : SameTurn s u :=
  ⟨k.thr.trans h.thr, k.iss.trans h.iss⟩

theorem SameTurn.cur {s t : State} (h : SameTurn s t) : t.cur = s.cur := by
  simp only [State.cur, State.thread, h.thr, h.iss]

theorem sameTurn_memWrite (w : Option Nat) (a : Nat) (bs : List (BitVec 8)) : SameTurn s (s.memWrite w a bs) := ⟨rfl, rfl⟩
theorem sameTurn_memPut (a n x : Nat) : SameTurn s (s.memPut a n x) := ⟨rfl, rfl⟩

theorem sameTurn_foldl {α : Type} {f : State → α → State} (hf : ∀ s a, SameTurn s (f s a)) (l : List α) :
    ∀ s, SameTurn s (l.foldl f s) := by
  induction l with
  | nil => exact .refl
  | cons a r ih => exact fun s => (hf s a).trans (ih _)

theorem sameTurn_arrayError (core array : Nat) (row : BitVec 32) (y : BitVec 8) (ctx : Nat) (c d : Bool) :
    SameTurn s (s.arrayError core array row y ctx c d) := by
  unfold State.arrayError
  repeat' split
  all_goals exact ⟨rfl, rfl⟩

theorem sameTurn_arrayTouch (core array : Nat) (p : Nat → Bool) (ctx : Nat) :
    SameTurn s (s.arrayTouch core array p ctx) :=
  sameTurn_foldl (fun s f => by
    have h := sameTurn_arrayError (s := s.takeFree.2) core array (Config.rowOf array f.key) (s.takeFree.1.setWidth 8) ctx
      (decide (f.kind = 1)) (decide (f.kind ≠ 3))
    exact ⟨h.thr, h.iss⟩) _ _

theorem sameTurn_savedWrite (key core o : Nat) (bs : List (BitVec 8)) : SameTurn s (s.savedWrite key core o bs) := by
  unfold State.savedWrite
  split <;> exact ⟨rfl, rfl⟩

theorem sameTurn_savedModify (key core o : Nat) (bs : List (BitVec 8)) : SameTurn s (s.savedModify key core o bs) := by
  have h := sameTurn_savedWrite (s := s) key core o bs
  unfold State.savedModify
  dsimp only
  split
  · exact ⟨h.thr, h.iss⟩
  · exact h

theorem sameTurn_credit (ctx core o : Nat) (n : BitVec 32) (grp : Option (Nat × Nat)) :
    SameTurn s (s.credit ctx core o n grp).1 := by
  unfold State.credit
  split
  · exact (sameTurn_arrayTouch _ _ _ _).trans ⟨rfl, rfl⟩
  · split
    · exact sameTurn_savedModify _ _ _ _
    · exact .refl _
  · exact .refl _

theorem sameTurn_ringPut {base size rcd : Nat} {t : State} (h : s.ringPut base size rcd = some t) : SameTurn s t := by
  simp only [State.ringPut] at h
  split at h
  · cases h; exact ⟨rfl, rfl⟩
  · cases h

theorem sameTurn_ringCredit (ctx base : Nat) : SameTurn s (s.ringCredit ctx base) := by
  simp only [State.ringCredit]
  split
  · exact sameTurn_credit _ _ _ _ _
  · exact .refl _

theorem sameTurn_faultWrite {r : FaultRec} {t : State} (h : s.faultWrite r = some t) : SameTurn s t := by
  unfold State.faultWrite at h
  split at h
  · cases h; exact .refl _
  · obtain ⟨u, hu, rfl⟩ := Option.map_eq_some_iff.1 h
    exact (sameTurn_ringPut hu).trans (sameTurn_ringCredit _ _)

theorem sameTurn_faultEmit (clu : Nat) (r : FaultRec) : SameTurn s (s.faultEmit clu r) := by
  unfold State.faultEmit
  dsimp only
  split
  · split
    · next h => exact sameTurn_faultWrite h
    · split <;> exact ⟨rfl, rfl⟩
  · split <;> exact ⟨rfl, rfl⟩

/-! ### A thread that leaves its gang (R65) -/

theorem sameDevice_leave (t : Nat) (shared : Bool) : SameDevice s (s.leave t shared) := by
  simp only [State.leave]
  split
  · exact .refl _
  · split
    · exact ((sameDevice_lead _ _ _ _).trans (sameDevice_setThread _ _ _)).trans (sameDevice_dissolveAt _ _ _ _)
    · exact (sameDevice_setThread _ _ _).trans (sameDevice_dissolveAt _ _ _ _)

theorem State.lead_pc (t : Nat) (next : Option W64) (way : Bool) (n : Nat) :
    ((s.lead t next way).thread n).pc = (s.thread n).pc := by
  have hset : ∀ (u : State) (m : Nat) (x : Thread), x.pc = (u.thread m).pc → ((u.setThread m x).thread n).pc = (u.thread n).pc := by
    intro u m x hx
    rw [State.thread_setThread]
    split
    · next h => rw [hx, h]
    · rfl
  have hfold : ∀ (f : State → Nat → State) (l : List Nat), (∀ u m, ((f u m).thread n).pc = (u.thread n).pc) →
      ∀ u, ((l.foldl f u).thread n).pc = (u.thread n).pc := by
    intro f l hf
    induction l with
    | nil => exact fun _ => rfl
    | cons a r ih => exact fun u => (ih _).trans (hf _ _)
  simp only [State.lead]
  split
  · rfl
  split
  · rfl
  refine (hfold _ _ (fun u m => ?_) _).trans (hset _ _ _ rfl)
  split
  · split
    · exact hset _ _ _ rfl
    · rfl
  · rfl

theorem State.leave_pc (t : Nat) (shared : Bool) (n : Nat) : ((s.leave t shared).thread n).pc = (s.thread n).pc := by
  simp only [State.leave]
  split
  · rfl
  · rw [State.dissolveAt_pc, State.thread_setThread]
    split
    · next h =>
      subst h
      split
      · exact State.lead_pc _ _ _ _
      · rfl
    · split
      · exact State.lead_pc _ _ _ _
      · rfl

/-! ### Soft faults -/

theorem State.softFault_slot7 {cause kind va : Nat} (h : slotOf s.iss.thr = 7) :
    s.softFault cause kind va = s.trap (handlerErr 3 (BitVec.ofNat 64 va)) := by
  simp only [State.softFault, if_pos h]

theorem State.softFault_unringed {cause kind va : Nat} (h : slotOf s.iss.thr ≠ 7) (hr : s.faultRing s.cur.ctx = none) :
    s.softFault cause kind va = s.trap (addrErr va 5) := by
  simp only [State.softFault, if_neg h, hr]

/-- The thread of the bundle has left its gang, and is DROPPED. -/
def State.dropCur (s : State) : State :=
  (s.leave s.iss.thr true).setThread s.iss.thr { (s.leave s.iss.thr true).thread s.iss.thr with st := .dropped }

theorem State.softFault_ringed {cause kind va : Nat} {r : Nat × Nat} (h : slotOf s.iss.thr ≠ 7)
    (hr : s.faultRing s.cur.ctx = some r) :
    s.softFault cause kind va = s.dropCur.faultEmit (cluOf s.iss.thr)
      { ctx := s.cur.ctx, data := faultRecord s.iss.b.pc s.iss.thr s.cur.ctx 0 s.timens kind cause va } := by
  have hdev := sameDevice_leave (s := s) s.iss.thr true
  have hcyc : (s.leave s.iss.thr true).cycle = s.cycle := by
    have := congrArg State.cycle hdev.rest
    exact this
  simp only [State.softFault, if_neg h, hr, State.dropCur, State.timens, State.setThread_iss, State.setThread_cycle, hdev.iss, hcyc]

theorem sameDevice_dropCur : SameDevice s s.dropCur := (sameDevice_leave _ _).trans (sameDevice_setThread _ _ _)

theorem State.cur_dropCur : s.dropCur.cur = { (s.leave s.iss.thr true).thread s.iss.thr with st := .dropped } := by
  rw [State.cur, (sameDevice_dropCur (s := s)).iss]
  exact State.thread_setThread_same _ _ _

theorem SameDevice.memRead {s t : State} (h : SameDevice s t) (a n : Nat) : t.memRead a n = s.memRead a n := by
  simp only [State.memRead, State.memGet, h.mem]

theorem SameDevice.faultRing {s t : State} (h : SameDevice s t) (c : Nat) : t.faultRing c = s.faultRing c := by
  have hc : t.ctxs = s.ctxs := by
    have := congrArg State.ctxs h.rest
    exact this
  have hd : t.dev = s.dev := by
    have := congrArg State.dev h.rest
    exact this
  unfold State.faultRing State.ownAddr State.ctx
  rw [hc, hd]

theorem SameDevice.clu {s t : State} (h : SameDevice s t) (k : Nat) : t.clu k = s.clu k := by
  have hc : t.clus = s.clus := by
    have := congrArg State.clus h.rest
    exact this
  simp only [State.clu, hc]

/-- A ring whose header asks for no credit gets none. -/
theorem State.ringCredit_none {ctx base : Nat} (h : s.memRead (base + 25) 1 / 8 % 2 = 0) : s.ringCredit ctx base = s := by
  have hb : bits (s.memRead base 64) 203 203 = s.memRead (base + 25) 1 / 8 % 2 := by
    rw [State.memRead_part (s := s) base 64 (j := 25) (n := 1) (by omega), bits]
    norm_num
    omega
  rw [State.ringCredit, if_neg]
  rw [hb, h]
  exact fun hc => absurd hc.1 (by decide)

/-- With room in the ring the record is written at once. -/
theorem State.faultEmit_room {clu base size : Nat} {r : FaultRec} (hc : (s.clu clu).frecs = []) (hr : r.ring = none)
    (hring : s.faultRing r.ctx = some (base, size))
    (hroom : (s.memRead base 8 + 2 ^ 64 - s.memRead (base + 8) 8) % 2 ^ 64 < size)
    (hcredit : s.memRead (base + 25) 1 / 8 % 2 = 0) :
    s.faultEmit clu r = (s.memPut (base + 64 + 32 * (s.memRead base 8 % size)) 32 r.data.toNat).memPut base 8
      ((s.memRead base 8 + 1) % 2 ^ 64) := by
  have hput : s.ringPut base size r.data.toNat = some ((s.memPut (base + 64 + 32 * (s.memRead base 8 % size)) 32
      r.data.toNat).memPut base 8 ((s.memRead base 8 + 1) % 2 ^ 64)) := by
    simp only [State.ringPut, if_pos hroom]
  have hwrite : s.faultWrite r = some ((s.memPut (base + 64 + 32 * (s.memRead base 8 % size)) 32
      r.data.toNat).memPut base 8 ((s.memRead base 8 + 1) % 2 ^ 64)) := by
    simp only [State.faultWrite, hr, Option.none_or, hring, hput, Option.map_some]
    rw [State.ringCredit_none]
    rw [State.memRead_memPut_other _ _ _ (by omega), State.memRead_memPut_other _ _ _ (by omega), hcredit]
  simp only [State.faultEmit, hc, hwrite]

/-- The fields of a fault record (R236). -/
theorem faultRecord_toNat {pc : W64} {thr ctx time kind cause va : Nat} (hva : va < 2 ^ 72) (hc : cause < 256) (hk : kind < 4)
    (ht : thr < 12288) (hx : ctx < 256) :
    (faultRecord pc thr ctx 0 time kind cause va).toNat = va + cause * 2 ^ 72 + kind * 2 ^ 82 + time % 2 ^ 64 * 2 ^ 96 +
      ctx * 2 ^ 170 + thr * 2 ^ 178 + pc.toNat * 2 ^ 192 := by
  have := pc.isLt
  rw [faultRecord, BitVec.toNat_ofNat]
  omega

end
end Sys2Proof.Machine

/-! SUPPORT. Loads and stores of device memory (07_memory R139, R143, R145, R146, 12_page R227): what each does once its
translation is known, and the statements of loads, stores and their faults. -/

namespace Sys2Proof.Machine

open Sys2Proof

section
variable {s u : State}

/-! ### Addresses and orders -/

theorem signExtend_eq_ofInt {n m : Nat} (x : BitVec n) : x.signExtend m = BitVec.ofInt m x.toInt := rfl

theorem effAddr_eq (base : VAddr) (i : Imm) (z : Nat) : effAddr base i z = base + BitVec.ofInt 72 (i.toInt * z) := by
  rw [effAddr, signExtend_eq_ofInt, BitVec.ofInt_mul, BitVec.ofInt_natCast]

theorem State.acquire_eq (x : BitVec 3) : s.acquire x.toNat = if x.toNat = 0 then s else s.flushL1 s.curCore := by
  unfold State.acquire
  split
  · rw [if_neg (by omega)]
  · rw [if_pos (by omega)]

/-- An access that need not wait goes on, where it releases with its thread's stores acknowledged. -/
theorem State.ordered_free {x : BitVec 3} {k : State → State} (h : x.toNat ≠ 0 → s.cur.remOut = []) :
    s.ordered x k = k (if x.toNat = 0 then s else s.ackAll s.iss.thr) := by
  unfold State.ordered
  by_cases hx : x = 0#3
  · subst hx; rfl
  · have hx' : x.toNat ≠ 0 := fun e => hx (BitVec.eq_of_toNat_eq e)
    rw [if_neg hx, if_neg hx', State.release_clear (h hx')]

theorem State.ordered_held {x : BitVec 3} {k : State → State} (hx : x.toNat ≠ 0) (h : s.cur.remOut ≠ []) :
    s.ordered x k = s := by
  rw [State.ordered, if_neg (fun e => hx (by rw [e]; rfl)), State.release, if_neg h]

/-! ### What an acquire or a release leaves -/

theorem SameDevice.dev {s t : State} (h : SameDevice s t) : t.dev = s.dev := by
  have := congrArg State.dev h.rest
  exact this

theorem SameDevice.eps {s t : State} (h : SameDevice s t) : t.eps = s.eps := by
  have := congrArg State.eps h.rest
  exact this

theorem State.Unasked.same {w : Asker} (h : s.Unasked w) (hd : SameDevice s u) : u.Unasked w where
  answers := by rw [hd.dev]; exact h.answers
  packets := by rw [hd.eps]; exact h.packets

/-- A state that differs in caches alone. -/
structure SameButL1 (s t : State) : Prop where
  dev : SameDevice s t
  thr : t.thr = s.thr

theorem SameButL1.thread {s t : State} (h : SameButL1 s t) (n : Nat) : t.thread n = s.thread n := by
  simp only [State.thread, h.thr]

theorem SameButL1.asker {s t : State} (h : SameButL1 s t) (n : Nat) : t.asker n = s.asker n := by
  simp only [State.asker, h.thread]

theorem sameButL1_acquired (x : BitVec 3) (c : Nat) : SameButL1 s (if x.toNat = 0 then s else s.flushL1 c) := by
  split
  · exact ⟨.refl _, rfl⟩
  · exact ⟨sameDevice_flushL1 _ _, rfl⟩

theorem sameButL1_released (x : BitVec 3) (t : Nat) : SameButL1 s (if x.toNat = 0 then s else s.ackAll t) := by
  split
  · exact ⟨.refl _, rfl⟩
  · exact ⟨sameDevice_ackAll _ _, s.ackAll_thr t⟩

/-! ### Accesses not sent before -/

theorem State.readAt_hard {t va n r : Nat} (h : s.Unasked (s.asker t))
    (hx : s.xlate (coreOf t) (s.thread t).ctx .load va = (u, .hard r)) : s.readAt t va n = (u, .hard r) := by
  rw [State.readAt, h.orSent, hx]

theorem State.readAt_soft {t va n c : Nat} (h : s.Unasked (s.asker t))
    (hx : s.xlate (coreOf t) (s.thread t).ctx .load va = (u, .soft c)) : s.readAt t va n = (u, .soft c) := by
  rw [State.readAt, h.orSent, hx]

theorem State.readAt_own {t va n pa ty : Nat} (h : s.Unasked (s.asker t))
    (hx : s.xlate (coreOf t) (s.thread t).ctx .load va = (u, .ok u.dev.node pa ty)) :
    s.readAt t va n = ((u.readOwn t pa va n ty).1, .ok (u.readOwn t pa va n ty).2.1 (u.readOwn t pa va n ty).2.2) := by
  rw [State.readAt, h.orSent, hx]
  exact if_pos rfl

theorem State.writeAt_hard {t va r : Nat} {bs : List (BitVec 8)} (h : s.Unasked (s.asker t))
    (hx : s.xlate (coreOf t) (s.thread t).ctx .store va = (u, .hard r)) : s.writeAt t va bs = (u, .hard r) := by
  rw [State.writeAt, h.orSent, hx]

theorem State.writeAt_soft {t va c : Nat} {bs : List (BitVec 8)} (h : s.Unasked (s.asker t))
    (hx : s.xlate (coreOf t) (s.thread t).ctx .store va = (u, .soft c)) : s.writeAt t va bs = (u, .soft c) := by
  rw [State.writeAt, h.orSent, hx]

theorem State.writeAt_own {t va pa ty : Nat} {bs : List (BitVec 8)} (h : s.Unasked (s.asker t))
    (hx : s.xlate (coreOf t) (s.thread t).ctx .store va = (u, .ok u.dev.node pa ty)) :
    s.writeAt t va bs = (u.storeOwn t pa bs, .ok [] none) := by
  rw [State.writeAt, h.orSent, hx]
  exact if_pos rfl

/-! ### Each shape of instruction, aligned and not -/

section
variable {z : Nat} {conv : Nat → W64} {d : SReg} {a e : AReg} {x : BitVec 3} {i : Imm} {g : Got}

/-- An aligned load ends by what its access finds. -/
theorem load_aligned (h : s.Ready [] (some d) false)
    (ha : (s.cur.readA a + BitVec.ofInt 72 (i.toInt * z)).toNat % z = 0)
    (hr : (if x.toNat = 0 then s else s.flushL1 s.curCore).readAt s.iss.thr
      (s.cur.readA a + BitVec.ofInt 72 (i.toInt * z)).toNat z = (u, g)) :
    load z conv d a x i s = u.onGot g .load (s.cur.readA a + BitVec.ofInt 72 (i.toInt * z)).toNat fun bs err =>
      u.commit [] [.s d] [(.s d, (conv (ofBytes bs)).setWidth 512)] (.ready u.cycle) err (mem := true) := by
  rw [load, State.withOps_ready h]
  simp only [effAddr_eq, ha, ne_eq, not_true_eq_false, if_false, State.acquire_eq, hr]

theorem execLda_aligned (ha : (s.cur.readA a + BitVec.ofInt 72 (i.toInt * (16 : Nat))).toNat % 16 = 0)
    (hr : (if x.toNat = 0 then s else s.flushL1 s.curCore).readAt s.iss.thr
      (s.cur.readA a + BitVec.ofInt 72 (i.toInt * (16 : Nat))).toNat 16 = (u, g)) :
    execLda e a x i s = .next (u.onGot g .load (s.cur.readA a + BitVec.ofInt 72 (i.toInt * (16 : Nat))).toNat fun bs err =>
      u.commit [] [.a e] [(.a e, BitVec.ofNat 512 (ofBytes (bs.take 9)))] (.ready u.cycle) err (mem := true)) := by
  simp only [execLda, effAddr_eq, ha, ne_eq, not_true_eq_false, if_false, State.acquire_eq, hr]

/-- An aligned store that need not wait ends by what its access finds. -/
theorem store_aligned (h : s.Ready [d] none) (ha : (s.cur.readA a + BitVec.ofInt 72 (i.toInt * z)).toNat % z = 0)
    (hf : x.toNat ≠ 0 → s.cur.remOut = [])
    (hr : (if x.toNat = 0 then s else s.ackAll s.iss.thr).writeAt s.iss.thr
      (s.cur.readA a + BitVec.ofInt 72 (i.toInt * z)).toNat (toBytes z (s.src d).toNat) = (u, g)) :
    store z d a x i s = u.onGot g .store (s.cur.readA a + BitVec.ofInt 72 (i.toInt * z)).toNat
      fun _ err => u.stored [d] err := by
  have hiss := (sameButL1_released (s := s) x s.iss.thr).dev.iss
  rw [store, State.withOps_ready (by exact h)]
  simp only [effAddr_eq, ha, ne_eq, not_true_eq_false, if_false, State.ordered_free hf, hiss, State.vals_singleton, hr]

theorem execSta_aligned (ha : (s.cur.readA a + BitVec.ofInt 72 (i.toInt * (16 : Nat))).toNat % 16 = 0)
    (hf : x.toNat ≠ 0 → s.cur.remOut = [])
    (hr : (if x.toNat = 0 then s else s.ackAll s.iss.thr).writeAt s.iss.thr
      (s.cur.readA a + BitVec.ofInt 72 (i.toInt * (16 : Nat))).toNat (toBytes 16 (s.cur.readA e).toNat) = (u, g)) :
    execSta e a x i s = .next (u.onGot g .store (s.cur.readA a + BitVec.ofInt 72 (i.toInt * (16 : Nat))).toNat
      fun _ err => u.stored [] err) := by
  have hs := sameButL1_released (s := s) x s.iss.thr
  have hcur : (if x.toNat = 0 then s else s.ackAll s.iss.thr).cur = s.cur := by
    rw [State.cur, hs.dev.iss, hs.thread]; rfl
  simp only [execSta, effAddr_eq, ha, ne_eq, not_true_eq_false, if_false, State.ordered_free hf, hs.dev.iss, hcur, hr]

theorem misalign_eq (v : VAddr) : misalign v = { cause := 4, tval := v.setWidth 64 } := rfl

theorem load_misaligned (h : s.Ready [] (some d) false)
    (ha : (s.cur.readA a + BitVec.ofInt 72 (i.toInt * z)).toNat % z ≠ 0) :
    load z conv d a x i s = s.trap { cause := 4, tval := (s.cur.readA a + BitVec.ofInt 72 (i.toInt * z)).setWidth 64 } := by
  rw [load, State.withOps_ready h]
  simp only [effAddr_eq, ha, ne_eq, not_false_eq_true, if_true, misalign_eq]

theorem store_misaligned (h : s.Ready [d] none) (ha : (s.cur.readA a + BitVec.ofInt 72 (i.toInt * z)).toNat % z ≠ 0) :
    store z d a x i s = s.trap { cause := 4, tval := (s.cur.readA a + BitVec.ofInt 72 (i.toInt * z)).setWidth 64 } := by
  rw [store, State.withOps_ready (by exact h)]
  simp only [effAddr_eq, ha, ne_eq, not_false_eq_true, if_true, misalign_eq]

/-- A releasing store is held while a remote access of its thread is not performed. -/
theorem store_held (h : s.Ready [d] none) (ha : (s.cur.readA a + BitVec.ofInt 72 (i.toInt * z)).toNat % z = 0)
    (hx : x.toNat ≠ 0) (hh : s.cur.remOut ≠ []) : store z d a x i s = s := by
  rw [store, State.withOps_ready (by exact h)]
  simp only [effAddr_eq, ha, ne_eq, not_true_eq_false, if_false, State.ordered_held hx hh]

end

/-! ### The loads and the stores by name -/

/-- The loads into a scalar register, with their widths. -/
theorem exec_load_of_mem {z : Nat} {j : Instr} {d : SReg} {a : AReg} {x : BitVec 3} {i : Imm}
    (h : (z, j) ∈ [(1, Instr.ldb d a x i), (1, .ldbz d a x i), (2, .ldh d a x i), (2, .ldhz d a x i), (4, .ldw d a x i),
      (4, .ldwz d a x i), (8, .ldd d a x i)]) : ∃ conv, ∀ s, exec j s = .next (load z conv d a x i s) := by
  simp only [List.mem_cons, Prod.mk.injEq, List.not_mem_nil, or_false] at h
  rcases h with ⟨rfl, rfl⟩ | ⟨rfl, rfl⟩ | ⟨rfl, rfl⟩ | ⟨rfl, rfl⟩ | ⟨rfl, rfl⟩ | ⟨rfl, rfl⟩ | ⟨rfl, rfl⟩ <;> exact ⟨_, fun _ => rfl⟩

theorem exec_store_of_mem {z : Nat} {j : Instr} {d : SReg} {a : AReg} {x : BitVec 3} {i : Imm}
    (h : (z, j) ∈ [(1, Instr.stb d a x i), (2, .sth d a x i), (4, .stw d a x i), (8, .std d a x i)]) :
    ∀ s, exec j s = .next (store z d a x i s) := by
  simp only [List.mem_cons, Prod.mk.injEq, List.not_mem_nil, or_false] at h
  rcases h with ⟨rfl, rfl⟩ | ⟨rfl, rfl⟩ | ⟨rfl, rfl⟩ | ⟨rfl, rfl⟩ <;> exact fun _ => rfl

/-! ### Hard reasons -/

theorem State.walkFrom_hard {va r : Nat} : ∀ {n t : Nat}, s.walkFrom va n t = .hard r → r < 4 := by
  intro n
  induction n with
  | zero => intro t h; cases h; decide
  | succ n ih =>
    intro t h
    simp only [State.walkFrom] at h
    split at h
    · cases h
    · split at h
      · exact ih h
      · cases h; decide
      · cases h; decide
      · cases h

theorem State.walk_hard {ctx va r : Nat} (h : s.walk ctx va = .hard r) : r < 4 := by
  simp only [State.walk] at h
  split at h
  · cases h; decide
  · exact State.walkFrom_hard h

theorem leafOutcome_hard {k : Kind} {cls : Pte} {e : W64} {lvl va r : Nat} (h : leafOutcome k cls e lvl va = .hard r) : r < 4 := by
  unfold leafOutcome at h
  split at h
  · cases h; decide
  · split at h
    · cases h
    · cases h
    · split at h <;> cases h
    · cases h

end

/-! ### What a translation can do (R227 to R231) -/

/-- What a leaf gives an access: where it is found, its entry of the TLB gathers the access (R231). -/
def State.answerLeaf (s : State) (id : TlbId) (ctx va : Nat) (k : Kind) (cls : Pte) (e : W64) (lvl : Nat) : State × Xlat :=
  match leafOutcome k cls e lvl va with
  | .ok node pa ty => (s.gather id ctx va (decide (k = .store ∨ k = .atomic)), Xlat.ok node pa ty)
  | x => (s, x)

/-- A core's own TLB for a kind of access. -/
def ownTlb (core : Nat) (k : Kind) : TlbId := if k = .fetch then .fetch core else .data core

/-- The states a translation leaves before its leaf is answered: as it was, an array touched, a number taken for an error, and
the TLBs filled. -/
inductive State.Filled (s : State) (core : Nat) (k : Kind) : State → Prop
  | same : s.Filled core k s
  | touched (array : Nat) (p : Nat → Bool) (ctx : Nat) : s.Filled core k (s.arrayTouch core array p ctx)
  | taken : s.Filled core k s.takeFree.2
  | own (t : TlbEnt) : s.Filled core k (s.tlbFill (ownTlb core k) t)
  | both (t : TlbEnt) : s.Filled core k ((s.tlbFill (.second (core / 8)) t).tlbFill (ownTlb core k) t)

/-- All a translation can do: a leaf answers, or it fails before any. -/
theorem State.xlate_cases (s : State) (core ctx : Nat) (k : Kind) (va : Nat) : ∃ v, s.Filled core k v ∧
    ((∃ cls e lvl, s.xlate core ctx k va = v.answerLeaf (ownTlb core k) ctx va k cls e lvl) ∨
      ∃ y, s.xlate core ctx k va = (v, y) ∧ ((∃ a, y = .ecc a) ∨ y = .busy ∨ ∃ r < 4, y = .hard r)) := by
  unfold State.xlate
  dsimp only
  rw [show (if k = .fetch then TlbId.fetch core else .data core) = ownTlb core k from rfl]
  generalize (if k = .fetch then 4 else 3) = array
  split
  · split
    · exact ⟨_, .touched _ _ _, .inr ⟨_, rfl, .inl ⟨_, rfl⟩⟩⟩
    · exact ⟨_, .touched _ _ _, .inl ⟨_, _, _, rfl⟩⟩
  · split
    · split
      · exact ⟨_, .taken, .inr ⟨_, rfl, .inl ⟨_, rfl⟩⟩⟩
      · exact ⟨_, .own _, .inl ⟨_, _, _, rfl⟩⟩
    · split
      · exact ⟨_, .same, .inr ⟨_, rfl, .inr (.inl rfl)⟩⟩
      · split
        · next h => exact ⟨_, .same, .inr ⟨_, rfl, .inr (.inr ⟨_, State.walk_hard h, rfl⟩)⟩⟩
        · exact ⟨_, .same, .inr ⟨_, rfl, .inl ⟨_, rfl⟩⟩⟩
        · split
          · exact ⟨_, .both _, .inl ⟨_, _, _, rfl⟩⟩
          · exact ⟨_, .same, .inl ⟨_, _, _, rfl⟩⟩

section
variable {s u v : State} {core ctx va : Nat} {k : Kind}

theorem State.answerLeaf_cases (s : State) (id : TlbId) (ctx va : Nat) (k : Kind) (cls : Pte) (e : W64) (lvl : Nat) :
    (∃ node pa ty, s.answerLeaf id ctx va k cls e lvl =
      (s.gather id ctx va (decide (k = .store ∨ k = .atomic)), .ok node pa ty)) ∨
    s.answerLeaf id ctx va k cls e lvl = (s, leafOutcome k cls e lvl va) := by
  unfold State.answerLeaf
  split
  · exact .inl ⟨_, _, _, rfl⟩
  · exact .inr rfl

theorem State.xlate_hard {r : Nat} (h : s.xlate core ctx k va = (u, .hard r)) : r < 4 := by
  obtain ⟨v, -, ⟨cls, e, lvl, hv⟩ | ⟨y, hv, hy⟩⟩ := s.xlate_cases core ctx k va
  · obtain ⟨_, _, _, ha⟩ | ha := v.answerLeaf_cases (ownTlb core k) ctx va k cls e lvl
    · cases (hv.symm.trans h).symm.trans ha
    · exact leafOutcome_hard (congrArg Prod.snd (ha.symm.trans (hv.symm.trans h)))
  · cases hv.symm.trans h
    obtain ⟨_, hy⟩ | hy | ⟨r', hr, hy⟩ := hy
    · cases hy
    · cases hy
    · cases hy; exact hr

/-- What a translation keeps, if gathering and each filling keep it. -/
theorem State.xlate_keeps {α : Type} {f : State → α} (hfill : ∀ v, s.Filled core k v → f v = f s)
    (hgather : ∀ v id ctx va d, f (v.gather id ctx va d) = f v) : f (s.xlate core ctx k va).1 = f s := by
  obtain ⟨v, hf, ⟨cls, e, lvl, hv⟩ | ⟨y, hv, -⟩⟩ := s.xlate_cases core ctx k va
  · rw [hv]
    obtain ⟨_, _, _, ha⟩ | ha := v.answerLeaf_cases (ownTlb core k) ctx va k cls e lvl
    · rw [ha]; exact (hgather _ _ _ _ _).trans (hfill v hf)
    · rw [ha]; exact hfill v hf
  · rw [hv]; exact hfill v hf

@[simp] theorem State.setTlb_dev (id : TlbId) (l : List TlbEnt) : (s.setTlb id l).dev = s.dev := by cases id <;> rfl
@[simp] theorem State.tlbWrote_dev (id : TlbId) (key : Nat) : (s.tlbWrote id key).dev = s.dev := by cases id <;> rfl
@[simp] theorem State.arrayTouch_dev (core array : Nat) (p : Nat → Bool) (ctx : Nat) :
    (s.arrayTouch core array p ctx).dev = s.dev := by
  unfold State.arrayTouch
  generalize (s.core core).errs.faults.filter _ = l
  induction l generalizing s with
  | nil => rfl
  | cons f r ih => exact ih.trans rfl

theorem State.adWrite_dev (t : TlbEnt) : (s.adWrite t).dev = s.dev := by
  simp only [State.adWrite]
  split
  · rfl
  · split <;> rfl

theorem State.tlbFill_dev (id : TlbId) (t : TlbEnt) : (s.tlbFill id t).dev = s.dev := by
  unfold State.tlbFill
  dsimp only
  split
  · simp
  · split
    · simp
    · rw [State.setTlb_dev, State.adWrite_dev, State.tlbWrote_dev]

theorem State.xlate_dev : (s.xlate core ctx k va).1.dev = s.dev := by
  refine State.xlate_keeps (fun v hv => ?_) fun v id ctx va d => State.setTlb_dev _ _
  cases hv with
  | same => rfl
  | touched => exact State.arrayTouch_dev _ _ _ _
  | taken => rfl
  | own => exact State.tlbFill_dev _ _
  | both => rw [State.tlbFill_dev, State.tlbFill_dev]

/-! ### TLBs with room -/

/-- A core whose TLBs stay as they are. -/
theorem State.tlbs_setCore {c : Nat} {x : Core} (hd : x.dtlb = (s.core c).dtlb) (hi : x.itlb = (s.core c).itlb) (id : TlbId) :
    (s.setCore c x).tlb id = s.tlb id := by
  cases id with
  | data c' | fetch c' =>
    by_cases hc : c' = c
    · subst hc
      simp only [State.tlb, State.core_setCore_same, hd, hi]
    · simp only [State.tlb, State.core_setCore_other _ _ hc]
  | second => rfl

theorem State.tlb_tlbWrote (id id' : TlbId) (key : Nat) : (s.tlbWrote id key).tlb id' = s.tlb id' := by
  cases id with
  | data c | fetch c =>
    exact State.tlbs_setCore (x := (s.core c).wrote _ (fun x => decide (x = key)) key) rfl rfl id'
  | second c =>
    cases id' with
    | data | fetch => rfl
    | second c' =>
      by_cases hc : c' = c
      · subst hc
        simp only [State.tlb, State.tlbWrote, State.clu_setClu_same]
      · simp only [State.tlb, State.tlbWrote, State.clu_setClu_other _ _ hc]

theorem State.tlb_ownTlb_setTlb_second (c c' : Nat) (l : List TlbEnt) (k : Kind) :
    (s.setTlb (.second c) l).tlb (ownTlb c' k) = s.tlb (ownTlb c' k) := by
  unfold ownTlb
  split <;> rfl

theorem State.tlbFill_room {id : TlbId} (t : TlbEnt) (h : (s.tlb id).length < tlbSize id) :
    s.tlbFill id t = (s.tlbWrote id t.key).setTlb id (s.tlb id ++ [t]) := by
  simp only [State.tlbFill, State.tlb_tlbWrote, if_pos h]

theorem State.tlbFill_mem_of_room {id : TlbId} (t : TlbEnt) (h : (s.tlb id).length < tlbSize id) :
    (s.tlbFill id t).mem = s.mem := by
  rw [State.tlbFill_room t h, State.setTlb_mem, State.tlbWrote_mem]

/-- A translation whose TLBs have room leaves memory as it is. -/
theorem State.xlate_mem_of_room (hown : (s.tlb (ownTlb core k)).length < tlbSize (ownTlb core k))
    (hsec : (s.tlb (.second (core / 8))).length < tlbSize (.second (core / 8))) : (s.xlate core ctx k va).1.mem = s.mem := by
  refine State.xlate_keeps (fun v hv => ?_) fun v id ctx va d => State.setTlb_mem _ _
  cases hv with
  | same | taken => rfl
  | touched => exact State.arrayTouch_mem _ _ _ _
  | own t => exact State.tlbFill_mem_of_room t hown
  | both t =>
    have hroom : (((s.tlbFill (.second (core / 8)) t)).tlb (ownTlb core k)).length < tlbSize (ownTlb core k) := by
      rw [State.tlbFill_room t hsec, State.tlb_ownTlb_setTlb_second, State.tlb_tlbWrote]
      exact hown
    rw [State.tlbFill_mem_of_room t hroom, State.tlbFill_mem_of_room t hsec]

/-! ### Loads of the device's own memory -/

theorem State.loadOwn_miss {t pa n ty : Nat} (h : ty ≠ 0 ∨ ∀ e ∈ (s.core (coreOf t)).l1, e.addr ≠ pa / 64 * 64) :
    (s.loadOwn t pa n ty).2 = s.memGet pa n := by
  have hm : (if ty = 0 then s.l1Hit t pa (s.floor t (sliceOf pa)) else none) = none := by
    split
    · next h0 =>
      have hn : (s.core (coreOf t)).l1.find? (fun e => decide (e.addr = lineOf pa)) = none :=
        List.find?_eq_none.2 fun e he he' =>
          h.resolve_left (fun hne => hne h0) e he (of_decide_eq_true he')
      simp only [State.l1Hit, hn]
      split <;> rfl
    · rfl
  simp only [State.loadOwn, hm]

theorem State.loadOwn_hit {t pa n : Nat} {e : Line} (h : s.l1Hit t pa (s.floor t (sliceOf pa)) = some e) :
    (s.loadOwn t pa n 0).2 = e.bytes pa n := by
  simp only [State.loadOwn, if_true, h]

/-! ### Stores of the device's own memory -/

theorem State.memRead_one (p : Nat) : s.memRead p 1 = (tget 0 s.mem p).toNat := by
  simp [State.memRead, State.memGet, ofBytes]

/-- Memory after some bytes are put at an address. -/
theorem memRead_of_putBytes {pa x z : Nat} (hm : v.mem = putBytes u.mem pa (toBytes z x)) (p : Nat) :
    v.memRead p 1 = if pa ≤ p ∧ p < pa + z then x / 2 ^ (8 * (p - pa)) % 256 else u.memRead p 1 := by
  rw [State.memRead_one, State.memRead_one, hm]
  split
  · next h =>
    obtain ⟨i, rfl⟩ := Nat.exists_eq_add_of_le h.1
    rw [putBytes_inside _ _ _ _ (by rw [length_toBytes]; omega), getD_toBytes _ _ _ (by omega), Nat.add_sub_cancel_left,
      Nat.pow_mul]
  · next h => rw [putBytes_outside _ _ _ _ (by rw [length_toBytes]; omega)]

theorem State.storeOwn_memory (t pa : Nat) (bs : List (BitVec 8)) : (s.storeOwn t pa bs).mem = putBytes s.mem pa bs := rfl

@[simp] theorem State.stored_mem (srcs : List SReg) (err : Option Err) : (s.stored srcs err).mem = s.mem := by
  cases err
  · exact State.retire_mem _
  · exact State.commit_mem _ _ _ _ _ _ _

end

/-! ### The statements -/

/-- Settles O11: each load by its shape, and what the L1 or the home slice answers. -/
theorem loads : Obligations.Loads := by
  unfold Obligations.Loads
  refine ⟨fun s d a e x i z bs u err => ?_, fun s t pa n ty h => ⟨State.loadOwn_miss h, State.loadOwn_mem _ _ _ _⟩,
    fun s t pa n e h => ⟨State.loadOwn_hit h, State.loadOwn_mem _ _ _ _⟩, fun s u t va pa n ty hx hw hp hl => ?_⟩
  · intro ea ha hr out
    refine ⟨fun h => ?_, fun hz => ?_⟩
    · have key := fun conv => load_aligned (conv := conv) h ha hr
      refine ⟨?_, ?_, ?_, ?_, ?_, ?_, ?_⟩ <;> rintro rfl <;> exact congrArg Host.Outcome.next (key _)
    · subst hz
      exact execLda_aligned ha hr
  · refine ⟨_, _, _, State.readAt_own hw hx, State.readOwn_mem _ _ _ _ _, ?_⟩
    have hbs : (u.readOwn t pa va n ty).2.1 = u.memGet pa n := State.loadOwn_miss (.inr hl)
    rw [hbs]
    refine ⟨by simp [State.memGet], fun j hj => ?_⟩
    simp [State.memGet, State.memRead_one, hj]

/-- Settles O12: each store by its shape, the bytes it puts, and a translation whose TLBs have room. -/
theorem stores : Obligations.Stores := by
  unfold Obligations.Stores
  refine ⟨fun s u d e a x i z pa ty => ?_, fun s d e a x i z ha hx hh => ⟨fun h j hj => ?_, fun hz => ?_⟩,
    fun s core ctx va k hd hi hc => ?_⟩
  · intro ea start ha hf hw hx stored
    have hs := sameButL1_released (s := s) x s.iss.thr
    have hnode : s.dev.node = u.dev.node := by
      have h1 := State.xlate_dev (s := start) (core := s.curCore) (ctx := s.cur.ctx) (k := .store) (va := ea.toNat)
      rw [hx] at h1
      rw [h1, hs.dev.dev]
    have hwr : ∀ bs, start.writeAt s.iss.thr ea.toNat bs = (u.storeOwn s.iss.thr pa bs, .ok [] none) := fun bs => by
      refine State.writeAt_own (ty := ty) ?_ ?_
      · rw [hs.asker]; exact hw.same hs.dev
      · rw [hs.thread, ← hnode]; exact hx
    refine ⟨fun h => ?_, fun hz => ?_⟩
    · have key := store_aligned h ha hf (hwr _)
      refine ⟨?_, ?_, ?_, ?_⟩ <;> rintro rfl <;>
        exact ⟨_, congrArg Host.Outcome.next key, memRead_of_putBytes (State.stored_mem _ _)⟩
    · subst hz
      exact ⟨_, execSta_aligned ha hf (hwr _), memRead_of_putBytes (State.stored_mem _ _)⟩
  · rw [exec_store_of_mem hj, store_held h ha hx hh]
  · subst hz
    exact congrArg Host.Outcome.next ((if_neg (by rw [effAddr_eq]; exact not_not_intro ha)).trans (State.ordered_held hx hh))
  · refine State.xlate_mem_of_room ?_ hc
    unfold ownTlb
    split
    · exact hi
    · exact hd

theorem amo_misaligned {s : State} {d : SReg} {a : AReg} {srcs : List SReg} {x : BitVec 3}
    {f : (SReg → W64) → W64 → Option W64} {req : (SReg → W64) → Option AmoReq} (h : s.Ready srcs (some d) false)
    (ha : (s.cur.readA a).toNat % 8 ≠ 0) :
    amo d a srcs x f s req = s.trap { cause := 4, tval := (s.cur.readA a).setWidth 64 } := by
  rw [amo, State.withOps_ready h]
  exact if_pos ha

/-- Settles O13: the checks of each shape. -/
theorem misalignedAccessTraps : Obligations.MisalignedAccessTraps := by
  unfold Obligations.MisalignedAccessTraps
  intro s d b a e x i z ea trap base
  refine ⟨fun ha => ⟨fun h => ?_, fun h => congrArg Host.Outcome.next (amo_misaligned h ha)⟩,
    fun ha => ⟨fun h j hj => ?_, fun h j hj => ?_, fun hz => ?_⟩⟩
  · have key := fun (f : (SReg → W64) → W64 → Option W64) req =>
      congrArg (Host.Outcome.next (φ := Fault) (ρ := Refusal)) (amo_misaligned (f := f) (x := x) (req := req) h ha)
    simp only [List.forall_mem_cons]
    exact ⟨key _ _, key _ _, key _ _, key _ _, key _ _, key _ _, key _ _, key _ _, by simp⟩
  · obtain ⟨conv, hc⟩ := exec_load_of_mem (List.mem_cons_of_mem _ (List.mem_cons_of_mem _ hj))
    rw [hc, load_misaligned h ha]
  · rw [exec_store_of_mem (List.mem_cons_of_mem _ hj), store_misaligned h ha]
  · subst hz
    have hm : (effAddr (s.cur.readA a) i 16).toNat % 16 ≠ 0 := by rw [effAddr_eq]; exact ha
    constructor
    all_goals
      refine congrArg Host.Outcome.next ((if_pos hm).trans ?_)
      rw [effAddr_eq]
      rfl

/-! ### Accesses that fault -/

/-- A hard fault of an access. -/
theorem onGot_hard {u : State} {r : Nat} (hr : r < 4) (k : Kind) (ea : VAddr) (f : List (BitVec 8) → Option Err → State) :
    u.onGot (.hard r) k ea.toNat f =
      u.trap { cause := 5, tval := ea.setWidth 64, high := ea.extractLsb' 64 8 ++ BitVec.ofNat 8 r ++ 0#48 } := by
  rw [← addrErr_eq _ (by omega)]
  rfl

/-- The fields of the record a soft fault leaves in its ring, and what it leaves of memory. -/
theorem softFault_record {s : State} {cause kind va base size : Nat} (hva : va < 2 ^ 72) (hc : cause < 256) (hk : kind < 4)
    (ht : s.iss.thr < 12288) (hx : s.cur.ctx < 256) (h7 : slotOf s.iss.thr ≠ 7)
    (hring : s.faultRing s.cur.ctx = some (base, size)) (hrecs : (s.clu (cluOf s.iss.thr)).frecs = [])
    (hroom : (s.memRead base 8 + 2 ^ 64 - s.memRead (base + 8) 8) % 2 ^ 64 < size)
    (hcredit : s.memRead (base + 25) 1 / 8 % 2 = 0) :
    let u := s.softFault cause kind va
    let rcd := base + 64 + 32 * (s.memRead base 8 % size)
    u.memRead base 8 = (s.memRead base 8 + 1) % 2 ^ 64 ∧ u.memRead rcd 9 = va ∧ u.memRead (rcd + 9) 1 = cause ∧
      u.memRead (rcd + 12) 8 = s.timens % 2 ^ 64 ∧ u.memRead (rcd + 24) 8 = s.iss.b.pc.toNat ∧
      ∀ p, (p < base ∨ base + 8 ≤ p) → (p < rcd ∨ rcd + 32 ≤ p) → u.memRead p 1 = s.memRead p 1 := by
  intro u rcd
  have hd := sameDevice_dropCur (s := s)
  have hu : u = (s.dropCur.memPut rcd 32 (faultRecord s.iss.b.pc s.iss.thr s.cur.ctx 0 s.timens kind cause va).toNat).memPut
      base 8 ((s.memRead base 8 + 1) % 2 ^ 64) := by
    have he := State.softFault_ringed (cause := cause) (kind := kind) (va := va) h7 hring
    rw [State.faultEmit_room (base := base) (size := size) (by rw [hd.clu]; exact hrecs) rfl
      (by rw [hd.faultRing]; exact hring) (by rw [hd.memRead, hd.memRead]; exact hroom)
      (by rw [hd.memRead]; exact hcredit), hd.memRead] at he
    exact he
  have hpc := s.iss.b.pc.isLt
  have hpart : ∀ j n, j + n ≤ 32 → u.memRead (rcd + j) n =
      (va + cause * 2 ^ 72 + kind * 2 ^ 82 + s.timens % 2 ^ 64 * 2 ^ 96 + s.cur.ctx * 2 ^ 170 + s.iss.thr * 2 ^ 178 +
        s.iss.b.pc.toNat * 2 ^ 192) / 256 ^ j % 256 ^ n := by
    intro j n hjn
    rw [hu, State.memRead_memPut_other _ _ _ (by omega), State.memRead_memPut_part _ _ _ hjn, faultRecord_toNat hva hc hk ht hx]
  refine ⟨?_, ?_, ?_, ?_, ?_, fun p h1 h2 => ?_⟩
  · rw [hu, State.memPut_same]
    omega
  · rw [← Nat.add_zero rcd, hpart 0 9 (by omega)]
    omega
  · rw [hpart 9 1 (by omega)]
    omega
  · rw [hpart 12 8 (by omega)]
    omega
  · rw [hpart 24 8 (by omega)]
    omega
  · rw [hu, State.memRead_memPut_other _ _ _ (by omega), State.memRead_memPut_other _ _ _ (by omega), hd.memRead]

/-- Settles O57: each shape of access with a translation that fails, and what a soft fault writes. -/
theorem faultedAccesses : Obligations.FaultedAccesses := by
  unfold Obligations.FaultedAccesses
  refine ⟨fun s u d a e x im z r c => ?_, fun s cause kind va hva hc hk ht hx => ?_⟩
  · intro ea hard start ha hw
    have hl := sameButL1_acquired (s := s) x s.curCore
    have hs := sameButL1_released (s := s) x s.iss.thr
    have hwl := hl.asker s.iss.thr ▸ hw.same hl.dev
    have hws := hs.asker s.iss.thr ▸ hw.same hs.dev
    refine ⟨fun hx => ?_, fun hx => ?_, fun hx hf => ?_, fun hx hf => ?_⟩
    · have hr := State.readAt_hard (n := z) hwl (by rw [hl.thread]; exact hx)
      refine ⟨fun h i hi => ?_, fun hz => ?_⟩
      · obtain ⟨conv, hconv⟩ := exec_load_of_mem hi
        rw [hconv, load_aligned h ha hr, onGot_hard (State.xlate_hard hx)]
      · subst hz
        exact (execLda_aligned ha hr).trans (congrArg _ (onGot_hard (State.xlate_hard hx) _ _ _))
    · have hr := State.readAt_soft (n := z) hwl (by rw [hl.thread]; exact hx)
      refine ⟨fun h i hi => ?_, fun hz => ?_⟩
      · obtain ⟨conv, hconv⟩ := exec_load_of_mem hi
        rw [hconv, load_aligned h ha hr]
        rfl
      · subst hz
        exact execLda_aligned ha hr
    · have hr := fun bs => State.writeAt_hard (bs := bs) hws (by rw [hs.thread]; exact hx)
      refine ⟨fun h i hi => ?_, fun hz => ?_⟩
      · rw [exec_store_of_mem hi, store_aligned h ha hf (hr _), onGot_hard (State.xlate_hard hx)]
      · subst hz
        exact (execSta_aligned ha hf (hr _)).trans (congrArg _ (onGot_hard (State.xlate_hard hx) _ _ _))
    · have hr := fun bs => State.writeAt_soft (bs := bs) hws (by rw [hs.thread]; exact hx)
      refine ⟨fun h i hi => ?_, fun hz => ?_⟩
      · rw [exec_store_of_mem hi, store_aligned h ha hf (hr _)]
        rfl
      · subst hz
        exact execSta_aligned ha hf (hr _)
  · intro t addr u
    have haddr : addr.toNat = va := by rw [BitVec.toNat_ofNat, Nat.mod_eq_of_lt hva]
    have hlow : addr.setWidth 64 = BitVec.ofNat 64 va := by
      apply BitVec.eq_of_toNat_eq
      rw [BitVec.toNat_setWidth, haddr, BitVec.toNat_ofNat]
    refine ⟨fun h7 => ?_, fun h7 => ⟨fun hn => ?_, fun base size hring => ⟨fun hg hp => ?_, ?_, ?_, ?_⟩⟩⟩
    · rw [hlow]
      exact State.softFault_slot7 h7
    · rw [show (5#8 : BitVec 8) = BitVec.ofNat 8 5 from rfl, ← addrErr_eq _ (by decide), haddr]
      exact State.softFault_unringed h7 hn
    · have hu : u.cur = s.dropCur.cur := by
        rw [show u = _ from State.softFault_ringed h7 hring, (sameTurn_faultEmit _ _).cur]
      rw [hu, State.cur_dropCur, State.leave_alone hg]
      rfl
    · rw [show u = _ from State.softFault_ringed h7 hring, (sameTurn_faultEmit _ _).cur, State.cur_dropCur]
    · rw [show u = _ from State.softFault_ringed h7 hring, (sameTurn_faultEmit _ _).cur, State.cur_dropCur]
      exact State.leave_pc _ _ _
    · intro head rcd hrecs hroom hcredit
      exact softFault_record hva hc hk ht hx h7 hring hrecs hroom hcredit

end Sys2Proof.Machine

/-! SUPPORT. Atomics, and accesses of the own local store (07_memory R140, R148 to R150). -/

namespace Sys2Proof.Machine

open Sys2Proof

section
variable {s u v : State}

/-! ### Atomics of memory (R149) -/

/-- At its scope, an atomic that need not wait goes on where its acquire and its release leave it. -/
theorem State.atomically_free {scope : Nat} {k : State → State} (h : scope ≠ 0 → s.cur.remOut = []) :
    s.atomically scope k = k (if scope = 0 then (s.ackAll s.iss.thr).fromNow s.iss.thr
      else (s.ackAll s.iss.thr).flushL1 s.curCore) := by
  unfold State.atomically
  split
  · rfl
  · next hs =>
    have hcore : (s.ackAll s.iss.thr).curCore = s.curCore := by simp only [State.curCore, State.ackAll_iss]
    rw [State.release_clear (h hs), State.acquire, if_pos (by omega), hcore]

theorem State.atomically_held {scope : Nat} {k : State → State} (hs : scope ≠ 0) (h : s.cur.remOut ≠ []) :
    s.atomically scope k = s := by
  rw [State.atomically, if_neg hs, State.release, if_neg h]

/-- Where an atomic goes on. -/
def State.atScope (s : State) (scope : Nat) : State :=
  if scope = 0 then (s.ackAll s.iss.thr).fromNow s.iss.thr else (s.ackAll s.iss.thr).flushL1 s.curCore

theorem sameDevice_atScope (scope : Nat) : SameDevice s (s.atScope scope) := by
  unfold State.atScope
  split
  · exact (sameDevice_ackAll _ _).trans (sameDevice_setThread _ _ _)
  · exact (sameDevice_ackAll _ _).trans (sameDevice_flushL1 _ _)

/-- An aligned atomic that is answered commits with the old value, having asked for the function its operands name. -/
theorem amo_answered {d : SReg} {a : AReg} {srcs : List SReg} {x : BitVec 3} {f : (SReg → W64) → W64 → Option W64}
    {req : (SReg → W64) → Option AmoReq} (g : W64 → Option W64) (r : Option AmoReq)
    (h : s.Ready srcs (some d) false) (ha : (s.cur.readA a).toNat % 8 = 0)
    (hf : (if s.onFar .atomic (s.cur.readA a).toNat then 4 else x.toNat) ≠ 0 → s.cur.remOut = [])
    (hg : ∀ old, f (s.vals srcs) old = g old) (hr : req (s.vals srcs) = r) (u : State) (bs : List (BitVec 8)) (err : Option Err)
    (hx : (s.atScope (if s.onFar .atomic (s.cur.readA a).toNat then 4 else x.toNat)).rmwAt s.iss.thr (s.cur.readA a).toNat
      (fun old => (g (BitVec.ofNat 64 old)).map (·.toNat)) r = (u, .ok bs err)) :
    (.next (amo d a srcs x f s req) : Out) =
      .next (u.commit srcs [.s d] [(.s d, BitVec.ofNat 512 (ofBytes bs))] (.ready u.cycle) err false true) := by
  have hiss := (sameDevice_atScope (s := s) (if s.onFar .atomic (s.cur.readA a).toNat then 4 else x.toNat)).iss
  rw [amo, State.withOps_ready h]
  simp only [ha, ne_eq, not_true_eq_false, if_false, State.atomically_free hf]
  rw [← State.atScope, hiss]
  simp only [hg, hr, hx]
  rfl

theorem toBytes_ofBytes (l : List (BitVec 8)) : toBytes l.length (ofBytes l) = l := by
  induction l with
  | nil => rfl
  | cons b r ih =>
    have hb := b.isLt
    have h1 : BitVec.ofNat 8 (b.toNat + 256 * ofBytes r) = b := by
      apply BitVec.eq_of_toNat_eq
      rw [BitVec.toNat_ofNat]
      omega
    have h2 : (b.toNat + 256 * ofBytes r) / 256 = ofBytes r := by omega
    rw [List.length_cons, toBytes, ofBytes, h1, h2, ih]

theorem ofBytes_lt (l : List (BitVec 8)) : ofBytes l < 256 ^ l.length := by
  rw [ofBytes_eq_of_getD (l := l) (y := ofBytes l) fun i _ => getD_ofBytes l i]
  exact Nat.mod_lt _ (by positivity)

/-- A read-modify-write of the device's own memory. -/
theorem State.rmwOwn_spec (t pa n : Nat) (f : Nat → Option Nat) :
    (s.rmwOwn t pa n f).2 = s.memRead pa n ∧
    (s.rmwOwn t pa n f).1.mem = match f (s.memRead pa n) with
      | none => s.mem
      | some new => putBytes s.mem pa (toBytes n new) := by
  unfold State.rmwOwn
  dsimp only
  cases f (s.memRead pa n) with
  | none => exact ⟨rfl, rfl⟩
  | some new => exact ⟨rfl, rfl⟩

theorem State.rmwAt_own {t va pa ty : Nat} {f : Nat → Option Nat} {r : Option AmoReq} (h : s.Unasked (s.asker t))
    (hx : s.xlate (coreOf t) (s.thread t).ctx .atomic va = (u, .ok u.dev.node pa ty)) (hp : u.memPoisoned pa 8 = false) :
    s.rmwAt t va f r = ((u.rmwOwn t pa 8 f).1, .ok (toBytes 8 (u.rmwOwn t pa 8 f).2) none) := by
  unfold State.rmwAt
  simp only [h.rmwSent, hx, Bool.false_eq_true, if_false, if_true, hp]

end

/-- Settles O14: an atomic that is answered, by its shape, and a read-modify-write at the slice. -/
theorem atomics : Obligations.Atomics := by
  unfold Obligations.Atomics
  refine ⟨fun s d b a x ha => ?_, fun s u v t va pa ty new bs err f r hx hp hw hr => ?_⟩
  · intro y scope start hf done
    refine ⟨fun h => ?_, fun h => ?_⟩
    · have hb : s.vals [b] b = y := State.vals_singleton b
      have key := fun {f : (SReg → W64) → W64 → Option W64} {req} g r => amo_answered (f := f) (req := req) g r h ha hf
      refine ⟨key (fun old => some (old + y)) _ (fun old => ?_) ?_, key (fun _ => some y) _ (fun old => ?_) ?_,
        key (fun old => some (old &&& y)) _ (fun old => ?_) rfl, key (fun old => some (old ||| y)) _ (fun old => ?_) rfl,
        key (fun old => some (old ^^^ y)) _ (fun old => ?_) rfl,
        key (fun old => some (if old.toInt < y.toInt then old else y)) _ (fun old => ?_) rfl,
        key (fun old => some (if old.toInt < y.toInt then y else old)) _ (fun old => ?_) rfl,
        key (fun old => some (if old.toNat < y.toNat then old else y)) _ (fun old => ?_) rfl⟩
      all_goals simp only [hb, BitVec.slt_iff_toInt_lt, BitVec.ult_iff_toNat_lt]
    · have hb : s.vals [d, b] b = y := State.vals_of_mem (by simp)
      have hd : s.vals [d, b] d = s.src d := State.vals_of_mem (by simp)
      refine amo_answered (fun old => if old = s.src d then some y else none) _ h ha hf (fun old => ?_) ?_ <;> simp only [hb, hd]
  · have hnode : s.dev.node = u.dev.node := by
      have h1 := State.xlate_dev (s := s) (core := coreOf t) (ctx := (s.thread t).ctx) (k := .atomic) (va := va)
      rw [hx] at h1
      rw [h1]
    rw [State.rmwAt_own hw (hnode ▸ hx) hp] at hr
    obtain ⟨hold, hmem⟩ := State.rmwOwn_spec (s := u) t pa 8 f
    cases hr
    rw [hold]
    have hlen : (u.memGet pa 8).length = 8 := by simp [State.memGet]
    refine ⟨?_, rfl, fun hn => ?_, fun hn => ?_⟩
    · have := toBytes_ofBytes (u.memGet pa 8)
      rwa [hlen] at this
    · rw [hmem, hn]
    · exact memRead_of_putBytes (by rw [hmem, hn])

/-! ### The own local store (R140, R148, R150) -/

section
variable {s u : State} {d a : SReg} {x : BitVec 3} {srcs : List SReg}

/-- A core whose injected faults all lie in its L1. -/
def Core.FaultsInL1 (c : Core) : Prop := ∀ f ∈ c.errs.faults, f.array = 1

theorem faultsInL1_wrote {c : Core} (h : c.FaultsInL1) (hit : Nat → Bool) (key : Nat) : (c.wrote 1 hit key).FaultsInL1 := by
  intro f hf
  simp only [Core.wrote, ErrUnit.wrote] at hf
  split at hf
  · dsimp only at hf
    split at hf
    · exact h f (List.mem_filter.1 hf).1
    · rcases List.mem_append.1 hf with hf | hf
      · exact h f (List.mem_filter.1 hf).1
      · rw [List.mem_singleton.1 hf]
  · exact h f (List.mem_filter.1 hf).1

theorem faultsInL1_accept {c : Core} (h : c.FaultsInL1) (slice n : Nat) : (c.accept slice n).FaultsInL1 := by
  suffices ∀ (l : List FromSlice) (c : Core), c.FaultsInL1 → (l.foldl FromSlice.wrote c).FaultsInL1 from this _ _ h
  intro l
  induction l with
  | nil => exact fun _ h => h
  | cons y r ih =>
    refine fun c h => ih _ ?_
    cases y with
    | inval => exact h
    | ack e =>
      simp only [FromSlice.wrote, Core.ackWrote]
      split
      · exact faultsInL1_wrote h _ _
      · exact h

theorem faultsInL1_ackAll {c : Nat} (h : (s.core c).FaultsInL1) (t : Nat) : ((s.ackAll t).core c).FaultsInL1 := by
  simp only [State.ackAll]
  split
  · exact h
  · by_cases hc : c = coreOf t
    · subst hc
      rw [State.core_setCore_same]
      suffices ∀ (l : List Nat) (c : Core), c.FaultsInL1 → (l.foldl Core.acceptAll c).FaultsInL1 from this _ _ h
      intro l
      induction l with
      | nil => exact fun _ h => h
      | cons y r ih => exact fun c h => ih _ (faultsInL1_accept h _ _)
    · rw [State.core_setCore_other _ _ hc]
      exact h

/-- A local store that no fault is in and no poison. -/
structure State.LsClean (s : State) (c : Nat) : Prop where
  faults : (s.core c).FaultsInL1
  poison : (s.core c).lsPoison = []

theorem State.LsClean.lsTouch {c : Nat} (h : s.LsClean c) (o n y : Nat) : s.lsTouch c o n y = s := by
  have hf : (s.core c).errs.faults.filter (fun f => decide (f.array = 0) && touches o n f.key) = [] := by
    rw [List.filter_eq_nil_iff]
    intro f hf
    simp [h.faults f hf]
  simp only [State.lsTouch, State.arrayTouch, hf, List.foldl_nil]

/-- What differs in caches and threads leaves the local stores and their poison. -/
theorem SameDevice.lsRead (h : SameDevice s u) (c o n : Nat) : u.lsRead c o n = s.lsRead c o n := by
  have hls : (u.core c).ls = (s.core c).ls := by
    have := congrArg Core.ls (h.cores c)
    exact this
  simp only [State.lsRead, lsGet, hls]

theorem SameDevice.lsPoison (h : SameDevice s u) (c : Nat) : (u.core c).lsPoison = (s.core c).lsPoison := by
  have := congrArg Core.lsPoison (h.cores c)
  exact this

theorem State.LsClean.atScope {c : Nat} (h : s.LsClean c) (scope : Nat) : (s.atScope scope).LsClean c where
  faults := by
    have ha := faultsInL1_ackAll h.faults s.iss.thr
    unfold State.atScope
    split
    · exact ha
    · by_cases hc : c = s.curCore
      · subst hc
        simpa [State.flushL1, Core.FaultsInL1] using ha
      · rw [State.flushL1, State.core_setCore_other _ _ hc]
        exact ha
  poison := by rw [(sameDevice_atScope scope).lsPoison]; exact h.poison

theorem localCheck_inside {o : W64} {z align limit : Nat} (ha : o.toNat % align = 0) (hl : o.toNat + z ≤ limit) :
    localCheck o z align limit = none := by
  rw [localCheck, if_neg (not_not_intro ha), if_neg (by omega)]

theorem localCheck_misaligned {o : W64} {z align limit : Nat} (ha : o.toNat % align ≠ 0) :
    localCheck o z align limit = some { cause := 4, tval := o } := if_pos ha

theorem localCheck_outside {o : W64} {z align limit : Nat} (ha : o.toNat % align = 0) (hl : limit < o.toNat + z) :
    localCheck o z align limit = some { cause := 6, tval := o } := by
  rw [localCheck, if_neg (not_not_intro ha), if_pos hl]

/-- An atomic of the local store, of what its operands name. -/
theorem amoLocal_inside {f : (SReg → W64) → W64 → Option W64} {new : Option W64} (h : s.Ready srcs (some d) false)
    (hm : a ∈ srcs) (ha : (s.src a).toNat % 8 = 0) (hl : (s.src a).toNat + 8 ≤ Config.localBytes) (hc : s.LsClean s.curCore)
    (hf : x.toNat ≠ 0 → s.cur.remOut = [])
    (hn : f (s.vals srcs) (BitVec.ofNat 64 (s.lsRead s.curCore (s.src a).toNat 8)) = new) :
    amoLocal d a srcs x f s =
      (new.elim (s.atScope x.toNat) fun v =>
        (s.atScope x.toNat).lsWrite s.curCore (s.src a).toNat (toBytes 8 v.toNat)).commit srcs [.s d] [(.s d, (BitVec.ofNat 64 (s.lsRead s.curCore (s.src a).toNat 8)).setWidth 512)] (.ready s.cycle) := by
  have hd := sameDevice_atScope (s := s) x.toNat
  have hcore : (s.atScope x.toNat).curCore = s.curCore := by simp only [State.curCore, hd.iss]
  have hc' := hc.atScope x.toNat
  have hpo : (s.atScope x.toNat).lsPoisoned s.curCore (s.src a).toNat 8 = false := by
    rw [State.lsPoisoned_clean hc'.poison]
  have hcyc : (s.atScope x.toNat).cycle = s.cycle := by
    have := congrArg State.cycle hd.rest
    exact this
  rw [amoLocal, State.withOps_ready h, State.vals_of_mem hm, localCheck_inside ha hl]
  dsimp only
  rw [State.atomically_free hf, ← State.atScope]
  simp only [hcore, hc'.lsTouch, hd.lsRead, hpo, Bool.false_eq_true, if_false, hn]
  cases new with
  | none => simp only [hcyc, Option.elim]
  | some v =>
    have hw : ((s.atScope x.toNat).lsWrite s.curCore (s.src a).toNat (toBytes 8 v.toNat)).cycle = s.cycle := hcyc
    simp only [hw, Option.elim]

theorem State.lsRead_lt (c o n : Nat) : s.lsRead c o n < 256 ^ n := by
  have := ofBytes_lt (lsGet (s.core c) o n)
  rwa [show (lsGet (s.core c) o n).length = n by simp [lsGet]] at this

theorem execLdl_inside {w : BitVec 2} (h : s.Ready [a] (some d) false) (ha : (s.src a).toNat % 2 ^ w.toNat = 0)
    (hl : (s.src a).toNat + 2 ^ w.toNat ≤ Config.localBytes) (hc : s.LsClean s.curCore) :
    execLdl w d a x s = .next ((if x.toNat = 0 then s else s.flushL1 s.curCore).commit [a] [.s d]
      [(.s d, (BitVec.ofNat 64 (s.lsRead s.curCore (s.src a).toNat (2 ^ w.toNat))).setWidth 512)] (.ready s.cycle)) := by
  have hd := (sameButL1_acquired (s := s) x s.curCore).dev
  generalize hu : (if x.toNat = 0 then s else s.flushL1 s.curCore) = u at hd
  have hcore : u.curCore = s.curCore := by simp only [State.curCore, hd.iss]
  have hc' : u.LsClean s.curCore := by
    subst hu
    split
    · exact hc
    · exact ⟨by simpa [State.flushL1, Core.FaultsInL1] using hc.faults, by simpa [State.flushL1] using hc.poison⟩
  have hpo : u.lsPoisoned s.curCore (s.src a).toNat (2 ^ w.toNat) = false := by rw [State.lsPoisoned_clean hc'.poison]
  have hcyc : u.cycle = s.cycle := by
    have := congrArg State.cycle hd.rest
    exact this
  have hv : BitVec.ofNat 512 (s.lsRead s.curCore (s.src a).toNat (2 ^ w.toNat)) =
      (BitVec.ofNat 64 (s.lsRead s.curCore (s.src a).toNat (2 ^ w.toNat))).setWidth 512 := by
    have hlt := s.lsRead_lt s.curCore (s.src a).toNat (2 ^ w.toNat)
    have hw : 256 ^ 2 ^ w.toNat ≤ 256 ^ 8 := Nat.pow_le_pow_right (by decide)
      (Nat.pow_le_pow_right (n := 2) (by decide) (show w.toNat ≤ 3 by omega))
    apply BitVec.eq_of_toNat_eq
    rw [BitVec.toNat_setWidth, BitVec.toNat_ofNat, BitVec.toNat_ofNat]
    omega
  rw [execLdl, State.withOps_ready h]
  simp only [State.vals_singleton, widthBytes, localCheck_inside ha hl, State.acquire_eq, hu, hcore, hc'.lsTouch, hd.lsRead, hpo, hcyc, hv, Bool.false_eq_true, if_false]

theorem execStl_inside {w : BitVec 2} {b : SReg} (h : s.Ready [d, b] none) (ha : (s.src b).toNat % 2 ^ w.toNat = 0)
    (hl : (s.src b).toNat + 2 ^ w.toNat ≤ Config.localBytes) (hf : x.toNat ≠ 0 → s.cur.remOut = []) :
    execStl w d b x s = .next (((if x.toNat = 0 then s else s.ackAll s.iss.thr).lsWrite s.curCore (s.src b).toNat
      (toBytes (2 ^ w.toNat) (s.src d).toNat)).retire [d, b]) := by
  have hiss := (sameButL1_released (s := s) x s.iss.thr).dev.iss
  have hd : s.vals [d, b] d = s.src d := State.vals_of_mem (by simp)
  have hb : s.vals [d, b] b = s.src b := State.vals_of_mem (by simp)
  rw [execStl, State.withOps_ready (by exact h)]
  simp only [hb, hd, widthBytes, localCheck_inside ha hl, State.ordered_free hf, State.curCore, hiss]

/-- The checks of an atomic of the local store, and its wait. -/
theorem amoLocal_misaligned {f : (SReg → W64) → W64 → Option W64} (h : s.Ready srcs (some d) false) (hm : a ∈ srcs)
    (ha : (s.src a).toNat % 8 ≠ 0) : amoLocal d a srcs x f s = s.trap { cause := 4, tval := s.src a } := by
  rw [amoLocal, State.withOps_ready h, State.vals_of_mem hm, localCheck_misaligned ha]

theorem amoLocal_outside {f : (SReg → W64) → W64 → Option W64} (h : s.Ready srcs (some d) false) (hm : a ∈ srcs)
    (ha : (s.src a).toNat % 8 = 0) (hl : Config.localBytes < (s.src a).toNat + 8) :
    amoLocal d a srcs x f s = s.trap { cause := 6, tval := s.src a } := by
  rw [amoLocal, State.withOps_ready h, State.vals_of_mem hm, localCheck_outside ha hl]

theorem amoLocal_held {f : (SReg → W64) → W64 → Option W64} (h : s.Ready srcs (some d) false) (hm : a ∈ srcs)
    (ha : (s.src a).toNat % 8 = 0) (hl : (s.src a).toNat + 8 ≤ Config.localBytes) (hx : x.toNat ≠ 0) (hh : s.cur.remOut ≠ []) :
    amoLocal d a srcs x f s = s := by
  rw [amoLocal, State.withOps_ready h, State.vals_of_mem hm, localCheck_inside ha hl]
  exact State.atomically_held hx hh

end

/-- Settles O15: loads, stores and atomics of the local store, by their shapes. -/
theorem localAccesses : Obligations.LocalAccesses := by
  unfold Obligations.LocalAccesses
  intro s w d a b x got rel u clean free o z old out put held atomics
  have hclean : clean → s.LsClean s.curCore := fun hc => ⟨by simp [Core.FaultsInL1, hc.1], hc.2⟩
  refine ⟨fun ha hl => ⟨fun hc h => ?_, fun h hf => ?_⟩, fun ha hl hc hf h => ?_, fun ha hl hc hf h => ?_, fun i n hi => ?_⟩
  · exact execLdl_inside h ha hl (hclean hc)
  · exact execStl_inside h ha hl hf
  · have key := fun {f : (SReg → W64) → W64 → Option W64} (v : W64) hn =>
      congrArg (Host.Outcome.next (φ := Fault) (ρ := Refusal)) (amoLocal_inside (f := f) (new := some v) (x := x) h
        (List.mem_cons_self ..) ha hl (hclean hc) hf hn)
    have hb : s.vals [a, b] b = s.src b := State.vals_of_mem (by simp)
    refine ⟨key (old + s.src b) ?_, key (s.src b) ?_, key (if old.toInt < (s.src b).toInt then old else s.src b) ?_,
      key (if old.toInt < (s.src b).toInt then s.src b else old) ?_⟩
    all_goals simp only [hb, BitVec.slt_iff_toInt_lt]
    all_goals rfl
  · have hb : s.vals [d, a, b] b = s.src b := State.vals_of_mem (by simp)
    have hd : s.vals [d, a, b] d = s.src d := State.vals_of_mem (by simp)
    have key := fun {f : (SReg → W64) → W64 → Option W64} new hn =>
      congrArg (Host.Outcome.next (φ := Fault) (ρ := Refusal)) (amoLocal_inside (f := f) (new := new) (x := x) h
        (by simp) ha hl (hclean hc) hf hn)
    by_cases he : old = s.src d
    · rw [if_pos he]
      exact key (some (s.src b)) (by simp only [hb, hd]; exact if_pos he)
    · rw [if_neg he]
      exact key none (by simp only [hb, hd]; exact if_neg he)
  · have hmis : o % z ≠ 0 → localCheck (s.src a) (2 ^ w.toNat) (2 ^ w.toNat) Config.localBytes =
        some { cause := 4, tval := s.src a } := localCheck_misaligned
    have hout : o % z = 0 → 0x60000 < o + z → localCheck (s.src a) (2 ^ w.toNat) (2 ^ w.toNat) Config.localBytes =
        some { cause := 6, tval := s.src a } := localCheck_outside
    have hins : o % z = 0 → o + z ≤ 0x60000 → localCheck (s.src a) (2 ^ w.toNat) (2 ^ w.toNat) Config.localBytes = none :=
      localCheck_inside
    rcases hi with ⟨rfl, rfl, h⟩ | ⟨rfl, rfl, h⟩ | ⟨hi, rfl, h⟩ | ⟨rfl, rfl, h⟩
    · refine ⟨fun ha => ?_, fun ha hl => ?_, fun _ _ _ hne => absurd rfl hne⟩
      · refine congrArg Host.Outcome.next ((State.withOps_ready h).trans ?_)
        simp only [State.vals_singleton, widthBytes, hmis ha]
      · refine congrArg Host.Outcome.next ((State.withOps_ready h).trans ?_)
        simp only [State.vals_singleton, widthBytes, hout ha hl]
    · have hv : s.vals [d, a] a = s.src a := State.vals_of_mem (by simp)
      refine ⟨fun ha => ?_, fun ha hl => ?_, fun ha hl hh _ => ?_⟩
      · refine congrArg Host.Outcome.next ((State.withOps_ready (by exact h)).trans ?_)
        simp only [hv, widthBytes, hmis ha]
      · refine congrArg Host.Outcome.next ((State.withOps_ready (by exact h)).trans ?_)
        simp only [hv, widthBytes, hout ha hl]
      · refine congrArg Host.Outcome.next ((State.withOps_ready (by exact h)).trans ?_)
        simp only [hv, widthBytes, hins ha hl, State.ordered_held hh.1 hh.2]
    · obtain ⟨f, hf⟩ : ∃ f, exec i s = .next (amoLocal d a [a, b] x f s) := by
        simp only [atomics, List.mem_cons, List.not_mem_nil, or_false] at hi
        rcases hi with rfl | rfl | rfl | rfl <;> exact ⟨_, rfl⟩
      rw [hf]
      exact ⟨fun ha => congrArg _ (amoLocal_misaligned h (by simp) ha), fun ha hl => congrArg _ (amoLocal_outside h (by simp) ha hl),
        fun ha hl hh _ => congrArg _ (amoLocal_held h (by simp) ha hl hh.1 hh.2)⟩
    · exact ⟨fun ha => congrArg Host.Outcome.next (amoLocal_misaligned h (by simp) ha),
        fun ha hl => congrArg Host.Outcome.next (amoLocal_outside h (by simp) ha hl),
        fun ha hl hh _ => congrArg Host.Outcome.next (amoLocal_held h (by simp) ha hl hh.1 hh.2)⟩

end Sys2Proof.Machine

/-! SUPPORT. Messages between cores, arrival words and chain links (07_memory R152 to R158, 08_barrier R160 to R169). -/

namespace Sys2Proof.Machine

open Sys2Proof

section
variable {s u : State}

/-! ### Values of two and three sources -/

theorem vals_pair (s : State) (a b : SReg) : s.vals [a, b] a = s.src a ∧ s.vals [a, b] b = s.src b :=
  ⟨State.vals_of_mem (by simp), State.vals_of_mem (by simp)⟩

theorem vals_triple (s : State) (d a b : SReg) :
    s.vals [d, a, b] d = s.src d ∧ s.vals [d, a, b] a = s.src a ∧ s.vals [d, a, b] b = s.src b :=
  ⟨State.vals_of_mem (by simp), State.vals_of_mem (by simp), State.vals_of_mem (by simp)⟩

/-! ### The check of a target and an offset (R152) -/

theorem remoteCheck_inside {core o : W64} {z : Nat} (hc : core.toNat < 1536) (ha : o.toNat % z = 0)
    (hl : o.toNat + z ≤ 0x60000) : remoteCheck core o z z Config.localBytes = none :=
  (if_neg (Nat.not_le.2 hc)).trans (localCheck_inside ha hl)

theorem remoteCheck_absent {core o : W64} {z : Nat} (hc : 1536 ≤ core.toNat) :
    remoteCheck core o z z Config.localBytes = some { cause := 15, tval := BitVec.ofNat 64 (core.toNat % 2048 + 2 ^ 12) } :=
  if_pos hc

theorem remoteCheck_misaligned {core o : W64} {z : Nat} (hc : core.toNat < 1536) (ha : o.toNat % z ≠ 0) :
    remoteCheck core o z z Config.localBytes = some { cause := 4, tval := o } :=
  (if_neg (Nat.not_le.2 hc)).trans (localCheck_misaligned ha)

theorem remoteCheck_outside {core o : W64} {z : Nat} (hc : core.toNat < 1536) (ha : o.toNat % z = 0)
    (hl : 0x60000 < o.toNat + z) : remoteCheck core o z z Config.localBytes = some { cause := 6, tval := o } :=
  (if_neg (Nat.not_le.2 hc)).trans (localCheck_outside ha hl)

/-- What goes on where a check finds nothing, and traps where it finds an error. -/
def State.checked (s : State) (e : Option Err) (k : State) : State :=
  match e with
  | some e => s.trap e
  | none => k

/-- A late instruction with ready operands goes on with the values of its sources. -/
theorem next_withOps_late {srcs : List SReg} {dst : Option SReg} {k : (SReg → W64) → State} {t : State}
    (h : s.Ready srcs dst false) (hk : k (s.vals srcs) = t) : (.next (s.withOps srcs dst k true) : Out) = .next t := by
  rw [State.withOps_ready h, hk]

/-- The traps of an access of another core's local store. -/
theorem remote_traps {j : Instr} {n : Nat} {a b : SReg} {srcs : List SReg} {dst : Option SReg} {late : Bool}
    {k : (SReg → W64) → State}
    (hj : exec j s = .next (s.withOps srcs dst (fun r => s.checked (remoteCheck (r a) (r b) n n Config.localBytes) (k r)) late))
    (hr : s.Ready srcs dst (!late)) (ha : a ∈ srcs) (hb : b ∈ srcs) :
    (1536 ≤ (s.src a).toNat →
      exec j s = .next (s.trap { cause := 15, tval := BitVec.ofNat 64 ((s.src a).toNat % 2048 + 2 ^ 12) })) ∧
    ((s.src a).toNat < 1536 → (s.src b).toNat % n ≠ 0 → exec j s = .next (s.trap { cause := 4, tval := s.src b })) ∧
    ((s.src a).toNat < 1536 → (s.src b).toNat % n = 0 → 0x60000 < (s.src b).toNat + n →
      exec j s = .next (s.trap { cause := 6, tval := s.src b })) := by
  rw [hj, State.withOps_ready hr, State.vals_of_mem ha, State.vals_of_mem hb]
  exact ⟨fun h => by rw [remoteCheck_absent h]; rfl, fun h1 h2 => by rw [remoteCheck_misaligned h1 h2]; rfl,
    fun h1 h2 h3 => by rw [remoteCheck_outside h1 h2 h3]; rfl⟩

/-! ### Arrival (R155, R156) -/

/-- The oldest message that may be performed is, where no handler runs. -/
theorem State.onMsg_taken {src tgt : Nat} {p : Msg → Bool} {k : Msg → State → State} {m : Msg} {rest : List Msg}
    (h : takeMsg src tgt (fun x => p x && !x.held && x.cleared s.net) [] s.net = some (m, rest))
    (hf : s.isFree (tgt * 8 + 7) = true) : s.onMsg src tgt p k = k m { s with net := rest } := by
  simp only [State.onMsg, h, hf, if_true]

/-- A core with no fault and no poison in its local store. -/
theorem State.LsClean.of_empty {c : Nat} (hf : (s.core c).errs.faults = []) (hp : (s.core c).lsPoison = []) : s.LsClean c :=
  ⟨by simp [Core.FaultsInL1, hf], hp⟩

theorem countOff_eq (o : Nat) : countOff o = decide (o % 16 = 4) := rfl

end

/-- Settles O16: what each instruction sends or traps, and what each message does where it arrives. -/
theorem remoteAndMessages : Obligations.RemoteAndMessages := by
  unfold Obligations.RemoteAndMessages
  refine ⟨fun s w h d a b r i => ?_, fun s w h d a b i => ?_, fun s src tgt m rest kind ht hfree => ?_⟩
  · intro core o z
    obtain ⟨p1, p2⟩ := vals_pair s a b
    obtain ⟨t1, t2, t3⟩ := vals_triple s d a b
    refine ⟨fun hc => ⟨fun ha hl => ?_, fun ha hl => ?_, fun hr => next_withOps hr ?_⟩,
      fun k hr hh hn ha hl => next_withOps hr ?_, fun hr he => next_withOps hr ?_, ?_, ?_⟩
    · have hchk : remoteCheck (s.src a) (s.src b) (2 ^ w.toNat) (2 ^ w.toNat) Config.localBytes = none :=
        remoteCheck_inside hc ha hl
      refine ⟨fun hr => next_withOps_late hr ?_, fun hr => next_withOps hr ?_⟩
      · simp only [p1, p2, widthBytes, hchk]; rfl
      · simp only [t1, t2, t3, widthBytes, hchk]; rfl
    · have hchk : remoteCheck (s.src a) (s.src b) 4 4 Config.localBytes = none := remoteCheck_inside hc ha hl
      refine ⟨fun hr => next_withOps hr ?_, fun hr => next_withOps_late hr ?_⟩
      · simp only [t1, t2, t3, hchk]; rfl
      · simp only [t1, t2, t3, hchk]; rfl
    · simp only [p1, p2]
      exact if_neg (Nat.not_le.2 hc)
    · simp only [State.vals_singleton, hh, hn, Bool.false_eq_true, if_false, localCheck_inside (limit := Config.localBytes) ha hl]
      rfl
    · simp only [State.vals_singleton, he, Bool.false_eq_true, if_false]
    · intro hk
      refine congrArg Host.Outcome.next ?_
      rw [effAddr_eq]
      exact if_pos (by simpa using hk)
    · intro hk
      refine congrArg Host.Outcome.next ?_
      rw [effAddr_eq]
      exact if_neg (by simpa [Bool.or_eq_false_iff] using hk)
  · intro core o
    refine ⟨fun j n hj => ?_, fun hr hc => next_withOps hr ?_, fun hr => ⟨fun hh => ?_, fun k hh hn => ⟨fun ha => ?_, fun ha hl => ?_⟩⟩,
      fun hr he => next_withOps hr ?_⟩
    · rcases hj with ⟨rfl, rfl, hr⟩ | ⟨rfl, rfl, hr⟩ | ⟨rfl, rfl, hr⟩ | ⟨rfl, rfl, hr⟩
      · exact remote_traps (k := fun r => (s.send (r a).toNat (.rld (r b).toNat (widthBytes w)) true).commit [a, b] [.s d] []
          (.reply (s.send (r a).toNat (.rld (r b).toNat (widthBytes w)) true).cur.remSent)) rfl hr (by simp) (by simp)
      · exact remote_traps (k := fun r => (s.send (r a).toNat (.rst (r b).toNat (widthBytes w) (r d)) true).retire [d, a, b]) rfl hr
          (by simp) (by simp)
      · exact remote_traps (k := fun r => (s.send (r a).toNat (.radd (r b).toNat ((r d).setWidth 32) false) true).retire
          [d, a, b]) rfl hr (by simp) (by simp)
      · exact remote_traps (k := fun r => (s.send (r a).toNat (.radd (r b).toNat ((r d).setWidth 32) true) true).commit [d, a, b]
          [.s d] [] (.reply (s.send (r a).toNat (.radd (r b).toNat ((r d).setWidth 32) true) true).cur.remSent)) rfl hr
          (by simp) (by simp)
    · simp only [(vals_pair s a b).1]
      exact if_pos hc
    · refine next_withOps hr ?_
      rcases hh with hh | ⟨k, hh, hn⟩
      · simp only [hh]; rfl
      · simp only [hh, hn, if_true]; rfl
    · exact next_withOps hr (by simp only [hh, hn, Bool.false_eq_true, if_false, localCheck_misaligned ha])
    · exact next_withOps hr (by
        simp only [hh, hn, Bool.false_eq_true, if_false, localCheck_outside (limit := Config.localBytes) ha hl])
    · simp only [State.vals_singleton, he, if_true]
  · intro u
    refine ⟨fun hk hhas hfa hpo => ?_, fun hk hhas h w1 w2 w3 hb => ?_, fun hhas => ⟨fun hk => ?_, fun hk h w1 w2 w3 hb => ?_⟩⟩
    · subst hk
      have hc : u.LsClean tgt := State.LsClean.of_empty hfa hpo
      have hp : ∀ o n, u.lsPoisoned tgt o n = false := fun o n => State.lsPoisoned_clean hpo o n
      have hhas' : u.hasTask tgt m.owner.ctx = true := hhas
      have key : ∀ t, (_ : State) = t → exec (.builtinHandlerAccess src tgt) s = .next t := fun t ht' =>
        congrArg Host.Outcome.next ((State.onMsg_taken ht hfree).trans ht')
      refine ⟨fun o z hb => key _ ?_, fun o z v hb => key _ ?_, fun o v back hb => key _ ?_, fun o v to_ hb => key _ ?_⟩
      · simp only [hb, u, hhas', if_true, hc.lsTouch, hp, Bool.false_eq_true, if_false]; rfl
      · simp only [hb, u, hhas', if_true]
      · simp only [hb, u, hhas', if_true, hc.lsTouch, ite_self, hp, Bool.and_false, Bool.false_eq_true, if_false, State.addAt, countOff_eq,
          decide_eq_true_eq]
        rfl
      · simp only [hb, u, hhas', if_true]
    · subst hk
      have hhas' : u.hasTask tgt m.owner.ctx = true := hhas
      refine ⟨fun hpc => ?_, fun hpc => ?_⟩
      · refine congrArg Host.Outcome.next ((State.onMsg_taken ht hfree).trans ?_)
        simp only [hb, u, hhas', Bool.not_true, Bool.false_eq_true, if_false]
        exact if_neg hpc
      · refine congrArg Host.Outcome.next ((State.onMsg_taken ht hfree).trans ?_)
        simp only [hb, u, hhas', Bool.not_true, Bool.false_eq_true, if_false]
        exact if_pos hpc
    · subst hk
      have hhas' : u.hasTask tgt m.owner.ctx = false := hhas
      have key : ∀ t, (_ : State) = t → exec (.builtinHandlerAccess src tgt) s = .next t := fun t ht' =>
        congrArg Host.Outcome.next ((State.onMsg_taken ht hfree).trans ht')
      refine ⟨fun o z v hb => key _ ?_, fun o v back hb hs => key _ ?_, fun o v to_ hb => key _ ?_⟩
      · rcases hb with hb | hb <;> simp only [hb, u, hhas', Bool.false_eq_true, if_false] <;> rfl
      · simp only [hb, u, hhas', Bool.false_eq_true, if_false, countOff_eq, decide_eq_true_eq]
        split
        · next h4 =>
          have hs' : u.savedHome tgt m.owner.ctx (o - 4) 16 = none := hs h4
          simp only [u, hs']
        · rfl
      · simp only [hb, u, hhas', Bool.false_eq_true, if_false]
    · subst hk
      have hhas' : u.hasTask tgt m.owner.ctx = false := hhas
      refine congrArg Host.Outcome.next ((State.onMsg_taken ht hfree).trans ?_)
      simp only [hb, u, hhas', Bool.not_false, if_true]

/-! ### A FENCE (R151) -/

/-- Refutes O17: a FENCE of loads at CORE sets from when on the thread's later loads are performed; the statement's thread after
it is the one before with `far` cleared, that moment not set. In a state at moment 1 a thread whose base is 0 shows it. -/
theorem not_fencesAndCaches : ¬ Obligations.FencesAndCaches := by
  unfold Obligations.FencesAndCaches
  intro h
  obtain ⟨hgo, -⟩ := h.1 { State.reset with moment := 1 } 1
  have hbase := congrArg (fun t : State => t.cur.base) (Host.Outcome.next.inj (hgo (.inl (by decide))))
  exact absurd hbase (by decide +kernel)

/-! ### Arrival words (R160, R161) -/

/-- The fields of an arrival word. -/
theorem bits_word {t c g f : Nat} (ht : t < 2 ^ 32) (hc : c < 2 ^ 32) (hg : g < 2 ^ 32) :
    bits (t + c * 2 ^ 32 + g * 2 ^ 64 + f * 2 ^ 96) 31 0 = t ∧ bits (t + c * 2 ^ 32 + g * 2 ^ 64 + f * 2 ^ 96) 63 32 = c ∧
      bits (t + c * 2 ^ 32 + g * 2 ^ 64 + f * 2 ^ 96) 95 64 = g ∧ (t + c * 2 ^ 32 + g * 2 ^ 64 + f * 2 ^ 96) / 2 ^ 96 = f := by
  simp only [bits]
  norm_num at *
  omega

theorem genPast_eq {g : Nat} (hg : g < 2 ^ 32) (last : BitVec 32) :
    genPast g last = (decide (1 ≤ (BitVec.ofNat 32 g - last).toNat) && decide ((BitVec.ofNat 32 g - last).toNat ≤ 2 ^ 31)) := by
  have hd : (g + 2 ^ 32 - last.toNat) % 2 ^ 32 = (BitVec.ofNat 32 g - last).toNat := by
    have := last.isLt
    rw [BitVec.toNat_sub, BitVec.toNat_ofNat]
    omega
  simp only [genPast, hd]

section
variable {s : State}

theorem State.LsClean.poisoned {c : Nat} (h : s.LsClean c) (o n : Nat) : s.lsPoisoned c o n = false :=
  State.lsPoisoned_clean h.poison o n

theorem setWidth_ofNat_of_lt {g : Nat} (hg : g < 2 ^ 32) : BitVec.ofNat 64 g = (BitVec.ofNat 32 g).setWidth 64 := by
  apply BitVec.eq_of_toNat_eq
  rw [BitVec.toNat_setWidth, BitVec.toNat_ofNat, BitVec.toNat_ofNat]
  omega

/-- Reading entries at their home slices leaves what the thread has sent. -/
theorem State.cur_foldl_replied (f : Nat → Nat) (l : List Nat) :
    ((l.foldl (fun u i => u.replied s.iss.thr (f i)) s).iss = s.iss) ∧
      (l.foldl (fun u i => u.replied s.iss.thr (f i)) s).cur.remSent = s.cur.remSent := by
  suffices ∀ (t : State) (n : Nat), n = t.iss.thr → (l.foldl (fun u i => u.replied n (f i)) t).iss = t.iss ∧
      (l.foldl (fun u i => u.replied n (f i)) t).cur.remSent = t.cur.remSent from this s _ rfl
  induction l with
  | nil => exact fun t n h => ⟨rfl, rfl⟩
  | cons a r ih =>
    intro t n h
    subst h
    obtain ⟨h1, h2⟩ := ih (t.replied t.iss.thr (f a)) t.iss.thr rfl
    refine ⟨h1, h2.trans ?_⟩
    simp only [State.cur, State.replied, State.performedAt, State.setThread_iss, State.setCore_iss, State.thread_setThread_same,
      State.thread_setCore]

theorem State.withSet_poisoned {set : Nat} {k : State → List Nat → State}
    (hp : s.memPoisoned ((s.ctx s.cur.ctx).multicast % 2 ^ 40 + 256 * set) 256 = true) :
    s.withSet set k = ((List.range 4).foldl (fun u i => u.replied s.iss.thr
      ((s.ctx s.cur.ctx).multicast % 2 ^ 40 + 256 * set + 64 * i)) s).trap (eccMem 0) := by
  simp only [State.withSet, hp, if_true]
  rfl

/-- A waiting instruction's result goes to a register, or to a link with room. -/
theorem State.unblockInto_open {t : Nat} {x : Waiting} {d : SReg} {k : State → State}
    (h : d = 31#5 → ∃ l, s.downLink t = some l ∧ l.vals.length < 16 ∧ (s.thread t).remOut = []) :
    s.unblockInto t x d k = s.unblock t x k := by
  unfold State.unblockInto
  split
  · next hd =>
    obtain ⟨l, hl, hv, hr⟩ := h hd
    simp only [hl]
    exact if_neg (by simp [hr, hv])
  · rfl

theorem State.unblockInto_gone {t : Nat} {x : Waiting} {d : SReg} {k : State → State} (hd : d = 31#5)
    (h : s.downLink t = none) : s.unblockInto t x d k = s.unblockTrap t x (queueErr 31 1) := by
  simp only [State.unblockInto, if_pos hd, h]

/-- A credit at a core that holds a task of its context. -/
theorem State.credit_here {ctx core o : Nat} {n : BitVec 32} (h : s.hasTask core ctx = true)
    (hf : (s.core core).errs.faults = []) : s.credit ctx core o n = (s.awCreditAt core o n, true) := by
  have hh : s.home ctx none core o 16 = .live := by
    simp only [State.home, State.ownSaved, h, if_true]
  simp only [State.credit, hh, State.lsTouch_clean hf]

theorem State.credit_refused {ctx core o : Nat} {n : BitVec 32} (h : s.hasTask core ctx = false)
    (hs : s.savedHome core ctx o 16 = none) : s.credit ctx core o n = (s, false) := by
  have hh : s.home ctx none core o 16 = .refused := by
    simp only [State.home, State.ownSaved, h, Bool.false_eq_true, if_false, hs]
  simp only [State.credit, hh]

end

/-- Settles O18: the rule of a credit on the word's fields, and each instruction and step on words in order. -/
theorem arrivalWords : Obligations.ArrivalWords := by
  unfold Obligations.ArrivalWords
  refine ⟨fun target count gen flags n ht hc hg hf => ?_, fun s d a b => ?_⟩
  · intro word sum
    obtain ⟨h1, h2, h3, h4⟩ := bits_word (f := flags) ht hc hg
    have h33 : bits flags 3 3 = 0 := by
      simp only [bits]
      omega
    have hsum : sum - sum / target * target = sum % target := by
      rw [Nat.mul_comm]
      exact (Nat.mod_eq_sub_mul_div ..).symm
    simp only [awCredit, word, h1, h2, h3, h4, h33, and_true]
    split
    · next h0 => simp only [← Nat.not_lt, ite_not]; rfl
    · rw [← hsum]
  obtain ⟨p1, p2⟩ := vals_pair s a b
  obtain ⟨t1, t2, t3⟩ := vals_triple s d a b
  refine ⟨fun hr ha hl hfa hpo => next_withOps hr ?_, fun hr ha hl hfa hpo => ?_, fun hr ha hl => ⟨fun hc => next_withOps hr ?_, ?_⟩,
    fun t x off last hst hw hx hfa hpo => ?_, fun src tgt m rest o n ht hfree hb => ?_⟩
  · have hc := State.LsClean.of_empty hfa hpo
    have hlow : bits (s.src b).toNat 31 0 = (s.src b).toNat % 2 ^ 32 := by simp [bits]
    simp only [p1, p2, localCheck_inside (limit := Config.localBytes) ha hl, hc.lsTouch, hc.poisoned, Bool.false_eq_true, if_false,
      hlow]
    rfl
  · intro o g last
    have hc := State.LsClean.of_empty hfa hpo
    have hg32 : s.lsRead s.curCore (o + 8) 4 < 2 ^ 32 := s.lsRead_lt _ _ 4
    have hpast := genPast_eq hg32 last
    refine ⟨fun h1 h2 => next_withOps hr ?_, fun h => next_withOps hr ?_⟩
    · have hp : genPast (s.lsRead s.curCore (o + 8) 4) last = true := by
        rw [hpast, decide_eq_true h1, decide_eq_true h2]; rfl
      simp only [p1, p2, localCheck_inside (limit := Config.localBytes) ha hl, hc.lsTouch, hc.poisoned, Bool.false_eq_true, if_false]
      rw [if_pos hp, setWidth_ofNat_of_lt hg32]
    · have hp : genPast (s.lsRead s.curCore (o + 8) 4) last = false := by
        rw [hpast]
        rcases h with h | h
        · rw [show BitVec.ofNat 32 (s.lsRead s.curCore (o + 8) 4) = last from h]
          simp
        · rw [Bool.and_eq_false_iff]
          exact .inr (decide_eq_false (Nat.not_le.2 h))
      simp only [p1, p2, localCheck_inside (limit := Config.localBytes) ha hl, hc.lsTouch, hc.poisoned, Bool.false_eq_true, if_false]
      exact if_neg (by rw [hp]; decide)
  · have hchk : remoteCheck (s.src a) (s.src b) 16 16 Config.localBytes = none := remoteCheck_inside hc ha hl
    simp only [t1, t2, t3, hchk]
    rfl
  · intro set pa
    obtain ⟨hiss, hsent⟩ := State.cur_foldl_replied (s := s) (fun i => pa + 64 * i) (List.range 4)
    have hset : bits (s.src a).toNat 5 0 = set := by simp [bits, set]
    refine ⟨fun hp => next_withOps hr ?_, fun cores hp hm => next_withOps hr ?_⟩
    · rw [t2, hset, State.withSet_poisoned hp]
    · rw [t2, hset, State.withSet_clean (cores := cores) hp hm]
      simp only [t1, t3, localCheck_inside (limit := Config.localBytes) ha hl, State.nextNum]
      rw [show (s.ctx s.cur.ctx).multicast % 2 ^ 40 + 256 * set = pa from rfl, hiss, hsent]
  · intro g h1 h2
    have hc := State.LsClean.of_empty hfa hpo
    have hg32 : s.lsRead (coreOf t) (off.toNat + 8) 4 < 2 ^ 32 := s.lsRead_lt _ _ 4
    have hp : genPast (s.lsRead (coreOf t) (off.toNat + 8) 4) last = true := by
      rw [genPast_eq hg32, decide_eq_true h1, decide_eq_true h2]; rfl
    have hstep : exec (.waitgenComplete t) s = .next (s.unblockInto t x d fun u =>
        (u.acquireWord t off.toNat).retireS [] d (BitVec.ofNat 64 (s.lsRead (coreOf t) (off.toNat + 8) 4))) := by
      refine congrArg Host.Outcome.next ?_
      simp only [hst, hw, hx, hc.lsTouch, hc.poisoned, Bool.false_eq_true, if_false, hp, if_true]
    rw [hstep, setWidth_ofNat_of_lt hg32]
    exact ⟨fun h => congrArg _ (State.unblockInto_open h), fun hd hl => congrArg _ (State.unblockInto_gone hd hl)⟩
  · intro u
    have hcr := State.onMsg_taken (k := fun m s' => match m.body with
      | .credit o n => match s'.credit m.owner.ctx tgt o n with
        | (s'', true) => s''.answer m 0 none
        | (_, false) => s'.answer m 0 (some 2)
      | _ => s) ht hfree
    refine ⟨fun hh hfa => ?_, fun hh hs => ?_⟩
    · have hc := State.credit_here (s := u) (o := o) (n := n) hh hfa
      refine (congrArg Host.Outcome.next hcr).trans ?_
      simp only [hb, u] at hc ⊢
      simp only [hc]
    · have hc := State.credit_refused (s := u) (n := n) hh hs
      refine (congrArg Host.Outcome.next hcr).trans ?_
      simp only [hb, u] at hc ⊢
      simp only [hc]

/-- Settles O19: connecting, disconnecting and reading a link, by the branches of each. -/
theorem chainLinks : Obligations.ChainLinks := by
  unfold Obligations.ChainLinks
  intro s d a t peer
  refine ⟨fun hr => ⟨fun h14 hne hlt hg hpg hc hu hd => next_withOps hr ?_, fun h14 => ⟨fun hd => next_withOps hr ?_, fun l hd =>
    ⟨fun hv => next_withOps hr ?_, fun hv => next_withOps hr ?_⟩⟩⟩, fun u x l hst hw hx hd hv => ?_, fun hr => next_withOps hr ?_⟩
  · have hp : bits (s.src a).toNat 13 0 = peer := by simp [bits, peer]
    simp only [State.vals_singleton, h14, if_true, hp]
    refine if_neg ?_
    rintro (h | h | h | h | h | h | h)
    · exact hne h
    · exact absurd h (Nat.not_le.2 hlt)
    · exact hg h
    · exact h hpg
    · exact h hc
    · rw [hu] at h; cases h
    · rw [show s.downLink s.iss.thr = none from hd] at h; cases h
  · simp only [State.vals_singleton, h14, Bool.false_eq_true, if_false]
    rw [show s.downLink s.iss.thr = none from hd]
  · simp only [State.vals_singleton, h14, Bool.false_eq_true, if_false]
    simp only [show s.downLink s.iss.thr = some l from hd, hv]
    rfl
  · simp only [State.vals_singleton, h14, Bool.false_eq_true, if_false]
    simp only [show s.downLink s.iss.thr = some l from hd]
    exact if_pos hv
  · refine congrArg Host.Outcome.next ?_
    simp only [hst, hw, hx, hd, hv]
    rfl
  · simp only [State.vals_singleton]
    rfl

end Sys2Proof.Machine

/-! SUPPORT. Tasks that start, pings, and bundles whose late results come (03_thread R51 to R61). -/

namespace Sys2Proof.Machine

open Sys2Proof

section
variable {s : State}

/-! ### SPAWN (R51, R52) -/

/-- The slots of a core, as a SPAWN looks at them. -/
theorem mem_slots {core t : Nat} : t ∈ (List.range 7).map (fun k => core * 8 + k) ↔ coreOf t = core ∧ slotOf t < 7 := by
  simp only [List.mem_map, List.mem_range, coreOf, slotOf]
  constructor
  · rintro ⟨k, hk, rfl⟩
    omega
  · rintro ⟨h1, h2⟩
    exact ⟨t % 8, h2, by omega⟩

theorem spawnable_iff {g : Nat × Nat} {t : Nat} :
    spawnable s g t ↔ slotOf t < 7 ∧ (s.isFree t && decide ((s.thread t).grp = some g)) = true := by
  simp only [spawnable, State.isFree, Bool.and_eq_true, decide_eq_true_eq, and_assoc]

theorem State.freeSlot_none {core : Nat} {g : Nat × Nat} (h : ∀ u, coreOf u = core → ¬spawnable s g u) :
    s.freeSlot core g = none := by
  refine List.find?_eq_none.2 fun u hu hp => ?_
  obtain ⟨hc, h7⟩ := mem_slots.1 hu
  exact h u hc (spawnable_iff.2 ⟨h7, hp⟩)

/-- The lowest slot that serves is found. -/
theorem State.freeSlot_lowest {core t : Nat} {g : Nat × Nat} (hc : coreOf t = core) (ht : spawnable s g t)
    (hl : ∀ u, u < t → coreOf u = core → ¬spawnable s g u) : s.freeSlot core g = some t := by
  obtain ⟨h7, hp⟩ := spawnable_iff.1 ht
  have ht' : t = core * 8 + slotOf t := by
    simp only [coreOf, slotOf] at *
    omega
  rw [State.freeSlot, List.find?_eq_some_iff_append]
  refine ⟨hp, (List.range (slotOf t)).map (fun k => core * 8 + k),
    ((List.range' (slotOf t + 1) (6 - slotOf t)).map fun k => core * 8 + k), ?_, fun u hu => ?_⟩
  · have hr : List.range 7 = List.range (slotOf t) ++ slotOf t :: List.range' (slotOf t + 1) (6 - slotOf t) := by
      rw [List.range_eq_range', List.range_eq_range', ← List.range'_succ,
        show 6 - slotOf t + 1 = 7 - slotOf t by omega]
      have := List.range'_append_1 (s := 0) (m := slotOf t) (n := 7 - slotOf t)
      rw [Nat.zero_add] at this
      rw [this]
      congr 1
      omega
    rw [hr, List.map_append, List.map_cons, ← ht']
  · obtain ⟨k, hk, rfl⟩ := List.mem_map.1 hu
    have hk := List.mem_range.1 hk
    by_contra hq
    have hcore : coreOf (core * 8 + k) = core ∧ slotOf (core * 8 + k) < 7 := mem_slots.1 (List.mem_map.2 ⟨k, by simpa using by omega, rfl⟩)
    exact hl _ (by omega) hcore.1 (spawnable_iff.2 ⟨hcore.2, by simpa using hq⟩)

section
variable {waits : Bool} {d a b : SReg} {ser g : Nat} {grp : Group}

/-- What SPAWN and SPAWNW do once their operands are read and their group is found. -/
theorem spawn_grouped (h : s.Ready [a, b] (some d)) (he : (s.src b).getLsbD 0 = false) (hg : s.cur.grp = some (ser, g))
    (hgr : s.group? ser g = some grp) :
    spawn waits d a b s =
      if slotOf s.iss.thr = 7 ∨ (s.kernel ser).w * (s.kernel ser).p ≤ (s.src a).toNat % 8 then s.retireS [a, b] d (-1)
      else (s.freeSlot (grp.clu * 8 + grp.first + (s.src a).toNat % 8) (ser, g)).elim
        (if waits then s.block (.spawn (grp.clu * 8 + grp.first + (s.src a).toNat % 8) (s.src b) d) [a, b]
          else s.retireS [a, b] d (-1))
        fun t => s.release fun s' => (s'.startThread t (s.src b) [s.cur.readS 1, s.cur.readS 2, s.cur.readS 3, s.cur.readS 4]
          s.cur.ctx s.cur.vf).retireS [a, b] d (BitVec.ofNat 64 t) := by
  obtain ⟨ha, hb⟩ := vals_pair s a b
  have hbits : bits (s.src a).toNat 2 0 = (s.src a).toNat % 8 := by simp [bits]
  rw [spawn, State.withOps_ready h]
  simp only [ha, hb, he, Bool.false_eq_true, if_false, hg, hgr, hbits]
  split
  · rfl
  · cases s.freeSlot (grp.clu * 8 + grp.first + (s.src a).toNat % 8) (ser, g) <;> rfl

end

/-- A thread that has just started. -/
def freshThread (pc : W64) (ctx vf : Nat) (grp : Option (Nat × Nat)) (inc : Nat) (v1 v2 v3 v4 : W64) : Thread :=
  (((({ st := .runnable, pc := pc, ctx := ctx, vf := vf, grp := grp, inc := inc, startPc := pc,
        startArgs := [v1, v2, v3, v4] } : Thread).writeS 1 v1).writeS 2 v2).writeS 3 v3).writeS 4 v4

theorem freshThread_readS_zero {pc : W64} {ctx vf inc : Nat} {grp : Option (Nat × Nat)} {v1 v2 v3 v4 : W64} {r : SReg}
    (h : r.toNat = 0 ∨ 5 ≤ r.toNat) : (freshThread pc ctx vf grp inc v1 v2 v3 v4).readS r = 0 := by
  have hne : ∀ q : SReg, 1 ≤ q.toNat → q.toNat ≤ 4 → r ≠ q := by
    rintro q h1 h2 rfl
    omega
  unfold freshThread
  rw [Thread.readS_writeS_other _ _ _ _ (hne 4 (by decide) (by decide)), Thread.readS_writeS_other _ _ _ _ (hne 3 (by decide) (by decide)),
    Thread.readS_writeS_other _ _ _ _ (hne 2 (by decide) (by decide)), Thread.readS_writeS_other _ _ _ _ (hne 1 (by decide) (by decide))]
  simp [Thread.readS]

theorem freshThread_readS_args (pc v1 v2 v3 v4 : W64) (ctx vf inc : Nat) (grp : Option (Nat × Nat)) :
    (freshThread pc ctx vf grp inc v1 v2 v3 v4).readS 1 = v1 ∧ (freshThread pc ctx vf grp inc v1 v2 v3 v4).readS 2 = v2 ∧
      (freshThread pc ctx vf grp inc v1 v2 v3 v4).readS 3 = v3 ∧ (freshThread pc ctx vf grp inc v1 v2 v3 v4).readS 4 = v4 := by
  unfold freshThread
  refine ⟨?_, ?_, ?_, ?_⟩
  · rw [Thread.readS_writeS_other _ _ _ _ (by decide), Thread.readS_writeS_other _ _ _ _ (by decide),
      Thread.readS_writeS_other _ _ _ _ (by decide), Thread.readS_writeS_same _ _ _ (by decide) (by decide)]
  · rw [Thread.readS_writeS_other _ _ _ _ (by decide), Thread.readS_writeS_other _ _ _ _ (by decide),
      Thread.readS_writeS_same _ _ _ (by decide) (by decide)]
  · rw [Thread.readS_writeS_other _ _ _ _ (by decide), Thread.readS_writeS_same _ _ _ (by decide) (by decide)]
  · rw [Thread.readS_writeS_same _ _ _ (by decide) (by decide)]

theorem State.startThread_thread (t : Nat) (pc v1 v2 v3 v4 : W64) (ctx vf : Nat) :
    (s.startThread t pc [v1, v2, v3, v4] ctx vf).thread t = freshThread pc ctx vf (s.thread t).grp s.births v1 v2 v3 v4 :=
  State.thread_setThread_same _ _ _

end

/-- Settles O6: SPAWN by its branches, and the thread that starts. -/
theorem spawnStartsTask : Obligations.SpawnStartsTask := by
  unfold Obligations.SpawnStartsTask
  refine ⟨fun s d a b ser g grp h he hg hgr => ?_, fun s t pc v1 v2 v3 v4 ctx vf => ?_⟩
  · intro c core k args
    have key := fun waits => spawn_grouped (waits := waits) h he hg hgr
    refine ⟨fun h7 hc => ⟨fun t ht hs hl i hi => ?_, fun hn => ?_⟩, fun h7 i hi => ?_⟩
    · have hnot : ¬(slotOf s.iss.thr = 7 ∨ (s.kernel ser).w * (s.kernel ser).p ≤ (s.src a).toNat % 8) := by
        rintro (h | h)
        · exact h7 h
        · exact absurd h (Nat.not_le.2 hc)
      have hfree : s.freeSlot (grp.clu * 8 + grp.first + (s.src a).toNat % 8) (ser, g) = some t := State.freeSlot_lowest ht hs hl
      have hboth : ∀ waits, spawn waits d a b s = if s.cur.remOut = [] then
          ((s.ackAll s.iss.thr).startThread t (s.src b) args s.cur.ctx s.cur.vf).retireS [a, b] d (BitVec.ofNat 64 t) else s := by
        intro waits
        rw [key, if_neg hnot, hfree]
        rfl
      simp only [List.mem_cons, List.not_mem_nil, or_false] at hi
      rcases hi with rfl | rfl <;> exact congrArg Host.Outcome.next (hboth _)
    · have hnot : ¬(slotOf s.iss.thr = 7 ∨ (s.kernel ser).w * (s.kernel ser).p ≤ (s.src a).toNat % 8) := by
        rintro (h | h)
        · exact h7 h
        · exact absurd h (Nat.not_le.2 hc)
      have hfree : s.freeSlot (grp.clu * 8 + grp.first + (s.src a).toNat % 8) (ser, g) = none := State.freeSlot_none hn
      constructor <;> refine congrArg Host.Outcome.next ?_ <;> rw [key, if_neg hnot, hfree] <;> rfl
    · have hboth : ∀ waits, spawn waits d a b s = s.retireS [a, b] d (-1) := fun waits => by rw [key, if_pos h7]
      simp only [List.mem_cons, List.not_mem_nil, or_false] at hi
      rcases hi with rfl | rfl <;> exact congrArg Host.Outcome.next (hboth _)
  · intro th
    have hth : th = freshThread pc ctx vf (s.thread t).grp s.births v1 v2 v3 v4 := State.startThread_thread _ _ _ _ _ _ _ _
    rw [hth]
    obtain ⟨h1, h2, h3, h4⟩ := freshThread_readS_args pc v1 v2 v3 v4 ctx vf s.births (s.thread t).grp
    refine ⟨rfl, rfl, rfl, rfl, h1, h2, h3, h4, fun r hr => ?_, fun r => rfl, fun r => rfl, fun r => ?_, rfl, rfl, rfl, rfl, rfl, rfl,
      rfl, rfl, rfl⟩
    · exact freshThread_readS_zero hr
    · rfl

/-! ### Pings (R53) -/

section
variable {s : State} {t : Nat} {k : PingKind} {m : Msg} {here : Thread → State → State} {saved : Nat → State → State}

/-- A ping at a thread of its own context in the slot. -/
theorem State.arrive_here (h : s.net.find? (fun x => decide (x.body = .ping k t) && x.first s.net) = some m)
    (hst : (s.thread t).st ≠ .free) (hc : (s.thread t).ctx = m.owner.ctx) :
    s.arrive k t here saved =
      here { s.thread t with yieldEnd := max (s.thread t).yieldEnd (s.cycle + 1) }
        (({ s with net := s.net.erase m } : State).setThread t
          { s.thread t with yieldEnd := max (s.thread t).yieldEnd (s.cycle + 1) }) := by
  simp only [State.arrive, h]
  exact if_pos ⟨hst, hc⟩

/-- A ping at a slot that is free or of another context. -/
theorem State.arrive_saved (h : s.net.find? (fun x => decide (x.body = .ping k t) && x.first s.net) = some m)
    (hc : (s.thread t).st = .free ∨ (s.thread t).ctx ≠ m.owner.ctx) :
    s.arrive k t here saved = saved m.owner.ctx { s with net := s.net.erase m } := by
  simp only [State.arrive, h]
  exact if_neg fun ⟨h1, h2⟩ => hc.elim h1 fun hne => hne h2

/-- What is sent to a thread its number names, once a release is made. -/
theorem ping_eq {a : SReg} (h : s.Ready [a] none) :
    ping k a s = ((if (s.src a).toNat % 16384 < 12288 then
      (if k = .abort then s else s.ackAll s.iss.thr).send ((s.src a).toNat % 16384 / 8) (.ping k ((s.src a).toNat % 16384)) false
        (if k = .abort then 0 else s.cur.remSent + 1)
      else if k = .abort then s else s.ackAll s.iss.thr).retire [a]) := by
  have hb : bits (s.src a).toNat 13 0 = (s.src a).toNat % 16384 := by simp [bits]
  have hnum : (s.ackAll s.iss.thr).nextNum = s.cur.remSent + 1 := by rw [State.nextNum, State.ackAll_cur]
  rw [ping, State.withOps_ready (by exact h)]
  simp only [State.vals_singleton, hb]
  by_cases hk : k = .abort
  · simp only [if_pos hk]; rfl
  · simp only [if_neg hk, hnum]; rfl

end

/-- Settles O7: what each ping sends, and what it does at its thread, in its slot or saved. -/
theorem pings : Obligations.Pings := by
  unfold Obligations.Pings
  refine ⟨fun s a h => ?_, fun s t k m hm => ?_⟩
  · intro t v sent
    refine ⟨congrArg Host.Outcome.next (ping_eq h), fun hsys => ⟨?_, ?_⟩⟩
    · exact congrArg Host.Outcome.next ((if_pos hsys).trans (ping_eq h))
    · exact congrArg Host.Outcome.next ((if_pos hsys).trans (ping_eq h))
  · intro u i
    refine ⟨fun hst hc => ?_, fun hc => ⟨fun hn => ?_, fun key th hs => ?_⟩⟩
    · refine ⟨?_, ?_, ?_⟩ <;> rintro rfl <;> exact congrArg Host.Outcome.next (State.arrive_here hm hst hc)
    · have hn' : u.savedAt m.owner.ctx t = none := hn
      cases k
      · exact congrArg Host.Outcome.next ((State.arrive_saved hm hc).trans (by simp only [State.modSaved]; rw [hn']))
      · exact congrArg Host.Outcome.next ((State.arrive_saved hm hc).trans (by simp only [State.modSaved]; rw [hn']))
      · exact congrArg Host.Outcome.next ((State.arrive_saved hm hc).trans (by rw [hn']))
    · have hs' : u.savedAt m.owner.ctx t = some (key, th) := hs
      refine ⟨?_, ?_, ?_⟩
      · rintro rfl
        exact congrArg Host.Outcome.next ((State.arrive_saved hm hc).trans (by simp only [State.modSaved]; rw [hs']))
      · rintro rfl
        refine congrArg Host.Outcome.next ((State.arrive_saved hm hc).trans ?_)
        simp only [State.modSaved]
        rw [hs']
        refine congrArg (u.changeSaved key t) (funext fun th => ?_)
        split <;> rfl
      · rintro rfl w g hg
        refine congrArg Host.Outcome.next ((State.arrive_saved hm hc).trans ?_)
        rw [hs']
        simp only [State.dropSaved]
        rw [show tfind _ key = some g from hg]

/-! ### Gangs (R63) -/

/-- Two tasks of neighbouring cores that wait in GANG2. -/
def gangWaiting : State :=
  { State.reset with
    thr := [(0, { st := .waiting, wait := some { b := { pc := 0, words := [], la := 0 }, w := .gang 2, pops := false } }),
            (8, { st := .waiting, wait := some { b := { pc := 0, words := [], la := 0 }, w := .gang 2, pops := false } })] }

/-- Refutes O8: a gang's number is the count of gangs with it counted, one above the number the statement gives it. In a state
where thread 8 waits in GANG2 and thread 0 issues it, the gang formed first is number 1, not 0. -/
theorem not_gangForms : ¬ Obligations.GangForms := by
  unfold Obligations.GangForms
  intro h
  have h1 := (h { gangWaiting with thr := tput gangWaiting.thr 0 { st := .runnable } } 2 .gang2 (by simp) (by decide)).1
    (by decide +kernel)
  obtain ⟨v, next, past, hv, -, -, hm⟩ := h1.1 (by decide +kernel)
  have hnum : (v.thread 0).gang.map Gang.num = some 0 := congrArg (fun th : Thread => th.gang.map Gang.num) (hm 0 (by decide))
  cases hv
  exact absurd hnum (by decide +kernel)

/-- Refutes O9: by the number of the gang that forms, as in O8. -/
theorem not_threadControl : ¬ Obligations.ThreadControl := by
  unfold Obligations.ThreadControl
  intro h
  obtain ⟨-, -, -, -, hgang⟩ := h.2 gangWaiting 0
  obtain ⟨v, b, hv, -, hm⟩ := hgang _ 2 rfl rfl (by decide) (by decide +kernel)
  have hnum : (v.thread 0).gang.map Gang.num = some 0 := congrArg (fun th : Thread => th.gang.map Gang.num) (hm 0 (by decide))
  cases hv
  exact absurd hnum (by decide +kernel)

/-! ### Late results (R59, R61) -/

theorem Thread.writeReg_pend (th : Thread) (r : Reg) (v : V512) : (th.writeReg r v).pend = th.pend := by
  cases r with
  | s d => exact Thread.writeS_pend _ _ _
  | a | v => rfl
  | m d =>
    simp only [Thread.writeReg, Thread.writeM]
    split <;> rfl

theorem Thread.dependOn_pend (th : Thread) (r : Reg) (m : Nat) : (th.dependOn r m).pend = th.pend := by
  unfold Thread.dependOn
  split <;> rfl

theorem Thread.writeLate_pend (th : Thread) (m : Nat) (vals : List (Reg × V512)) : (th.writeLate m vals).pend = th.pend := by
  unfold Thread.writeLate
  induction vals generalizing th with
  | nil => rfl
  | cons e r ih => exact (ih _).trans ((Thread.dependOn_pend _ _ _).trans (Thread.writeReg_pend _ _ _))

/-- Settles O10: delivering a result by the link it goes to, and the two traps. -/
theorem longLatencyAndLimits : Obligations.LongLatencyAndLimits := by
  unfold Obligations.LongLatencyAndLimits
  refine ⟨fun s t k c p hp hd hc he => ?_, fun s idx reason => ⟨rfl, ?_⟩⟩
  · intro th
    have hstep : exec (.longLatencyComplete t k) s = .next (s.deliver t k p) := by
      refine congrArg Host.Outcome.next ?_
      simp only [hp, hd, he]
      exact if_neg (Nat.not_lt.2 hc)
    rw [hstep]
    refine ⟨fun hn => ?_, fun v hv => ⟨fun l hl => ⟨fun hroom hout => ?_, fun hfull => ?_⟩, fun hl => ?_⟩⟩
    · have hf : p.vals.find? (fun e => decide (e.1 = Reg.s 31)) = none :=
        List.find?_eq_none.2 fun e h => by simpa using hn e h
      simp only [State.deliver, hf, Thread.writeLate_pend]
      rfl
    · have hnot : ¬(16 ≤ l.vals.length ∨ th.remOut ≠ []) := by simp [hout, hroom]
      simp only [State.deliver, hv, List.find?_cons, decide_true, hl]
      rw [if_neg hnot]
      rfl
    · simp only [State.deliver, hv, List.find?_cons, decide_true, hl]
      rw [if_pos hfull]
    · simp only [State.deliver, hv, List.find?_cons, decide_true, hl]
      rfl
  · have hn : BitVec.ofNat 64 (idx.toNat + 16 * reason.toNat) = (0#56 ++ reason ++ 0#1 ++ idx : BitVec 64) := by
      apply BitVec.eq_of_toNat_eq
      have h1 := idx.isLt
      have h2 := reason.isLt
      simp only [toNat_append_add, BitVec.toNat_ofNat]
      omega
    rw [← hn]
    rfl

end Sys2Proof.Machine

/-! SUPPORT. System registers, traps and translation: the statements PrivilegeTraps to Translation. -/

namespace Sys2Proof.Machine

open Sys2Proof

variable {s : State}

/-! ### Privilege -/

theorem State.system_user (k : State) (h : s.cur.tstate.getLsbD 2 = false) : s.system k = s.trap (privErr 1) :=
  if_neg (by rw [Thread.sysMode, h]; decide)
theorem State.system_sys (k : State) (h : s.cur.tstate.getLsbD 2 = true) : s.system k = k :=
  if_pos h
theorem State.systemCsr_user (n : Nat) (k : State) (h : s.cur.tstate.getLsbD 2 = false) :
    s.systemCsr n k = s.trap (privErr 1 n) :=
  if_neg (by rw [Thread.sysMode, h]; decide)
theorem State.systemCsr_failed {n : Nat} {e : Err} (k : State) (h : s.cur.tstate.getLsbD 2 = true) (he : s.csrCheck n = some e) :
    s.systemCsr n k = s.trap e :=
  (if_pos h).trans (by rw [he])
theorem State.systemCsr_ok {n : Nat} (k : State) (h : s.cur.tstate.getLsbD 2 = true) (he : s.csrCheck n = none) :
    s.systemCsr n k = k :=
  (if_pos h).trans (by rw [he])

theorem State.csrCheck_unlisted {n : Nat} (h : s.csr s.iss.thr n = none) : s.csrCheck n = some (privErr 2 n) := by
  simp [State.csrCheck, h]

/-- VFCTL and VFSTAT are listed in every state. -/
theorem State.csr_vf_listed {n : Nat} (hn : n = 0x060 ∨ n = 0x061) : ∃ v, s.csr s.iss.thr n = some v := by
  rcases hn with rfl | rfl <;> exact ⟨_, rfl⟩

theorem State.csrCheck_otherVf {n : Nat} (hn : n = 0x060 ∨ n = 0x061) (hvf : s.cur.vf ≠ 0) :
    s.csrCheck n = some (privErr 3 n) := by
  obtain ⟨v, hv⟩ := State.csr_vf_listed (s := s) hn
  simp [State.csrCheck, hv, hn, hvf]

theorem State.csrCheck_ok {n : Nat} {v : W64} (h : s.csr s.iss.thr n = some v) (hvf : n ≠ 0x060 ∧ n ≠ 0x061 ∨ s.cur.vf = 0) :
    s.csrCheck n = none := by
  simp only [State.csrCheck, h]
  rcases hvf with ⟨h0, h1⟩ | hvf
  · simp [h0, h1]
  · simp [hvf]

/-- A number in bits [7:0] of a register. -/
theorem bits_byte (x : Nat) : bits x 7 0 = x % 256 := by simp [bits]

/-- Settles O20: each class of check is the first that fails. -/
theorem privilegeTraps : Obligations.PrivilegeTraps := by
  unfold Obligations.PrivilegeTraps
  intro s d a r i priv
  refine ⟨fun huser => ⟨fun j hj => ?_, ?_, ?_⟩, fun hsys => ⟨fun hl => ?_, fun hc => ?_, fun hvf => ⟨fun hn => ?_, ?_⟩⟩⟩
  · fin_cases hj <;> exact congrArg Host.Outcome.next (State.system_user _ huser)
  · exact congrArg Host.Outcome.next (State.systemCsr_user _ _ huser)
  · exact congrArg Host.Outcome.next (State.systemCsr_user _ _ huser)
  · have hlvl : s.cur.level = 0 := by simpa [Thread.level, bits] using hl
    exact congrArg Host.Outcome.next ((State.system_sys _ hsys).trans (if_pos hlvl))
  · have hcheck := State.csrCheck_unlisted hc
    exact ⟨congrArg Host.Outcome.next (State.systemCsr_failed _ hsys hcheck),
      congrArg Host.Outcome.next (State.systemCsr_failed _ hsys hcheck)⟩
  · have hcheck := State.csrCheck_otherVf hn hvf
    exact ⟨congrArg Host.Outcome.next (State.systemCsr_failed _ hsys hcheck),
      congrArg Host.Outcome.next (State.systemCsr_failed _ hsys hcheck)⟩
  · intro hr hst hother
    refine (congrArg Host.Outcome.next (State.system_sys _ hsys)).trans (next_withOps hr ?_)
    simp only [State.vals_singleton, bits_byte]
    exact if_pos ⟨hvf, hst, hother⟩

/-! ### System registers -/

/-- A listed register that may be read is read. -/
theorem exec_csrr {d : SReg} {i : Imm} {v : W64} (hr : s.Ready [] (some d)) (hsys : s.cur.tstate.getLsbD 2 = true)
    (hv : s.csr s.iss.thr i.toNat = some v) (hvf : i.toNat ≠ 0x060 ∧ i.toNat ≠ 0x061 ∨ s.cur.vf = 0) :
    exec (.csrr d i) s = .next ((s.csrTouch i.toNat).retireS [] d v) := by
  refine (congrArg Host.Outcome.next (State.systemCsr_ok _ hsys (State.csrCheck_ok hv hvf))).trans (next_withOps hr ?_)
  rw [hv, Option.getD_some]

/-- A listed register that may be written is written. -/
theorem exec_csrw {d : SReg} {i : Imm} (hr : s.Ready [d] none) (hsys : s.cur.tstate.getLsbD 2 = true)
    (hv : ∃ v, s.csr s.iss.thr i.toNat = some v) (hvf : i.toNat ≠ 0x060 ∧ i.toNat ≠ 0x061 ∨ s.cur.vf = 0) :
    exec (.csrw d i) s = .next ((s.csrWrite s.iss.thr i.toNat (s.src d)).retire [d]) := by
  obtain ⟨v, hv⟩ := hv
  refine (congrArg Host.Outcome.next (State.systemCsr_ok _ hsys (State.csrCheck_ok hv hvf))).trans (next_withOps hr ?_)
  rw [State.vals_singleton]

theorem State.csrTouch_other {n : Nat} (h : n ≠ 0x060) : s.csrTouch n = s := if_neg fun hn => h hn.1

/-- The bits a field keeps are those of its mask. -/
theorem getLsbD_keep (v : W64) (hi lo i : Nat) :
    (keep v hi lo).getLsbD i = (decide (lo ≤ i) && decide (i < hi + 1) && v.getLsbD i) := by
  simp only [keep, bits, BitVec.getLsbD_ofNat, Nat.testBit_mul_two_pow, Nat.testBit_mod_two_pow, Nat.testBit_div_two_pow,
    BitVec.testBit_toNat]
  by_cases hlo : lo ≤ i
  · have hsub : i - lo + lo = i := by omega
    have hhi : i - lo < hi + 1 - lo ↔ i < hi + 1 := by omega
    by_cases h64 : i < 64
    · simp [hlo, h64, hsub, hhi]
    · simp [hlo, h64, BitVec.getLsbD_of_ge v i (by omega)]
  · simp [hlo]

theorem keep_eq_and (v : W64) (hi lo : Nat) : keep v hi lo = v &&& keep (BitVec.allOnes 64) hi lo := by
  refine BitVec.eq_of_getLsbD_eq fun i hi => ?_
  simp only [getLsbD_keep, BitVec.getLsbD_and, BitVec.getLsbD_allOnes, hi, decide_true, Bool.and_true]
  exact Bool.and_comm _ _

/-- A field's mask written out. -/
theorem keep_mask {hi lo : Nat} (mask : W64) (h : keep (BitVec.allOnes 64) hi lo = mask) (v : W64) : v &&& mask = keep v hi lo := by
  rw [keep_eq_and, h]

/-- The two low bits as a number and as a field. -/
theorem low_two_eq_three (v : W64) : v &&& 3 = 3 ↔ bits v.toNat 1 0 = 3 := by
  have hlt : bits v.toNat 1 0 < 4 := Nat.mod_lt _ (by decide)
  rw [keep_mask (hi := 1) (lo := 0) 3 (by decide), keep, ← BitVec.toNat_inj, BitVec.toNat_ofNat]
  change bits v.toNat 1 0 * 1 % 2 ^ 64 = 3 ↔ _
  omega

/-- A level of 3 is written as 2. -/
theorem tstate_written (v : W64) : ((v &&& 0x1C) ||| (if v &&& 3 = 3 then 2 else v &&& 3)) =
    (keep v 4 2 ||| (if bits v.toNat 1 0 = 3 then 2 else keep v 1 0)) := by
  rw [if_congr (low_two_eq_three v) rfl rfl, keep_mask (hi := 4) (lo := 2) 0x1C (by decide),
    keep_mask (hi := 1) (lo := 0) 3 (by decide)]

/-- A mask of several fields. -/
theorem and_masks (v m n : W64) : v &&& (m ||| n) = (v &&& m) ||| (v &&& n) := BitVec.and_or_distrib_left

/-- Settles O21: CSRR by the value of each register, CSRW by the fields of each. -/
theorem systemRegisters : Obligations.SystemRegisters := by
  unfold Obligations.SystemRegisters
  refine ⟨?_, ?_, ?_, ?_⟩
  · intro s d i v hr hsys th c x hmem
    have hv : s.csr s.iss.thr i.toNat = some v ∧ i.toNat ≠ 0x060 ∧ i.toNat ≠ 0x061 := by
      have hentry : c.errs.elsel.toNat % 8 = bits c.errs.elsel.toNat 2 0 := by simp [bits]
      rw [hentry] at hmem
      simp only [List.mem_cons, Prod.mk.injEq, List.not_mem_nil, or_false] at hmem
      casesm* _ ∨ _
      all_goals
        obtain ⟨hi, rfl⟩ := ‹_ ∧ _›
        rw [hi]
        exact ⟨rfl, by decide, by decide⟩
    obtain ⟨hv, hne⟩ := hv
    rw [exec_csrr hr hsys hv (.inl hne), State.csrTouch_other hne.1]
  · intro s d i hr hsys hvf
    have hread := fun v (hv : s.csr s.iss.thr i.toNat = some v) => exec_csrr hr hsys hv (.inr hvf)
    refine ⟨fun hi hph => ?_, fun hi hph => ?_, fun hi => ?_⟩
    · rw [hread (s.dev.vfctl ||| 1) (by rw [hi]; exact congrArg some (if_pos hph)), hi, State.csrTouch, if_neg fun h => hph h.2]
    · rw [hread (s.dev.vfctl &&& ~~~1) (by rw [hi]; exact congrArg some (if_neg (not_not.2 hph))), hi, State.csrTouch,
        if_pos ⟨rfl, hph⟩]
    · rw [hread _ (by rw [hi]; rfl), hi, State.csrTouch_other (by decide)]
      rfl
  · intro s u d i hr hsys x th c y hmem
    have hu : s.csrWrite s.iss.thr i.toNat x = u ∧ (∃ v, s.csr s.iss.thr i.toNat = some v) ∧
        i.toNat ≠ 0x060 ∧ i.toNat ≠ 0x061 := by
      have hring : x &&& 0xFFFFFFFFFF00F = (keep x 51 12 ||| keep x 3 0) :=
        (and_masks x 0xFFFFFFFFFF000 0xF).trans
          (congrArg₂ _ (keep_mask _ (by decide +kernel) x) (keep_mask _ (by decide +kernel) x))
      have helsel : x &&& 0xFF07 = (keep x 15 8 ||| keep x 2 0) :=
        (and_masks x 0xFF00 7).trans (congrArg₂ _ (keep_mask _ (by decide +kernel) x) (keep_mask _ (by decide +kernel) x))
      have heinj : x &&& 0x1FF03 = (keep x 16 16 ||| keep x 15 8 ||| keep x 1 0) :=
        (and_masks x 0x1FF00 3).trans (congrArg₂ _ ((and_masks x 0x10000 0xFF00).trans
          (congrArg₂ _ (keep_mask _ (by decide +kernel) x) (keep_mask _ (by decide +kernel) x)))
          (keep_mask _ (by decide +kernel) x))
      have htvec : x &&& ~~~1 = x &&& ~~~1#64 := rfl
      rw [keep_mask (hi := 19) (lo := 0) 0xFFFFF (by decide +kernel), keep_mask (hi := 4) (lo := 0) 0x1F (by decide +kernel),
        tstate_written, keep_mask (hi := 7) (lo := 0) 0xFF (by decide +kernel),
        keep_mask (hi := 51) (lo := 15) 0xFFFFFFFFF8000 (by decide +kernel), hring,
        keep_mask (hi := 51) (lo := 12) 0xFFFFFFFFFF000 (by decide +kernel), helsel, heinj] at hmem
      simp only [List.mem_cons, Prod.mk.injEq, List.not_mem_nil, or_false] at hmem
      casesm* _ ∨ _
      all_goals
        obtain ⟨hi, rfl⟩ := ‹_ ∧ _›
        rw [hi]
        exact ⟨rfl, ⟨_, rfl⟩, by decide, by decide⟩
    obtain ⟨rfl, hlisted, hne⟩ := hu
    exact exec_csrw hr hsys hlisted (.inl hne)
  · intro s d i hr hsys hvf
    have hwrite := fun hn => exec_csrw (i := i) hr hsys (State.csr_vf_listed hn) (.inr hvf)
    refine ⟨fun hi => ?_, fun hi hn => ?_, fun hi => ?_⟩
    · rw [hwrite (.inl hi), hi]
      rfl
    · have hself : s.csrWrite s.iss.thr 0x060 (s.src d) = s := if_pos hn
      rw [hwrite (.inl hi), hi, hself]
    · rw [hwrite (.inr hi), hi]
      rfl

/-! ### Tables under a map that keeps the keys -/

/-- What holds of every image of an entry and of the default holds of what a mapped table reads. -/
theorem tget_map_of {α β : Type} {P : β → Prop} {d : β} {F : Nat × α → Nat × β} {j : Nat} (hkey : ∀ e, (F e).1 = e.1)
    (hF : ∀ x, P (F (j, x)).2) (hd : P d) (m : Tab α) : P (tget d (m.map F) j) := by
  induction m with
  | nil => exact hd
  | cons e r ih =>
    simp only [List.map_cons, tget, hkey]
    split
    · rename_i he
      have := hF e.2
      rwa [← he] at this
    · exact ih

/-- What a map leaves unchanged in every entry reads as before. -/
theorem tget_map_same {α γ : Type} {g : α → γ} {d : α} {F : Nat × α → Nat × α} (hkey : ∀ e, (F e).1 = e.1)
    (hF : ∀ e, g (F e).2 = g e.2) (m : Tab α) (j : Nat) : g (tget d (m.map F) j) = g (tget d m j) := by
  induction m with
  | nil => rfl
  | cons e r ih =>
    simp only [List.map_cons, tget, hkey]
    split
    · exact hF e
    · exact ih

/-- What reads other than the default stands in the table. -/
theorem tget_mem {α : Type} {d : α} {m : Tab α} {j : Nat} (h : tget d m j ≠ d) : (j, tget d m j) ∈ m := by
  induction m with
  | nil => exact absurd rfl h
  | cons e r ih =>
    by_cases he : e.1 = j
    · have hv : tget d (e :: r) j = e.2 := if_pos he
      rw [hv, ← he]
      exact List.mem_cons_self
    · have hv : tget d (e :: r) j = tget d r j := if_neg he
      rw [hv] at h ⊢
      exact List.mem_cons_of_mem _ (ih h)

/-- What one step leaves unchanged, a list of steps leaves unchanged. -/
theorem foldl_same {σ α γ : Type} {f : σ → α → σ} {g : σ → γ} (h : ∀ s a, g (f s a) = g s) (l : List α) (s : σ) :
    g (l.foldl f s) = g s := by
  induction l generalizing s with
  | nil => rfl
  | cons a l ih => exact (ih _).trans (h s a)

/-! ### What a write of memory leaves -/

/-- Only memory has changed, with its poison and its count of writes, and what the slices send the cores. -/
structure OnlyMem (s t : State) : Prop where
  rest : { t with mem := s.mem, poison := s.poison, moment := s.moment, cores := s.cores } = s
  core : ∀ k, { t.core k with path := (s.core k).path } = s.core k

theorem onlyMem_memWrite (w : Option Nat) (a : Nat) (bs : List (BitVec 8)) : OnlyMem s (s.memWrite w a bs) :=
  ⟨rfl, fun k => tget_map_same (g := fun c : Core => { c with path := (s.core k).path })
    (fun _ => by dsimp only; split <;> rfl) (fun _ => by dsimp only; split <;> rfl) s.cores k⟩
theorem onlyMem_memPut (a n x : Nat) : OnlyMem s (s.memPut a n x) := onlyMem_memWrite _ _ _
theorem onlyMem_setCtx (c : Nat) (x : Ctx) : OnlyMem { s with ctxs := tput s.ctxs c x } (s.setCtx c x) := by
  unfold State.setCtx
  dsimp only
  split
  · exact onlyMem_memPut _ _ _
  · exact ⟨rfl, fun _ => rfl⟩
theorem onlyMem_setQueue (q : Nat) (x : Queue) : OnlyMem { s with queues := tput s.queues q x } (s.setQueue q x) := by
  unfold State.setQueue
  dsimp only
  split
  · exact onlyMem_memPut _ _ _
  · exact ⟨rfl, fun _ => rfl⟩

/-- A field that a write of memory does not touch. -/
theorem OnlyMem.field {α : Type} {t : State} (h : OnlyMem s t) (g : State → α)
    (hg : ∀ (u : State) m p n c, g { u with mem := m, poison := p, moment := n, cores := c } = g u) : g t = g s :=
  (hg t _ _ _ _).symm.trans (congrArg g h.rest)

/-! ### Kill -/

theorem State.queue_setQueue (q j : Nat) (x : Queue) : (s.setQueue q x).queue j = if j = q then x else s.queue j :=
  ((onlyMem_setQueue q x).field (fun t => t.queue j) fun _ _ _ _ _ => rfl).trans (tget_tput _ _ _ _ _)
theorem State.ctx_setCtx (c j : Nat) (x : Ctx) : (s.setCtx c x).ctx j = if j = c then x else s.ctx j :=
  ((onlyMem_setCtx c x).field (fun t => t.ctx j) fun _ _ _ _ _ => rfl).trans (tget_tput _ _ _ _ _)
theorem State.thr_setQueue (q : Nat) (x : Queue) : (s.setQueue q x).thr = s.thr :=
  (onlyMem_setQueue q x).field State.thr fun _ _ _ _ _ => rfl
theorem State.thr_setCtx (c : Nat) (x : Ctx) : (s.setCtx c x).thr = s.thr :=
  (onlyMem_setCtx c x).field State.thr fun _ _ _ _ _ => rfl
theorem State.queue_setCtx (c q : Nat) (x : Ctx) : (s.setCtx c x).queue q = s.queue q :=
  (onlyMem_setCtx c x).field (fun t => t.queue q) fun _ _ _ _ _ => rfl

theorem State.queue_st_retireLayer (l q : Nat) : ((s.retireLayer l).queue q).st = (s.queue q).st :=
  tget_map_same (g := Queue.st) (F := fun e => (e.1, { e.2 with reqs := e.2.reqs.filter fun r => decide (r.id ≠ l) }))
    (fun _ => rfl) (fun _ => rfl) s.queues q

/-- Queues set to HALTED one after another are HALTED. -/
theorem State.queue_st_halted {f : State → Nat × Queue → State}
    (hf : ∀ (s : State) (e : Nat × Queue), ∃ x : Queue, f s e = s.setQueue e.1 x ∧ x.st = .halted)
    (l : List (Nat × Queue)) (s : State) (q : Nat) (h : (s.queue q).st = .halted ∨ ∃ x, (q, x) ∈ l) :
    ((l.foldl f s).queue q).st = .halted := by
  induction l generalizing s with
  | nil => simpa using h
  | cons e l ih =>
    obtain ⟨x, hx, hst⟩ := hf s e
    refine ih _ ?_
    rw [hx, State.queue_setQueue]
    by_cases hq : q = e.1
    · exact .inl (by rw [if_pos hq, hst])
    · rw [if_neg hq]
      refine h.imp_right fun ⟨y, hy⟩ => ⟨y, ?_⟩
      rcases List.mem_cons.1 hy with rfl | hy
      · exact absurd rfl hq
      · exact hy

/-- Is a thread one that the kill of a context ends: of a kernel's group of it, or alone in it (R306)? -/
def State.inKill (s : State) (c t : Nat) : Bool :=
  match (s.thread t).grp with
  | some (ser, _) => decide ((s.kernel ser).ctx = c)
  | none => decide ((s.thread t).ctx = c) && decide ((s.thread t).st ≠ .free)

/-- A kill leaves the context DEAD with its note, none of its threads, and its queues HALTED (R306). -/
theorem State.kill_spec (c : Nat) (note : Option KillNote) (killer : Option Nat) (hlive : (s.ctx c).st = .live ∨ (s.ctx c).st = .suspended) :
    let u := s.kill c note killer
    (u.ctx c).st = .dead ∧ (u.ctx c).note = note ∧
    (∀ n, (s.thread n).grp = none → (s.thread n).ctx = c → (s.thread n).st ≠ .free → (u.thread n).st = .free) ∧
    (∀ n ser g, (s.thread n).grp = some (ser, g) → (s.kernel ser).ctx = c → (u.thread n).st = .free) ∧
    (∀ q, (s.queue q).ctx = c → (s.queue q).st ≠ .free → (u.queue q).st = .halted) := by
  intro u
  have hu : u = s.kill c note killer := rfl
  simp only [State.kill, if_pos hlive] at hu
  have hthr : ∀ n, s.inKill c n = true → (u.thread n).st = .free := by
    intro n hin
    rw [hu, State.thread, State.thr_setCtx]
    dsimp only
    rw [foldl_same (g := State.thr) (f := fun s (e : Nat × Layer) => s.retireLayer e.1) (fun _ _ => rfl),
      foldl_same (g := State.thr) (fun _ _ => State.thr_setQueue _ _)]
    refine tget_map_of (P := fun th : Thread => th.st = .free) (fun e => ?_) (fun x => ?_) rfl s.thr
    · split <;> rfl
    · exact congrArg (fun e : Nat × Thread => e.2.st) (if_pos hin)
  refine ⟨?_, ?_, fun n hg hc hst => ?_, fun n ser g hg hk => ?_, fun q hc hst => ?_⟩
  · rw [hu, State.ctx_setCtx, if_pos rfl]
  · rw [hu, State.ctx_setCtx, if_pos rfl]
  · exact hthr n (by rw [State.inKill, hg]; simp [hc, hst])
  · exact hthr n (by rw [State.inKill, hg]; simp [hk])
  · have hmem : (q, s.queue q) ∈ s.queues := tget_mem fun h => hst (congrArg Queue.st h)
    rw [hu, State.queue_setCtx]
    refine (foldl_same (g := fun v => (v.queue q).st)
      (fun v (e : Nat × Layer) => State.queue_st_retireLayer (s := v) e.1 q) _ _).trans ?_
    refine State.queue_st_halted (fun v e => ⟨_, rfl, rfl⟩) _ _ q (.inr ⟨s.queue q, ?_⟩)
    simp [List.mem_filter, hmem, hc, hst]

/-! ### Traps -/

/-- The fields of a TSTATE that was put together. -/
theorem mkTstate_level {m : Nat} (h : m < 4) (mode p1 p2 : Bool) : (mkTstate m mode p1 p2).toNat % 4 = m := by
  interval_cases m <;> revert mode p1 p2 <;> decide
theorem mkTstate_mode {m : Nat} (h : m < 4) (mode p1 p2 : Bool) : (mkTstate m mode p1 p2).getLsbD 2 = mode := by
  interval_cases m <;> revert mode p1 p2 <;> decide
theorem mkTstate_pm1 {m : Nat} (h : m < 4) (mode p1 p2 : Bool) : (mkTstate m mode p1 p2).getLsbD 3 = p1 := by
  interval_cases m <;> revert mode p1 p2 <;> decide
theorem mkTstate_pm2 {m : Nat} (h : m < 4) (mode p1 p2 : Bool) : (mkTstate m mode p1 p2).getLsbD 4 = p2 := by
  interval_cases m <;> revert mode p1 p2 <;> decide

theorem Thread.level_eq (th : Thread) : th.level = th.tstate.toNat % 4 := by simp [Thread.level, bits]

/-- The thread in its trap's handler: the bank of the level entered, the mode, the vector (R303). -/
def Thread.entered (th : Thread) (m dep : Nat) (bank : Bank) (vec : W64) : Thread :=
  (({ th.setBank m bank with
        tstate := mkTstate m true (if m = 1 then th.sysMode else th.tstate.getLsbD 3)
          (if m = 2 then th.sysMode else th.tstate.getLsbD 4)
        pc := vec &&& ~~~1#64, past := false } : Thread).sysDepend (if m = 1 then 0x024 else 0x02C) dep).sysDepend
    (if m = 1 then 0x026 else 0x02E) dep

/-- What the entered thread holds, and what it keeps. -/
theorem Thread.entered_spec (th : Thread) {m : Nat} (hm : m = 1 ∨ m = 2) (dep : Nat) (bank : Bank) (vec : W64) :
    let v := th.entered m dep bank vec
    v.bank m = bank ∧ v.bank (3 - m) = th.bank (3 - m) ∧ v.pc = (vec &&& ~~~1#64) ∧ v.tstate.toNat % 4 = m ∧
    v.tstate.getLsbD 2 = true ∧ v.tstate.getLsbD (2 + m) = th.tstate.getLsbD 2 ∧
    v.tstate.getLsbD (5 - m) = th.tstate.getLsbD (5 - m) ∧
    { v with bank1 := th.bank1, bank2 := th.bank2, tstate := th.tstate, pc := th.pc, past := th.past, deps := th.deps } = th := by
  intro v
  have hstate : v.tstate = mkTstate m true (if m = 1 then th.sysMode else th.tstate.getLsbD 3)
      (if m = 2 then th.sysMode else th.tstate.getLsbD 4) := rfl
  rw [hstate]
  rcases hm with rfl | rfl
  · exact ⟨rfl, rfl, rfl, mkTstate_level (by decide) _ _ _, mkTstate_mode (by decide) _ _ _, mkTstate_pm1 (by decide) _ _ _,
      mkTstate_pm2 (by decide) _ _ _, rfl⟩
  · exact ⟨rfl, rfl, rfl, mkTstate_level (by decide) _ _ _, mkTstate_mode (by decide) _ _ _, mkTstate_pm2 (by decide) _ _ _,
      mkTstate_pm1 (by decide) _ _ _, rfl⟩

/-- The bank a trap fills: its own vector stays. -/
def trapBank (own tepc : W64) (b : Bundle) (e : Err) : Bank :=
  { tvec := own, tcause := BitVec.ofNat 64 e.cause, tepc := tepc, tval := e.tval, tword := twordOf b.words,
    twordh := twordhOf b.words ||| e.high }

/-- A trap of a thread alone whose vector is not 0. -/
theorem State.takeTrap_enters {t m : Nat} {b : Bundle} {tepc vec : W64} {e : Err} (hg : (s.thread t).gang = none)
    (hm : (s.thread t).level + 1 = m) (hle : m ≤ 2)
    (hvec : vec = if ((s.thread t).bank m).tvec.toNat / 2 ≠ 0 then ((s.thread t).bank m).tvec
      else if m = 1 then (s.ctx (s.thread t).ctx).tvec1 else (s.ctx (s.thread t).ctx).tvec2) (h0 : vec.toNat / 2 ≠ 0) :
    s.takeTrap t b tepc e = ({ s with iss := { s.iss with turn := .trapped } } : State).setThread t
      ((s.thread t).entered m s.iss.dep (trapBank ((s.thread t).bank m).tvec tepc b e) vec) := by
  subst hm
  subst hvec
  have hlvl : ¬ 2 < (s.thread t).level + 1 := by omega
  unfold State.takeTrap
  rw [State.leave_alone hg]
  exact (if_neg hlvl).trans (if_neg h0)

/-- A trap of a thread alone that finds no level or no vector kills the context with the causes so far. -/
theorem State.takeTrap_kills {t : Nat} {b : Bundle} {tepc : W64} {e : Err} (hg : (s.thread t).gang = none)
    (h : 2 ≤ (s.thread t).level ∨
      ((s.thread t).level = 0 ∧ (s.thread t).bank1.tvec.toNat / 2 = 0 ∧ (s.ctx (s.thread t).ctx).tvec1.toNat / 2 = 0) ∨
      ((s.thread t).level = 1 ∧ (s.thread t).bank2.tvec.toNat / 2 = 0 ∧ (s.ctx (s.thread t).ctx).tvec2.toNat / 2 = 0)) :
    s.takeTrap t b tepc e = ({ s with iss := { s.iss with turn := .trapped } } : State).kill (s.thread t).ctx
      ((s.thread t).grp.map fun g => { ser := g.1, addr := b.pc, bytes :=
        if 2 ≤ (s.thread t).level then [(s.thread t).bank1.tcause.toNat, (s.thread t).bank2.tcause.toNat, e.cause, 3]
        else if (s.thread t).level = 0 then [0, 0, e.cause, 1] else [(s.thread t).bank1.tcause.toNat, 0, e.cause, 2] }) none := by
  have hthr : ({ s with iss := { s.iss with turn := .trapped } } : State).thread t = s.thread t := rfl
  have hlow0 : ¬ 2 < 0 + 1 := by decide
  have hlow1 : ¬ 2 < 1 + 1 := by decide
  unfold State.takeTrap
  rw [State.leave_alone hg]
  dsimp only
  simp only [hthr]
  rcases h with h2 | ⟨h0, hown, hctx0⟩ | ⟨h1, hown, hctx1⟩
  · rw [if_pos h2]
    refine (if_pos (by omega)).trans ?_
    cases (s.thread t).grp <;> rfl
  · rw [h0]
    refine (if_neg hlow0).trans ((if_pos ?_).trans ?_)
    · exact (congrArg (fun v : W64 => v.toNat / 2) (if_neg (not_not.2 hown))).trans hctx0
    · cases (s.thread t).grp <;> rfl
  · rw [h1]
    refine (if_neg hlow1).trans ((if_pos ?_).trans ?_)
    · exact (congrArg (fun v : W64 => v.toNat / 2) (if_neg (not_not.2 hown))).trans hctx1
    · cases (s.thread t).grp <;> rfl

/-- Settles O22: a trap enters the next level, or kills the context. -/
theorem trapsTaken : Obligations.TrapsTaken := by
  unfold Obligations.TrapsTaken
  refine ⟨?_, ?_⟩
  · intro s t b tepc vec e m th hg hm hlvl hvec h0 u v
    have hu : u = _ := State.takeTrap_enters (b := b) (tepc := tepc) (e := e) hg ((congrArg (· + 1) th.level_eq).trans hlvl)
      (by omega) hvec h0
    have hv : v = _ := (congrArg (fun u : State => u.thread t) hu).trans (State.thread_setThread_same _ _ _)
    have hother : ∀ n, n ≠ t → u.thread n = s.thread n := fun n hn => by
      rw [hu, State.thread_setThread_other _ _ hn]
      rfl
    have hrest : ({ u with thr := s.thr, iss := s.iss } : State) = s := by rw [hu]; rfl
    obtain ⟨hbank, hother', hpc, hl, hmode, hpm, hpm', hframe⟩ := Thread.entered_spec th hm s.iss.dep
      (trapBank (th.bank m).tvec tepc b e) vec
    rw [hv, hbank]
    exact ⟨rfl, rfl, rfl, rfl, rfl, rfl, hother', hpc, hl, hmode, hpm, hpm', hframe, hother, hrest⟩
  · intro s t b tepc e th hlive hg hfail u
    rw [← Thread.level_eq] at hfail ⊢
    have hu : u = _ := State.takeTrap_kills (b := b) (tepc := tepc) (e := e) hg hfail
    obtain ⟨hdead, hnote, halone, hgroup, hqueue⟩ := State.kill_spec
      (s := ({ s with iss := { s.iss with turn := .trapped } } : State)) th.ctx
      (th.grp.map fun g => { ser := g.1, addr := b.pc, bytes := if 2 ≤ th.level then
        [th.bank1.tcause.toNat, th.bank2.tcause.toNat, e.cause, 3]
        else if th.level = 0 then [0, 0, e.cause, 1] else [th.bank1.tcause.toNat, 0, e.cause, 2] }) none hlive
    rw [hu]
    exact ⟨hdead, fun n hst hc hgrp => halone n hgrp hc hst, hgroup, hqueue, hnote⟩

/-! ### Return -/

theorem Thread.ret_tstate {th : Thread} {n : Nat} (hn : n = 1 ∨ n = 2) (h : th.level = n) :
    th.ret.tstate = mkTstate (n - 1) (th.tstate.getLsbD (2 + n)) (th.tstate.getLsbD 3) (th.tstate.getLsbD 4) := by
  rcases hn with rfl | rfl <;> simp only [Thread.ret, h] <;> rfl

/-- Settles O23: TRAP past itself, RETT one level down. -/
theorem trapAndReturn : Obligations.TrapAndReturn := by
  unfold Obligations.TrapAndReturn
  refine fun s i => ⟨rfl, fun hsys hg n hn hlvl => ?_⟩
  rw [← Thread.level_eq] at hlvl
  have hne : s.cur.level ≠ 0 := by omega
  have hgang : ((s.setCur s.cur.ret).thread s.iss.thr).gang = none := by
    rw [State.setCur, State.thread_setThread_same]
    exact hg
  have hmove : (s.setCur s.cur.ret).moveTo s.cur.ret.pc false =
      (s.setCur s.cur.ret).setThread s.iss.thr { s.cur.ret with pc := s.cur.ret.pc, past := false } := by
    have hthr : (s.setCur s.cur.ret).thread s.iss.thr = s.cur.ret := State.thread_setThread_same _ _ _
    have hg' : s.cur.ret.gang = none := hg
    have hiss : (s.setCur s.cur.ret).iss = s.iss := rfl
    simp only [State.moveTo, hiss, hthr, hg']
  refine ⟨_, (congrArg Host.Outcome.next ((State.system_sys _ hsys).trans (if_neg hne))).trans
    (congrArg Host.Outcome.next hmove), ?_⟩
  have hcur : ((s.setCur s.cur.ret).setThread s.iss.thr { s.cur.ret with pc := s.cur.ret.pc, past := false }).cur =
      { s.cur.ret with past := false } := State.thread_setThread_same _ _ _
  rw [hcur]
  dsimp only
  have hpm1 := mkTstate_pm1 (m := n - 1) (by omega) (s.cur.tstate.getLsbD (2 + n)) (s.cur.tstate.getLsbD 3) (s.cur.tstate.getLsbD 4)
  rw [Thread.ret_tstate hn hlvl]
  refine ⟨?_, mkTstate_level (by omega) _ _ _, mkTstate_mode (by omega) _ _ _, hpm1, mkTstate_pm2 (by omega) _ _ _, rfl, rfl⟩
  rw [← hlvl]
  rfl

/-! ### Translation -/

theorem State.walk_setClu (c : Nat) (x : Cluster) (ctx va : Nat) : (s.setClu c x).walk ctx va = s.walk ctx va := rfl

/-- The data TLBs are as they were when gathered bits reach their leaf. -/
theorem State.dtlb_adWrite (t : TlbEnt) (k : Nat) : ((s.adWrite t).core k).dtlb = (s.core k).dtlb := by
  have hput : ∀ a n x, ((s.memPut a n x).core k).dtlb = (s.core k).dtlb := fun a n x =>
    (congrArg Core.dtlb ((onlyMem_memPut (s := s) a n x).core k) :)
  simp only [State.adWrite]
  split
  · rfl
  · split
    · exact hput _ _ _
    · rfl

/-- Filling a second-level TLB leaves the data TLBs. -/
theorem State.dtlb_tlbFill_second (c : Nat) (t : TlbEnt) (k : Nat) :
    ((s.tlbFill (.second c) t).core k).dtlb = (s.core k).dtlb := by
  unfold State.tlbFill
  dsimp only
  split
  · rfl
  · split
    · rfl
    · exact State.dtlb_adWrite _ _

/-- An entry that names its page in no list that a walk finds empty of it. -/
theorem List.any_covers_false {l : List TlbEnt} {ctx va : Nat} (h : ∀ x ∈ l, x.covers ctx va = false) :
    (l.any fun x => x.covers ctx va) = false := by
  simpa [List.any_eq_false] using h

/-- A walk whose shoot-down count stands ends with those that joined it: the leaf is filled, and every prefetch among
them brings its line. -/
theorem exec_pageWalk {clu : Nat} {w : Walk} {rest : List Walk} {e : BitVec 64} {lvl pte : Nat}
    (hw : (s.clu clu).walks = w :: rest) (hshoot : w.shoot = s.dev.shoot) (hleaf : s.walk w.ctx w.va = .leaf .present e lvl pte)
    (hmiss : ∀ x ∈ (s.clu clu).tlb, x.covers w.ctx w.va = false) :
    let joined := fun (v : Walk) => decide (v.ctx = w.ctx) && decide (v.va / 4096 = w.va / 4096)
    let u := s.setClu clu { s.clu clu with walks := rest.filter fun v => !joined v }
    let t : TlbEnt := { ctx := w.ctx, lvl := lvl, page := w.va / 2 ^ pageBits lvl, leaf := e, pte := pte, since := s.cycle }
    let v := u.tlbFill (.second clu) t
    exec (.pageWalk clu) s = .next (((w :: rest).filter fun v => joined v && v.thr.isNone).foldl
      (fun s v => s.prefetchLine v.core v.ctx v.va)
      (if w.thr.isSome ∨ (v.tlb (.data w.core)).any (·.covers w.ctx w.va) then v else v.tlbFill (.data w.core) t)) := by
  intro joined u t v
  refine congrArg Host.Outcome.next ?_
  simp only [hw]
  refine (if_neg (not_not.2 hshoot)).trans ?_
  rw [State.walk_setClu, hleaf]
  refine if_pos ⟨.inl rfl, ?_⟩
  have htlb : u.tlb (.second clu) = (s.clu clu).tlb := (congrArg Cluster.tlb (State.clu_setClu_same s clu _) :)
  have hany : (u.tlb (.second clu)).any (fun x => x.covers w.ctx w.va) = false := htlb ▸ List.any_covers_false hmiss
  exact (congrArg (!·) hany).trans rfl

theorem State.ackAll_cycle (t : Nat) : (s.ackAll t).cycle = s.cycle := by
  have h := congrArg State.cycle (sameDevice_ackAll s t).rest
  exact h

/-- Settles O24: the three instructions, then the walk that ends and what is written back. -/
theorem translation : Obligations.Translation := by
  unfold Obligations.Translation
  refine ⟨fun s a b hsys => ⟨?_, congrArg Host.Outcome.next (State.system_sys _ hsys)⟩,
    fun s clu k id => ⟨fun w rest hw => ⟨fun hshoot => ?_, ?_⟩, ?_, ?_⟩⟩
  · intro hr v named u held
    have hrun : exec (.tlbinv a b) s = .next (if held = true then s else s.release fun s =>
        ((({ s with dev := { s.dev with shoot := s.dev.shoot + 1 } } : State).shootDown named).commit [b] [] [] (.ready s.cycle))) := by
      refine (congrArg Host.Outcome.next (State.system_sys _ hsys)).trans (next_withOps hr ?_)
      simp only [State.vals_singleton, bits_byte]
      rfl
    refine ⟨fun hfree hout => ?_, fun hwait => ?_, fun hvf => ?_⟩
    · rw [hrun, hfree, State.release_clear hout, if_neg Bool.false_ne_true, State.ackAll_cycle]
    · rw [hrun]
      rcases hwait with hheld | hout
      · rw [if_pos hheld]
      · rw [State.release, if_neg hout, ite_self]
    · refine (congrArg Host.Outcome.next (State.system_sys _ hsys)).trans (next_withOps hr ?_)
      simp only [State.vals_singleton, bits_byte]
      rw [if_neg fun h => hvf.elim h.1 fun hvf => hvf.elim h.2.1 h.2.2]
      refine if_congr Iff.rfl ?_ rfl
      dsimp only
      rw [State.ackAll_iss]
  · refine congrArg Host.Outcome.next ?_
    simp only [hw]
    exact if_pos hshoot
  · intro hshoot e lvl pte joined u hleaf hmiss hnone t
    have hrun := exec_pageWalk hw hshoot hleaf hmiss
    refine ⟨fun n hn => ?_, fun hpre hdata => ?_⟩
    · have hnil : ((w :: rest).filter fun v => joined v && v.thr.isNone) = [] := by
        refine List.filter_eq_nil_iff.2 fun v hv => ?_
        rcases List.mem_cons.1 hv with rfl | hv
        · simp [hn]
        · have := hnone v hv
          cases hj : joined v <;> simp_all [Option.isNone_iff_eq_none]
      rw [hrun, hnil, if_pos (.inl (by simp [hn])), List.foldl_nil]
    · have hone : ((w :: rest).filter fun v => joined v && v.thr.isNone) = [w] := by
        have hself : (joined w && w.thr.isNone) = true := by simp [joined, hpre]
        refine (List.filter_cons_of_pos (p := fun v => joined v && v.thr.isNone) hself).trans (congrArg (w :: ·)
          (List.filter_eq_nil_iff.2 fun v hv => ?_))
        have := hnone v hv
        cases hj : joined v <;> simp_all [Option.isNone_iff_eq_none]
      have hcold : ((u.tlbFill (.second clu) t).tlb (.data w.core)).any (fun x => x.covers w.ctx w.va) = false := by
        refine List.any_covers_false fun x hx => hdata x ?_
        rw [State.tlb, State.dtlb_tlbFill_second] at hx
        exact hx
      rw [hrun, hone, if_neg (by rw [hcold, hpre]; simp), List.foldl_cons, List.foldl_nil]
  · intro e he
    have hback : s.adEntry id k = (s.adWrite e).setTlb id ((s.tlb id).set k e.written) := by
      simp only [State.adEntry, he]
    refine ⟨congrArg Host.Outcome.next hback, fun had hdue => congrArg Host.Outcome.next ?_⟩
    simp only [he]
    refine (if_pos ?_).trans hback
    rw [Bool.and_eq_true, Bool.or_eq_true]
    exact ⟨had, decide_eq_true hdue⟩
  · intro r rest u hf hdue hwrite
    refine congrArg Host.Outcome.next ?_
    simp only [hf]
    refine (if_neg (not_lt.2 hdue)).trans ?_
    rw [hwrite]

end Sys2Proof.Machine

/-! SUPPORT. Formats and floats: the statements FloatResults and FormatTable (05_formats). -/

namespace Sys2Proof.Machine

open Sys2Proof

variable {s : State}

/-! ### Scalar floats -/

/-- An entry that is not accepted traps FMT with its reason and index. -/
theorem State.onSlot_refused {slot n : Nat} {k : Fmt → State} (h : acceptFloat (s.slotWord slot) = some n) :
    s.onSlot slot k = s.trap (fmtErr n (bits s.cur.fsel.toNat (5 * slot + 4) (5 * slot))) := by
  unfold State.slotWord at h
  simp only [State.onSlot, h]

/-- An accepted entry is of 16 or 32 bits. -/
theorem acceptFloat_width {w : W64} (h : acceptFloat w = none) : (fmtOf w).W = 16 ∨ (fmtOf w).W = 32 := by
  simp only [acceptFloat] at h
  split_ifs at h with h0 h1
  exact h1.elim .inr fun h => .inl h.2.2

theorem floatOp_accepted {d a b : SReg} {fs : BitVec 2} (op : Val → Val → Flagged Val) (hr : s.Ready [a, b] (some d))
    (h : acceptFloat (s.slotWord fs.toNat) = none) :
    floatOp d a b fs op s = s.retireF [a, b] d (fmtOf (s.slotWord fs.toNat))
      (op (decodeVal (fmtOf (s.slotWord fs.toNat)) (s.src a).toNat) (decodeVal (fmtOf (s.slotWord fs.toNat)) (s.src b).toNat)) := by
  obtain ⟨ha, hb⟩ := vals_pair s a b
  rw [floatOp, State.withOps_ready hr, State.onSlot_accepted h, ha, hb]

theorem floatCmp_accepted {d a b : SReg} {fs : BitVec 2} (rel : Val → Val → Bool) (nan : Nat) (hr : s.Ready [a, b] (some d))
    (h : acceptFloat (s.slotWord fs.toNat) = none) :
    let x := decodeVal (fmtOf (s.slotWord fs.toNat)) (s.src a).toNat
    let y := decodeVal (fmtOf (s.slotWord fs.toNat)) (s.src b).toNat
    floatCmp d a b fs rel nan s =
      (s.withFlags (if x.isNan || y.isNan then nan else 0)).retireS [a, b] d (if rel x y then 1 else 0) := by
  obtain ⟨ha, hb⟩ := vals_pair s a b
  rw [floatCmp, State.withOps_ready hr, State.onSlot_accepted h, ha, hb]

theorem floatToInt_accepted {d a : SReg} {fs : BitVec 2} (lo hi : Int) (hr : s.Ready [a] (some d))
    (h : acceptFloat (s.slotWord fs.toNat) = none) :
    let r := toInteger lo hi (decodeVal (fmtOf (s.slotWord fs.toNat)) (s.src a).toNat)
    floatToInt d a fs lo hi s = (s.withFlags r.2).retireS [a] d (BitVec.ofInt 64 r.1) := by
  rw [floatToInt, State.withOps_ready hr, State.onSlot_accepted h, State.vals_singleton]

theorem intToFloat_accepted {d a : SReg} {fs : BitVec 2} (val : W64 → Int) (hr : s.Ready [a] (some d))
    (h : acceptFloat (s.slotWord fs.toNat) = none) :
    intToFloat d a fs val s = s.retireF [a] d (fmtOf (s.slotWord fs.toNat)) (Val.ofInt (val (s.src a)), 0) := by
  rw [intToFloat, State.withOps_ready hr, State.onSlot_accepted h, State.vals_singleton]

/-- Adding the top bit of a field turns it over. -/
theorem add_top_bit {W x : Nat} (hW : 0 < W) (hx : x < 2 ^ W) : (x + 2 ^ (W - 1)) % 2 ^ W = x ^^^ 2 ^ (W - 1) := by
  obtain ⟨n, rfl⟩ : ∃ n, W = n + 1 := ⟨W - 1, by omega⟩
  rw [Nat.add_sub_cancel]
  refine Nat.eq_of_testBit_eq fun i => ?_
  rw [Nat.testBit_mod_two_pow, Nat.testBit_xor, Nat.testBit_two_pow, Nat.add_comm x]
  rcases lt_trichotomy i n with hlt | rfl | hgt
  · rw [Nat.testBit_two_pow_add_gt hlt]
    simp [Nat.lt_succ_of_lt hlt, Nat.ne_of_gt hlt]
  · rw [Nat.testBit_two_pow_add_eq]
    simp
  · have hxi : x.testBit i = false := Nat.testBit_lt_two_pow (hx.trans_le (Nat.pow_le_pow_right (by decide) hgt))
    have hni : ¬ i < n + 1 := by omega
    simp [hni, hxi, Nat.ne_of_lt hgt]

/-- Settles O25: by the shape of each instruction, over the slot's entry. -/
theorem floatResults : Obligations.FloatResults := by
  unfold Obligations.FloatResults
  intro s d a b fs w f x y put int cmp fmt
  refine ⟨fun hr hw => ⟨?_, ?_, ?_, ?_, ?_, ?_, ?_⟩, fun hr hw => ?_, fun hr hw => ⟨?_, ?_, ?_, ?_, ?_, ?_⟩, fun n hr hw i hi => ?_,
    fun n hr hw => ?_, fun n hr hw i hi => ?_⟩
  · exact congrArg Host.Outcome.next (floatOp_accepted Val.add hr hw)
  · exact congrArg Host.Outcome.next (floatOp_accepted Val.sub hr hw)
  · exact congrArg Host.Outcome.next (floatOp_accepted Val.mul hr hw)
  · exact congrArg Host.Outcome.next (floatCmp_accepted Val.eqv 0 hr hw)
  · exact congrArg Host.Outcome.next (floatCmp_accepted Val.lt flInvalid hr hw)
  · exact congrArg Host.Outcome.next (floatCmp_accepted Val.le flInvalid hr hw)
  · exact congrArg Host.Outcome.next (floatCmp_accepted (fun x y => x.isNan || y.isNan) 0 hr hw)
  · obtain ⟨hd, ha, hb⟩ := vals_triple s d a b
    refine next_withOps hr ?_
    rw [State.onSlot_accepted hw, hd, ha, hb]
    rfl
  · exact congrArg Host.Outcome.next (floatToInt_accepted _ _ hr hw)
  · exact congrArg Host.Outcome.next (floatToInt_accepted _ _ hr hw)
  · exact congrArg Host.Outcome.next (intToFloat_accepted (fun x => x.toInt) hr hw)
  · exact congrArg Host.Outcome.next (intToFloat_accepted (fun x => (x.toNat : Int)) hr hw)
  · refine next_withOps hr ?_
    rw [State.onSlot_accepted hw, State.vals_singleton]
  · have hW : 0 < f.W := by rcases acceptFloat_width hw with h | h <;> rw [h] <;> decide
    refine next_withOps hr ?_
    rw [State.onSlot_accepted hw, State.vals_singleton]
    exact congrArg (fun v => s.retireS [a] d (BitVec.ofNat 64 v)) (add_top_bit hW (Nat.mod_lt _ (Nat.two_pow_pos _)))
  · fin_cases hi <;> exact next_withOps hr (State.onSlot_refused hw)
  · exact next_withOps hr (State.onSlot_refused hw)
  · fin_cases hi <;> exact next_withOps hr (State.onSlot_refused hw)

/-! ### Fields of a vector register -/

theorem testBit_fieldAt (v : V512) (pos w i : Nat) : (fieldAt v pos w).testBit i = (decide (i < w) && v.getLsbD (pos + i)) := by
  rw [fieldAt, Nat.testBit_mod_two_pow, Nat.testBit_div_two_pow, BitVec.testBit_toNat, Nat.add_comm]

/-- A field that was put holds the number, and every other bit stands. -/
theorem getLsbD_putAt (v : V512) {pos w : Nat} (x : Nat) (hw : pos + w ≤ 512) (j : Nat) :
    (putAt v pos w x).getLsbD j = if pos ≤ j ∧ j < pos + w then x.testBit (j - pos) else v.getLsbD j := by
  have hsplit : v.toNat - fieldAt v pos w * 2 ^ pos + x % 2 ^ w * 2 ^ pos =
      v.toNat % 2 ^ pos + 2 ^ pos * (x % 2 ^ w + 2 ^ w * (v.toNat / 2 ^ pos / 2 ^ w)) := by
    have h1 := Nat.mod_add_div v.toNat (2 ^ pos)
    have h2 := Nat.mod_add_div (v.toNat / 2 ^ pos) (2 ^ w)
    rw [fieldAt, Nat.mul_add, ← Nat.mul_assoc]
    have h3 : v.toNat = v.toNat % 2 ^ pos + 2 ^ pos * (v.toNat / 2 ^ pos % 2 ^ w) +
        2 ^ pos * 2 ^ w * (v.toNat / 2 ^ pos / 2 ^ w) := by
      rw [Nat.mul_assoc, Nat.add_assoc, ← Nat.mul_add, h2, h1]
    rw [Nat.mul_comm _ (2 ^ pos), Nat.mul_comm (x % 2 ^ w)]
    omega
  rw [putAt, hsplit, BitVec.getLsbD_ofNat]
  by_cases hj : j < 512
  · rw [decide_eq_true hj, Bool.true_and]
    rcases lt_or_ge j pos with hlo | hlo
    · rw [Nat.add_comm, Nat.testBit_two_pow_mul_add _ (Nat.mod_lt _ (Nat.two_pow_pos _)), if_pos hlo, Nat.testBit_mod_two_pow,
        if_neg (by omega), decide_eq_true hlo, Bool.true_and, BitVec.testBit_toNat]
    · rw [Nat.add_comm, Nat.testBit_two_pow_mul_add _ (Nat.mod_lt _ (Nat.two_pow_pos _)), if_neg (by omega), Nat.add_comm (x % _),
        Nat.testBit_two_pow_mul_add _ (Nat.mod_lt _ (Nat.two_pow_pos _))]
      rcases lt_or_ge j (pos + w) with hhi | hhi
      · rw [if_pos (by omega), if_pos ⟨hlo, hhi⟩, Nat.testBit_mod_two_pow, decide_eq_true (by omega), Bool.true_and]
      · rw [if_neg (by omega), if_neg (by omega), Nat.testBit_div_two_pow, Nat.testBit_div_two_pow, BitVec.testBit_toNat]
        congr 1
        omega
  · rw [decide_eq_false hj, Bool.false_and, if_neg (by omega), BitVec.getLsbD_of_ge _ _ (by omega)]

/-- Putting elements of one width one after another from `lo` on. -/
def putRow (lo w : Nat) (f : Nat → Nat) (m : Nat) (v : V512) : V512 :=
  (List.range m).foldl (fun v i => putAt v (lo + w * i) w (f i)) v

theorem putRow_succ (lo w : Nat) (f : Nat → Nat) (m : Nat) (v : V512) :
    putRow lo w f (m + 1) v = putAt (putRow lo w f m v) (lo + w * m) w (f m) := by
  simp [putRow, List.range_succ, List.foldl_append]

/-- A row of elements bit by bit. -/
theorem getLsbD_putRow {lo w m : Nat} (f : Nat → Nat) (v : V512) (hw : 0 < w) (h : lo + w * m ≤ 512) (j : Nat) :
    (putRow lo w f m v).getLsbD j =
      if lo ≤ j ∧ j < lo + w * m then (f ((j - lo) / w)).testBit ((j - lo) % w) else v.getLsbD j := by
  induction m with
  | zero =>
    rw [if_neg (by omega)]
    rfl
  | succ m ih =>
    have hm : w * (m + 1) = w * m + w := Nat.mul_succ w m
    rw [putRow_succ, getLsbD_putAt _ _ (by omega), ih (by omega)]
    by_cases hin : lo + w * m ≤ j ∧ j < lo + w * m + w
    · have hd : j - lo = (j - (lo + w * m)) + w * m := by omega
      have hdiv : (j - lo) / w = m := by
        rw [hd, Nat.add_mul_div_left _ _ hw, Nat.div_eq_of_lt (by omega), Nat.zero_add]
      have hmod : (j - lo) % w = j - (lo + w * m) := by
        rw [hd, Nat.add_mul_mod_self_left, Nat.mod_eq_of_lt (by omega)]
      rw [if_pos hin, if_pos (by omega), hdiv, hmod]
    · rw [if_neg hin]
      by_cases hlow : lo ≤ j ∧ j < lo + w * m
      · rw [if_pos hlow, if_pos (by omega)]
      · rw [if_neg hlow, if_neg (by omega)]

/-- Each element of a row holds its number. -/
theorem fieldAt_putRow {lo w m k : Nat} (f : Nat → Nat) (v : V512) (hw : 0 < w) (h : lo + w * m ≤ 512) (hk : k < m) :
    fieldAt (putRow lo w f m v) (lo + w * k) w = f k % 2 ^ w := by
  have hkm : w * k + w ≤ w * m := by rw [← Nat.mul_succ]; exact Nat.mul_le_mul_left w hk
  refine Nat.eq_of_testBit_eq fun i => ?_
  rw [testBit_fieldAt, Nat.testBit_mod_two_pow]
  by_cases hi : i < w
  · rw [getLsbD_putRow f v hw h, if_pos (by omega)]
    have hd : lo + w * k + i - lo = i + w * k := by omega
    rw [hd, Nat.add_mul_div_left _ _ hw, Nat.div_eq_of_lt hi, Nat.zero_add, Nat.add_mul_mod_self_left, Nat.mod_eq_of_lt hi]
  · simp [hi]

theorem getLsbD_putRow_outside {lo w m j : Nat} (f : Nat → Nat) (v : V512) (hw : 0 < w) (h : lo + w * m ≤ 512)
    (hj : j < lo ∨ lo + w * m ≤ j) : (putRow lo w f m v).getLsbD j = v.getLsbD j := by
  rw [getLsbD_putRow f v hw h, if_neg (by omega)]

theorem laneOf_putRow {w m k : Nat} (f : Nat → Nat) (v : V512) (hw : 0 < w) (h : w * m ≤ 512) (hk : k < m) :
    laneOf w (putRow 0 w f m v) k = f k % 2 ^ w := by
  have hrow := fieldAt_putRow f v hw ((Nat.zero_add _).le.trans h) hk
  rwa [Nat.zero_add] at hrow

/-! ### The format table -/

theorem bits_five_low (x : Nat) : bits x 4 0 = x % 32 := by simp [bits]

/-- The first of a thread's bundles that waits for a version slot. -/
def Due.isFormat : Due → Bool
  | .format _ _ _ _ => true
  | _ => false

theorem findIdx?_first {α : Type} {p : α → Bool} {l : List α} {k : Nat} {x : α} (hx : l[k]? = some x) (hp : p x = true)
    (hbefore : ∀ j y, j < k → l[j]? = some y → p y = false) : l.findIdx? p = some k := by
  obtain ⟨hk, rfl⟩ := List.getElem?_eq_some_iff.1 hx
  refine List.findIdx?_eq_some_iff_getElem.2 ⟨hk, hp, fun j hj => ?_⟩
  rw [hbefore j l[j] hj (List.getElem?_eq_getElem _)]
  exact Bool.false_ne_true

/-- A set field of FSEL, the others standing. -/
theorem fsel_field {old i : Nat} (slot : BitVec 2) (hold : old < 2 ^ 20) (hi : i < 32) {k : Nat} (hk : k < 4) :
    (BitVec.ofNat 64 (old - old / 2 ^ (5 * slot.toNat) % 32 * 2 ^ (5 * slot.toNat) + i * 2 ^ (5 * slot.toNat))).toNat /
      2 ^ (5 * k) % 32 = if k = slot.toNat then i else old / 2 ^ (5 * k) % 32 := by
  have hslot : slot.toNat < 4 := slot.isLt
  rw [BitVec.toNat_ofNat]
  generalize slot.toNat = n at hslot
  interval_cases n <;> interval_cases k <;> simp <;> omega

theorem State.ctx_setFmt (c i : Nat) (e : FmtEnt) :
    (s.setFmt c i e).ctx c = { s.ctx c with fmts := tput (s.ctx c).fmts i e } := tget_tput_same _ _ _ _

theorem State.install_plain {srcs : List SReg} {c i : Nat} {w : W64} {vals : List (BitVec 32)} (h : kindOf w ≠ 4) :
    s.install srcs c i w vals = (s.setFmt c i { tget {} (s.ctx c).fmts i with word := w }).commit srcs [] [] (.ready s.cycle) :=
  if_neg h
theorem State.install_book {srcs : List SReg} {c i k : Nat} {w : W64} {vals : List (BitVec 32)} (h : kindOf w = 4)
    (hk : s.freeVersion c i = some k) :
    s.install srcs c i w vals = (s.installBook c i k w vals).commit srcs [] [] (.ready s.cycle) := by
  rw [State.install, if_pos h, hk]
theorem State.install_waits {srcs : List SReg} {c i : Nat} {w : W64} {vals : List (BitVec 32)} (h : kindOf w = 4)
    (hk : s.freeVersion c i = none) :
    s.install srcs c i w vals = s.commit [] [] [] (.format i w vals (decide (30#5 ∈ srcs))) := by
  rw [State.install, if_pos h, hk]

section
variable {a : AReg} {b : SReg} {s1 s2 : State} {bs bs2 : List (BitVec 8)}

/-- What FMTSET does with the entry and the address, before it reads. -/
theorem fmtset_fixed (hr : s.Ready [b] none) (h : (s.src b).toNat % 32 < 8) :
    exec (.fmtset a b) s = .next (s.trap (fmtErr 6 ((s.src b).toNat % 32))) := by
  refine next_withOps hr ?_
  simp only [State.vals_singleton, bits_five_low]
  exact if_pos h

theorem fmtset_misaligned (hr : s.Ready [b] none) (h : 8 ≤ (s.src b).toNat % 32) (ha : (s.cur.readA a).toNat % 8 ≠ 0) :
    exec (.fmtset a b) s = .next (s.trap (misalign (s.cur.readA a))) := by
  refine next_withOps hr ?_
  simp only [State.vals_singleton, bits_five_low]
  exact (if_neg (not_lt.2 h)).trans (if_pos ha)

/-- The word is read, and fails its check or has its values read. -/
theorem fmtset_word (hr : s.Ready [b] none) (h : 8 ≤ (s.src b).toNat % 32) (ha : (s.cur.readA a).toNat % 8 = 0)
    (hread : s.readAt s.iss.thr (s.cur.readA a).toNat 8 = (s1, .ok bs none)) {k : Nat}
    (hw : wordCheck (BitVec.ofNat 64 (ofBytes bs)) = some k) :
    exec (.fmtset a b) s = .next (s1.trap (fmtErr k ((s.src b).toNat % 32))) := by
  refine next_withOps hr ?_
  simp only [State.vals_singleton, bits_five_low]
  refine (if_neg (not_lt.2 h)).trans ((if_neg (not_not.2 ha)).trans ?_)
  simp only [hread, State.onGot, Option.isSome_none, Bool.false_eq_true, if_false, hw]

theorem fmtset_values (hr : s.Ready [b] none) (h : 8 ≤ (s.src b).toNat % 32) (ha : (s.cur.readA a).toNat % 8 = 0)
    (hread : s.readAt s.iss.thr (s.cur.readA a).toNat 8 = (s1, .ok bs none)) (hw : wordCheck (BitVec.ofNat 64 (ofBytes bs)) = none)
    (hread2 : s1.readPieces s.iss.thr (pieces ((s.cur.readA a).toNat + 8) (4 * bookSize (BitVec.ofNat 64 (ofBytes bs)))) =
      (s2, .ok bs2 none)) :
    let w : W64 := BitVec.ofNat 64 (ofBytes bs)
    let vals := bytesWords bs2 (bookSize w)
    exec (.fmtset a b) s = .next (match valueCheck w vals with
      | some k => s2.trap (fmtErr k ((s.src b).toNat % 32))
      | none => s2.install [b] s.cur.ctx ((s.src b).toNat % 32) w vals) := by
  intro w vals
  refine next_withOps hr ?_
  simp only [State.vals_singleton, bits_five_low]
  refine (if_neg (not_lt.2 h)).trans ((if_neg (not_not.2 ha)).trans ?_)
  simp only [hread, State.onGot, Option.isSome_none, Bool.false_eq_true, if_false, hw, hread2]
  rfl

end

/-- What FMTGET gives for each selection. -/
theorem exec_fmtget {d b : SReg} (hr : s.Ready [b] (some d) false) :
    exec (.fmtget d b) s = .next (
      (if (s.src b).toNat / 32 % 4 = 3 then s.setCur { s.cur with fflags := 0 } else s).commit [b] [.s d]
        [(.s d, (if (s.src b).toNat / 32 % 4 = 0 then (s.ctx s.cur.ctx).fmtWord ((s.src b).toNat % 32)
          else if (s.src b).toNat / 32 % 4 = 1 then s.cur.fsel else s.cur.fflags).setWidth 512)] (.ready s.cycle)) := by
  have hcyc : (if (s.src b).toNat / 32 % 4 = 3 then s.setCur { s.cur with fflags := 0 } else s).cycle = s.cycle := by
    split <;> rfl
  refine next_withOps_late hr ?_
  simp only [State.vals_singleton, bits_five_low]
  rw [← hcyc]
  rfl

/-- The oldest FMTSET of a thread that waits is installed. -/
theorem exec_fmtsetInstall {thr k j v : Nat} {p : Pend} {w : W64} {vals : List (BitVec 32)} {pops : Bool}
    (hp : (s.thread thr).pend[k]? = some p) (hdue : p.due = .format j w vals pops)
    (hfirst : ∀ (k' : Nat) (q : Pend), k' < k → (s.thread thr).pend[k']? = some q → ∀ j w vals pops, q.due ≠ .format j w vals pops)
    (hfree : s.freeVersion (s.thread thr).ctx j = some v) :
    exec (.fmtsetInstall thr) s = .next (
      let u := s.installBook (s.thread thr).ctx j v w vals
      let u := if pops then u.pop thr else u
      u.setThread thr { u.thread thr with pend := dropAt (s.thread thr).pend k }) := by
  have hidx : (s.thread thr).pend.findIdx? (fun p => p.due.isFormat) = some k := by
    refine findIdx?_first hp (by rw [hdue]; rfl) fun i q hi hq => ?_
    have := hfirst i q hi hq
    cases hqd : q.due with
    | format j w vals pops => exact absurd hqd (this _ _ _ _)
    | _ => rfl
  refine congrArg Host.Outcome.next ?_
  dsimp only
  generalize hfound : List.findIdx? _ (s.thread thr).pend = o
  obtain rfl : o = some k := hfound.symm.trans hidx
  simp only [hp, hdue, hfree]

/-! ### Conversions -/

theorem foldl_pair {α β γ : Type} (F : α → γ → α) (G : β → γ → β) (l : List γ) (p : α × β) :
    l.foldl (fun acc i => (F acc.1 i, G acc.2 i)) p = (l.foldl F p.1, l.foldl G p.2) := by
  induction l generalizing p with
  | nil => rfl
  | cons x l ih => exact ih _

/-- A chunk of narrow elements lies in its register. -/
theorem chunk_fits {f g p : Nat} (hf : f ∈ [4, 8, 16, 32]) (hg : g ∈ [4, 8, 16, 32]) (hp : p < 8) :
    chunkBase (512 / max f g) (min f g) p + min f g * (512 / max f g) ≤ 512 := by
  have h : ∀ f ∈ [4, 8, 16, 32], ∀ g ∈ [4, 8, 16, 32], ∀ p < 8,
      chunkBase (512 / max f g) (min f g) p + min f g * (512 / max f g) ≤ 512 := by decide
  exact h f hf g hg p hp

/-- Powers of two one for each bit that is set. -/
theorem testBit_sum_pow (p : Nat → Bool) (n k : Nat) :
    (((List.range n).map fun i => if p i then 2 ^ i else 0).sum < 2 ^ n) ∧
    (((List.range n).map fun i => if p i then 2 ^ i else 0).sum.testBit k = (decide (k < n) && p k)) := by
  induction n with
  | zero => simp
  | succ n ih =>
    obtain ⟨hlt, hbit⟩ := ih
    have hpow : 2 ^ (n + 1) = 2 ^ n + 2 ^ n := by omega
    rw [List.range_succ, List.map_append, List.sum_append, List.map_singleton, List.sum_singleton]
    cases hp : p n
    · refine ⟨by simp only [Bool.false_eq_true, if_false]; omega, ?_⟩
      simp only [Bool.false_eq_true, if_false, Nat.add_zero, hbit]
      by_cases hk : k = n
      · simp [hk, hp]
      · congr 1
        exact decide_eq_decide.2 (by omega)
    · refine ⟨by simp only [if_true]; omega, ?_⟩
      simp only [if_true]
      rw [Nat.add_comm]
      rcases lt_trichotomy k n with hk | rfl | hk
      · rw [Nat.testBit_two_pow_add_gt hk, hbit, decide_eq_true hk, decide_eq_true (by omega : k < n + 1)]
      · rw [Nat.testBit_two_pow_add_eq, hbit]
        simp [hp]
      · rw [Nat.testBit_lt_two_pow, decide_eq_false (by omega), Bool.false_and]
        exact lt_of_lt_of_le (by omega : 2 ^ n + _ < 2 ^ (n + 1)) (Nat.pow_le_pow_right (by decide) hk)

theorem State.retireT_congr {srcs : List SReg} {f g : Thread → Thread} (h : f s.cur = g s.cur) :
    s.retireT srcs f = s.retireT srcs g := by
  have h' : f (s.popIf srcs).cur = g (s.popIf srcs).cur := by rwa [State.popIf_cur]
  exact congrArg (fun th => ((s.popIf srcs).setCur th).done) h'

theorem State.snap_word (c i : Nat) : (s.snap c i).word = (s.ctx c).fmtWord i := by
  simp only [State.snap]
  split <;> rfl
theorem State.snap_entry (c i : Nat) : (s.snap c i).entry = i := by
  simp only [State.snap]
  split <;> rfl

theorem acceptAny_valid {w : W64} (h : kindOf w ≠ 0) : acceptAny w = none := if_neg h
theorem acceptAny_invalid {w : W64} (h : kindOf w = 0) : acceptAny w = some 7 := if_pos h

theorem bits_five_high (x : Nat) : bits x 9 5 = x / 32 % 32 := rfl

section
variable {d a : VReg} {b : SReg}

theorem exec_cvt_from (hr : s.Ready [b] none) (h : kindOf ((s.ctx s.cur.ctx).fmtWord ((s.src b).toNat % 32)) = 0) :
    exec (.cvt d a b) s = .next (s.trap (fmtErr 7 ((s.src b).toNat % 32))) := by
  refine next_withOps hr ?_
  simp only [State.vals_singleton, bits_five_low, State.snap_word, acceptAny_invalid h, State.snap_entry]

theorem exec_cvt_to (hr : s.Ready [b] none) (h : kindOf ((s.ctx s.cur.ctx).fmtWord ((s.src b).toNat % 32)) ≠ 0)
    (h' : kindOf ((s.ctx s.cur.ctx).fmtWord ((s.src b).toNat / 32 % 32)) = 0) :
    exec (.cvt d a b) s = .next (s.trap (fmtErr 7 ((s.src b).toNat / 32 % 32))) := by
  refine next_withOps hr ?_
  simp only [State.vals_singleton, bits_five_low, bits_five_high, State.snap_word, acceptAny_valid h, acceptAny_invalid h',
    State.snap_entry]

/-- A conversion puts its row of codes into v_d. -/
theorem exec_cvt (hr : s.Ready [b] none) (h : kindOf ((s.ctx s.cur.ctx).fmtWord ((s.src b).toNat % 32)) ≠ 0)
    (h' : kindOf ((s.ctx s.cur.ctx).fmtWord ((s.src b).toNat / 32 % 32)) ≠ 0) :
    let n := (s.src b).toNat
    let f := (s.snap s.cur.ctx (n % 32)).fmt
    let g := (s.snap s.cur.ctx (n / 32 % 32)).fmt
    let m := 512 / max f.W g.W
    let base := chunkBase m (min f.W g.W) (n / 2 ^ 13 % 8)
    let lane := fun k => encodeVal g (decodeVal f (fieldAt (s.cur.readV a) ((if f.W < g.W then base else 0) + f.W * k) f.W))
      (rndOf (n / 2 ^ 10 % 4)) (decide (n / 2 ^ 12 % 2 = 1))
    ∃ e, exec (.cvt d a b) s = .next (s.retireT [b] fun th =>
      addFlags (th.writeV d (putRow (if g.W < f.W then base else 0) g.W (fun k => (lane k).1) m (s.cur.readV d))) e) := by
  intro n f g m base lane
  refine ⟨((List.range m).foldl (fun e i => e ||| (lane i).2) 0), next_withOps hr ?_⟩
  simp only [State.vals_singleton, bits_five_low, bits_five_high, State.snap_word, acceptAny_valid h, acceptAny_valid h']
  have hrow := foldl_pair (fun v i => putAt v ((if g.W < f.W then base else 0) + g.W * i) g.W (lane i).1)
    (fun e i => e ||| (lane i).2) (List.range m) (s.cur.readV d, 0)
  exact congrArg (fun r : V512 × Nat => s.retireT [b] fun th => addFlags (th.writeV d r.1) r.2) hrow

/-- The traps of CVTEF. -/
theorem exec_cvtef_from (hr : s.Ready [b] none) (h : kindOf ((s.ctx s.cur.ctx).fmtWord ((s.src b).toNat % 32)) = 0) :
    exec (.cvtef d a b) s = .next (s.trap (fmtErr 7 ((s.src b).toNat % 32))) := by
  refine next_withOps hr ?_
  simp only [State.vals_singleton, bits_five_low, State.snap_word, acceptAny_invalid h]

theorem exec_cvtef_refused (hr : s.Ready [b] none) (h : kindOf ((s.ctx s.cur.ctx).fmtWord ((s.src b).toNat % 32)) ≠ 0)
    (hn : (s.src b).toNat % 32 ≠ 0) (h' : kindOf ((s.ctx s.cur.ctx).fmtWord ((s.src b).toNat / 32 % 32)) ≠ 0) :
    exec (.cvtef d a b) s = .next (s.trap (fmtErr 8 ((s.src b).toNat % 32))) := by
  refine next_withOps hr ?_
  simp only [State.vals_singleton, bits_five_low, bits_five_high, State.snap_word, acceptAny_valid h, acceptAny_valid h']
  exact if_pos hn

theorem exec_cvtef_to (hr : s.Ready [b] none) (h : kindOf ((s.ctx s.cur.ctx).fmtWord ((s.src b).toNat % 32)) ≠ 0)
    (hn : (s.src b).toNat % 32 = 0) (h' : kindOf ((s.ctx s.cur.ctx).fmtWord ((s.src b).toNat / 32 % 32)) = 0) :
    exec (.cvtef d a b) s = .next (s.trap (fmtErr 7 ((s.src b).toNat / 32 % 32))) := by
  refine next_withOps hr ?_
  simp only [State.vals_singleton, bits_five_low, bits_five_high, State.snap_word, acceptAny_valid h, acceptAny_invalid h',
    State.snap_entry]
  exact if_pos hn

theorem exec_cvtef_book (hr : s.Ready [b] none) (h : kindOf ((s.ctx s.cur.ctx).fmtWord ((s.src b).toNat % 32)) ≠ 0)
    (hn : (s.src b).toNat % 32 = 0) (h' : kindOf ((s.ctx s.cur.ctx).fmtWord ((s.src b).toNat / 32 % 32)) = 4) :
    exec (.cvtef d a b) s = .next (s.trap (fmtErr 8 ((s.src b).toNat / 32 % 32))) := by
  refine next_withOps hr ?_
  simp only [State.vals_singleton, bits_five_low, bits_five_high, State.snap_word, acceptAny_valid h,
    acceptAny_valid (h'.symm ▸ (by decide) : kindOf ((s.ctx s.cur.ctx).fmtWord ((s.src b).toNat / 32 % 32)) ≠ 0),
    State.snap_entry]
  exact (if_neg (not_not.2 hn)).trans (if_pos h')

/-- A conversion with errors puts its row of codes into v_d, the residuals into v_d+1, and the lanes out of range into m7. -/
theorem exec_cvtef (hr : s.Ready [b] none) (hn : (s.src b).toNat % 32 = 0)
    (h0 : kindOf ((s.ctx s.cur.ctx).fmtWord ((s.src b).toNat / 32 % 32)) ≠ 0)
    (h4 : kindOf ((s.ctx s.cur.ctx).fmtWord ((s.src b).toNat / 32 % 32)) ≠ 4) :
    let n := (s.src b).toNat
    let g := (s.snap s.cur.ctx (n / 32 % 32)).fmt
    let base := chunkBase 16 g.W (n / 2 ^ 13 % 8)
    let x := fun k => val32 (BitVec.ofNat 32 (laneOf 32 (s.cur.readV a) k))
    let code := fun k => (encodeVal g (x k) (rndOf (n / 2 ^ 10 % 4)) (decide (n / 2 ^ 12 % 2 = 1))).1
    let out := fun k => (x k).isNan || (x k).lt (finiteRange g).1 || (finiteRange g).2.lt (x k)
    ∃ e, exec (.cvtef d a b) s = .next (s.retireT [b] fun th =>
      addFlags (((th.writeV d (putRow (if g.W = 32 then 0 else base) g.W code 16 (s.cur.readV d))).writeV (d + 1)
        (putRow 0 32 (fun k => (rne32 ((x k).sub (decodeVal g (code k))).1).toNat) 16 0)).writeM 7
        (s.cur.readM 7 ||| BitVec.ofNat 64 ((List.range 16).map fun k => if out k then 2 ^ k else 0).sum)) e) := by
  intro n g base x code out
  have hfrom : kindOf ((s.ctx s.cur.ctx).fmtWord ((s.src b).toNat % 32)) ≠ 0 := by
    rw [hn]
    exact (by decide : kindOf (fixedFmts.getD 0 0) ≠ 0)
  let lane := fun k => (code k, (rne32 ((x k).sub (decodeVal g (code k))).1).toNat, out k,
    (encodeVal g (x k) (rndOf (n / 2 ^ 10 % 4)) (decide (n / 2 ^ 12 % 2 = 1))).2 |||
      (if (out k && !(x k).isNan) = true then flOver else 0))
  refine ⟨((List.range 16).map fun i => (i, lane i)).foldl (fun e l => e ||| l.2.2.2.2) 0, next_withOps hr ?_⟩
  simp only [State.vals_singleton, bits_five_low, bits_five_high, State.snap_word, acceptAny_valid hfrom, acceptAny_valid h0]
  refine (if_neg (not_not.2 hn)).trans ((if_neg h4).trans ?_)
  refine State.retireT_congr ?_
  have hcodes : ((List.range 16).map fun i => (i, lane i)).foldl (fun v l => if g.W = 32 then putAt v (32 * l.1) 32 l.2.1
      else putAt v (base + g.W * l.1) g.W l.2.1) (s.cur.readV d) =
      putRow (if g.W = 32 then 0 else base) g.W code 16 (s.cur.readV d) := by
    rw [List.foldl_map, putRow]
    congr 1
    funext v i
    split
    · next h => rw [h, Nat.zero_add]
    · rfl
  have hres : ((List.range 16).map fun i => (i, lane i)).foldl (fun v l => putAt v (32 * l.1) 32 l.2.2.1) (0 : V512) =
      putRow 0 32 (fun k => (rne32 ((x k).sub (decodeVal g (code k))).1).toNat) 16 0 := by
    rw [List.foldl_map, putRow]
    congr 1
    funext v i
    rw [Nat.zero_add]
  rw [← hcodes, ← hres]
  rfl

end

/-- The row of a conversion lies in its register. -/
theorem cvt_fits {f g p : Nat} (hf : f ∈ [4, 8, 16, 32]) (hg : g ∈ [4, 8, 16, 32]) (hp : p < 8) :
    (if g < f then chunkBase (512 / max f g) (min f g) p else 0) + g * (512 / max f g) ≤ 512 := by
  have h := chunk_fits hf hg hp
  split_ifs with hlt
  · rw [Nat.min_eq_right (Nat.le_of_lt hlt)] at h ⊢
    exact h
  · rw [Nat.zero_add, Nat.max_eq_right (Nat.le_of_not_lt hlt)]
    exact Nat.mul_div_le _ _

theorem cvtef_fits {g p : Nat} (hg : g ∈ [4, 8, 16, 32]) (hp : p < 8) : (if g = 32 then 0 else chunkBase 16 g p) + g * 16 ≤ 512 := by
  have h : ∀ g ∈ [4, 8, 16, 32], ∀ p < 8, (if g = 32 then 0 else chunkBase 16 g p) + g * 16 ≤ 512 := by decide
  exact h g hg p hp

theorem width_pos {w : Nat} (h : w ∈ [4, 8, 16, 32]) : 0 < w := by
  have hall : ∀ w ∈ [4, 8, 16, 32], 0 < w := by decide
  exact hall w h

/-- Settles O26: FMTSET by its checks, the conversions by the row of codes they put. -/
theorem formatTable : Obligations.FormatTable := by
  unfold Obligations.FormatTable
  refine ⟨fun s a b d slot => ⟨fun hr => ⟨fun hi => ⟨fmtset_fixed hr hi, ?_⟩, fun hi hea => fmtset_misaligned hr hi hea,
    fun hi hea s1 bs hread => ⟨fun k hw => fmtset_word hr hi hea hread hw, fun hw s2 bs2 hread2 => ?_⟩, fun hi => ?_, ?_⟩,
    fun hr => ?_, fun thr k p w vals v j pops hp hdue hfirst hfree => exec_fmtsetInstall hp hdue hfirst hfree⟩,
    fun s d a b hr => ⟨fun h => exec_cvt_from hr h, fun h h' => exec_cvt_to hr h h', fun h h' hf hg => ?_,
      fun h => exec_cvtef_from hr h, fun h hn h' => exec_cvtef_refused hr h hn h', fun h hn h' => exec_cvtef_to hr h hn h',
      fun h hn h' => exec_cvtef_book hr h hn h', fun hn h0 h4 hg => ?_⟩⟩
  · refine next_withOps hr ?_
    simp only [State.vals_singleton, bits_five_low]
    exact if_pos hi
  · have hrun := fmtset_values hr hi hea hread hw hread2
    refine ⟨fun k hv => ?_, fun hv => ⟨fun hk => ?_, fun hk v hfree => ?_, fun hk hfree => ?_⟩⟩
    · rw [hrun, hv]
      rfl
    · rw [hrun, hv, State.install_plain hk]
    · rw [hrun, hv, State.install_book hk hfree]
    · rw [hrun, hv, State.install_waits hk hfree]
      simp only [List.mem_singleton, eq_comm]
  · refine ⟨s.setFmt s.cur.ctx ((s.src b).toNat % 32) { tget {} (s.ctx s.cur.ctx).fmts ((s.src b).toNat % 32) with word := 0 },
      ?_, ?_, fun j hj => ?_, rfl⟩
    · refine next_withOps hr ?_
      simp only [State.vals_singleton, bits_five_low]
      exact if_neg (not_lt.2 hi)
    · rw [State.ctx_setFmt, Ctx.fmtWord, if_neg (not_lt.2 hi), tget_tput_same]
    · rw [State.ctx_setFmt, Ctx.fmtWord, Ctx.fmtWord, tget_tput_other _ _ _ hj]
  · refine ⟨_, next_withOps hr ?_, fun hold k hk => fsel_field slot hold (Nat.mod_lt _ (by decide)) hk⟩
    simp only [State.vals_singleton, bits_five_low]
    exact State.retireT_congr rfl
  · have hrun := exec_fmtget hr
    refine ⟨fun h => ?_, fun h => ?_, fun h => ?_, fun h => ?_⟩ <;> rw [hrun, h] <;> rfl
  · obtain ⟨e, hrun⟩ := exec_cvt (d := d) (a := a) hr h h'
    have hfit := cvt_fits hf hg (Nat.mod_lt ((s.src b).toNat / 2 ^ 13) (by decide : 0 < 8))
    have hpos := width_pos hg
    exact ⟨_, e, hrun, fun k hk => fieldAt_putRow _ _ hpos hfit hk, fun j hj => getLsbD_putRow_outside _ _ hpos hfit hj⟩
  · obtain ⟨e, hrun⟩ := exec_cvtef (d := d) (a := a) hr hn h0 h4
    have hfit := cvtef_fits hg (Nat.mod_lt ((s.src b).toNat / 2 ^ 13) (by decide : 0 < 8))
    have hpos := width_pos hg
    refine ⟨_, _, _, e, hrun, fun k hk => fieldAt_putRow _ _ hpos hfit hk, fun j hj => getLsbD_putRow_outside _ _ hpos hfit hj,
      fun k hk => ?_, fun k hk => ?_⟩
    · exact (laneOf_putRow _ 0 (by decide) (by decide) hk).trans (Nat.mod_eq_of_lt (BitVec.isLt _))
    · rw [BitVec.getLsbD_or, BitVec.getLsbD_ofNat, (testBit_sum_pow _ _ _).2, decide_eq_true hk, Bool.true_and]

end Sys2Proof.Machine

/-! SUPPORT. The vector unit: the statements VectorResults, VectorFloats and Reductions (06_vector R112 to R138). -/

namespace Sys2Proof.Machine

open Sys2Proof

variable {s : State}

/-! ### Elements of a merged register -/

/-- An element of a packed list. -/
theorem packLanes_field (z : Nat) (l : List Nat) (k : Nat) : packLanes z l / 2 ^ (z * k) % 2 ^ z = l.getD k 0 % 2 ^ z := by
  induction l generalizing k with
  | nil => simp [packLanes]
  | cons x l ih =>
    cases k with
    | zero => simp [packLanes]
    | succ k =>
      have hdrop : (x % 2 ^ z + 2 ^ z * packLanes z l) / 2 ^ z = packLanes z l := by
        rw [Nat.add_mul_div_left _ _ (Nat.two_pow_pos z), Nat.div_eq_of_lt (Nat.mod_lt _ (Nat.two_pow_pos z)), Nat.zero_add]
      rw [packLanes, Nat.mul_succ, Nat.add_comm (z * k), Nat.pow_add, ← Nat.div_div_eq_div_mul, hdrop, ih, List.getD_cons_succ]

/-- A field of a number cut to 512 bits. -/
theorem fieldAt_ofNat (n : Nat) {pos w : Nat} (h : pos + w ≤ 512) : fieldAt (BitVec.ofNat 512 n) pos w = n / 2 ^ pos % 2 ^ w := by
  refine Nat.eq_of_testBit_eq fun i => ?_
  rw [testBit_fieldAt, Nat.testBit_mod_two_pow, Nat.testBit_div_two_pow, BitVec.getLsbD_ofNat, Nat.add_comm i]
  by_cases hi : i < w
  · simp [hi, show pos + i < 512 by omega]
  · simp [hi]

theorem lane_fits {z k : Nat} (hk : k < 512 / z) : z * k + z ≤ 512 :=
  (Nat.mul_succ z k).ge.trans ((Nat.mul_le_mul_left z hk).trans (Nat.mul_div_le 512 z))

/-- An active element is the new one, another is kept (R113). -/
theorem laneOf_mergeLanes {z k : Nat} (m : W64) (old : V512) (f : Nat → Nat) (hk : k < 512 / z) :
    laneOf z (mergeLanes z m old f) k = if m.getLsbD k then f k % 2 ^ z else laneOf z old k := by
  have hget : ((List.range (laneCount z)).map fun i => if m.getLsbD i then f i else laneOf z old i).getD k 0 =
      if m.getLsbD k then f k else laneOf z old k := by
    rw [List.getD_eq_getElem?_getD, List.getElem?_map, List.getElem?_range (show k < laneCount z from hk)]
    rfl
  rw [laneOf, mergeLanes, fieldAt_ofNat _ (lane_fits hk), packLanes_field, hget]
  split
  · rfl
  · exact Nat.mod_mod _ _

theorem laneOf_lt (z : Nat) (v : V512) (k : Nat) : laneOf z v k < 2 ^ z := Nat.mod_lt _ (Nat.two_pow_pos z)

/-! ### What each shape of instruction sets -/

section
variable {i : Instr} {srcs : List SReg} {z : Nat} {d : VReg} {m : MReg}

/-- An instruction that completes with a merged register sets its elements. -/
theorem setsLanes_of_mergeLanes {f f' : Nat → Nat} {g : Thread → Thread} (hi : exec i s = .next (s.retireT srcs g))
    (hg : g s.cur = s.cur.writeV d (mergeLanes z (s.cur.readM m) (s.cur.readV d) f'))
    (hf : ∀ k, k < 512 / z → f' k % 2 ^ z = f k % 2 ^ z) : SetsLanes s i srcs z d m f := by
  refine ⟨_, hi.trans (congrArg Host.Outcome.next (State.retireT_congr hg)), fun k hk => ?_⟩
  rw [laneOf_mergeLanes _ _ _ hk, hf k hk]

theorem setsLanes_vecOp {f : Nat → Nat} {g : Thread → Nat → Nat} (hi : exec i s = .next (vecOp z d m g s))
    (hf : ∀ k, k < 512 / z → g s.cur k % 2 ^ z = f k % 2 ^ z) : SetsLanes s i [] z d m f :=
  setsLanes_of_mergeLanes (f' := g s.cur) hi rfl hf

theorem setsLanes_vecRR {w : BitVec 2} {a b : VReg} {f : Nat → Nat} {g : Nat → Nat → Nat → Nat}
    (hi : exec i s = .next (vecRR w d a b m g s))
    (hf : ∀ k, g (8 * 2 ^ w.toNat) (laneOf (8 * 2 ^ w.toNat) (s.cur.readV a) k) (laneOf (8 * 2 ^ w.toNat) (s.cur.readV b) k) %
      2 ^ (8 * 2 ^ w.toNat) = f k % 2 ^ (8 * 2 ^ w.toNat)) : SetsLanes s i [] (8 * 2 ^ w.toNat) d m f :=
  setsLanes_vecOp hi fun k _ => hf k

theorem setsLanes_vecBit {a b : VReg} {f : Nat → Nat} {g : Nat → Nat → Nat} (hi : exec i s = .next (vecBit d a b m g s))
    (hf : ∀ k, g (laneOf 32 (s.cur.readV a) k) (laneOf 32 (s.cur.readV b) k) = f k) : SetsLanes s i [] 32 d m f :=
  setsLanes_vecOp hi fun k _ => congrArg (· % 2 ^ 32) (hf k)

theorem setsLanes_vecSlide {w : BitVec 2} {a : VReg} {r : SReg} {f : Nat → Nat} {g : Nat → Nat → Option Nat}
    (hr : s.Ready [r] none) (hi : exec i s = .next (vecSlide w d a r m g s))
    (hf : ∀ k, k < 512 / (8 * 2 ^ w.toNat) → ((g k (s.src r).toNat).elim 0 fun j =>
      if j < laneCount (widthBits w) then laneOf (widthBits w) (s.cur.readV a) j else 0) = f k) :
    SetsLanes s i [r] (8 * 2 ^ w.toNat) d m f := by
  refine setsLanes_of_mergeLanes (hi.trans (next_withOps hr rfl)) rfl fun k hk => ?_
  rw [← hf k hk, State.vals_singleton]
  cases g k (s.src r).toNat <;> rfl

end

/-! ### Arithmetic of elements -/

theorem sgn_bounds {z x : Nat} (hz : 0 < z) (hx : x < 2 ^ z) : -(2 ^ (z - 1) : Nat) ≤ sgn z x ∧ sgn z x < (2 ^ (z - 1) : Nat) := by
  have hpow : 2 ^ z = 2 * 2 ^ (z - 1) := by rw [← Nat.pow_succ', Nat.succ_eq_add_one, Nat.sub_add_cancel hz]
  unfold sgn
  split <;> omega

theorem sgn_of_nonneg {z x : Nat} (hx : x < 2 ^ z) (h : 0 ≤ sgn z x) : sgn z x = x := by
  unfold sgn at h ⊢
  split_ifs at h ⊢ <;> omega

/-- A number modulo a square, from its quotient and its rest. -/
theorem Int.emod_sq (p : Int) {M : Int} (hM : 0 < M) : p % (M * M) = M * (p / M % M) + p % M := by
  have hr := Int.emod_nonneg p hM.ne'
  have hr' := Int.emod_lt_of_pos p hM
  have hq := Int.emod_nonneg (p / M) hM.ne'
  have hq' := Int.emod_lt_of_pos (p / M) hM
  have hp : p = (M * (p / M % M) + p % M) + M * M * (p / M / M) := by
    have h1 := Int.mul_ediv_add_emod p M
    have h2 := Int.mul_ediv_add_emod (p / M) M
    linear_combination -h1 - M * h2
  have hlt : M * (p / M % M) + p % M < M * M := by nlinarith only [hr', hq', hM]
  have hnn : 0 ≤ M * (p / M % M) + p % M := by positivity
  calc p % (M * M) = ((M * (p / M % M) + p % M) + M * M * (p / M / M)) % (M * M) := by rw [← hp]
    _ = M * (p / M % M) + p % M := by rw [Int.add_mul_emod_self_left, Int.emod_eq_of_lt hnn hlt]

/-- The high half of a product modulo 2^2z is the product's quotient modulo 2^z. -/
theorem unsgn_high (z : Nat) (p : Int) : unsgn (2 * z) p / 2 ^ z = unsgn z (p / (2 ^ z : Nat)) := by
  have hpow : ((2 ^ (2 * z) : Nat) : Int) = (2 ^ z : Nat) * (2 ^ z : Nat) := by
    rw [Nat.two_mul, Nat.pow_add, Nat.cast_mul]
  have hpos : (0 : Int) < (2 ^ z : Nat) := by exact_mod_cast Nat.two_pow_pos z
  obtain ⟨q, hq⟩ := Int.eq_ofNat_of_zero_le (Int.emod_nonneg (p / (2 ^ z : Nat)) hpos.ne')
  obtain ⟨r, hr⟩ := Int.eq_ofNat_of_zero_le (Int.emod_nonneg p hpos.ne')
  have hlt : r < 2 ^ z := by
    have := Int.emod_lt_of_pos p hpos
    rw [hr] at this
    exact_mod_cast this
  rw [unsgn, unsgn, hpow, Int.emod_sq p hpos, hq, hr, Int.toNat_natCast]
  have hcast : (((2 ^ z : Nat) : Int) * (q : Int) + (r : Int)).toNat = 2 ^ z * q + r := by
    rw [← Nat.cast_mul, ← Nat.cast_add, Int.toNat_natCast]
  rw [hcast, Nat.mul_add_div (Nat.two_pow_pos z), Nat.div_eq_of_lt hlt, Nat.add_zero]

/-- Shifting an element out leaves its sign. -/
theorem sgn_shift_out {z x y : Nat} (hz : 0 < z) (hx : x < 2 ^ z) (hy : z ≤ y) :
    unsgn z (sgn z x / (2 ^ min y z : Nat)) = if sgn z x < 0 then 2 ^ z - 1 else 0 := by
  obtain ⟨hlo, hhi⟩ := sgn_bounds hz hx
  have hhalf : 2 ^ (z - 1) ≤ 2 ^ z := Nat.pow_le_pow_right (by decide) (Nat.sub_le _ _)
  have hpos : (0 : Int) < (2 ^ z : Nat) := by exact_mod_cast Nat.two_pow_pos z
  rw [Nat.min_eq_right hy]
  split_ifs with h
  · have hdiv : sgn z x / (2 ^ z : Nat) = -1 := by
      refine (Int.ediv_emod_unique (r := sgn z x + (2 ^ z : Nat)) hpos).2 ⟨by ring, by omega, by omega⟩ |>.1
    have hmod : (-1 : Int) % (2 ^ z : Nat) = ((2 ^ z - 1 : Nat) : Int) := by
      have hone : 1 ≤ 2 ^ z := Nat.one_le_two_pow
      refine (Int.ediv_emod_unique (q := -1) hpos).2 ⟨?_, by omega, by omega⟩ |>.2
      push_cast [hone]
      ring
    rw [unsgn, hdiv, hmod, Int.toNat_natCast]
  · rw [unsgn, Int.ediv_eq_zero_of_lt (by omega) (by omega)]
    rfl

/-- The bits of one number that another does not have. -/
theorem and_not_eq_sub {z x y : Nat} (hx : x < 2 ^ z) (hy : y < 2 ^ z) : x &&& (y ^^^ (2 ^ z - 1)) = x - (x &&& y) := by
  have hX : (BitVec.ofNat z x).toNat = x := Nat.mod_eq_of_lt hx
  have hY : (BitVec.ofNat z y).toNat = y := Nat.mod_eq_of_lt hy
  have hsum : (BitVec.ofNat z x &&& ~~~BitVec.ofNat z y) + (BitVec.ofNat z x &&& BitVec.ofNat z y) = BitVec.ofNat z x := by
    rw [BitVec.add_eq_or_of_and_eq_zero] <;>
    · refine BitVec.eq_of_getLsbD_eq fun i hi => ?_
      simp only [BitVec.getLsbD_or, BitVec.getLsbD_and, BitVec.getLsbD_not, hi, decide_true, Bool.true_and, BitVec.getLsbD_zero]
      cases (BitVec.ofNat z x).getLsbD i <;> cases (BitVec.ofNat z y).getLsbD i <;> rfl
  have hsub := eq_sub_of_add_eq hsum
  have hle : BitVec.ofNat z x &&& BitVec.ofNat z y ≤ BitVec.ofNat z x := by
    rw [BitVec.le_def, BitVec.toNat_and]
    exact Nat.and_le_left
  have h := congrArg BitVec.toNat hsub
  rw [BitVec.toNat_sub_of_le hle, BitVec.toNat_and, BitVec.toNat_and, hX, hY, ← BitVec.xor_allOnes, BitVec.toNat_xor, hY,
    BitVec.toNat_allOnes] at h
  exact h

theorem clampU_eq {w n x : Nat} (hx : x < 2 ^ w) : clampU w n x = (max 0 (min (sgn w x) ((2 ^ n - 1 : Nat) : Int))).toNat := by
  unfold clampU
  split_ifs with h
  · omega
  · rw [sgn_of_nonneg hx (by omega)]
    omega

theorem width_eq_pos (w : BitVec 2) : 0 < 8 * 2 ^ w.toNat := by positivity

/-- An element put at its place, the others standing. -/
theorem laneOf_putAt {z j k : Nat} (v : V512) (x : Nat) (hj : j < 512 / z) :
    laneOf z (putAt v (z * j) z x) k = if k = j then x % 2 ^ z else laneOf z v k := by
  have hjz := lane_fits hj
  refine Nat.eq_of_testBit_eq fun i => ?_
  rw [laneOf, testBit_fieldAt, getLsbD_putAt _ _ hjz]
  by_cases hi : i < z
  · by_cases hkj : k = j
    · subst hkj
      rw [if_pos (by omega), if_pos rfl, Nat.testBit_mod_two_pow, Nat.add_sub_cancel_left]
    · have hout : ¬ (z * j ≤ z * k + i ∧ z * k + i < z * j + z) := by
        rcases Nat.lt_or_gt_of_ne hkj with hlt | hgt
        · have := Nat.mul_le_mul_left z hlt
          rw [Nat.mul_succ] at this
          omega
        · have := Nat.mul_le_mul_left z hgt
          rw [Nat.mul_succ] at this
          omega
      rw [if_neg hout, if_neg hkj, laneOf, testBit_fieldAt]
  · rw [decide_eq_false hi, Bool.false_and]
    split_ifs
    · rw [Nat.testBit_mod_two_pow, decide_eq_false hi, Bool.false_and]
    · rw [laneOf, testBit_fieldAt, decide_eq_false hi, Bool.false_and]

/-- Settles O27: each instruction by its shape, the arithmetic of its elements where the model writes it otherwise. -/
theorem vectorResults : Obligations.VectorResults := by
  unfold Obligations.VectorResults
  intro s w d a b m r q z x y x4 y4 op
  have hz : 0 < z := width_eq_pos w
  have hx : ∀ k, x k < 2 ^ z := laneOf_lt _ _
  have hx4 : ∀ k, x4 k < 2 ^ 32 := laneOf_lt _ _
  have hy4 : ∀ k, y4 k < 2 ^ 32 := laneOf_lt _ _
  refine ⟨setsLanes_vecRR rfl fun _ => rfl, setsLanes_vecRR rfl fun _ => rfl, setsLanes_vecRR rfl fun _ => rfl,
    setsLanes_vecRR rfl fun k => congrArg (· % 2 ^ z) (unsgn_high z _), setsLanes_vecRR rfl fun _ => rfl,
    setsLanes_vecRR rfl fun _ => rfl, setsLanes_vecRR rfl fun k => congrArg (· % 2 ^ z) ?_, setsLanes_vecRR rfl fun _ => rfl,
    setsLanes_vecRR rfl fun _ => rfl, setsLanes_vecRR rfl fun _ => rfl, setsLanes_vecRR rfl fun _ => rfl,
    setsLanes_vecOp rfl fun _ _ => rfl, setsLanes_vecOp rfl fun _ _ => rfl, setsLanes_vecBit rfl fun _ => rfl,
    setsLanes_vecBit rfl fun _ => rfl, setsLanes_vecBit rfl fun _ => rfl,
    setsLanes_vecBit rfl fun k => and_not_eq_sub (hx4 k) (hy4 k), setsLanes_vecOp rfl fun _ _ => rfl,
    setsLanes_vecOp rfl fun _ _ => rfl, setsLanes_vecOp rfl fun _ _ => rfl,
    setsLanes_vecOp rfl fun k _ => congrArg (· % 2 ^ 16) (if_congr Iff.rfl (clampU_eq (hx4 k)) rfl),
    setsLanes_vecOp rfl fun k _ => congrArg (· % 2 ^ 8) (if_congr Iff.rfl (clampU_eq (laneOf_lt _ _ _)) rfl),
    ⟨mergeLanes 32 (s.cur.readM m) (s.cur.readV b) x4, congrArg Host.Outcome.next (State.retireT_congr rfl), fun k hk => ?_⟩,
    fun hr => ⟨?_, ?_, ?_⟩, fun hr => ?_, fun hr => ?_⟩
  · by_cases hy : z ≤ y k
    · rw [if_pos hy]
      exact sgn_shift_out hz (hx k) hy
    · rw [if_neg hy]
      exact congrArg (fun n => unsgn z (sgn z (x k) / (2 ^ n : Nat))) (Nat.min_eq_left (Nat.le_of_not_le hy))
  · rw [laneOf_mergeLanes _ _ _ hk, Nat.mod_eq_of_lt (hx4 k)]
  · exact setsLanes_of_mergeLanes (next_withOps hr rfl) rfl fun _ _ => by rw [State.vals_singleton]
  · exact setsLanes_vecSlide hr rfl fun _ _ => rfl
  · refine setsLanes_vecSlide hr rfl fun k hk => ?_
    by_cases hle : (s.src r).toNat ≤ k
    · rw [if_pos hle, if_pos hle]
      exact if_pos (lt_of_le_of_lt (Nat.sub_le _ _) hk)
    · rw [if_neg hle, if_neg hle]
      rfl
  · refine next_withOps hr ?_
    rw [State.vals_singleton]
    rfl
  · obtain ⟨hq, hrr⟩ := vals_pair s q r
    by_cases hlt : (s.src r).toNat < 512 / z
    · refine ⟨putAt (s.cur.readV d) (z * (s.src r).toNat) z (s.src q).toNat, next_withOps hr ?_, fun k _ => laneOf_putAt _ _ hlt⟩
      rw [hq, hrr]
      exact State.retireT_congr rfl
    · refine ⟨s.cur.readV d, next_withOps hr ?_, fun k hk => (if_neg (by omega)).symm⟩
      rw [hq, hrr]
      exact State.retireT_congr ((if_neg fun h => hlt h.1).trans (if_neg fun h => hlt h.1).symm)

/-! ### Float arithmetic and special functions -/

/-- A flag gathered over a list is one that some member raised. -/
theorem testBit_gathered {α : Type} (f : α → Nat) (l : List α) (e b : Nat) :
    (l.foldl (fun e k => e ||| f k) e).testBit b = true ↔ e.testBit b = true ∨ ∃ k ∈ l, (f k).testBit b = true := by
  induction l generalizing e with
  | nil => simp
  | cons k l ih =>
    rw [List.foldl_cons, ih, Nat.testBit_or, Bool.or_eq_true]
    simp only [List.mem_cons, exists_eq_or_imp, or_assoc]

/-- The flags of the active elements. -/
theorem testBit_active (f : Nat → Nat) (m : W64) (n b : Nat) :
    (((List.range n).filter fun k => m.getLsbD k).foldl (fun e k => e ||| f k) 0).testBit b = true ↔
      ∃ k, k < n ∧ m.getLsbD k = true ∧ (f k).testBit b = true := by
  rw [testBit_gathered]
  simp [List.mem_filter, and_assoc]

theorem setsFloats_vecFloat {i : Instr} {slot : Nat} {d : VReg} {m : MReg} {g : Fmt → Thread → Nat → Flagged Nat}
    {f : Nat → Flagged Nat} (hi : exec i s = .next (vecFloat slot d m g s)) (hw : acceptFloat (s.slotWord slot) = none)
    (hf : ∀ k, g (fmtOf (s.slotWord slot)) s.cur k = f k) : SetsFloats s i (fmtOf (s.slotWord slot)) d m f := by
  obtain rfl : g (fmtOf (s.slotWord slot)) s.cur = f := funext hf
  refine ⟨_, _, hi.trans (congrArg Host.Outcome.next ((State.onSlot_accepted hw).trans (State.retireT_congr rfl))),
    fun k hk => laneOf_mergeLanes _ _ _ hk, fun b => testBit_active _ _ _ b⟩

theorem vecFloat_refused {slot n : Nat} {d : VReg} {m : MReg} {g : Fmt → Thread → Nat → Flagged Nat}
    (hw : acceptFloat (s.slotWord slot) = some n) :
    vecFloat slot d m g s = s.trap (fmtErr n (bits s.cur.fsel.toNat (5 * slot + 4) (5 * slot))) := State.onSlot_refused hw

theorem vecFCmp_refused {n nan : Nat} {d : MReg} {a b : VReg} {m : MReg} {rel : Val → Val → Bool}
    (hw : acceptFloat (s.slotWord 0) = some n) : vecFCmp d a b m rel nan s = s.trap (fmtErr n (bits s.cur.fsel.toNat 4 0)) :=
  State.onSlot_refused hw

/-- The operand a minimum or a maximum takes, by its cases. -/
theorem pickFloat_eq (g : Fmt) (x y : Nat) (take : Val → Val → Bool) :
    pickFloat g x y take = if (decodeVal g x).isNan ∧ (decodeVal g y).isNan then nanCode g else if (decodeVal g x).isNan then y
      else if (decodeVal g y).isNan then x else if take (decodeVal g x) (decodeVal g y) then y else x := by
  simp only [pickFloat, Bool.and_eq_true]

theorem bits_field_five (x n : Nat) : bits x (5 * n + 4) (5 * n) = x / 2 ^ (5 * n) % 32 := by
  have h : 5 * n + 4 + 1 - 5 * n = 5 := by omega
  rw [bits, h]
  rfl

/-- A special function that the unit takes. -/
theorem special_taken (g : Val → Flagged Val) (d a : VReg) (m : MReg) (hroom : (s.core s.curCore).sfu.length < 8)
    (hdue : ∀ e ∈ (s.core s.curCore).sfu, e.at_ ≤ s.cycle + 24) :
    ∃ v e, special g d a m s = (s.setCore s.curCore { s.core s.curCore with sfu := (s.core s.curCore).sfu ++ [
          { owner := s.owner s.iss.thr s.iss.b.pc, at_ := s.cycle + 28, flags := e }] }).commit [] [.v d] [(.v d, v)] .sfu ∧
      (∀ k, k < 16 → laneOf 32 v k = if (s.cur.readM m).getLsbD k then (sfuLane g (laneOf 32 (s.cur.readV a) k)).1 % 2 ^ 32
        else laneOf 32 (s.cur.readV d) k) ∧
      ∀ n, e.testBit n = true ↔
        ∃ k, k < 16 ∧ (s.cur.readM m).getLsbD k = true ∧ (sfuLane g (laneOf 32 (s.cur.readV a) k)).2.testBit n = true := by
  have hready : (s.core s.curCore).sfuReady s.cycle = true := by
    simp only [Core.sfuReady, hroom, decide_true, Bool.true_and, List.all_eq_true, decide_eq_true_eq]
    exact hdue
  exact ⟨_, _, if_pos hready, fun k hk => laneOf_mergeLanes _ _ _ hk, fun b => testBit_active _ _ _ b⟩

theorem State.modOwner_running {o : Owner} (f : Thread → Thread) (hst : (s.thread o.thr).st ≠ .free)
    (hinc : (s.thread o.thr).inc = o.inc) : s.modOwner o f = (s.setThread o.thr (f (s.thread o.thr)), true) :=
  if_pos ⟨hst, hinc⟩

/-- Settles O29: the arithmetic by its shape, the special functions by the unit that takes them. -/
theorem vectorFloats : Obligations.VectorFloats := by
  unfold Obligations.VectorFloats
  intro s w d a b m e core f x y enc code pick
  refine ⟨fun hw => ⟨?_, ?_, ?_, ?_, ?_, ?_⟩, fun n hw i hi => ?_, fun n hw i hi => ?_, ?_, ?_⟩
  · exact setsFloats_vecFloat rfl hw fun _ => rfl
  · exact setsFloats_vecFloat rfl hw fun _ => rfl
  · exact setsFloats_vecFloat rfl hw fun _ => rfl
  · exact setsFloats_vecFloat rfl hw fun _ => rfl
  · exact setsFloats_vecFloat rfl hw fun k => congrArg (·, 0) (pickFloat_eq _ _ _ _)
  · exact setsFloats_vecFloat rfl hw fun k => congrArg (·, 0) (pickFloat_eq _ _ _ _)
  · rw [← bits_field_five]
    fin_cases hi <;> exact congrArg Host.Outcome.next (vecFloat_refused hw)
  · rw [← bits_five_low]
    fin_cases hi <;> exact congrArg Host.Outcome.next (vecFCmp_refused hw)
  · intro i g hmem c lane hroom hdue
    obtain ⟨v, e, hrun, hlanes, hflags⟩ := special_taken g d a m hroom hdue
    refine ⟨v, e, ?_, hlanes, hflags⟩
    simp only [List.mem_cons, Prod.mk.injEq, List.not_mem_nil, or_false] at hmem
    casesm* _ ∨ _
    all_goals
      obtain ⟨rfl, rfl⟩ := ‹_ ∧ _›
      exact congrArg Host.Outcome.next hrun
  · intro e rest hq hdue hinc hst
    refine congrArg Host.Outcome.next ?_
    simp only [hq]
    refine (if_neg (not_lt.2 hdue)).trans ?_
    exact congrArg Prod.fst (State.modOwner_running (s := s.setCore core { s.core core with sfu := rest }) _ hst hinc)

/-! ### Reductions and scans -/

theorem foldl_add_eq_sum (l : List Int) (x : Int) : l.foldl (· + ·) x = x + l.sum := by
  induction l generalizing x with
  | nil => simp
  | cons y l ih => rw [List.foldl_cons, ih, List.sum_cons, Int.add_assoc]

/-- The least of some numbers and a bound above them. -/
theorem foldl_min_spec (l : List Int) (x : Int) :
    l.foldl min x ≤ x ∧ (∀ y ∈ l, l.foldl min x ≤ y) ∧ (l.foldl min x ∈ l ∨ l.foldl min x = x) := by
  induction l generalizing x with
  | nil => simp
  | cons y l ih =>
    obtain ⟨hle, hall, hmem⟩ := ih (min x y)
    refine ⟨hle.trans (min_le_left _ _), fun z hz => ?_, ?_⟩
    · rcases List.mem_cons.1 hz with rfl | hz
      · exact hle.trans (min_le_right _ _)
      · exact hall z hz
    · rw [List.foldl_cons]
      rcases hmem with hmem | heq
      · exact .inl (List.mem_cons_of_mem _ hmem)
      · rw [heq]
        rcases min_choice x y with h | h <;> simp [h]

/-- The greatest of some numbers and a bound below them. -/
theorem foldl_max_spec (l : List Int) (x : Int) :
    x ≤ l.foldl max x ∧ (∀ y ∈ l, y ≤ l.foldl max x) ∧ (l.foldl max x ∈ l ∨ l.foldl max x = x) := by
  induction l generalizing x with
  | nil => simp
  | cons y l ih =>
    obtain ⟨hle, hall, hmem⟩ := ih (max x y)
    refine ⟨(le_max_left _ _).trans hle, fun z hz => ?_, ?_⟩
    · rcases List.mem_cons.1 hz with rfl | hz
      · exact (le_max_right _ _).trans hle
      · exact hall z hz
    · rw [List.foldl_cons]
      rcases hmem with hmem | heq
      · exact .inl (List.mem_cons_of_mem _ hmem)
      · rw [heq]
        rcases max_choice x y with h | h <;> simp [h]

theorem length_scanCodes (g : Fmt) (run : Option Nat) (l : List (Option Nat)) : (scanCodes g run l).length = l.length := by
  induction l generalizing run with
  | nil => cases run <;> rfl
  | cons x l ih => cases x <;> cases run <;> simp [scanCodes, ih]

/-- An absent element adds nothing and raises nothing. -/
theorem scanCodes_absent (g : Fmt) (run : Option Nat) (l : List (Option Nat)) (k : Nat) (h : l.getD k none = none) :
    (scanCodes g run l).getD k (0, 0) = (0, 0) := by
  induction l generalizing run k with
  | nil => cases run <;> rfl
  | cons x l ih =>
    cases k with
    | zero =>
      obtain rfl : x = none := h
      cases run <;> rfl
    | succ k =>
      cases x <;> cases run <;> exact ih _ k h

/-- The flags of a scan are those of its active elements. -/
theorem testBit_scan (g : Fmt) (code : Nat → Nat) (m : W64) (n b : Nat) :
    let sums := scanCodes g none ((List.range n).map fun k => if m.getLsbD k then some (code k) else none)
    (sums.foldl (fun e (x : Nat × Nat) => e ||| x.2) 0).testBit b = true ↔
      ∃ k, k < n ∧ m.getLsbD k = true ∧ (sums.getD k (0, 0)).2.testBit b = true := by
  intro sums
  have hlen : sums.length = n := by rw [length_scanCodes, List.length_map, List.length_range]
  rw [testBit_gathered (f := fun x : Nat × Nat => x.2)]
  simp only [Nat.zero_testBit, Bool.false_eq_true, false_or]
  constructor
  · rintro ⟨x, hx, hb⟩
    obtain ⟨k, hk, rfl⟩ := List.getElem_of_mem hx
    have hget : sums.getD k (0, 0) = sums[k] := by rw [List.getD_eq_getElem?_getD, List.getElem?_eq_getElem hk]; rfl
    refine ⟨k, hlen ▸ hk, ?_, by rw [hget]; exact hb⟩
    by_contra hoff
    have habsent : sums.getD k (0, 0) = (0, 0) := scanCodes_absent g none _ k (by
      rw [List.getD_eq_getElem?_getD, List.getElem?_map, List.getElem?_range (hlen ▸ hk)]
      exact if_neg hoff)
    rw [← hget, habsent, Nat.zero_testBit] at hb
    exact Bool.false_ne_true hb
  · rintro ⟨k, hk, -, hb⟩
    have hk' : k < sums.length := hlen.symm ▸ hk
    have hget : sums.getD k (0, 0) = sums[k] := by rw [List.getD_eq_getElem?_getD, List.getElem?_eq_getElem hk']; rfl
    exact ⟨sums[k], List.getElem_mem hk', hget ▸ hb⟩

/-! ### Gang reductions -/

section
variable {d r : SReg} {op : GangOp} {entry : W64}

/-- Outside a gang a reduction gives the thread's own value. -/
theorem gangOp_alone (hr : s.Ready [r] (some d) false) (hg : s.cur.gang = none) :
    gangOp op d r entry s = (s.withFlags (gangOwn op entry (s.src r)).2).commit [r] [.s d]
      [(.s d, (gangOwn op entry (s.src r)).1.setWidth 512)] (.ready s.cycle) := by
  rw [gangOp, State.withOps_ready hr, State.vals_singleton, hg]

/-- In a gang a member's part waits for the others'. -/
theorem gangOp_member {g : Gang} (hr : s.Ready [r] (some d) false) (hg : s.cur.gang = some g) :
    gangOp op d r entry s = (s.commit [r] [.s d] [] (.gang op (s.src r) entry (s.members s.iss.thr) g.num g.done)).reduce
      (s.members s.iss.thr) g.num g.done := by
  rw [gangOp, State.withOps_ready hr, State.vals_singleton, hg]

theorem gangOp_bad {e : Err} (hr : s.Ready [r] (some d) false) : gangOp op d r entry s (some e) = s.trap e := by
  rw [gangOp, State.withOps_ready hr]

/-- GFADD in its entry, or its trap. -/
theorem exec_gfadd {p : Nat × W64} (hp : s.gangEntry = p) :
    exec (.gfadd d r) s = .next (gangOp .fadd d r p.2 s ((acceptFloat p.2).map fun n => fmtErr n p.1)) := by
  subst hp
  rfl

theorem State.gangEntry_alone (hg : s.cur.gang = none) : s.gangEntry = (bits s.cur.fsel.toNat 4 0, s.slotWord 0) := by
  rw [State.gangEntry, hg]
  rfl

theorem State.gangEntry_member {g : Gang} (hg : s.cur.gang = some g) :
    s.gangEntry = match g.ahead.head? with
      | some x => (x.slot, x.entry)
      | none => (bits s.cur.fsel.toNat 4 0, s.slotWord 0) := by
  rw [State.gangEntry, hg, Option.bind_some]
  rfl

end

theorem State.onSlot_zero_refused {n : Nat} {k : Fmt → State} (hw : acceptFloat (s.slotWord 0) = some n) :
    s.onSlot 0 k = s.trap (fmtErr n (s.cur.fsel.toNat % 32)) :=
  (State.onSlot_refused hw).trans (congrArg (fun x => s.trap (fmtErr n x)) (bits_five_low _))

/-- Settles O30: the reductions as folds, the scans element by element, a gang's by whether the thread is in one. -/
theorem reductions : Obligations.Reductions := by
  unfold Obligations.Reductions
  intro s d r v a m mask on ints
  refine ⟨fun hr => ⟨?_, ?_, ?_, fun hw => ?_⟩, setsLanes_vecOp rfl fun _ _ => rfl, fun hw => ?_,
    fun hr => ⟨fun hg => ⟨fun i hi => ?_, fun hw => ?_⟩, fun g hg => ⟨fun i o hmem => ?_, ?_⟩⟩,
    fun n hw => ⟨fun hr => ?_, ?_, fun hr hg => ?_⟩⟩
  · refine next_withOps hr (congrArg (fun x => s.retireS [] d (BitVec.ofInt 64 x)) ?_)
    exact (foldl_add_eq_sum _ 0).trans (Int.zero_add _)
  · obtain ⟨-, hall, hmem⟩ := foldl_min_spec ints (2 ^ 31 - 1)
    exact ⟨_, next_withOps hr rfl, hall, hmem⟩
  · obtain ⟨-, hall, hmem⟩ := foldl_max_spec ints (-(2 ^ 31))
    exact ⟨_, next_withOps hr rfl, hall, hmem⟩
  · exact next_withOps hr (State.onSlot_accepted hw)
  · exact ⟨_, _, congrArg Host.Outcome.next ((State.onSlot_accepted hw).trans (State.retireT_congr rfl)),
      fun k hk => laneOf_mergeLanes _ _ _ hk, fun b => testBit_scan _ _ mask _ b⟩
  · fin_cases hi <;> exact congrArg Host.Outcome.next (gangOp_alone hr hg)
  · rw [exec_gfadd (State.gangEntry_alone hg), hw]
    exact congrArg Host.Outcome.next (gangOp_alone hr hg)
  · simp only [List.mem_cons, Prod.mk.injEq, List.not_mem_nil, or_false] at hmem
    casesm* _ ∨ _
    all_goals
      obtain ⟨rfl, rfl⟩ := ‹_ ∧ _›
      exact congrArg Host.Outcome.next (gangOp_member hr hg)
  · intro f
    have hentry : s.gangEntry = f := State.gangEntry_member hg
    refine ⟨fun hw => ?_, fun n hw => ?_⟩
    · rw [exec_gfadd hentry, hw]
      exact congrArg Host.Outcome.next (gangOp_member hr hg)
    · rw [exec_gfadd hentry, hw]
      exact congrArg Host.Outcome.next (gangOp_bad hr)
  · exact next_withOps hr (State.onSlot_zero_refused hw)
  · exact congrArg Host.Outcome.next (State.onSlot_zero_refused hw)
  · rw [exec_gfadd (State.gangEntry_alone hg), hw]
    exact (congrArg Host.Outcome.next (gangOp_bad hr)).trans (by rw [bits_five_low])

end Sys2Proof.Machine

/-! SUPPORT. Vector accesses of memory and of the own local store: the statements VectorLocal and VectorMemory (06_vector R130 to
R134). -/

namespace Sys2Proof.Machine

open Sys2Proof

variable {s : State}

/-! ### Elements put into their lanes -/

/-- Elements put lane by lane: each lane named once holds its number, the others stand. -/
theorem laneOf_putLanes {z k : Nat} (l : List (Nat × Nat)) (v : V512) (hnodup : (l.map Prod.fst).Nodup)
    (hlanes : ∀ e ∈ l, e.1 < 512 / z) :
    laneOf z (l.foldl (fun v e => putAt v (z * e.1) z e.2) v) k =
      (l.find? fun e => decide (e.1 = k)).elim (laneOf z v k) fun e => e.2 % 2 ^ z := by
  induction l generalizing v with
  | nil => rfl
  | cons e l ih =>
    rw [List.map_cons, List.nodup_cons] at hnodup
    rw [List.foldl_cons, ih _ hnodup.2 fun x hx => hlanes x (List.mem_cons_of_mem _ hx),
      laneOf_putAt _ _ (hlanes e List.mem_cons_self)]
    by_cases hk : e.1 = k
    · have hnone : l.find? (fun e => decide (e.1 = k)) = none :=
        List.find?_eq_none.2 fun x hx hxk => hnodup.1 (List.mem_map.2 ⟨x, hx, (of_decide_eq_true hxk).trans hk.symm⟩)
      rw [hnone, List.find?_cons_of_pos (by simpa using hk), if_pos hk.symm]
      rfl
    · rw [List.find?_cons_of_neg (by simpa using hk), if_neg (Ne.symm hk)]

/-- The lanes a mask picks, each with what belongs to it. -/
def picked {α : Type} (n : Nat) (m : W64) (f : Nat → α) : List (Nat × α) :=
  ((List.range n).filter fun k => m.getLsbD k).map fun k => (k, f k)

theorem picked_lanes {α : Type} (n : Nat) (m : W64) (f : Nat → α) :
    (picked n m f).map Prod.fst = (List.range n).filter fun k => m.getLsbD k := by
  rw [picked, List.map_map]
  exact List.map_id _

theorem picked_nodup {α : Type} (n : Nat) (m : W64) (f : Nat → α) : ((picked n m f).map Prod.fst).Nodup := by
  rw [picked_lanes]
  exact List.Nodup.filter _ List.nodup_range

theorem mem_picked {α : Type} {n : Nat} {m : W64} {f : Nat → α} {e : Nat × α} :
    e ∈ picked n m f ↔ e.1 < n ∧ m.getLsbD e.1 = true ∧ e.2 = f e.1 := by
  obtain ⟨k, x⟩ := e
  simp only [picked, List.mem_map, List.mem_filter, List.mem_range, Prod.mk.injEq]
  exact ⟨fun ⟨_, ⟨h1, h2⟩, h3, h4⟩ => h3 ▸ ⟨h1, h2, h4.symm⟩, fun ⟨h1, h2, h3⟩ => ⟨k, ⟨h1, h2⟩, rfl, h3.symm⟩⟩

/-- What belongs to a lane that is picked. -/
theorem picked_find {α : Type} (n : Nat) (m : W64) (f : Nat → α) {k : Nat} (hk : k < n) :
    (picked n m f).find? (fun e => decide (e.1 = k)) = if m.getLsbD k then some (k, f k) else none := by
  split_ifs with hm
  · cases h : (picked n m f).find? (fun e => decide (e.1 = k)) with
    | none =>
      have := List.find?_eq_none.1 h (k, f k) (mem_picked.2 ⟨hk, hm, rfl⟩)
      simp at this
    | some e =>
      obtain ⟨-, -, hf⟩ := mem_picked.1 (List.mem_of_find?_eq_some h)
      have hlane : e.1 = k := by simpa using List.find?_some h
      exact congrArg some (Prod.ext hlane (hf.trans (by rw [hlane])))
  · refine List.find?_eq_none.2 fun e he hek => hm ?_
    rw [← of_decide_eq_true hek]
    exact (mem_picked.1 he).2.1

/-! ### Bytes put one access after another -/

theorem putBytes_append (m : Tab (BitVec 8)) (a : Nat) (x y : List (BitVec 8)) :
    putBytes m a (x ++ y) = putBytes (putBytes m a x) (a + x.length) y := by
  induction x generalizing m a with
  | nil => rfl
  | cons b x ih =>
    rw [List.cons_append, putBytes, ih, putBytes, List.length_cons, Nat.add_assoc, Nat.add_comm 1]

/-- Writes one after another. -/
def putAll (m : Tab (BitVec 8)) (l : List (Nat × List (BitVec 8))) : Tab (BitVec 8) := l.foldl (fun m w => putBytes m w.1 w.2) m

/-- Joining neighbouring writes leaves the same bytes. -/
theorem putAll_joinStores (m : Tab (BitVec 8)) (l : List (Nat × List (BitVec 8))) : putAll m (joinStores l) = putAll m l := by
  induction l using joinStores.induct generalizing m with
  | case1 a x b y r h ih =>
    rw [joinStores, if_pos h, putAll, List.foldl_cons]
    refine (ih _).trans ?_
    rw [putBytes_append, putAll, putAll, List.foldl_cons, List.foldl_cons, h.1]
  | case2 a x b y r h ih =>
    rw [joinStores, if_neg h, putAll, List.foldl_cons]
    exact ih _
  | case3 l h =>
    rw [joinStores]
    exact h

/-- Does a write name a byte? -/
def names (w : Nat × List (BitVec 8)) (p : Nat) : Bool := decide (w.1 ≤ p ∧ p < w.1 + w.2.length)

/-- A byte after some writes: what the last that names it puts there. -/
theorem tget_putAll {α : Type} (g : α → Option (Nat × List (BitVec 8))) (es : List α) (m : Tab (BitVec 8)) (p : Nat) :
    tget 0 (putAll m (es.filterMap g)) p =
      (es.reverse.find? fun e => (g e).any fun w => names w p).elim (tget 0 m p) fun e =>
        (g e).elim 0 fun w => w.2.getD (p - w.1) 0 := by
  induction es using List.reverseRecOn with
  | nil => rfl
  | append_singleton es e ih =>
    rw [List.filterMap_append, putAll, List.foldl_append, List.reverse_append, List.reverse_singleton, List.singleton_append]
    cases hg : g e with
    | none =>
      rw [List.filterMap_cons_none hg, List.find?_cons_of_neg (by simp [hg])]
      exact ih
    | some w =>
      rw [List.filterMap_cons_some hg, List.filterMap_nil, List.foldl_cons, List.foldl_nil]
      by_cases hw : names w p = true
      · rw [List.find?_cons_of_pos (by simpa [hg] using hw)]
        obtain ⟨hlo, hhi⟩ := of_decide_eq_true hw
        obtain ⟨i, rfl⟩ := Nat.exists_eq_add_of_le hlo
        rw [putBytes_inside _ _ _ _ (by omega), Option.elim, hg]
        exact congrArg (fun j => w.2.getD j 0) (Nat.add_sub_cancel_left _ _).symm
      · rw [List.find?_cons_of_neg (by simpa [hg] using hw), putBytes_outside]
        · exact ih
        · have hout : ¬ (w.1 ≤ p ∧ p < w.1 + w.2.length) := fun h => hw (decide_eq_true h)
          omega

/-! ### The own local store (R134) -/

theorem map_filter_eq_filterMap {α β : Type} (p : α → Bool) (f : α → β) (l : List α) :
    (l.filter p).map f = l.filterMap fun k => if p k then some (f k) else none := by
  induction l with
  | nil => rfl
  | cons a l ih => cases h : p a <;> simp [h, ih]

theorem find?_congr {α : Type} {p q : α → Bool} {l : List α} (h : ∀ a ∈ l, p a = q a) : l.find? p = l.find? q := by
  induction l with
  | nil => rfl
  | cons a l ih =>
    rw [List.find?_cons, List.find?_cons, h a List.mem_cons_self, ih fun b hb => h b (List.mem_cons_of_mem _ hb)]

/-- Elements that all lie aligned and inside pass their checks. -/
theorem localElems_pass {z : Nat} {l : List (Nat × Int)}
    (h : ∀ e ∈ l, e.2 % (z : Int) = 0 ∧ 0 ≤ e.2 ∧ e.2 + (z : Int) ≤ 0x60000) : localElems z l = none := by
  induction l with
  | nil => rfl
  | cons e l ih =>
    obtain ⟨ha, hlo, hhi⟩ := h e List.mem_cons_self
    have hout : ¬ (e.2 < 0 ∨ (Config.localBytes : Int) < e.2 + z) := by
      simp only [Config.localBytes]
      omega
    exact (if_neg (not_not.2 ha)).trans ((if_neg hout).trans (ih fun x hx => h x (List.mem_cons_of_mem _ hx)))

/-- The first active lane stands at the head of those picked. -/
theorem picked_head {α : Type} {n : Nat} {m : W64} (f : Nat → α) {k : Nat} (hk : k < n) (hm : m.getLsbD k = true)
    (hfirst : ∀ j, j < k → m.getLsbD j = false) : ∃ r, picked n m f = (k, f k) :: r := by
  have hsplit : (List.range n).filter (fun j => m.getLsbD j) =
      (List.range k).filter (fun j => m.getLsbD j) ++ ((List.range (n - k)).map (k + ·)).filter fun j => m.getLsbD j := by
    rw [← List.filter_append, ← List.range_add, Nat.add_sub_cancel' (Nat.le_of_lt hk)]
  have hnil : (List.range k).filter (fun j => m.getLsbD j) = [] :=
    List.filter_eq_nil_iff.2 fun j hj => by simp [hfirst j (List.mem_range.1 hj)]
  obtain ⟨i, hi⟩ : ∃ i, n - k = i + 1 := ⟨n - k - 1, by omega⟩
  rw [picked, hsplit, hnil, List.nil_append, hi, List.range_succ_eq_map, List.map_cons, Nat.add_zero,
    List.filter_cons_of_pos (by simpa using hm), List.map_cons]
  exact ⟨_, rfl⟩

theorem State.foldl_lsTouch_clean {α : Type} {core : Nat} (h : (s.core core).errs.faults = []) (f : α → Nat) (n : Nat) (l : List α) :
    l.foldl (fun (s : State) e => s.lsTouch core (f e) n s.cur.ctx) s = s := by
  induction l with
  | nil => rfl
  | cons e l ih => rw [List.foldl_cons, State.lsTouch_clean h, ih]

theorem pow_bytes {z : Nat} (h : z % 8 = 0) : 256 ^ (z / 8) = 2 ^ z := by
  have h8 : 8 * (z / 8) = z := by omega
  have h256 : 256 = 2 ^ 8 := by decide
  rw [h256, ← Nat.pow_mul, h8]

/-- A vector load of the own local store, its elements inside. -/
theorem vecLoadL_inside {z : Nat} {d : VReg} {m : MReg} {srcs : List SReg} {off : Nat → Int} (hz : z % 8 = 0)
    (hf : (s.core s.curCore).errs.faults = []) (hp : (s.core s.curCore).lsPoison = [])
    (h : ∀ k, k < 512 / z → (s.cur.readM m).getLsbD k = true →
      off k % (z / 8 : Nat) = 0 ∧ 0 ≤ off k ∧ off k + (z / 8 : Nat) ≤ 0x60000) :
    ∃ v, vecLoadL z d m srcs off s = s.commit srcs [.v d] [(.v d, v)] (.ready s.cycle) ∧ ∀ k, k < 512 / z →
      laneOf z v k = if (s.cur.readM m).getLsbD k then s.lsRead s.curCore (off k).toNat (z / 8) else laneOf z (s.cur.readV d) k := by
  have hpass : localElems (z / 8) (picked (512 / z) (s.cur.readM m) off) = none := localElems_pass fun e he => by
    obtain ⟨hk, hm, he⟩ := mem_picked.1 he
    rw [he]
    exact h e.1 hk hm
  have hclean : ∀ o n, s.lsPoisoned s.curCore o n = false := fun _ _ => State.lsPoisoned_clean hp _ _
  let vals : List (Nat × Nat) := picked (512 / z) (s.cur.readM m) fun k => s.lsRead s.curCore (off k).toNat (z / 8)
  have hrow : (picked (512 / z) (s.cur.readM m) off).foldl
      (fun v e => putAt v (z * e.1) z (s.lsRead s.curCore e.2.toNat (z / 8))) (s.cur.readV d) =
      vals.foldl (fun v e => putAt v (z * e.1) z e.2) (s.cur.readV d) := by
    simp only [vals, picked, List.foldl_map]
  refine ⟨vals.foldl (fun v e => putAt v (z * e.1) z e.2) (s.cur.readV d), ?_, fun k hk => ?_⟩
  · rw [vecLoadL]
    change (match localElems (z / 8) (picked (512 / z) (s.cur.readM m) off) with | some e => _ | none => _) = _
    rw [hpass]
    dsimp only
    rw [State.foldl_lsTouch_clean hf]
    have herr : ((picked (512 / z) (s.cur.readM m) off).find? fun e => s.lsPoisoned s.curCore e.2.toNat (z / 8)) = none :=
      List.find?_eq_none.2 fun e _ => by rw [hclean]; exact Bool.false_ne_true
    have hmap := congrArg (fun o : Option (Nat × Int) => o.map fun e => eccLocal e.2.toNat) herr
    exact congrArg₂ (fun v err => s.commit srcs [.v d] [(.v d, v)] (.ready s.cycle) err) hrow hmap
  · rw [laneOf_putLanes _ _ (picked_nodup _ _ _) fun e he => (mem_picked.1 he).1, picked_find _ _ _ hk]
    split_ifs
    · refine Nat.mod_eq_of_lt ?_
      rw [← pow_bytes hz]
      exact State.lsRead_lt _ _ _
    · rfl

theorem State.lsRead_one (core p : Nat) : s.lsRead core p 1 = (tget 0 (s.core core).ls p).toNat := by
  simp [State.lsRead, lsGet, ofBytes]

theorem State.foldl_lsWrite (core : Nat) (l : List (Nat × List (BitVec 8))) :
    ((l.foldl (fun (s : State) w => s.lsWrite core w.1 w.2) s).core core).ls = putAll (s.core core).ls l := by
  induction l generalizing s with
  | nil => rfl
  | cons w l ih => rw [List.foldl_cons, ih, State.lsWrite, State.core_setCore_same]; rfl

/-- A vector store of the own local store, its elements inside. -/
theorem vecStoreL_inside {z : Nat} {d : VReg} {m : MReg} {srcs : List SReg} {off : Nat → Int}
    (h : ∀ k, k < 512 / z → (s.cur.readM m).getLsbD k = true →
      off k % (z / 8 : Nat) = 0 ∧ 0 ≤ off k ∧ off k + (z / 8 : Nat) ≤ 0x60000) (p : Nat) :
    (vecStoreL z d m srcs off s).lsRead s.curCore p 1 =
      match (List.range (512 / z)).reverse.find? fun k =>
        (s.cur.readM m).getLsbD k && decide (off k ≤ p ∧ p < off k + (z / 8 : Nat)) with
      | some k => laneOf z (s.cur.readV d) k / 2 ^ (8 * ((p : Int) - off k).toNat) % 256
      | none => s.lsRead s.curCore p 1 := by
  have hpass : localElems (z / 8) (picked (512 / z) (s.cur.readM m) off) = none := localElems_pass fun e he => by
    obtain ⟨hk, hm, he⟩ := mem_picked.1 he
    rw [he]
    exact h e.1 hk hm
  let write := fun k => ((off k).toNat, toBytes (z / 8) (laneOf z (s.cur.readV d) k))
  let writes := (List.range (512 / z)).filterMap fun k => if (s.cur.readM m).getLsbD k then some (write k) else none
  have hwrites : (picked (512 / z) (s.cur.readM m) off).map
      (fun e => (e.2.toNat, toBytes (z / 8) (laneOf z (s.cur.readV d) e.1))) = writes := by
    rw [picked, List.map_map]
    exact map_filter_eq_filterMap _ write _
  have hstore : vecStoreL z d m srcs off s =
      ((joinStores writes).foldl (fun (u : State) w => u.lsWrite s.curCore w.1 w.2) s).retire srcs := by
    rw [← hwrites, vecStoreL]
    change (match localElems (z / 8) (picked (512 / z) (s.cur.readM m) off) with | some e => _ | none => _) = _
    rw [hpass]
    rfl
  have hnames : ∀ k ∈ (List.range (512 / z)).reverse,
      (((if (s.cur.readM m).getLsbD k then some (write k) else none : Option _).any fun w => names w p) =
        ((s.cur.readM m).getLsbD k && decide (off k ≤ p ∧ p < off k + (z / 8 : Nat)))) := fun k hk => by
    cases hm : (s.cur.readM m).getLsbD k with
    | false => rfl
    | true =>
      obtain ⟨-, hlo, -⟩ := h k (List.mem_range.1 (List.mem_reverse.1 hk)) hm
      refine decide_eq_decide.2 ?_
      simp only [write, length_toBytes]
      omega
  rw [hstore, (sameDevice_retire _ srcs).lsRead, State.lsRead_one, State.foldl_lsWrite, putAll_joinStores, tget_putAll,
    find?_congr hnames]
  cases hfind : (List.range (512 / z)).reverse.find? fun k =>
      (s.cur.readM m).getLsbD k && decide (off k ≤ p ∧ p < off k + (z / 8 : Nat)) with
  | none => exact (State.lsRead_one _ _).symm
  | some k =>
    have hk := List.mem_range.1 (List.mem_reverse.1 (List.mem_of_find?_eq_some hfind))
    have hpred := List.find?_some hfind
    rw [Bool.and_eq_true, decide_eq_true_eq] at hpred
    obtain ⟨hm, hlo, hhi⟩ := hpred
    obtain ⟨-, hnn, -⟩ := h k hk hm
    have hat : p - (off k).toNat = ((p : Int) - off k).toNat := by omega
    simp only [Option.elim, if_pos hm, write]
    rw [getD_toBytes _ _ _ (by omega), hat, pow_mul]
    rfl

theorem vecLoadL_stops {z : Nat} {d : VReg} {m : MReg} {srcs : List SReg} {off : Nat → Int} {e : Err}
    (h : localElems (z / 8) (picked (512 / z) (s.cur.readM m) off) = some e) : vecLoadL z d m srcs off s = s.trap e := by
  rw [vecLoadL]
  change (match localElems (z / 8) (picked (512 / z) (s.cur.readM m) off) with | some e => _ | none => _) = _
  rw [h]

theorem vecStoreL_stops {z : Nat} {d : VReg} {m : MReg} {srcs : List SReg} {off : Nat → Int} {e : Err}
    (h : localElems (z / 8) (picked (512 / z) (s.cur.readM m) off) = some e) : vecStoreL z d m srcs off s = s.trap e := by
  rw [vecStoreL]
  change (match localElems (z / 8) (picked (512 / z) (s.cur.readM m) off) with | some e => _ | none => _) = _
  rw [h]

/-- The lowest active lane decides what trap is taken. -/
theorem localElems_misaligned {z n k : Nat} {m : W64} {off : Nat → Int} (hk : k < n) (hm : m.getLsbD k = true)
    (hfirst : ∀ j, j < k → m.getLsbD j = false) (h : off k % (z : Int) ≠ 0) :
    localElems z (picked n m off) = some { cause := 4, tval := BitVec.ofInt 64 (off k) } := by
  obtain ⟨r, hr⟩ := picked_head off hk hm hfirst
  rw [hr]
  exact if_pos h

theorem localElems_outside {z n k : Nat} {m : W64} {off : Nat → Int} (hk : k < n) (hm : m.getLsbD k = true)
    (hfirst : ∀ j, j < k → m.getLsbD j = false) (h : off k % (z : Int) = 0) (hout : off k < 0 ∨ 0x60000 < off k + (z : Int)) :
    localElems z (picked n m off) = some { cause := 6, tval := BitVec.ofInt 64 (off k) } := by
  obtain ⟨r, hr⟩ := picked_head off hk hm hfirst
  rw [hr]
  exact (if_neg (not_not.2 h)).trans (if_pos hout)

/-- The block rule, by whether some of the sixteen elements is active. -/
theorem blockCheck_aligned {m : W64} {a : Nat} (h : m.toNat % 2 ^ 16 = 0 ∨ a % 64 = 0) : blockCheck m a = none :=
  if_neg fun h' => h.elim h'.1 h'.2
theorem blockCheck_misaligned {m : W64} {a : Nat} (hm : m.toNat % 2 ^ 16 ≠ 0) (h : a % 64 ≠ 0) :
    blockCheck m a = some { cause := 4, tval := BitVec.ofNat 64 a } := if_pos ⟨hm, h⟩

/-- Settles O32: loads, stores and stops of elements at any offsets, for the block and for the indexed forms. -/
theorem vectorLocal : Obligations.VectorLocal := by
  unfold Obligations.VectorLocal
  intro s w d b r m hr hf hp wide o loads stores stops index block
  have hwide : wide % 8 = 0 := Nat.mul_mod_right 8 _
  have hload : ∀ (i : Instr) (z : Nat) (off : Nat → Int), z % 8 = 0 → exec i s = .next (vecLoadL z d m [r] off s) →
      loads i z off ∧ stops i z off := fun i z off hz hi =>
    ⟨fun h => by
      obtain ⟨v, hv, hlanes⟩ := vecLoadL_inside (d := d) (srcs := [r]) hz hf hp h
      exact ⟨v, hi.trans (congrArg Host.Outcome.next hv), hlanes⟩,
     fun k hk hm hfirst => ⟨fun h => hi.trans (congrArg Host.Outcome.next (vecLoadL_stops (localElems_misaligned hk hm hfirst h))),
      fun h hout => hi.trans (congrArg Host.Outcome.next (vecLoadL_stops (localElems_outside hk hm hfirst h hout)))⟩⟩
  have hstore : ∀ (i : Instr) (z : Nat) (off : Nat → Int), exec i s = .next (vecStoreL z d m [r] off s) →
      stores i z off ∧ stops i z off := fun i z off hi =>
    ⟨fun h => ⟨_, hi, fun p => vecStoreL_inside h p⟩,
     fun k hk hm hfirst => ⟨fun h => hi.trans (congrArg Host.Outcome.next (vecStoreL_stops (localElems_misaligned hk hm hfirst h))),
      fun h hout => hi.trans (congrArg Host.Outcome.next (vecStoreL_stops (localElems_outside hk hm hfirst h hout)))⟩⟩
  refine ⟨fun ho => ?_, fun ho hm i hi => ?_, ?_⟩
  · have hcheck : blockCheck (s.cur.readM m) (s.src r).toNat = none := blockCheck_aligned (.inr ho)
    have hblock : (fun k : Nat => ((s.src r).toNat : Int) + 4 * (k : Int)) = block := by
      funext k
      simp only [block, o]
      push_cast
      rfl
    have hl := hload (.vldl d r m) 32 block (by decide) (next_withOps hr (by
      rw [State.vals_singleton, hcheck, ← hblock]))
    have hs := hstore (.vstl d r m) 32 block (next_withOps hr (by
      rw [State.vals_singleton, hcheck, ← hblock]))
    exact ⟨hl.1, hs.1, hl.2, hs.2⟩
  · have hcheck := blockCheck_misaligned hm ho
    fin_cases hi <;>
    · refine next_withOps hr ?_
      rw [State.vals_singleton, hcheck]
  · have hl := hload (.vgathl w d r b m) wide index hwide (next_withOps hr (by rw [State.vals_singleton]; rfl))
    have hs := hstore (.vscatl w d r b m) wide index (next_withOps hr (by rw [State.vals_singleton]; rfl))
    exact ⟨hl.1, hs.1, hl.2, hs.2⟩

/-! ### What accesses leave of a bundle and its registers -/

/-- The bundle being issued and every thread's vector registers. -/
def State.vecs (s : State) : Issue × (Nat → Tab V512) := (s.iss, fun n => (s.thread n).v)

theorem State.vecs_iss {t : State} (h : t.vecs = s.vecs) : t.iss = s.iss := congrArg Prod.fst h
theorem State.vecs_readV {t : State} (h : t.vecs = s.vecs) (r : VReg) : t.cur.readV r = s.cur.readV r := by
  have hv : t.cur.v = s.cur.v := by
    rw [State.cur, State.cur, State.vecs_iss h]
    exact congrFun (congrArg Prod.snd h) _
  rw [Thread.readV, Thread.readV, hv]

theorem SameTurn.vecs {t : State} (h : SameTurn s t) : t.vecs = s.vecs := by
  simp only [State.vecs, State.thread, h.thr, h.iss]

theorem State.vecs_setThread {t : Nat} {x : Thread} (h : x.v = (s.thread t).v) : (s.setThread t x).vecs = s.vecs := by
  refine Prod.ext rfl (funext fun n => ?_)
  change ((s.setThread t x).thread n).v = (s.thread n).v
  rw [State.thread_setThread]
  split_ifs with hn
  · rw [hn, h]
  · rfl

theorem sameTurn_setTlb (id : TlbId) (l : List TlbEnt) : SameTurn s (s.setTlb id l) := by cases id <;> exact ⟨rfl, rfl⟩
theorem sameTurn_tlbWrote (id : TlbId) (key : Nat) : SameTurn s (s.tlbWrote id key) := by cases id <;> exact ⟨rfl, rfl⟩
theorem sameTurn_adWrite (t : TlbEnt) : SameTurn s (s.adWrite t) := by
  simp only [State.adWrite]
  split
  · exact .refl _
  · split
    · exact ⟨rfl, rfl⟩
    · exact .refl _
theorem sameTurn_tlbFill (id : TlbId) (t : TlbEnt) : SameTurn s (s.tlbFill id t) := by
  unfold State.tlbFill
  dsimp only
  split
  · exact (sameTurn_tlbWrote _ _).trans (sameTurn_setTlb _ _)
  · split
    · exact (sameTurn_tlbWrote _ _).trans (sameTurn_setTlb _ _)
    · exact ((sameTurn_tlbWrote _ _).trans (sameTurn_adWrite _)).trans (sameTurn_setTlb _ _)

theorem State.xlate_vecs (core ctx : Nat) (k : Kind) (va : Nat) : (s.xlate core ctx k va).1.vecs = s.vecs := by
  refine State.xlate_keeps (fun v hv => ?_) fun v id ctx va d => (sameTurn_setTlb _ _).vecs
  cases hv with
  | same => rfl
  | touched => exact (sameTurn_arrayTouch _ _ _ _).vecs
  | taken => rfl
  | own => exact (sameTurn_tlbFill _ _).vecs
  | both => exact ((sameTurn_tlbFill _ _).trans (sameTurn_tlbFill _ _)).vecs

/-- Only the endpoints, what the device sends and what it notes of that have changed. -/
structure OnlyLink (s t : State) : Prop where
  rest : { t with dev := s.dev, eps := s.eps, out := s.out, free := s.free } = s

theorem OnlyLink.refl (s : State) : OnlyLink s s := ⟨rfl⟩
theorem OnlyLink.trans {s t u : State} (h : OnlyLink s t) (k : OnlyLink t u) : OnlyLink s u :=
  ⟨(congrArg (fun v : State => { v with dev := s.dev, eps := s.eps, out := s.out, free := s.free }) k.rest).trans h.rest⟩
theorem OnlyLink.field {α : Type} {t : State} (h : OnlyLink s t) (g : State → α)
    (hg : ∀ (u : State) d e o f, g { u with dev := d, eps := e, out := o, free := f } = g u) : g t = g s :=
  (hg t _ _ _ _).symm.trans (congrArg g h.rest)
theorem OnlyLink.sameTurn {t : State} (h : OnlyLink s t) : SameTurn s t :=
  ⟨h.field State.thr fun _ _ _ _ _ => rfl, h.field State.iss fun _ _ _ _ _ => rfl⟩
theorem OnlyLink.mem {t : State} (h : OnlyLink s t) : t.mem = s.mem := h.field State.mem fun _ _ _ _ _ => rfl

theorem onlyLink_noteAsk (w : Asker) (m : NetMsg) (found : Bool) : OnlyLink s (s.noteAsk w m found) := by
  unfold State.noteAsk
  split <;> exact ⟨rfl⟩
theorem onlyLink_sendOwn (e : Nat) (m : NetMsg) (w : Option Asker) (va : Nat) (acc : Option Nat) :
    OnlyLink s (s.sendOwn e m w va acc) := by
  unfold State.sendOwn
  split <;> exact ⟨rfl⟩

theorem onlyLink_remoteAccess (w : Asker) (op : HOp) (node pa va n : Nat) (data : List (BitVec 8)) (r : AmoReq) :
    OnlyLink s (s.remoteAccess w op node pa va n data r).1 := by
  unfold State.remoteAccess
  dsimp only
  split
  · exact onlyLink_noteAsk _ _ _
  · split
    · exact .refl _
    · split
      · exact onlyLink_noteAsk _ _ _
      · exact (onlyLink_noteAsk _ _ _).trans (onlyLink_sendOwn _ _ _ _ _)

/-- What an access that may have been sent before leaves: only links, or what the access leaves. -/
theorem State.orSent_keeps {α : Type} {f : State → α} (w : Asker) (op : HOp) (va n : Nat) (k : State × Got) (data : List (BitVec 8))
    (hlink : ∀ t, OnlyLink s t → f t = f s) (hk : f k.1 = f s) : f (s.orSent w op va n k data).1 = f s := by
  unfold State.orSent State.sentBefore
  split
  · exact hlink _ (onlyLink_noteAsk _ _ _)
  · dsimp only
    split
    · exact hlink _ (onlyLink_noteAsk _ _ _)
    · exact hk

theorem State.readParts_keeps {α : Type} {f : State → α} (hlink : ∀ s t, OnlyLink s t → f t = f s)
    (hfar : ∀ (s : State) t, f (s.wentFar t) = f s) (t : Nat) (l : List FarPart) (s : State) : f (s.readParts t l).1 = f s := by
  induction l generalizing s with
  | nil => rfl
  | cons p l ih =>
    have hone : f (s.orSent (s.asker t) .get p.va p.n ((s.wentFar t).remoteAccess (s.asker t) .get p.node p.pa p.va p.n)).1 = f s :=
      State.orSent_keeps _ _ _ _ _ _ (fun _ => hlink _ _) ((hlink _ _ (onlyLink_remoteAccess _ _ _ _ _ _ _ _)).trans (hfar _ _))
    unfold State.readParts
    split
    case h_1 u bs err h =>
      rw [h] at hone
      exact (ih u).trans hone
    case h_5 u h =>
      rw [h] at hone
      exact (ih u).trans hone
    all_goals
      rename_i h
      rw [h] at hone
      exact hone

theorem State.checkElems_vecs (t : Nat) (k : Kind) (z : Nat) (l : List (Nat × Nat)) (s : State) :
    (s.checkElems t k z l).1.vecs = s.vecs := by
  induction l generalizing s with
  | nil => rfl
  | cons e l ih =>
    obtain ⟨lane, va⟩ := e
    have hx := State.xlate_vecs (s := s) (coreOf t) (s.thread t).ctx k va
    unfold State.checkElems
    dsimp only
    split
    · rfl
    · split
      · exact ih s
      · split
        case h_1 u node pa ty h =>
          rw [h] at hx
          exact (ih u).trans hx
        all_goals
          rename_i h
          rw [h] at hx
          exact hx

theorem State.readParts_vecs (t : Nat) (l : List FarPart) : (s.readParts t l).1.vecs = s.vecs :=
  State.readParts_keeps (fun _ _ h => h.sameTurn.vecs) (fun _ _ => State.vecs_setThread rfl) t l s
theorem State.readParts_mem (t : Nat) (l : List FarPart) : (s.readParts t l).1.mem = s.mem :=
  State.readParts_keeps (f := State.mem) (fun _ _ h => h.mem) (fun _ _ => rfl) t l s

theorem sameTurn_l1Fill (core base : Nat) : SameTurn s (s.l1Fill core base) := by
  unfold State.l1Fill
  dsimp only
  split <;> exact ⟨rfl, rfl⟩

theorem State.performedAt_vecs (t slice m : Nat) : (s.performedAt t slice m).vecs = s.vecs := State.vecs_setThread rfl
theorem State.replied_vecs (t pa : Nat) : (s.replied t pa).vecs = s.vecs := State.performedAt_vecs _ _ _

theorem State.loadOwn_vecs (t pa n ty : Nat) : (s.loadOwn t pa n ty).1.vecs = s.vecs := by
  unfold State.loadOwn
  dsimp only
  split
  · exact (sameTurn_arrayTouch _ _ _ _).vecs.trans (State.performedAt_vecs _ _ _)
  · refine (State.replied_vecs _ _).trans ?_
    split
    · exact (sameTurn_l1Fill _ _).vecs
    · rfl

theorem State.readElems_vecs (t z : Nat) (got : List (Nat × List (BitVec 8) × Option Err)) (es : List Elem) (s : State) :
    (s.readElems t z got es).1.vecs = s.vecs := by
  induction es generalizing s with
  | nil => rfl
  | cons e es ih =>
    unfold State.readElems
    split
    · exact (ih _).trans (State.loadOwn_vecs _ _ _ _)
    · exact ih s

/-! ### Lanes of what was checked and read -/

theorem State.checkElems_lanes (t : Nat) (k : Kind) (z : Nat) (l : List (Nat × Nat)) (s : State) :
    (s.checkElems t k z l).2.1.map Elem.lane <+: l.map Prod.fst := by
  induction l generalizing s with
  | nil => exact List.prefix_rfl
  | cons e l ih =>
    obtain ⟨lane, va⟩ := e
    unfold State.checkElems
    dsimp only
    split
    · exact List.nil_prefix
    · split
      · exact List.prefix_cons_inj _ |>.2 (ih s)
      · split
        · exact List.prefix_cons_inj _ |>.2 (ih _)
        all_goals exact List.nil_prefix

theorem State.readElems_lanes (t z : Nat) (got : List (Nat × List (BitVec 8) × Option Err)) (es : List Elem) (s : State) :
    (s.readElems t z got es).2.1.map Prod.fst = es.map Elem.lane := by
  induction es generalizing s with
  | nil => rfl
  | cons e es ih =>
    unfold State.readElems
    split <;> exact congrArg (e.lane :: ·) (ih _)

/-! ### Vector loads and stores of device memory -/

/-- Elements some of which fail, or some part of which another device does not give. -/
theorem State.onElems_stopped {k : Kind} {z : Nat} {addrs : List (Nat × Nat)} {f : List Elem → List FarPart}
    {go : State → List Elem → List (Nat × List (BitVec 8) × Option Err) → State} {u v : State} {es : List Elem} {x y : Option Stop}
    {got : List (Nat × List (BitVec 8) × Option Err)} {e : Stop} (hcheck : s.checkElems s.iss.thr k z addrs = (u, es, x))
    (hread : u.readParts s.iss.thr (f es) = (v, got, y)) (he : y.or x = some e) :
    s.onElems k z addrs f go = s.stopped v k e := by
  cases y with
  | some y =>
    obtain rfl : y = e := Option.some.inj he
    simp only [State.onElems, hcheck, hread]
  | none =>
    obtain rfl : x = some e := he
    simp only [State.onElems, hcheck, hread]

theorem State.onElems_goes {k : Kind} {z : Nat} {addrs : List (Nat × Nat)} {f : List Elem → List FarPart}
    {go : State → List Elem → List (Nat × List (BitVec 8) × Option Err) → State} {u v : State} {es : List Elem}
    {got : List (Nat × List (BitVec 8) × Option Err)} (hcheck : s.checkElems s.iss.thr k z addrs = (u, es, none))
    (hread : u.readParts s.iss.thr (f es) = (v, got, none)) : s.onElems k z addrs f go = go v es got := by
  simp only [State.onElems, hcheck, hread]

theorem vecLoad_stopped {z : Nat} {d : VReg} {m : MReg} {srcs : List SReg} {addr : Nat → Nat} {u v : State} {es : List Elem}
    {x y : Option Stop} {got : List (Nat × List (BitVec 8) × Option Err)} {e : Stop}
    (hcheck : s.checkElems s.iss.thr .load (z / 8) (picked (512 / z) (s.cur.readM m) addr) = (u, es, x))
    (hread : u.readParts s.iss.thr (farParts (z / 8) (fun _ => []) es) = (v, got, y)) (he : y.or x = some e) :
    vecLoad z d m srcs addr s = s.stopped v .load e := by
  unfold vecLoad
  exact State.onElems_stopped (f := farParts (z / 8) fun _ => []) hcheck hread he

/-- A load that goes on commits each active element's number. -/
theorem vecLoad_goes {z : Nat} {d : VReg} {m : MReg} {srcs : List SReg} {addr : Nat → Nat} {u v t : State} {es : List Elem}
    {got : List (Nat × List (BitVec 8) × Option Err)} {l : List (Nat × Nat)} {err : Option Err}
    (hcheck : s.checkElems s.iss.thr .load (z / 8) (picked (512 / z) (s.cur.readM m) addr) = (u, es, none))
    (hread : u.readParts s.iss.thr (farParts (z / 8) (fun _ => []) es) = (v, got, none))
    (helems : v.readElems s.iss.thr (z / 8) got es = (t, l, err)) :
    ∃ out, vecLoad z d m srcs addr s = t.commit srcs [.v d] [(.v d, out)] (.ready t.cycle) err false true ∧
      ∀ k, k < 512 / z → laneOf z out k = (l.find? fun e => decide (e.1 = k)).elim (laneOf z (s.cur.readV d) k) fun e => e.2 % 2 ^ z := by
  have hu : u.vecs = s.vecs := by
    have := State.checkElems_vecs s.iss.thr .load (z / 8) (picked (512 / z) (s.cur.readM m) addr) s
    rwa [hcheck] at this
  have hv : v.vecs = s.vecs := by
    have := State.readParts_vecs (s := u) s.iss.thr (farParts (z / 8) (fun _ => []) es)
    rw [hread] at this
    exact this.trans hu
  have ht : t.vecs = s.vecs := by
    have := State.readElems_vecs s.iss.thr (z / 8) got es v
    rw [helems] at this
    exact this.trans hv
  have hlanes : l.map Prod.fst <+: (picked (512 / z) (s.cur.readM m) addr).map Prod.fst := by
    have h1 := State.checkElems_lanes s.iss.thr .load (z / 8) (picked (512 / z) (s.cur.readM m) addr) s
    have h2 := State.readElems_lanes s.iss.thr (z / 8) got es v
    rw [hcheck] at h1
    rw [helems] at h2
    exact h2 ▸ h1
  refine ⟨l.foldl (fun v e => putAt v (z * e.1) z e.2) (s.cur.readV d), ?_, fun k hk => ?_⟩
  · unfold vecLoad
    refine (State.onElems_goes (f := farParts (z / 8) fun _ => []) hcheck hread).trans ?_
    simp only [State.vecs_iss hv, helems, State.vecs_readV ht]
  · refine laneOf_putLanes l _ (hlanes.sublist.nodup (picked_nodup _ _ _)) fun e he => ?_
    have hmem := hlanes.subset (List.mem_map_of_mem he)
    rw [picked_lanes, List.mem_filter, List.mem_range] at hmem
    exact hmem.1

theorem vecStore_stopped {z : Nat} {d : VReg} {m : MReg} {srcs : List SReg} {addr : Nat → Nat} {u v : State} {es : List Elem}
    {x y : Option Stop} {got : List (Nat × List (BitVec 8) × Option Err)} {e : Stop} (hsent : s.putsSent s.iss.thr = none)
    (hcheck : s.checkElems s.iss.thr .store (z / 8) (picked (512 / z) (s.cur.readM m) addr) = (u, es, x))
    (hread : u.readParts s.iss.thr (probes es) = (v, got, y)) (he : y.or x = some e) :
    vecStore z d m srcs addr s = s.stopped v .store e := by
  unfold vecStore
  simp only [hsent]
  exact State.onElems_stopped (f := probes) hcheck hread he

/-- What a store of elements puts into the device's own memory. -/
def ownWrite (z : Nat) (v : V512) (e : Elem) : Option (Nat × List (BitVec 8)) :=
  match e.at_ with
  | .own pa _ => some (pa, toBytes (z / 8) (laneOf z v e.lane))
  | .far _ _ => none

theorem State.foldl_storeOwn_mem (l : List (Nat × List (BitVec 8))) (v : State) :
    (l.foldl (fun (v : State) w => v.storeOwn v.iss.thr w.1 w.2) v).mem = putAll v.mem l := by
  induction l generalizing v with
  | nil => rfl
  | cons w l ih => exact (ih _).trans rfl

theorem State.storeOwn_iss (t pa : Nat) (bs : List (BitVec 8)) : (s.storeOwn t pa bs).iss = s.iss := rfl

theorem State.foldl_storeOwn_iss (l : List (Nat × List (BitVec 8))) (v : State) :
    (l.foldl (fun (v : State) w => v.storeOwn v.iss.thr w.1 w.2) v).iss = v.iss := by
  induction l generalizing v with
  | nil => rfl
  | cons w l ih => rw [List.foldl_cons, ih, State.storeOwn_iss]

theorem onlyLink_putFar (t : Nat) (p : FarPart) : OnlyLink s (s.putFar t p) := by
  unfold State.putFar
  dsimp only
  split
  · exact onlyLink_sendOwn _ _ _ _ _
  · exact ⟨rfl⟩

/-- A store that goes on: its own elements are in memory, and what goes to other devices is awaited. -/
theorem vecStore_goes {z : Nat} {d : VReg} {m : MReg} {srcs : List SReg} {addr : Nat → Nat} {u v : State} {es : List Elem}
    {got : List (Nat × List (BitVec 8) × Option Err)} (hsent : s.putsSent s.iss.thr = none)
    (hcheck : s.checkElems s.iss.thr .store (z / 8) (picked (512 / z) (s.cur.readM m) addr) = (u, es, none))
    (hread : u.readParts s.iss.thr (probes es) = (v, got, none))
    (hmay : v.mayPut (farParts (z / 8) (fun k => toBytes (z / 8) (laneOf z (s.cur.readV d) k)) es) = true) :
    let far := farParts (z / 8) (fun k => toBytes (z / 8) (laneOf z (s.cur.readV d) k)) es
    let t := vecStore z d m srcs addr s
    (far = [] → t.iss.turn = s.iss.turn) ∧ (far ≠ [] → t.iss.turn = .walking) ∧
      t.mem = putAll u.mem (es.filterMap (ownWrite z (s.cur.readV d))) := by
  intro far t
  have hu : u.vecs = s.vecs := by
    have := State.checkElems_vecs s.iss.thr .store (z / 8) (picked (512 / z) (s.cur.readM m) addr) s
    rwa [hcheck] at this
  have hv : v.vecs = s.vecs := by
    have := State.readParts_vecs (s := u) s.iss.thr (probes es)
    rw [hread] at this
    exact this.trans hu
  have hmem : v.mem = u.mem := by
    have := State.readParts_mem (s := u) s.iss.thr (probes es)
    rwa [hread] at this
  let w := (joinStores (es.filterMap (ownWrite z (s.cur.readV d)))).foldl (fun (v : State) w => v.storeOwn v.iss.thr w.1 w.2) v
  have hwmem : w.mem = putAll u.mem (es.filterMap (ownWrite z (s.cur.readV d))) := by
    rw [State.foldl_storeOwn_mem, putAll_joinStores, hmem]
  have hwiss : w.iss = s.iss := (State.foldl_storeOwn_iss _ _).trans (State.vecs_iss hv)
  have hrun : t = if far = [] then w.stored srcs none
      else (far.foldl (fun s p => s.putFar s.iss.thr p) (w.wentFar w.iss.thr)).waitTurn := by
    simp only [t, vecStore, hsent]
    refine (State.onElems_goes (f := probes) hcheck hread).trans ?_
    refine (if_neg ?_).trans rfl
    rw [hmay]
    exact Bool.false_ne_true
  rw [hrun]
  refine ⟨fun h => ?_, fun h => ?_, ?_⟩
  · rw [if_pos h]
    exact congrArg Issue.turn ((sameDevice_retire w srcs).iss.trans hwiss)
  · rw [if_neg h]
    rfl
  · split_ifs
    · exact (State.stored_mem _ _).trans hwmem
    · refine (foldl_same (g := State.mem) (fun s p => (onlyLink_putFar _ _).mem) far (w.wentFar w.iss.thr)).trans hwmem

/-- A byte that some elements store: what the highest lane that names it puts there. -/
theorem tget_ownWrites {z p : Nat} (v : V512) (es : List Elem) (m : Tab (BitVec 8)) :
    (tget 0 (putAll m (es.filterMap (ownWrite z v))) p).toNat =
      match es.reverse.find? fun e => match e.at_ with | .own pa _ => decide (pa ≤ p ∧ p < pa + z / 8) | .far _ _ => false with
      | some e => (match e.at_ with
        | .own pa _ => laneOf z v e.lane / 2 ^ (8 * (p - pa)) % 256
        | .far _ _ => 0)
      | none => (tget 0 m p).toNat := by
  have hnames : ∀ e ∈ es.reverse, ((ownWrite z v e).any fun w => names w p) =
      (match e.at_ with | .own pa _ => decide (pa ≤ p ∧ p < pa + z / 8) | .far _ _ => false) := fun e _ => by
    unfold ownWrite
    cases e.at_ with
    | own pa ty => simp only [Option.any, names, length_toBytes]
    | far node pa => rfl
  rw [tget_putAll, find?_congr hnames]
  generalize hfind : es.reverse.find? _ = o
  cases o with
  | none => rfl
  | some e =>
    have hpred := List.find?_some hfind
    dsimp only at hpred ⊢
    unfold ownWrite
    cases hat : e.at_ with
    | own pa ty =>
      rw [hat] at hpred
      obtain ⟨hlo, hhi⟩ := of_decide_eq_true hpred
      simp only [Option.elim, hat]
      have h256 : (2 : Nat) ^ 8 = 256 := by decide
      rw [getD_toBytes _ _ _ (by omega), pow_mul, h256]
    | far node pa =>
      rw [hat] at hpred
      exact absurd hpred Bool.false_ne_true

theorem State.readElems_own {t z pa ty : Nat} {e : Elem} {rest : List Elem} {got : List (Nat × List (BitVec 8) × Option Err)}
    (hat : e.at_ = .own pa ty) (hmiss : ty ≠ 0 ∨ ∀ l ∈ (s.core (coreOf t)).l1, l.addr ≠ pa / 64 * 64) :
    ∃ (u : State) (bad : Option Err), u.mem = s.mem ∧ ∀ x l err, u.readElems t z got rest = (x, l, err) →
      s.readElems t z got (e :: rest) = (x, (e.lane, s.memRead pa z) :: l, bad.or err) := by
  have hbytes : (s.readOwn t pa e.va z ty).2.1 = s.memGet pa z := State.loadOwn_miss hmiss
  refine ⟨(s.readOwn t pa e.va z ty).1, (s.readOwn t pa e.va z ty).2.2, ?_, fun x l err h => ?_⟩
  · exact State.loadOwn_mem _ _ _ _
  · unfold State.readElems
    simp only [hat, h, hbytes]
    rfl

/-- Settles O31: loads and stores at any addresses, then the forms, then what one element meets. -/
theorem vectorMemory : Obligations.VectorMemory := by
  unfold Obligations.VectorMemory
  intro s w d b a r m im wide ea active stride index block stops loads stores empty
  have hload : ∀ (i : Instr) (srcs : List SReg) (z : Nat) (addr : Nat → Nat), exec i s = .next (vecLoad z d m srcs addr s) →
      loads i srcs z addr := by
    intro i srcs z addr hi u es x v got y hcheck hread
    refine ⟨⟨fun e he => hi.trans (congrArg Host.Outcome.next (vecLoad_stopped hcheck hread he)),
      fun c va he => hi.trans (congrArg Host.Outcome.next (vecLoad_stopped hcheck hread he))⟩, fun hy hx t l err helems => ?_⟩
    subst hy hx
    obtain ⟨out, hout, hlanes⟩ := vecLoad_goes (srcs := srcs) hcheck hread helems
    refine ⟨out, hi.trans (congrArg Host.Outcome.next hout), fun k hk => (hlanes k hk).trans ?_⟩
    cases l.find? fun e => decide (e.1 = k) <;> rfl
  have hstore : ∀ (i : Instr) (srcs : List SReg) (z : Nat) (addr : Nat → Nat), exec i s = .next (vecStore z d m srcs addr s) →
      stores i srcs z addr := by
    intro i srcs z addr hi
    refine ⟨fun err hsent => ?_, fun hsent u es x v got y hcheck hread => ⟨⟨fun e he => ?_, fun c va he => ?_⟩, fun hy hx hmay => ?_⟩⟩
    · rw [hi, vecStore]
      simp only [hsent]
    · exact hi.trans (congrArg Host.Outcome.next (vecStore_stopped hsent hcheck hread he))
    · exact hi.trans (congrArg Host.Outcome.next (vecStore_stopped hsent hcheck hread he))
    · subst hy hx
      obtain ⟨hnear, hfar, hmem⟩ := vecStore_goes (srcs := srcs) hsent hcheck hread hmay
      refine ⟨_, hi, hnear, hfar, fun p => ?_⟩
      rw [State.memRead_one, hmem, tget_ownWrites, State.memRead_one] <;> rfl
  have hwrap : ∀ x : Int, wrap72 x = (x % 2 ^ 72).toNat := fun x => by
    unfold wrap72
    push_cast
    rfl
  have hstride : ∀ k, strideAddr s.cur a (s.src r) k = stride k := fun k => hwrap _
  have hindex : ∀ k, indexAddr s.cur (widthBits w) a b k = index k := fun k => hwrap _
  refine ⟨fun h => ?_, fun hm hea i hi => ?_, fun hr => ⟨?_, ?_⟩, ?_, ?_, fun t k z lane va rest h => ?_,
    fun u v t k z lane va rest node pa ty es x hva hbefore hx hrest => ?_, fun t z e rest pa ty got hat hmiss =>
      State.readElems_own hat hmiss⟩
  · have hcheck : blockCheck (s.cur.readM m) ea = none := blockCheck_aligned h
    refine ⟨hload _ _ _ _ (congrArg Host.Outcome.next ?_), hstore _ _ _ _ (congrArg Host.Outcome.next ?_)⟩
    · simp only [ea] at hcheck
      simp only [hcheck]
      rfl
    · simp only [ea] at hcheck
      simp only [hcheck]
      rfl
  · have hcheck : blockCheck (s.cur.readM m) ea = _ := blockCheck_misaligned hm hea
    simp only [ea] at hcheck
    fin_cases hi <;>
    · refine congrArg Host.Outcome.next ?_
      simp only [hcheck, ea]
  · exact hload _ _ _ _ (next_withOps hr (by rw [State.vals_singleton, funext hstride]; rfl))
  · exact hstore _ _ _ _ (next_withOps hr (by rw [State.vals_singleton, funext hstride]; rfl))
  · exact hload _ _ _ _ (congrArg (fun f => Host.Outcome.next (vecLoad wide d m [] f s)) (funext hindex))
  · exact hstore _ _ _ _ (congrArg (fun f => Host.Outcome.next (vecStore wide d m [] f s)) (funext hindex))
  · rw [State.checkElems]
    exact if_pos h
  · have hnone : (if k = .load then s.readBefore (s.asker t) va else none) = none := by
      split_ifs with hk
      · exact hbefore hk
      · rfl
    rw [State.checkElems]
    refine (if_neg (not_not.2 hva)).trans ?_
    simp only [hnone, hx, hrest]

end Sys2Proof.Machine

/-! SUPPORT. Timelines, the copy engine and the transform coprocessor (11_engines R203 to R220). -/

namespace Sys2Proof.Machine

open Sys2Proof

section
variable {s : State}

/-! ### Numbering and the done counter (R203) -/

/-- The operation at which the done counter stops, and what it says of the operations of its class. -/
theorem Thread.timeDone_cases (th : Thread) (c : Nat) :
    (∃ pre o post, th.ops = pre ++ o :: post ∧ o.cls = c ∧ o.complete = false ∧ th.timeDone c = o.num - 1 ∧
      ∀ p ∈ pre, p.cls = c → p.complete = true) ∨
    (th.timeDone c = th.timeIssued c ∧ ∀ o ∈ th.ops, o.cls = c → o.complete = true) := by
  unfold Thread.timeDone
  cases hf : th.ops.find? fun o => decide (o.cls = c) && !o.complete with
  | none =>
    refine .inr ⟨rfl, fun o ho hc => ?_⟩
    simpa [hc] using List.find?_eq_none.1 hf o ho
  | some o =>
    obtain ⟨hp, pre, post, hops, hpre⟩ := List.find?_eq_some_iff_append.1 hf
    simp only [Bool.and_eq_true, decide_eq_true_eq, Bool.not_eq_true'] at hp
    exact .inl ⟨pre, o, post, hops, hp.1, hp.2, rfl, fun p hm hc => by simpa [hc] using hpre p hm⟩

theorem Thread.timeDone_spec {th : Thread} {c : Nat}
    (hord : th.ops.Pairwise fun x y => x.cls = c → y.cls = c → x.num < y.num)
    (hrange : ∀ o ∈ th.ops, o.cls = c → 1 ≤ o.num ∧ o.num ≤ th.timeIssued c) :
    th.timeDone c ≤ th.timeIssued c ∧
    (∀ o ∈ th.ops, o.cls = c → o.num ≤ th.timeDone c → o.complete = true) ∧
    (th.timeDone c < th.timeIssued c → ∃ o ∈ th.ops, o.cls = c ∧ o.num = th.timeDone c + 1 ∧ o.complete = false) := by
  obtain ⟨pre, o, post, hops, hc, hopen, hdone, hpre⟩ | ⟨hdone, hall⟩ := th.timeDone_cases c
  · have hmem : o ∈ th.ops := by simp [hops]
    obtain ⟨hlow, hhigh⟩ := hrange o hmem hc
    refine ⟨by omega, fun p hp hpc hle => ?_, fun _ => ⟨o, hmem, hc, by omega, hopen⟩⟩
    rw [hops, List.mem_append, List.mem_cons] at hp
    obtain hp | rfl | hp := hp
    · exact hpre p hp hpc
    · omega
    · rw [hops, List.pairwise_append, List.pairwise_cons] at hord
      have hlt := hord.2.1.1 p hp hc hpc
      omega
  · exact ⟨hdone.le, fun o ho hc _ => hall o ho hc, fun hlt => absurd hdone hlt.ne⟩

/-- Numbering a bundle leaves who owns it as it was. -/
theorem State.owner_number (c : Nat) (pc : W64) : (s.number c).1.owner s.iss.thr pc = s.owner s.iss.thr pc := by
  simp only [State.number, State.owner, State.setCur, State.thread_setThread, if_pos]
  rfl

/-! ### A checked access of the own local store (R148) -/

/-- The traps of an access whose offset is not aligned or lies outside. -/
theorem local_traps {j : Instr} {n : Nat} {a : SReg} {srcs : List SReg} {dst : Option SReg} {late : Bool}
    {k : (SReg → W64) → State}
    (hj : exec j s = .next (s.withOps srcs dst (fun r => s.checked (localCheck (r a) n n Config.localBytes) (k r)) late))
    (hr : s.Ready srcs dst (!late)) (ha : a ∈ srcs) :
    ((s.src a).toNat % n ≠ 0 → exec j s = .next (s.trap { cause := 4, tval := s.src a })) ∧
    ((s.src a).toNat % n = 0 → 0x60000 < (s.src a).toNat + n → exec j s = .next (s.trap { cause := 6, tval := s.src a })) := by
  rw [hj, State.withOps_ready hr, State.vals_of_mem ha]
  exact ⟨fun h => by rw [localCheck_misaligned h]; rfl,
    fun h1 h2 => by rw [localCheck_outside (limit := Config.localBytes) h1 h2]; rfl⟩

end

section
variable {s u v : State} {core clu : Nat} {q : CopyReq}

/-! ### The copy engine (R205, R207, R210) -/

/-- The conditions under which the engine serves the head of a core's copy queue. -/
def State.CopyServed (s : State) (q : CopyReq) : Prop :=
  q.past = false ∧ (q.stall = none ∨ ∃ w, q.stall = some w ∧ w.retry ≤ s.cycle) ∧
    s.writeBehind q.owner (some (planOf q.desc.toNat q.src q.dst).dst) (planOf q.desc.toNat q.src q.dst).credit = false ∧
    s.storesOut q.owner = false

theorem State.copyHead_cons {rest : List CopyReq} (h : (s.core core).cq = q :: rest) :
    s.copyHead core = some q ↔ s.CopyServed q := by
  simp only [State.copyHead, h, State.CopyServed, retryDue]
  cases q.stall <;> simp [and_assoc]

theorem State.copyHead_held {rest : List CopyReq} (h : (s.core core).cq = q :: rest) (hn : ¬ s.CopyServed q) :
    s.copyHead core = none := by
  have hne := mt (State.copyHead_cons h).1 hn
  simp only [State.copyHead, h] at hne ⊢
  split <;> simp_all

theorem State.copyServe_held {b : Bool} (h : s.copyHead core = none) : s.copyServe core b = s := by rw [State.copyServe, h]

theorem State.copyServe_turn {b : Bool} (h : s.copyHead core = some q) (hb : q.stall.isSome = b) (ht : s.copyTurn core = true) :
    s.copyServe core b = (s.setClu (core / 8) { s.clu (core / 8) with ccore := core % 8, cAt := some s.cycle }).copyUnit core q := by
  rw [State.copyServe, h]
  exact if_pos ⟨hb, ht⟩

theorem State.copyServe_wait {b : Bool} (ht : s.copyTurn core = false) : s.copyServe core b = s := by
  rw [State.copyServe]
  cases s.copyHead core with
  | none => rfl
  | some q => exact if_neg (by simp [ht])

/-- One unit of a plain copy that does not overlap and credits nothing. -/
theorem State.copyUnit_plain {bs bs' : List (BitVec 8)} {p : Plan} (hp : planOf q.desc.toNat q.src q.dst = p)
    (hkind : p.kind = 0) (hover : p.overlap = false) (hcredit : p.credit = none) {j k n : Nat}
    (hj : q.done / p.perRow = j) (hk : q.done % p.perRow * 64 = k) (hn : min 64 (p.outRow - k) = n)
    (hread : s.locReadAll q.owner p.src [(p.ss * j + k, n)] = (u, .ok bs))
    (hwrite : u.locWrite q.owner p.dst (p.ds * j + k) bs = (v, .ok bs')) :
    s.copyUnit core q =
      v.setCopy core { q with done := q.done + 1, stall := none, past := decide (p.units ≤ q.done + 1) } := by
  have hneeds : p.needs j k n = [(p.ss * j + k, n)] := by simp [Plan.needs, hkind]
  have hconv : q.convert p j n bs = (bs, 0) := by simp [CopyReq.convert, hkind]
  simp only [State.copyUnit, hp, hj, hk, hn, hkind, hover, decide_true, Bool.and_false, hneeds, hread, State.copyGot, hconv,
    hwrite, hcredit, Nat.or_zero]

/-! ### The transform coprocessor (R213) -/

theorem transform_held {op : Nat} {q : TxReq} (h : (s.clu clu).txq.head? = some q) (hs : s.storesOut q.owner = true) :
    transform op clu s = s := by
  obtain ⟨rest, hq⟩ := List.head?_eq_some_iff.1 h
  rw [transform, hq]
  exact if_neg (by simp [State.txBehind, hs])

theorem transform_runs {op : Nat} {q : TxReq} {rest : List TxReq} (h : (s.clu clu).txq = q :: rest) (hst : q.stall = none)
    (hb : s.txBehind q = false) (hop : txOp q.recd.toNat = op) : transform op clu s = s.txRun clu q := by
  rw [transform, h]
  exact if_pos ⟨hop, hst, by simp [hb]⟩

end
end Sys2Proof.Machine
namespace Sys2Proof.Machine

open Sys2Proof

section
variable {s : State} {a d : SReg}

/-! ### COPY and TXREQ (R209, R217, R218) -/

/-- The snapshot a converting copy takes of an entry its descriptor names. -/
def State.copySnap (s : State) (w k : Nat) : Option Snap := if bits w 391 384 = 1 then some (s.snap s.cur.ctx k) else none

/-- A checked COPY whose descriptor lies in the local store. -/
theorem execCopy_inside (hroom : (s.core s.curCore).cq.length < 8) (hr : s.Ready [a] none)
    (hc : s.LsClean s.curCore) {o w : Nat} (ho : (s.src a).toNat = o) (ha : o % 64 = 0) (hl : o + 64 ≤ 0x60000)
    (hw : s.lsRead s.curCore o 64 = w) :
    execCopy a s = .next (match copyCheck w (s.copySnap w (bits w 396 392)) (s.copySnap w (bits w 401 397)) (s.src a) with
      | some e => s.trap e
      | none =>
        let u := (s.number 1).1
        (u.setCore s.curCore { s.core s.curCore with cq := (s.core s.curCore).cq ++ [{
          owner := s.owner s.iss.thr s.iss.b.pc, num := s.cur.timeIssued 1 + 1, desc := BitVec.ofNat 512 w
          src := s.copySnap w (bits w 396 392), dst := s.copySnap w (bits w 401 397) }] }).retire [a]) := by
  refine (congrArg Host.Outcome.next (if_neg (Nat.not_le.2 hroom))).trans (next_withOps hr ?_)
  simp only [State.vals_singleton, localCheck_inside (limit := Config.localBytes) (ho ▸ ha) (ho ▸ hl), hc.lsTouch,
    hc.poisoned, ho, hw]
  rw [← State.owner_number (s := s) 1 s.iss.b.pc]
  rfl

/-- A checked TXREQ whose request lies in the local store. -/
theorem execTxreq_inside (hr : s.Ready [a] (some d) false) (hc : s.LsClean s.curCore) {o w clu : Nat}
    (ho : (s.src a).toNat = o) (ha : o % 32 = 0) (hl : o + 32 ≤ 0x60000) (hw : s.lsRead s.curCore o 32 = w)
    (hclu : cluOf s.iss.thr = clu) :
    execTxreq d a s = .next (match txCheck w with
      | some e => s.trap e
      | none =>
        if 16 ≤ (s.clu clu).txq.length then s.commit [a] [.s d] [(.s d, 0)] (.ready s.cycle)
        else
          let u := (s.number 2).1
          (u.setClu clu { s.clu clu with txq := (s.clu clu).txq ++ [{
            owner := s.owner s.iss.thr s.iss.b.pc, num := s.cur.timeIssued 2 + 1, recd := BitVec.ofNat 256 w }] }).commit [a]
              [.s d] [(.s d, BitVec.ofNat 512 (s.cur.timeIssued 2 + 1))] (.ready s.cycle)) := by
  refine next_withOps_late hr ?_
  simp only [State.vals_singleton, localCheck_inside (limit := Config.localBytes) (ho ▸ ha) (ho ▸ hl), hc.lsTouch,
    hc.poisoned, ho, hw, hclu]
  rw [← State.owner_number (s := s) 2 s.iss.b.pc]
  rfl

/-! ### WAITTL and TLRD (R219, R220) -/

theorem execWaittl_ready {c : BitVec 3} (hr : s.Ready [a] none) {v : Nat}
    (hv : min (s.src a).toNat (s.cur.timeIssued c.toNat) = v) :
    (v ≤ s.cur.timeDone c.toNat → s.cur.timeError c.toNat v = none →
      execWaittl c a s = .next ((s.flushL1 s.curCore).retire [a])) ∧
    (v ≤ s.cur.timeDone c.toNat → ∀ e x, s.cur.timeError c.toNat v = some e → e.err = some x →
      execWaittl c a s = .next ((s.setCur (s.cur.clearError e)).trap x)) ∧
    (s.cur.timeDone c.toNat < v → execWaittl c a s = .next (s.block (.timeline c.toNat (BitVec.ofNat 64 v)) [a])) := by
  refine ⟨fun hd he => next_withOps hr ?_, fun hd e x he hx => next_withOps hr ?_, fun hd => next_withOps hr ?_⟩ <;>
    simp only [State.vals_singleton, hv]
  · simp only [if_neg (Nat.not_lt.2 hd), he]
  · simp only [if_neg (Nat.not_lt.2 hd), he, hx, Option.getD_some]
  · exact if_pos hd

theorem execTlrd_ready {i : Imm} (hr : s.Ready [] (some d)) :
    execTlrd d i s = .next (s.retireS [] d (BitVec.ofNat 64
      (if i.toNat / 8 % 2 = 1 then s.cur.timeIssued (i.toNat % 8) else s.cur.timeDone (i.toNat % 8)))) := by
  refine next_withOps hr ?_
  have hlow : bits i.toNat 2 0 = i.toNat % 8 := by simp [bits]
  have hsel : bits i.toNat 3 3 = i.toNat / 8 % 2 := by simp [bits]
  simp only [hlow, hsel]

theorem execWaittlComplete_waiting {thr n : Nat} {v : W64} {x : Waiting} (hst : (s.thread thr).st = .waiting)
    (hx : (s.thread thr).wait = some x) (hw : x.w = .timeline n v) {m : Nat}
    (hm : min v.toNat ((s.thread thr).timeIssued n) = m) :
    (m ≤ (s.thread thr).timeDone n → (s.thread thr).timeError n m = none →
      execWaittlComplete thr s = .next (s.unblock thr x fun u => (u.flushL1 (coreOf thr)).done)) ∧
    ((s.thread thr).timeDone n < m → execWaittlComplete thr s = .next s) := by
  simp only [execWaittlComplete, hst, hx, hw, hm]
  exact ⟨fun hd he => by rw [if_neg (Nat.not_lt.2 hd), he], fun hd => by rw [if_pos hd]⟩

end

/-- Settles O33: the requests by their checks, the held ones by the conditions of the engines' service, the done counter by the
operation at which it stops. -/
theorem engineRequests : Obligations.EngineRequests := by
  unfold Obligations.EngineRequests
  refine ⟨fun s a d c i thr hfa hpo => ?_, fun th c hord hrange => Thread.timeDone_spec hord hrange⟩
  intro o core
  have hc : s.LsClean s.curCore := State.LsClean.of_empty hfa hpo
  refine ⟨fun hr => ?_, fun hr => ?_, fun hr => execWaittl_ready hr rfl, execTlrd_ready, fun x n v hst hx hw => ?_,
    fun q hq hs => ?_, fun q hq hs j hj => ?_⟩
  · intro w entry check n
    refine ⟨fun hfull => congrArg Host.Outcome.next (if_pos hfull), fun hroom => ?_⟩
    have hj : exec (.copy a) s = execCopy a s := rfl
    have htraps := local_traps (j := .copy a) (s := s) (a := a)
      (congrArg Host.Outcome.next (if_neg (Nat.not_le.2 hroom))) hr (List.mem_singleton_self a)
    refine ⟨htraps.1, htraps.2, fun ha hl => ?_⟩
    rw [hj, execCopy_inside hroom hr hc rfl ha hl rfl]
    exact ⟨fun e (he : copyCheck _ _ _ _ = _) => by rw [State.copySnap, State.copySnap, he],
      fun (he : copyCheck _ _ _ _ = _) => by rw [State.copySnap, State.copySnap, he]; rfl⟩
  · intro w clu n
    have hj : exec (.txreq d a) s = execTxreq d a s := rfl
    have htraps := local_traps (j := .txreq d a) (s := s) (a := a) rfl hr (List.mem_singleton_self a)
    refine ⟨htraps.1, htraps.2, fun ha hl => ?_⟩
    rw [hj, execTxreq_inside hr hc rfl ha hl rfl rfl]
    exact ⟨fun e he => by rw [he], fun he hfull => by rw [he]; exact congrArg Host.Outcome.next (if_pos hfull),
      fun he hroom => by rw [he]; exact congrArg Host.Outcome.next (if_neg (Nat.not_le.2 hroom))⟩
  · exact execWaittlComplete_waiting hst hx hw rfl
  · obtain ⟨rest, hcq⟩ := List.head?_eq_some_iff.1 hq
    have hheld : s.copyHead core = none := State.copyHead_held hcq fun h => by simp [h.2.2.2] at hs
    exact ⟨congrArg Host.Outcome.next (State.copyServe_held hheld), congrArg Host.Outcome.next (State.copyServe_held hheld)⟩
  · have hheld := fun op => transform_held (op := op) hq hs
    obtain ⟨rest, htx⟩ := List.head?_eq_some_iff.1 hq
    have hretry : exec (.engineFaultRetry .transform (cluOf s.iss.thr)) s = .next s := by
      refine congrArg Host.Outcome.next ?_
      simp only [htx]
      exact if_neg (by simp [State.txBehind, hs])
    fin_cases hj
    · exact congrArg Host.Outcome.next (hheld 0)
    · exact congrArg Host.Outcome.next (hheld 1)
    · exact congrArg Host.Outcome.next (hheld 2)
    · exact congrArg Host.Outcome.next (hheld 3)
    · exact congrArg Host.Outcome.next (hheld 4)
    · exact hretry

/-- Settles O34: the unit of a plain copy, the served head, and each of the coprocessor's operations. -/
theorem engineSteps : Obligations.EngineSteps := by
  unfold Obligations.EngineSteps
  intro s u v core clu bs bs'
  refine ⟨fun q hq ht hst => ?_,
    fun q rest hcq => ⟨fun hp => ?_, fun w hp hst => ⟨fun hdue hout hbehind ht => ?_, fun hor => ?_⟩⟩,
    fun q rest htx hst hb => ?_⟩
  · intro p j k n x hkind hover hcredit hread hwrite
    refine congrArg Host.Outcome.next ((State.copyServe_turn hq (by simp [hst]) ht).trans ?_)
    exact State.copyUnit_plain rfl hkind hover hcredit rfl rfl rfl hread hwrite
  · refine congrArg Host.Outcome.next ?_
    simp only [hcq, hp, if_true]
  · have hserved : s.CopyServed q := ⟨hp, .inr ⟨w, hst, hdue⟩, hbehind, hout⟩
    exact congrArg Host.Outcome.next (State.copyServe_turn ((State.copyHead_cons hcq).2 hserved) (by simp [hst]) ht)
  · refine congrArg Host.Outcome.next ?_
    change s.copyServe core true = s
    by_cases ht : s.copyTurn core = false
    · exact State.copyServe_wait ht
    · refine State.copyServe_held (State.copyHead_held hcq fun hserved => ?_)
      obtain ⟨-, hdue, hbehind, hout⟩ := hserved
      simp only [hst, reduceCtorEq, Option.some.injEq, false_or, exists_eq_left'] at hdue
      simp only [hout, hbehind, reduceCtorEq, ht, or_false] at hor
      omega
  · intro d taken hread
    have hrun : ∀ {op}, txOp d = op → transform op clu s = s.txRun clu q := transform_runs htx hst hb
    have hkeep : (∀ n, taken n = txWritten d n) := fun _ => rfl
    refine ⟨fun hop => ?_, fun hop => ?_, fun hop hread' => ?_, fun hop => ?_, fun hop => ?_⟩
    · refine congrArg Host.Outcome.next ((hrun hop).trans ?_)
      simp only [State.txRun, ← show d = q.recd.toNat from rfl, hread, State.txGot, hop]
    · refine congrArg Host.Outcome.next ((hrun hop).trans ?_)
      simp only [State.txRun, ← show d = q.recd.toNat from rfl, hread, State.txGot, hop]
    · refine congrArg Host.Outcome.next ((hrun hop).trans ?_)
      simp only [State.txRun, ← show d = q.recd.toNat from rfl, hread, State.txGot, hop, hread']
    · intro out x q' hw
      refine congrArg Host.Outcome.next ((hrun hop).trans ?_)
      simp only [State.txRun, ← show d = q.recd.toNat from rfl, hread, State.txGot, hop,
        ← show out = compressAll (txLen d / 256) bs from rfl, hw, if_true, Nat.add_zero, hkeep]
    · intro out x q' hw
      refine congrArg Host.Outcome.next ((hrun hop).trans ?_)
      simp only [State.txRun, ← show d = q.recd.toNat from rfl, hread, State.txGot, hop,
        ← show out = decompressAll (txLen d) bs from rfl, hw, hkeep]

end Sys2Proof.Machine

/-! SUPPORT. The matrix unit's queues and tile steps (10_matrix R170 to R202). -/

namespace Sys2Proof.Machine

open Sys2Proof

section
variable {s x : State} {a b d : SReg} {op : MOp} {t : BitVec 3}

/-! ### Entering the queue (R172, R192) -/

/-- What a bundle of `s` leaves that numbers itself and puts an entry in its core's queue, `x` being `s` with what the bundle
has done before. -/
def State.entered (s x : State) (op : MOp) : State :=
  let n := s.cur.timeIssued 0 + 1
  let u := x.setCur { s.cur with issued := tput s.cur.issued 0 n, ops := s.cur.ops ++ [{ cls := 0, num := n }] }
  let e : MEnt := { owner := s.owner s.iss.thr s.iss.b.pc, num := n, op := op }
  u.setCore s.curCore { (x.core s.curCore).wrote 7 (fun k => decide (k = e.key)) e.key with mq := (s.core s.curCore).mq ++ [e] }

theorem State.enqueue_of (hiss : x.iss = s.iss) (hcur : x.cur = s.cur) (hmq : (x.core s.curCore).mq = (s.core s.curCore).mq) :
    x.enqueue op = (s.entered x op, s.cur.timeIssued 0 + 1) := by
  have hown : (x.number 0).1.owner s.iss.thr s.iss.b.pc = s.owner s.iss.thr s.iss.b.pc := by
    have hx := State.owner_number (s := x) 0 s.iss.b.pc
    rw [hiss] at hx
    have hthr : x.thread s.iss.thr = s.thread s.iss.thr := by simpa only [State.cur, hiss] using hcur
    rw [hx, State.owner, State.owner, hthr]
  have hnum : x.number 0 = (x.setCur { s.cur with
      issued := tput s.cur.issued 0 (s.cur.timeIssued 0 + 1)
      ops := s.cur.ops ++ [{ cls := 0, num := s.cur.timeIssued 0 + 1 }] }, s.cur.timeIssued 0 + 1) := by
    rw [← hcur]
    rfl
  rw [hnum] at hown
  generalize hu : x.setCur _ = u at hnum hown
  have hu' : u.iss = s.iss ∧ ∀ k, u.core k = x.core k := by
    subst hu
    exact ⟨hiss, fun k => rfl⟩
  have hcurCore : u.curCore = s.curCore := by rw [State.curCore, hu'.1, State.curCore]
  simp only [State.enqueue, hnum, hcurCore, hu'.1, hown, hu'.2, hmq, State.entered, hu]

theorem State.enqueue_self : s.enqueue op = (s.entered s op, s.cur.timeIssued 0 + 1) := State.enqueue_of rfl rfl rfl

theorem acceptAll_mq (c : Core) (i : Nat) : (c.acceptAll i).mq = c.mq := by
  refine foldl_same (g := Core.mq) (fun c m => ?_) _ _
  cases m with
  | inval => rfl
  | ack e =>
    change (c.ackWrote e.addr e.bytes.length).mq = c.mq
    unfold Core.ackWrote
    split <;> rfl

theorem ackAll_mq (k t : Nat) : ((s.ackAll t).core k).mq = (s.core k).mq := by
  unfold State.ackAll
  dsimp only
  split
  · rfl
  · by_cases hk : k = coreOf t
    · subst hk
      rw [State.core_setCore_same]
      exact foldl_same (g := Core.mq) acceptAll_mq _ _
    · rw [State.core_setCore_other _ _ hk]

theorem State.onQueue_full {k : State → State} (h : 16 ≤ (s.core s.curCore).mqCount) : s.onQueue k = s := if_pos h

theorem State.onQueue_room {k : State → State} (h : (s.core s.curCore).mqCount < 16) : s.onQueue k = k s :=
  if_neg (Nat.not_le.2 h)

theorem State.enqueue_ackAll : (s.ackAll s.iss.thr).enqueue op = (s.entered (s.ackAll s.iss.thr) op, s.cur.timeIssued 0 + 1) :=
  State.enqueue_of (ackAll_iss _) (ackAll_cur _) (ackAll_mq _ _)

/-! ### The operands of an MMA (R175, R192) -/

/-- The slices a sparse A stands for, of what its descriptor says (R176). -/
theorem operandCheck_factor {sparse : Bool} {w : W64} (h : operandCheck 0 sparse w (s.operand w) = none) :
    (s.operand w).k * (if (s.operand w).sparsity = 1 then 2 else if (s.operand w).sparsity = 2 then 4 else 1) =
      if sparse then (s.operand w).k * (if (s.operand w).sparsity = 1 then 2 else 4) else (s.operand w).k := by
  have hlt : (s.operand w).sparsity < 4 := by
    change bits w.toNat 50 49 < 4
    exact Nat.mod_lt _ (by decide)
  generalize s.operand w = o at h hlt ⊢
  have hsparse : (if sparse then decide (o.sparsity = 0 ∨ o.sparsity = 3) else decide (o.sparsity ≠ 0)) = false := by
    by_contra hne
    rw [Bool.not_eq_false] at hne
    unfold operandCheck at h
    rw [hne] at h
    simp only [if_true] at h
    split_ifs at h
  cases sparse with
  | false =>
    have h0 : o.sparsity = 0 := by simpa using hsparse
    simp [h0]
  | true =>
    have h12 : o.sparsity ≠ 0 ∧ o.sparsity ≠ 3 := by simpa using hsparse
    by_cases h1 : o.sparsity = 1
    · simp [h1]
    · have h2 : o.sparsity = 2 := by omega
      simp [h2]

theorem mma_ready {clear sparse : Bool} (hroom : (s.core s.curCore).mqCount < 16) (hr : s.Ready [a, b] none)
    {x y : Operand} (hx : s.operand (s.src a) = x) (hy : s.operand (s.src b) = y) :
    (∀ e, operandCheck 0 sparse (s.src a) x = some e → mma clear sparse t a b s = s.trap e) ∧
    (operandCheck 0 sparse (s.src a) x = none → ∀ e, operandCheck 1 false (s.src b) y = some e →
      mma clear sparse t a b s = s.trap e) ∧
    (operandCheck 0 sparse (s.src a) x = none → operandCheck 1 false (s.src b) y = none →
      let k := if sparse then x.k * (if x.sparsity = 1 then 2 else 4) else x.k
      (y.k ≠ k → mma clear sparse t a b s = s.trap { cause := 12, tval := 5 + 256 }) ∧
      (y.k = k → matrixFmt [x.fmt, y.fmt] = none →
        mma clear sparse t a b s = (s.entered s (.mma t.toNat clear x y)).retire [a, b])) := by
  have hrun : ∀ {u}, _ = u → mma clear sparse t a b s = u := fun hu =>
    ((State.onQueue_room hroom).trans (State.withOps_ready hr)).trans hu
  subst hx hy
  refine ⟨fun e he => hrun ?_, fun hx e he => hrun ?_, fun hx hy => ?_⟩
  · simp only [(vals_pair s a b).1, (vals_pair s a b).2, he]
  · simp only [(vals_pair s a b).1, (vals_pair s a b).2, hx, he]
  · refine ⟨fun hk => hrun ?_, fun hk hf => hrun ?_⟩ <;>
      simp only [(vals_pair s a b).1, (vals_pair s a b).2, hx, hy, operandCheck_factor hx]
    · rw [if_pos hk]
      rfl
    · rw [if_neg (not_not_intro hk), hf, State.enqueue_self]

/-! ### Drains (R178, R194) -/

theorem drain_ready {wake : Bool} (hroom : (s.core s.curCore).mqCount < 16) (hr : s.Ready [a] none) {f : Snap}
    (hf : s.snap s.cur.ctx (bits (s.src a).toNat 36 32) = f) :
    (∀ e, s.drainCheck wake (s.src a) f = some e → drain wake t a s = s.trap e) ∧
    (s.drainCheck wake (s.src a) f = none → drain wake t a s =
      if wake then s.release fun x => (x.enqueue (.drain t.toNat (s.src a) f wake)).1.retire [a]
      else (s.enqueue (.drain t.toNat (s.src a) f wake)).1.retire [a]) := by
  have hrun : ∀ {u}, _ = u → drain wake t a s = u := fun hu =>
    ((State.onQueue_room hroom).trans (State.withOps_ready hr)).trans hu
  refine ⟨fun e he => hrun ?_, fun he => hrun ?_⟩ <;> simp only [State.vals_singleton, hf, he]

/-- The checks of a drain, as its descriptor's fields give them. -/
theorem drainCheck_eq (wake : Bool) (d : W64) (f : Snap) : s.drainCheck wake d f =
    if d.toNat / 2 ^ 55 ≠ 0 ∨ (d.toNat / 2 ^ 31 % 2 = 1 ∧ d.toNat / 2 ^ 20 % 2 ^ 11 ≠ 0) then some (mdescErr 1 0)
    else if d.toNat % 2 ^ 20 % 16 ≠ 0 then some (mdescErr 2 0)
    else if d.toNat / 2 ^ 37 % 2 ^ 12 % 16 ≠ 0 ∨ (kindOf f.word ≠ 0 ∧ d.toNat / 2 ^ 37 % 2 ^ 12 < 4 * f.fmt.W) then
      some (mdescErr 3 0)
    else if kindOf f.word ≠ 0 ∧ 0x60000 < d.toNat % 2 ^ 20 + 31 * (d.toNat / 2 ^ 37 % 2 ^ 12) + 4 * f.fmt.W then
      some (mdescErr 7 0)
    else if 1536 ≤ drainCore d s.curCore ∨ s.hasTask (drainCore d s.curCore) s.cur.ctx = false then some (mdescErr 8 0)
    else if wake = decide (d.toNat / 2 ^ 52 % 8 = 0) then some (mdescErr 9 0)
    else if kindOf f.word = 0 then some (fmtErr 7 f.entry) else none := by
  have hoff : drainOff d = d.toNat % 2 ^ 20 := by simp [drainOff, bits]
  have hstride : drainStride d = d.toNat / 2 ^ 37 % 2 ^ 12 := by simp [drainStride, bits]
  have hown : bits d.toNat 31 31 = d.toNat / 2 ^ 31 % 2 := by simp [bits]
  have htgt : bits d.toNat 30 20 = d.toNat / 2 ^ 20 % 2 ^ 11 := by simp [bits]
  have hwake : bits d.toNat 54 52 = d.toNat / 2 ^ 52 % 8 := by simp [bits]
  have hok : (acceptAny f.word).isNone = true ↔ kindOf f.word ≠ 0 := by simp [acceptAny]
  have hlast : ((acceptAny f.word).map fun k => fmtErr k f.entry) = if kindOf f.word = 0 then some (fmtErr 7 f.entry) else none := by
    unfold acceptAny
    split <;> rfl
  have hhas : ((!s.hasTask (drainCore d s.curCore) s.cur.ctx) = true) = (s.hasTask (drainCore d s.curCore) s.cur.ctx = false) := by
    simp
  simp only [State.drainCheck, hoff, hstride, hown, htgt, hwake, hok, hlast, hhas]
  rfl

end
end Sys2Proof.Machine
namespace Sys2Proof.Machine

open Sys2Proof

section
variable {s : State} {b : SReg} {d r : VReg}

/-! ### ACCRD, NETEVAL and MQSTAT (R195 to R198) -/

theorem accrd_fields (w : Nat) : bits w 2 0 = w % 8 ∧ bits w 7 3 = w / 8 % 32 ∧ bits w 8 8 = w / 256 % 2 := by
  simp [bits]

/-- A NETEVAL whose shape record lies in the local store. -/
theorem execNeteval_inside (hroom : (s.core s.curCore).mqCount < 16) (hr : s.Ready [b] none) (hc : s.LsClean s.curCore)
    {w : BitVec 384} {wf af : Snap} (hw : BitVec.ofNat 384 (s.lsRead s.curCore (s.src b).toNat 48) = w)
    (hwf : s.snap s.cur.ctx (bits w.toNat 68 64) = wf) (haf : s.snap s.cur.ctx (bits w.toNat 60 56) = af)
    (ha : (s.src b).toNat % 16 = 0) (hl : (s.src b).toNat + 48 ≤ 0x60000) :
    (∀ e, netCheck w d.toNat r.toNat wf af = some e → execNeteval d r b s = .next (s.trap e)) ∧
    (netCheck w d.toNat r.toNat wf af = none → execNeteval d r b s = .next (
      (s.entered s (.neteval d w wf af ((List.range (2 * bits w.toNat 15 8)).map fun i => s.cur.readV (r + BitVec.ofNat 5 i)))).commit
        [b] ((List.range (2 * bits w.toNat 47 40)).map fun i => Reg.v (d + BitVec.ofNat 5 i)) []
        (.entry (s.cur.timeIssued 0 + 1)))) := by
  have hrun : ∀ {u}, _ = u → execNeteval d r b s = .next u := fun hu =>
    congrArg Host.Outcome.next (((State.onQueue_room hroom).trans (State.withOps_ready hr)).trans hu)
  refine ⟨fun e he => hrun ?_, fun he => hrun ?_⟩ <;>
    simp only [State.vals_singleton, localCheck_inside (limit := Config.localBytes) ha hl, hc.lsTouch, hc.poisoned, hw, hwf, haf, he,
      Bool.false_eq_true, if_false, State.enqueue_self]

theorem mqReady_behind {k : Nat} {e : MEnt} (hh : (s.core k).mqHead = some e) (hb : s.entryBehind k e = true) :
    s.mqReady k = false := by
  simp only [State.mqReady, hh, hb, Bool.not_true, Bool.and_false, Bool.false_and]

end

/-- Settles O35: what each instruction's checks let through enters the queue, numbered. -/
theorem matrixRequests : Obligations.MatrixRequests := by
  unfold Obligations.MatrixRequests
  intro s t d r q a b core c n v enter x y
  have henter : ∀ op, (s.enqueue op).1 = enter s op := fun op => congrArg Prod.fst State.enqueue_self
  refine ⟨fun hfull i hi => ?_, fun k e z tile y y' hh hs hop => ?_,
    fun hroom => ⟨?_, fun hr => ?_, fun hr => ?_, fun hr hfa hpo => ?_⟩, fun hr => next_withOps hr rfl⟩
  · fin_cases hi <;> exact congrArg Host.Outcome.next (State.onQueue_full hfull)
  · refine mqReady_behind hh ?_
    rcases hop with hop | ⟨g, w, f, h, l, hop⟩ <;> simp only [State.entryBehind, hop, hs, Bool.or_true]
  · exact congrArg Host.Outcome.next ((State.onQueue_room hroom).trans (congrArg (State.retire · []) (henter _)))
  · intro i clear sparse hi
    have key := mma_ready (t := t) (clear := clear) (sparse := sparse) hroom hr rfl rfl
    have hi : exec i s = .next (mma clear sparse t a b s) := by
      fin_cases hi <;> rfl
    rw [hi]
    obtain ⟨hx, hy, hgo⟩ := key
    exact ⟨fun e he => congrArg Host.Outcome.next (hx e he), fun h e he => congrArg Host.Outcome.next (hy h e he),
      fun h h' => ⟨fun hk => congrArg Host.Outcome.next ((hgo h h').1 hk),
        fun hk hf => congrArg Host.Outcome.next ((hgo h h').2 hk hf)⟩⟩
  · intro f w tgt row check
    have hcheck : ∀ wake, s.drainCheck wake (s.src a) f =
        ((check wake).map fun k => mdescErr k 0).or (if kindOf f.word = 0 then some (fmtErr 7 f.entry) else none) := by
      intro wake
      rw [drainCheck_eq]
      simp only [check]
      split_ifs <;> rfl
    have hdrain : ∀ wake, _ := fun wake => drain_ready (t := t) (wake := wake) hroom hr (f := f) rfl
    refine ⟨fun i wake hi => ?_, fun h => ?_, fun h hout => ?_, fun h hout => ?_, ?_, ?_⟩
    · have hi : exec i s = .next (drain wake t a s) := by
        fin_cases hi <;> rfl
      rw [hi]
      exact ⟨fun k hk => congrArg Host.Outcome.next ((hdrain wake).1 _ (by rw [hcheck, hk]; rfl)),
        fun hk hz => congrArg Host.Outcome.next ((hdrain wake).1 _ (by rw [hcheck, hk, if_pos hz]; rfl))⟩
    · refine congrArg Host.Outcome.next (((hdrain false).2 h).trans ?_)
      rw [if_neg Bool.false_ne_true, henter]
    · refine congrArg Host.Outcome.next (((hdrain true).2 h).trans ?_)
      rw [if_pos rfl, State.release_clear hout, State.enqueue_ackAll]
      rfl
    · refine congrArg Host.Outcome.next (((hdrain true).2 h).trans ?_)
      rw [if_pos rfl, State.release, if_neg hout]
    · refine congrArg Host.Outcome.next ((State.onQueue_room hroom).trans ((State.withOps_ready hr).trans ?_))
      obtain ⟨h1, h2, h3⟩ := accrd_fields w
      simp only [State.vals_singleton, ← show w = (s.src a).toNat from rfl, h1, h2, h3, State.enqueue_self]
      rfl
    · refine congrArg Host.Outcome.next ((State.onQueue_room hroom).trans ((State.withOps_ready hr).trans ?_))
      obtain ⟨h1, h2, h3⟩ := accrd_fields w
      simp only [State.vals_singleton, ← show w = (s.src a).toNat from rfl, h1, h2, h3, henter]
  · intro o w wf af ha hl
    exact execNeteval_inside hroom hr (State.LsClean.of_empty hfa hpo) rfl rfl rfl ha hl

end Sys2Proof.Machine
/-! SUPPORT. Tile steps, drains, freezes, and the saving of the matrix unit. -/

namespace Sys2Proof.Machine

open Sys2Proof

/-! ### Tiles of the partition (R170) -/

/-- A table written at keys in turn holds at each of them what was written there, where equal keys get equal values. -/
theorem tget_tsetAll {α : Type} [DecidableEq α] {d : α} {key : Nat → Nat} {v : Nat → α} {l : List Nat} {k : Nat}
    (hkey : ∀ i ∈ l, key i = key k → v i = v k) (m : Tab α) (h : k ∈ l ∨ tget d m (key k) = v k) :
    tget d (l.foldl (fun m i => tset d m (key i) (v i)) m) (key k) = v k := by
  induction l generalizing m with
  | nil => exact h.resolve_left (List.not_mem_nil)
  | cons i l ih =>
    refine ih (fun j hj => hkey j (List.mem_cons_of_mem _ hj)) _ ?_
    by_cases hi : key k = key i
    · right
      rw [tget_tset, if_pos hi]
      exact hkey i List.mem_cons_self hi.symm
    · refine (h.imp_left fun hm => (List.mem_cons.1 hm).resolve_left fun he => hi (by rw [he])).imp_right fun hm => ?_
      rw [tget_tset, if_neg hi, hm]

section
variable {s u : State} {core : Nat} {e : MEnt}

theorem Core.accTile_acc (c : Core) (tile : Nat) (f : Nat → Nat → BitVec 32) : (c.accTile tile f).acc =
    (List.range 1024).foldl (fun m k => tset 0 m (accKey tile (k / 32) (k % 32)) (f (k / 32) (k % 32))) c.acc := by
  have hfold : ∀ (l : List Nat) (c : Core),
      (l.foldl (fun c k => c.accSet tile (k / 32) (k % 32) (f (k / 32) (k % 32))) c).acc =
        l.foldl (fun m k => tset 0 m (accKey tile (k / 32) (k % 32)) (f (k / 32) (k % 32))) c.acc := by
    intro l
    induction l with
    | nil => exact fun _ => rfl
    | cons k l ih => exact fun c => ih _
  unfold Core.accTile
  rw [hfold]
  rfl

theorem Core.accGet_accTile (c : Core) (tile : Nat) (f : Nat → Nat → BitVec 32) {i j : Nat} (hi : i < 32) (hj : j < 32) :
    (c.accTile tile f).accGet tile i j = f i j := by
  have hk : (32 * i + j) / 32 = i ∧ (32 * i + j) % 32 = j := by omega
  have h := tget_tsetAll (d := (0 : BitVec 32)) (key := fun k => accKey tile (k / 32) (k % 32)) (v := fun k => f (k / 32) (k % 32))
    (l := List.range 1024) (k := 32 * i + j)
    (fun k _ hkk => by
      have : k = 32 * i + j := by simp only [accKey] at hkk; omega
      rw [this]) c.acc (.inl (List.mem_range.2 (by omega)))
  rw [Core.accGet, Core.accTile_acc]
  simpa only [hk.1, hk.2] using h

theorem Core.accGet_setEnt (c : Core) (x y : MEnt) (t i j : Nat) : (c.setEnt x y).accGet t i j = c.accGet t i j := rfl

theorem Core.accGet_maskErr (c : Core) (x : Bool) (t i j : Nat) :
    ({ c with mqMaskErr := x } : Core).accGet t i j = c.accGet t i j := rfl

/-- A row of sixteen accumulators, lane by lane. -/
theorem Core.laneOf_accRow (c : Core) (t row half : Nat) {l : Nat} (hl : l < 16) :
    laneOf 32 (c.accRow t row half) l = (c.accGet t row (16 * half + l)).toNat := by
  have hget : ((List.range 16).map fun l => (c.accGet t row (16 * half + l)).toNat).getD l 0 =
      (c.accGet t row (16 * half + l)).toNat := by
    rw [List.getD_eq_getElem?_getD, List.getElem?_map, List.getElem?_range hl]
    rfl
  rw [laneOf, Core.accRow, fieldAt_ofNat _ (lane_fits (z := 32) (by omega)), packLanes_field, hget]
  exact Nat.mod_eq_of_lt (BitVec.isLt _)

/-! ### What a step reads (R190, R201, 24_device R386) -/

/-- The stores and the partition of every core are as they were, and what injection and poison say of them. -/
structure SameParts (s u : State) : Prop where
  ls : ∀ k, (u.core k).ls = (s.core k).ls
  lsPoison : ∀ k, (u.core k).lsPoison = (s.core k).lsPoison
  errs : ∀ k, (u.core k).errs = (s.core k).errs
  acc : ∀ k, (u.core k).acc = (s.core k).acc
  accPoison : ∀ k, (u.core k).accPoison = (s.core k).accPoison
  spill : ∀ k, (u.core k).spill = (s.core k).spill

theorem SameParts.of_setCore {c : Core} (hls : c.ls = (s.core core).ls) (hlsp : c.lsPoison = (s.core core).lsPoison)
    (herr : c.errs = (s.core core).errs) (hacc : c.acc = (s.core core).acc) (haccp : c.accPoison = (s.core core).accPoison)
    (hsp : c.spill = (s.core core).spill) : SameParts s (s.setCore core c) := by
  have h : ∀ k, (s.setCore core c).core k = if k = core then c else s.core k := fun k => tget_tput ..
  constructor <;> intro k <;> rw [h] <;> split <;> simp_all

theorem SameParts.trans {v : State} (h : SameParts s u) (h' : SameParts u v) : SameParts s v where
  ls k := (h'.ls k).trans (h.ls k)
  lsPoison k := (h'.lsPoison k).trans (h.lsPoison k)
  errs k := (h'.errs k).trans (h.errs k)
  acc k := (h'.acc k).trans (h.acc k)
  accPoison k := (h'.accPoison k).trans (h.accPoison k)
  spill k := (h'.spill k).trans (h.spill k)

theorem SameParts.of_cores (h : u.cores = s.cores) : SameParts s u := by
  have h : ∀ k, u.core k = s.core k := fun k => by simp only [State.core, h]
  constructor <;> intro k <;> rw [h]

theorem OnlyMem.coreField {α : Type} (h : OnlyMem s u) (k : Nat) (g : Core → α) (hg : ∀ c p, g { c with path := p } = g c) :
    g (u.core k) = g (s.core k) := (hg _ _).symm.trans (congrArg g (h.core k))

theorem SameParts.of_onlyMem (h : OnlyMem s u) : SameParts s u where
  ls k := h.coreField k Core.ls fun _ _ => rfl
  lsPoison k := h.coreField k Core.lsPoison fun _ _ => rfl
  errs k := h.coreField k Core.errs fun _ _ => rfl
  acc k := h.coreField k Core.acc fun _ _ => rfl
  accPoison k := h.coreField k Core.accPoison fun _ _ => rfl
  spill k := h.coreField k Core.spill fun _ _ => rfl

theorem sameParts_changeSaved (key t : Nat) (f : Thread → Thread) : SameParts s (s.changeSaved key t f) := by
  unfold State.changeSaved
  cases tfind s.groups key with
  | none => exact .of_cores rfl
  | some g =>
    dsimp only
    split
    · exact .of_cores rfl
    · refine .trans ?_ (.of_onlyMem (onlyMem_memPut ..))
      refine .trans ?_ (.of_onlyMem (onlyMem_memPut ..))
      refine .trans ?_ (.of_onlyMem (onlyMem_memPut ..))
      exact .of_cores rfl

theorem sameParts_modOwner (o : Owner) (f : Thread → Thread) : SameParts s (s.modOwner o f).1 := by
  unfold State.modOwner
  dsimp only
  split
  · exact .of_cores rfl
  · cases s.groups.find? fun e => decide (e.2.st = .saved) &&
        e.2.save.threads.any fun x => decide (x.1 = o.thr) && decide (x.2.inc = o.inc) && decide (x.2.st ≠ .free) with
    | none => exact .of_cores rfl
    | some x => exact sameParts_changeSaved ..

theorem arrayTouch_clean {array ctx : Nat} {p : Nat → Bool} (h : (s.core core).errs.faults = []) :
    s.arrayTouch core array p ctx = s := by
  rw [State.arrayTouch, h]
  rfl

/-- An entry of a core nothing is injected in is read. -/
theorem sameParts_queueRead (hf : (s.core core).errs.faults = []) (hs : (s.core core).spill = []) :
    SameParts s (s.queueRead core e) := by
  simp only [State.queueRead, arrayTouch_clean hf, hs, if_true]
  split
  · exact .of_cores rfl
  · refine .trans ?_ (sameParts_modOwner _ _)
    exact .of_setCore rfl rfl rfl rfl rfl hs.symm

theorem SameParts.sliceTerms (h : SameParts s u) (a b : Operand) (i j sl : Nat) :
    u.sliceTerms a b i j sl = s.sliceTerms a b i j sl := by
  have hread : u.lsRead = s.lsRead := by
    funext c o n
    simp only [State.lsRead, lsGet, h.ls]
  simp only [State.sliceTerms, State.element, State.scaleOf, State.maskOf, hread]

/-- Setting a tile to zero. -/
theorem accGet_entryStep_mzero {t i j : Nat} (ho : e.op = .mzero t) (hi : i < 32) (hj : j < 32) :
    ((s.entryStep core e).core core).accGet t i j = 0 := by
  obtain ⟨q, hq⟩ : ∃ q : State, s.entryStep core e =
      (q.setCore core ((q.core core).accTile t fun _ _ => 0)).setCore core
        (((q.setCore core ((q.core core).accTile t fun _ _ => 0)).core core).setEnt e { e with steps := e.steps + 1 }) :=
    ⟨(s.queueRead core e).setCore core { (s.queueRead core e).core core with partCtx := some e.owner.ctx },
      by simp only [State.entryStep, ho]⟩
  rw [hq, State.core_setCore_same, State.core_setCore_same, Core.accGet_setEnt, Core.accGet_accTile _ _ _ hi hj]

/-- A step of an MMA where nothing is injected, poisoned or spilled: `q` is what it reads of. -/
theorem entryStep_mma {t : Nat} {z : Bool} {a b : Operand} (ho : e.op = .mma t z a b) {q : State}
    (hq : (s.queueRead core e).setCore core { (s.queueRead core e).core core with partCtx := some e.owner.ctx } = q)
    (hown : (q.core core).errs.faults = []) (ha : q.LsClean a.core) (hb : q.LsClean b.core)
    (hacc : (q.core core).accPoison = []) (hsp : (q.core core).spill = []) :
    s.entryStep core e = ((q.mmaStep q core e t z a b).replayDone core).setCore core
      ((((q.mmaStep q core e t z a b).replayDone core).core core).setEnt e { e with steps := e.steps + 1 }) := by
  have hview : ∀ l, q.replayed core l = q := fun l => by rw [State.replayed, hsp]; rfl
  have hpoison : ∀ o : Operand, q.LsClean o.core → q.operandPoison o = none := fun o ho => by
    rw [State.operandPoison, ho.poisoned]
    rfl
  have hbad : (q.core core).accBad t 0 32 = false := by rw [Core.accBad, hacc]; rfl
  simp only [State.entryStep, ho, hq, State.accTouch, arrayTouch_clean hown, ha.lsTouch, hb.lsTouch, hpoison a ha, hpoison b hb,
    hbad, Bool.false_eq_true, if_false, ite_self, Option.or_none, hview]

theorem State.accGet_mmaStep {q v : State} {t i j : Nat} {z : Bool} {a b : Operand} (hi : i < 32) (hj : j < 32) :
    ((q.mmaStep v core e t z a b).core core).accGet t i j =
      ((List.range (min 8 (a.k - 8 * e.steps))).map (8 * e.steps + ·)).foldl
        (fun x sl => sliceSum (val32 x) (v.sliceTerms a b i j sl))
        (if z && decide (e.steps = 0) then 0 else (q.core core).accGet t i j) := by
  rw [State.mmaStep, State.core_setCore_same, Core.accGet_maskErr, Core.accGet_accTile _ _ _ hi hj]

theorem accGet_entryStep_mma {t i j : Nat} {z : Bool} {a b : Operand} (ho : e.op = .mma t z a b)
    (hown : (s.core core).errs.faults = []) (hsp : (s.core core).spill = []) (hacc : (s.core core).accPoison = [])
    (haf : (s.core a.core).errs.faults = []) (hbf : (s.core b.core).errs.faults = [])
    (hap : (s.core a.core).lsPoison = []) (hbp : (s.core b.core).lsPoison = []) (hi : i < 32) (hj : j < 32) :
    ((s.entryStep core e).core core).accGet t i j =
      ((List.range (min 8 (a.k - 8 * e.steps))).map (8 * e.steps + ·)).foldl
        (fun x sl => sliceSum (val32 x) (s.sliceTerms a b i j sl)) (if z ∧ e.steps = 0 then 0 else (s.core core).accGet t i j) := by
  generalize hq : (s.queueRead core e).setCore core { (s.queueRead core e).core core with partCtx := some e.owner.ctx } = q
  have hsame : SameParts s q := by
    subst hq
    exact (sameParts_queueRead hown hsp).trans (.of_setCore rfl rfl rfl rfl rfl rfl)
  have hclean : ∀ k, (s.core k).errs.faults = [] → (s.core k).lsPoison = [] → q.LsClean k := fun k hf hp =>
    State.LsClean.of_empty (by rw [hsame.errs, hf]) (by rw [hsame.lsPoison, hp])
  have hget : (q.core core).accGet t i j = (s.core core).accGet t i j := by rw [Core.accGet, hsame.acc, Core.accGet]
  have hz : (z && decide (e.steps = 0)) = decide (z = true ∧ e.steps = 0) := by simp
  rw [entryStep_mma ho hq (by rw [hsame.errs, hown]) (hclean _ haf hap) (hclean _ hbf hbp) (by rw [hsame.accPoison, hacc])
    (by rw [hsame.spill, hsp]), State.core_setCore_same, Core.accGet_setEnt]
  have hrep : ∀ w : State, ((w.replayDone core).core core).accGet t i j = (w.core core).accGet t i j := fun w => by
    have : ∀ f, ({ w.setCore core { w.core core with spill := [] } with free := f } : State).core core =
        { w.core core with spill := [] } := fun f => State.core_setCore_same w core _
    rw [State.replayDone, this]
    rfl
  rw [hrep, State.accGet_mmaStep hi hj]
  simp only [hget, hsame.sliceTerms, hz, decide_eq_true_eq]

end
end Sys2Proof.Machine
namespace Sys2Proof.Machine

open Sys2Proof

section
variable {s : State} {core : Nat} {e : MEnt}

/-! ### Save and restore (R200, R201) -/

/-- Writes of an array's places change what injection and poison say of the core, and nothing else. -/
theorem Core.foldl_wrote {α : Type} (l : List α) (array : Nat) (hit : α → Nat → Bool) (key : α → Nat) (c : Core) :
    ∃ errs bad, l.foldl (fun c x => c.wrote array (hit x) (key x)) c = { c with errs := errs, bad := bad } := by
  induction l generalizing c with
  | nil => exact ⟨_, _, rfl⟩
  | cons x l ih =>
    obtain ⟨errs, bad, h⟩ := ih (c.wrote array (hit x) (key x))
    exact ⟨errs, bad, h⟩

theorem Core.putEntries_eq (c : Core) (q : List MEnt) :
    ∃ errs bad, c.putEntries q = { c with mq := q ++ c.mq, errs := errs, bad := bad } := by
  obtain ⟨errs, bad, h⟩ := Core.foldl_wrote q 7 (fun e k => decide (k = e.key)) (fun e => e.key) c
  exact ⟨errs, bad, by rw [Core.putEntries, h]⟩

theorem Core.putSpill_eq (c : Core) (l : List (BitVec 1024)) :
    ∃ errs bad, c.putSpill l = { c with spill := l ++ c.spill, errs := errs, bad := bad } := by
  obtain ⟨errs, bad, h⟩ := Core.foldl_wrote (List.range l.length) 6 (fun k x => decide (x = k)) id c
  refine ⟨errs, bad, ?_⟩
  rw [Core.putSpill]
  exact congrArg (fun x : Core => { x with spill := l ++ c.spill }) h

/-- The first `n` accumulators of a partition as a save area holds them (R200). -/
def partOf (bs : List (BitVec 8)) (n : Nat) : Tab (BitVec 32) :=
  (List.range n).foldl (fun m k =>
    tset (0 : BitVec 32) m (accKey (k / 32 % 8) (k / 256) (k % 32)) (BitVec.ofNat 32 (ofBytes ((bs.drop (0x2240 + 4 * k)).take 4)))) []

/-- The place of an accumulator in the area gives its key back. -/
theorem accKey_place {k t row col : Nat} (hk : k < 8192) (ht : t < 8) (hrow : row < 32) (hcol : col < 32) :
    accKey (k / 32 % 8) (k / 256) (k % 32) = accKey t row col ↔ k = 256 * row + 32 * t + col := by
  simp only [accKey]
  constructor
  · intro h
    have hcol' : k % 32 = col := by omega
    have hrow' : k / 256 = row := by omega
    omega
  · intro h
    omega

theorem tget_partOf (bs : List (BitVec 8)) {n t row col : Nat} (hn : n ≤ 8192) (ht : t < 8) (hrow : row < 32) (hcol : col < 32)
    (hk : 256 * row + 32 * t + col < n) : (tget 0 (partOf bs n) (t * 1024 + row * 32 + col)).toNat =
      ofBytes ((bs.drop (0x2240 + 4 * (256 * row + 32 * t + col))).take 4) := by
  have hkey := (accKey_place (hk.trans_le hn) ht hrow hcol).2 rfl
  have h := tget_tsetAll (d := (0 : BitVec 32)) (key := fun k => accKey (k / 32 % 8) (k / 256) (k % 32))
    (v := fun k => BitVec.ofNat 32 (ofBytes ((bs.drop (0x2240 + 4 * k)).take 4)))
    (l := List.range n) (k := 256 * row + 32 * t + col)
    (fun k hk' hkk => by
      rw [hkey, accKey_place ((List.mem_range.1 hk').trans_le hn) ht hrow hcol] at hkk
      rw [hkk]) [] (.inl (List.mem_range.2 hk))
  rw [hkey] at h
  rw [partOf, show t * 1024 + row * 32 + col = accKey t row col from rfl, h, BitVec.toNat_ofNat]
  refine Nat.mod_eq_of_lt ((ofBytes_lt _).trans_le ?_)
  exact (Nat.pow_le_pow_right (by decide) (List.length_take_le ..)).trans (by decide)

theorem onArea_places {r : AReg} {k : Kind} {go : State → List AreaPart → State} {u : State} {va : Nat} {l : List AreaPart}
    (ha : (s.cur.readA r).toNat % 256 = 0)
    (hp : s.areaPlaces s.iss.thr k (pageParts (s.cur.readA r).toNat 41536) = (u, .ok [] none, va, l)) :
    s.onArea k r go = go u l := by
  rw [State.onArea]
  rw [if_neg (not_not_intro ha)]
  generalize pageParts (s.cur.readA r).toNat 41536 = ps at hp ⊢
  rw [hp]
  rfl

theorem execMrstr_restores {r : AReg} {u : State} {va : Nat} {l : List AreaPart} {x : State} {bs : List (BitVec 8)}
    (hsys : s.cur.tstate.getLsbD 2 = true) (ha : (s.cur.readA r).toNat % 256 = 0)
    (hp : s.areaPlaces s.iss.thr .load (pageParts (s.cur.readA r).toNat 41536) = (u, .ok [] none, va, l))
    (hclean : u.placesPoisoned l = false) (hx : x = u.tookParts u.iss.thr l) (hbs : bs = u.getParts l) {head : Nat}
    (hhead : ofBytes (bs.take 64) = head) :
    (bits head 63 0 ≠ 1 → execMrstr r s = .next (x.trap { cause := 12, tval := 1 })) ∧
    (bits head 63 0 = 1 → bits head 68 64 ≤ 16 → bits head 78 72 ≤ 64 → bits head 71 69 = 0 → bits head 127 79 = 0 →
      let image := tget {} x.dev.images (ofBytes ((bs.drop 64).take 8))
      ∃ errs bad, execMrstr r s = .next ((x.setCore x.curCore { x.core x.curCore with
        mq := ((x.core x.curCore).mq.filter fun e => e.acked) ++ image.ents, spill := image.spill, acc := partOf bs 8192
        errs := errs, bad := bad, accPoison := [], partCtx := some x.cur.ctx, mqStop := false, mqFrozen := false
        mqSaved := false }).commit [] [] [] (.ready x.cycle))) := by
  have hrun : ∀ {v}, _ = v → execMrstr r s = .next v := fun hv =>
    congrArg Host.Outcome.next (((State.system_sys _ hsys).trans (onArea_places ha hp)).trans hv)
  refine ⟨fun hver => hrun ?_, fun hver hq hs hz hz' => ?_⟩
  · simp only [hclean, Bool.false_eq_true, if_false, ← hbs, ← hx, hhead, hver, ne_eq, not_false_eq_true, true_or, if_true]
    rfl
  · intro image
    obtain ⟨errs, bad, h⟩ := Core.putEntries_eq { x.core x.curCore with mq := [], spill := [] }
      (((x.core x.curCore).mq.filter fun e => e.acked) ++ image.ents)
    obtain ⟨errs', bad', h'⟩ := Core.putSpill_eq { x.core x.curCore with
      mq := ((x.core x.curCore).mq.filter fun e => e.acked) ++ image.ents, spill := [], errs := errs, bad := bad } image.spill
    refine ⟨errs'.wrote 8 (fun _ => true) 0, bad', hrun ?_⟩
    have hrange : ¬(bits head 63 0 ≠ 1 ∨ 16 < bits head 68 64 ∨ 64 < bits head 78 72 ∨ bits head 127 79 ≠ 0 ∨
        bits head 71 69 ≠ 0) := by omega
    simp only [hclean, Bool.false_eq_true, if_false, ← hbs, ← hx, hhead, if_neg hrange]
    simp only [List.append_nil] at h h'
    rw [h, h', partOf]
    generalize List.foldl _ _ (List.range 8192) = acc
    rfl

end

/-- Settles O36: each step by the condition it is taken under. -/
theorem matrixSteps : Obligations.MatrixSteps := by
  unfold Obligations.MatrixSteps
  intro s clu core k left data r
  refine ⟨fun hn hidle => ?_, fun hn hidle e hh => ?_, fun e hh htot => ?_, fun e he => ?_, fun e t d f w he ho => ?_,
    fun pre e rest n hq hpre hn => ?_, fun hask hfr hst => ?_, fun hask hfr hsv => ?_, fun hfr hl hm => ?_,
    fun hsys ha u va l => ⟨fun hp => ?_, fun hp hclean x bs hx hbs => ?_⟩⟩
  · refine congrArg Host.Outcome.next ?_
    simp only [hn]
    exact if_pos hidle
  · intro own u
    have hu : SameParts s u := by
      refine SameParts.trans (u := s.setClu clu
        { s.clu clu with mcore := k, mleft := left, mphase := ((s.clu clu).mphase + 1) % 8, midle := 0 })
        (.of_cores rfl) ?_
      exact .of_setCore rfl rfl rfl rfl rfl rfl
    refine ⟨congrArg Host.Outcome.next ?_, fun t ho i j hi hj => accGet_entryStep_mzero ho hi hj,
      fun t z a b ho haf hbf hap hbp hown hacc hsp i j hi hj => ?_⟩
    · simp only [hn]
      rw [if_neg (Nat.not_lt.2 hidle)]
      have hmq : (u.core (clu * 8 + k)).mqHead = some e := by
        rw [State.core_setCore_same]
        exact hh
      generalize hm : (State.core _ _).mqHead = o
      obtain rfl : o = some e := hm.symm.trans hmq
      rfl
    · rw [accGet_entryStep_mma ho (by rw [hu.errs]; exact hown) (by rw [hu.spill]; exact hsp) (by rw [hu.accPoison]; exact hacc)
        (by rw [hu.errs, haf]) (by rw [hu.errs, hbf]) (by rw [hu.lsPoison, hap]) (by rw [hu.lsPoison, hbp]) hi hj]
      simp only [hu.sliceTerms, Core.accGet, hu.acc]
  · intro u
    refine ⟨fun x hx hr => congrArg Host.Outcome.next ?_, fun hx hst hinc => congrArg Host.Outcome.next ?_,
      fun t row half d ho => ?_⟩
    · simp only [hh]
      rw [if_neg (Nat.not_lt.2 htot), hx, hr]
      rfl
    · simp only [hh]
      rw [if_neg (Nat.not_lt.2 htot), hx]
      exact congrArg Prod.fst (State.modOwner_running (s := u) _ hst hinc)
    · exact ⟨_, by rw [ho]; rfl, fun l hl => Core.laneOf_accRow _ _ _ _ hl⟩
  · refine congrArg Host.Outcome.next ?_
    simp only [he]
  · intro u pc
    have hslot : ∀ q, decide (∃ x ∈ (s.core (drainCore d core)).spawnQ, x.owner.ctx = e.owner.ctx) = q →
        ((s.core (drainCore d core)).spawnQ.any fun x => decide (x.owner.ctx = e.owner.ctx)) = q := by
      rintro q rfl
      rw [List.any_eq]
      simp only [decide_eq_true_eq]
    refine ⟨fun hf => congrArg Host.Outcome.next ?_, fun hf => ⟨fun hpc => congrArg Host.Outcome.next ?_, ?_⟩⟩
    · simp only [he, ho, hf, Bool.not_true, Bool.false_eq_true, false_and, and_false, if_false, if_true]
      rfl
    · simp only [he, ho, hf, ← show pc = tget 0 (s.ctx e.owner.ctx).handlers (bits d.toNat 54 52) from rfl, hpc, ne_eq,
        not_true_eq_false, false_and, Bool.false_eq_true, if_false, if_true]
      rfl
    · intro tgt args queued
      have hmq : ∀ k, (u.core k).spawnQ = (s.core k).spawnQ := fun k => by
        by_cases hk : k = core
        · subst hk
          exact (congrArg Core.spawnQ (State.core_setCore_same s k _)).trans rfl
        · exact congrArg Core.spawnQ (State.core_setCore_other _ _ hk)
      refine ⟨fun n hpc hq hn => congrArg Host.Outcome.next ?_, fun hpc hlen hor => congrArg Host.Outcome.next ?_⟩ <;>
        simp only [he, ho, hf, ← show pc = tget 0 (s.ctx e.owner.ctx).handlers (bits d.toNat 54 52) from rfl, hpc, ne_eq,
          not_false_eq_true, Bool.not_false, true_and, Bool.false_eq_true, if_false] <;>
        generalize hs : (if List.any _ _ = true then none else State.wakeSlot _ _ _) = slot
      · obtain rfl : slot = some n := hs.symm.trans ((if_neg (by rw [hslot false (decide_eq_false hq)]; decide)).trans hn)
        simp only [reduceCtorEq, false_and, if_false]
        rfl
      · obtain rfl : slot = none := by
          by_cases hq : queued
          · exact hs.symm.trans (if_pos (hslot true (decide_eq_true hq)))
          · exact hs.symm.trans ((if_neg (by rw [hslot false (decide_eq_false hq)]; decide)).trans (hor.resolve_left hq))
        rw [if_neg fun h => Nat.not_le.2 hlen h.2, ← hmq]
  · have hfind : (s.core core).spawnQ.find? (fun e => (s.wakeSlot core e.owner.ctx).isSome) = some e := by
      rw [hq, List.find?_append, List.find?_eq_none.2 fun x hx => by simp [hpre x hx]]
      simp [hn]
    have herase : (s.core core).spawnQ.erase e = pre ++ rest := by
      rw [hq, List.erase_append_right, List.erase_cons_head]
      exact fun hm => by simp [hpre e hm] at hn
    refine congrArg Host.Outcome.next ?_
    simp only [hfind, hn, herase]
  · refine congrArg Host.Outcome.next (if_pos ?_)
    simp [hask, hfr, hst]
  · refine congrArg Host.Outcome.next ((if_neg ?_).trans (if_pos ?_)) <;> simp [hask, hfr, hsv]
  · exact congrArg Host.Outcome.next (if_pos ⟨hfr, hl, hm⟩)
  · intro x
    exact congrArg Host.Outcome.next ((State.system_sys _ hsys).trans (onArea_places ha hp))
  · intro head
    obtain ⟨hver, hgo⟩ := execMrstr_restores hsys ha hp hclean hx hbs (head := head) rfl
    refine ⟨hver, fun h1 h2 h3 h4 h5 => ?_⟩
    intro image
    obtain ⟨errs, bad, h⟩ := hgo h1 h2 h3 h4 h5
    exact ⟨partOf bs 8192, errs, bad, h, fun t row col ht hrow hcol => tget_partOf bs le_rfl ht hrow hcol (by omega)⟩

end Sys2Proof.Machine

/-! SUPPORT. Tags, publications, and the pushes of threads (15_kernel R264 to R282, 19_queue R323 to R330). -/

namespace Sys2Proof.Machine

open Sys2Proof

section
variable {s u v : State} {a b d : SReg}

/-- Waiting for the stores of a thread changes cores alone. -/
theorem State.ackAll_eq (s : State) (t : Nat) : ∃ cs, s.ackAll t = { s with cores := cs } := by
  unfold State.ackAll
  dsimp only
  split
  · exact ⟨s.cores, rfl⟩
  · exact ⟨_, rfl⟩

theorem ackAll_field {α : Type} (g : State → α) (hg : ∀ (u : State) cs, g { u with cores := cs } = g u) (t : Nat) :
    g (s.ackAll t) = g s := by
  obtain ⟨cs, h⟩ := s.ackAll_eq t
  rw [h, hg]

theorem State.LsClean.ackAll {c : Nat} (h : s.LsClean c) (t : Nat) : (s.ackAll t).LsClean c where
  faults := faultsInL1_ackAll h.faults t
  poison := by rw [(sameDevice_ackAll s t).lsPoison, h.poison]

/-! ### TAGPUB (R276 to R280) -/

theorem readTag_sound {id tile : Nat} {k : State → State} (h : ∀ e, s.tag? s.cur.ctx id tile = some e → e.bad = false) :
    s.readTag id tile k = k s := by
  unfold State.readTag
  cases hf : s.tag? s.cur.ctx id tile with
  | none => rfl
  | some e => exact if_neg (by simp [h e hf])

/-- A TAGPUB of a task of a kernel, up to the checks of its output. -/
theorem execTagpub_none (hr : s.Ready [a, b] none) {ser g : Nat} (hg : s.cur.grp = some (ser, g)) (h7 : slotOf s.iss.thr ≠ 7)
    (ho : (s.kernel ser).outputs[(s.src a).toNat % 4]? = none) :
    execTagpub a b s = .next (s.trap { cause := 12, tval := 44 + 768 }) := by
  refine next_withOps hr ?_
  have hout : bits (s.src a).toNat 1 0 = (s.src a).toNat % 4 := by simp [bits]
  simp only [(vals_pair s a b).1, hg, if_neg h7, hout, ho]
  rfl

section
variable {ser g : Nat} {o : Decl} (hr : s.Ready [a, b] none) (hg : s.cur.grp = some (ser, g)) (h7 : slotOf s.iss.thr ≠ 7)
  (ho : (s.kernel ser).outputs[(s.src a).toNat % 4]? = some o)
include hr hg h7 ho

theorem execTagpub_poisoned (hs : ¬(farHome o.pa = true ∨ s.memPoisoned (o.pa + 16) 4 = false)) :
    execTagpub a b s = .next (s.trap (eccMem o.va)) := by
  refine next_withOps hr ?_
  have hout : bits (s.src a).toNat 1 0 = (s.src a).toNat % 4 := by simp [bits]
  obtain ⟨hnear, hbad⟩ := not_or.1 hs
  simp only [(vals_pair s a b).1, hg, if_neg h7, hout, ho, (Bool.not_eq_true _).mp hnear, (Bool.not_eq_false _).mp hbad,
    Bool.not_false, and_self, if_true]

theorem execTagpub_outside (hs : farHome o.pa = true ∨ s.memPoisoned (o.pa + 16) 4 = false)
    (ht : s.bufTiles o.pa ≤ (s.src b).toNat % 2 ^ 24) : execTagpub a b s = .next (s.trap { cause := 12, tval := 45 + 768 }) := by
  refine next_withOps hr ?_
  have hout : bits (s.src a).toNat 1 0 = (s.src a).toNat % 4 := by simp [bits]
  have htile : bits (s.src b).toNat 23 0 = (s.src b).toNat % 2 ^ 24 := by simp [bits]
  have hsound : ¬((!farHome o.pa) = true ∧ s.memPoisoned (o.pa + 16) 4 = true) := by
    rcases hs with h | h <;> simp [h]
  simp only [(vals_pair s a b).1, (vals_pair s a b).2, hg, if_neg h7, hout, htile, ho, if_neg hsound, if_pos ht]
  rfl

/-- The publication of a TAGPUB whose output and tile are in range. -/
theorem execTagpub_inside (hs : farHome o.pa = true ∨ s.memPoisoned (o.pa + 16) 4 = false) {tile : Nat}
    (htile : (s.src b).toNat % 2 ^ 24 = tile) (ht : tile < s.bufTiles o.pa) :
    (s.cur.remOut ≠ [] → execTagpub a b s = .next s) ∧
    (s.cur.remOut = [] → (∀ e, s.tag? s.cur.ctx o.id tile = some e → e.bad = false) → ∀ {p : HeldPub},
      p = { num := s.births, ctx := s.cur.ctx, vf := s.cur.vf, ser := ser, id := o.id, pa := o.pa, va := o.va, tile := tile
            gen := o.gen } →
      ((s.ackAll s.iss.thr).publishInTurn p = .applied u → execTagpub a b s = .next (u.retire [a, b])) ∧
      ((s.ackAll s.iss.thr).publishInTurn p = .held → execTagpub a b s = .next (
        if 64 ≤ (s.clu (cluOf s.iss.thr)).held.length then s
        else (({ s.ackAll s.iss.thr with births := s.births + 1 } : State).setClu (cluOf s.iss.thr)
          { s.clu (cluOf s.iss.thr) with held := (s.clu (cluOf s.iss.thr)).held ++ [p] }).retire [a, b]))) := by
  have hout : bits (s.src a).toNat 1 0 = (s.src a).toNat % 4 := by simp [bits]
  have htile' : bits (s.src b).toNat 23 0 = tile := by simpa [bits] using htile
  have hsound : ¬((!farHome o.pa) = true ∧ s.memPoisoned (o.pa + 16) 4 = true) := by
    rcases hs with h | h <;> simp [h]
  refine ⟨fun hout' => next_withOps hr ?_, fun hout' htag p hp => ?_⟩
  · simp only [(vals_pair s a b).1, (vals_pair s a b).2, hg, if_neg h7, hout, htile', ho, if_neg hsound, if_neg (Nat.not_le.2 ht),
      State.release, if_neg hout']
  · have htag' : ∀ e, (s.ackAll s.iss.thr).tag? (s.ackAll s.iss.thr).cur.ctx o.id tile = some e → e.bad = false := by
      rw [State.ackAll_cur]
      intro e he
      exact htag e ((congrFun (congrFun (congrFun (ackAll_field State.tag? (fun _ _ => rfl) _) _) _) _).symm.trans he)
    refine ⟨fun hpub => next_withOps hr ?_, fun hpub => next_withOps hr ?_⟩ <;>
      simp only [(vals_pair s a b).1, (vals_pair s a b).2, hg, if_neg h7, hout, htile', ho, if_neg hsound, if_neg (Nat.not_le.2 ht),
        State.release_clear hout', readTag_sound htag', ite_self, State.ackAll_iss, State.ackAll_cur,
        ackAll_field State.births (fun _ _ => rfl) s.iss.thr, ← hp, hpub]
    have hclu : (s.ackAll s.iss.thr).clu = s.clu := ackAll_field State.clu (fun _ _ => rfl) _
    rw [hclu]

end

/-! ### Publications (R276 to R278) -/

theorem publish_new {p : HeldPub} (hf : s.dev.fallen.contains (p.pa, p.gen) = false) (ht : s.tag? p.ctx p.id p.tile = none)
    (hroom : s.tagRoom p.vf (p.ctx, p.id, p.tile) = some u) :
    s.publish p = .applied ({ u with tags := u.tags ++ [{ ctx := p.ctx, id := p.id, tile := p.tile, vf := p.vf, gen := p.gen
                                                          ready := true, pending := 0, pa := p.pa }] } : State).reeval := by
  simp only [State.publish, hf, Bool.false_eq_true, if_false, ht, hroom]

theorem publish_known {p : HeldPub} {e : TagEnt} (hf : s.dev.fallen.contains (p.pa, p.gen) = false)
    (ht : s.tag? p.ctx p.id p.tile = some e) {n : Nat} (hn : (p.gen - e.gen).toNat = n) :
    (n = 0 → s.publish p = .applied ((s.modTag p.ctx p.id p.tile fun e => some { e with ready := true }).reeval)) ∧
    (1 ≤ n → n ≤ 2 ^ 31 → e.ready = true → e.pending = 0 →
      s.publish p = .applied ((s.modTag p.ctx p.id p.tile fun e => some { e with gen := p.gen, bad := false }).reeval)) ∧
    (1 ≤ n → n ≤ 2 ^ 31 → (e.ready = false ∨ e.pending ≠ 0) → s.publish p = .held) ∧
    (2 ^ 31 < n → s.publish p = .applied (s.markFault p.ser 9 (BitVec.ofNat 64 p.va))) := by
  have hzero : n = 0 ↔ p.gen = e.gen := by
    rw [← hn]
    constructor
    · intro h
      have h' : p.gen - e.gen = 0 := BitVec.eq_of_toNat_eq h
      simpa [BitVec.sub_eq_iff_eq_add] using h'
    · rintro h
      simp [h]
  have hnewer : newer p.gen e.gen = decide (1 ≤ n ∧ n ≤ 2 ^ 31) := by simp [newer, hn]
  simp only [State.publish, hf, Bool.false_eq_true, if_false, ht, ← hzero, hnewer, decide_eq_true_eq]
  refine ⟨fun h => if_pos h, fun h1 h2 hr hp => ?_, fun h1 h2 h => ?_, fun h => ?_⟩
  · rw [if_neg (by omega), if_pos ⟨h1, h2⟩, if_pos ⟨hr, hp⟩]
  · rw [if_neg (by omega), if_pos ⟨h1, h2⟩, if_neg (by rintro ⟨hr, hp⟩; simp [hr, hp] at h)]
  · rw [if_neg (by omega), if_neg (by omega)]

end
end Sys2Proof.Machine
namespace Sys2Proof.Machine

open Sys2Proof

section
variable {s u v : State} {a b d : SReg}

/-! ### TAGWAIT and TAGQRY (R281, R282) -/

/-- A read of a buffer record whose tile is in range and whose entry carries no poison. -/
theorem withBuffer_goes {va : W64} {tile : Nat} {bs : List (BitVec 8)}
    {k : State → Nat → Nat → List (BitVec 8) → Option Err → State}
    (ha : va.toNat % 32 = 0) (hread : s.readAt s.iss.thr va.toNat 32 = (u, .ok bs none)) (ht : tile < bits (ofBytes bs) 151 128)
    (hbad : ∀ e, u.tag? u.cur.ctx (ofBytes bs % 2 ^ 32) tile = some e → e.bad = false) :
    s.withBuffer va tile k = k u (ofBytes bs % 2 ^ 32)
      ((s.readPlace (s.asker s.iss.thr) va.toNat 32).getD (match (s.xlate s.curCore s.cur.ctx .load va.toNat).2 with
        | .ok node pa _ => node * 2 ^ 40 + pa
        | _ => 0)) bs none := by
  have hid : bits (ofBytes bs) 31 0 = ofBytes bs % 2 ^ 32 := by simp [bits]
  rw [State.withBuffer, if_neg (not_not_intro ha)]
  simp only [hread, State.onGot, Option.isSome_none, Bool.false_eq_true, if_false, if_neg (Nat.not_le.2 ht), hid,
    readTag_sound hbad] <;> rfl

theorem execTagwait_reads (hr : s.Ready [a, b] none) {bs : List (BitVec 8)} {at_ tile : Nat} {gen : BitVec 32}
    (ha : (s.src a).toNat % 32 = 0) (hread : s.readAt s.iss.thr (s.src a).toNat 32 = (u, .ok bs none))
    (hplace : s.readPlace (s.asker s.iss.thr) (s.src a).toNat 32 = some at_ ∨
      s.readPlace (s.asker s.iss.thr) (s.src a).toNat 32 = none ∧ ∃ node pa ty,
        (s.xlate s.curCore s.cur.ctx .load (s.src a).toNat).2 = .ok node pa ty ∧ at_ = node * 2 ^ 40 + pa)
    (htile : (s.src b).toNat % 2 ^ 24 = tile) (hgen : BitVec.ofNat 32 ((s.src b).toNat / 2 ^ 32) = gen)
    (ht : tile < bits (ofBytes bs) 151 128)
    (hbad : ∀ e, u.tag? u.cur.ctx (ofBytes bs % 2 ^ 32) tile = some e → e.bad = false) {w : State} {is : Seen}
    (hseen : u.tagSeen (u.asker u.iss.thr) u.cur.ctx (ofBytes bs % 2 ^ 32) at_ tile gen = (w, is)) :
    (is = .yes → execTagwait a b s = .next ((w.flushL1 w.curCore).retire [a, b])) ∧
    (is = .no → execTagwait a b s = .next (w.block (.tag (ofBytes bs % 2 ^ 32) at_ tile gen) [a, b])) ∧
    (is = .bad → execTagwait a b s = .next (w.trap (eccMem (s.src a).toNat))) ∧
    (is = .wait → execTagwait a b s = .next w.waitTurn) := by
  have htile' : bits (s.src b).toNat 23 0 = tile := by simpa [bits] using htile
  have hgen' : BitVec.ofNat 32 (bits (s.src b).toNat 63 32) = gen := by
    rw [← hgen]
    refine BitVec.eq_of_toNat_eq ?_
    have := (s.src b).isLt
    simp [bits]
  have hat : (s.readPlace (s.asker s.iss.thr) (s.src a).toNat 32).getD
      (match (s.xlate s.curCore s.cur.ctx .load (s.src a).toNat).2 with
        | .ok node pa _ => node * 2 ^ 40 + pa
        | _ => 0) = at_ := by
    rcases hplace with h | ⟨h, node, pa, ty, hx, rfl⟩
    · rw [h, Option.getD_some]
    · rw [h, hx, Option.getD_none]
  refine ⟨fun h => next_withOps hr ?_, fun h => next_withOps hr ?_, fun h => next_withOps hr ?_, fun h => next_withOps hr ?_⟩ <;>
    subst h <;>
    simp only [(vals_pair s a b).1, (vals_pair s a b).2, htile', hgen', withBuffer_goes ha hread ht hbad, hat, hseen]

theorem execTagqry_reads (hr : s.Ready [a, b] (some d) false) {bs : List (BitVec 8)} {tile : Nat}
    (ha : (s.src a).toNat % 32 = 0) (hread : s.readAt s.iss.thr (s.src a).toNat 32 = (u, .ok bs none))
    (htile : (s.src b).toNat % 2 ^ 24 = tile) (ht : tile < bits (ofBytes bs) 151 128)
    (hbad : ∀ e, u.tag? u.cur.ctx (ofBytes bs % 2 ^ 32) tile = some e → e.bad = false) :
    execTagqry d a b s = .next (u.commit [a, b] [.s d] [(.s d, BitVec.ofNat 512 (bits (ofBytes bs) 152 152 * 2 ^ 51 +
      (u.tag? u.cur.ctx (ofBytes bs % 2 ^ 32) tile).elim 0 fun e =>
        (if e.ready then 2 else 1) * 2 ^ 48 + min e.pending 65535 * 2 ^ 32 + e.gen.toNat))] (.ready u.cycle) none false true) := by
  have htile' : bits (s.src b).toNat 23 0 = tile := by simpa [bits] using htile
  refine next_withOps_late hr ?_
  simp only [(vals_pair s a b).1, (vals_pair s a b).2, htile', withBuffer_goes ha hread ht hbad]
  refine congrArg (fun v => u.commit [a, b] [.s d] [(.s d, BitVec.ofNat 512 v)] (.ready u.cycle) none false true) ?_
  generalize bits (ofBytes bs) 152 152 * 2 ^ 51 = coarse
  have hassoc : ∀ x y z : Nat, coarse + x + y + z = coarse + (x + y + z) := fun x y z => by omega
  cases u.tag? u.cur.ctx (ofBytes bs % 2 ^ 32) tile with
  | none => exact (Nat.add_zero _).symm
  | some e => exact hassoc _ _ _

theorem execTagwaitComplete_waiting {thr id at_ n : Nat} {gen : BitVec 32} {x : Waiting} (hst : (s.thread thr).st = .waiting)
    (hx : (s.thread thr).wait = some x) (hw : x.w = .tag id at_ n gen) {w : State} {is : Seen}
    (hseen : s.tagSeen (.waiting thr (s.thread thr).inc) (s.thread thr).ctx id at_ n gen = (w, is)) :
    (is = .yes → execTagwaitComplete thr s = .next (w.unblock thr x fun u => (u.flushL1 (coreOf thr)).done)) ∧
    (is = .bad → execTagwaitComplete thr s = .next (w.setThread thr { w.thread thr with st := .runnable, wait := none })) ∧
    (is = .no ∨ is = .wait → execTagwaitComplete thr s = .next w) := by
  simp only [execTagwaitComplete, hst, hx, hw, hseen]
  refine ⟨?_, ?_, ?_⟩
  · rintro rfl
    rfl
  · rintro rfl
    rfl
  · rintro (rfl | rfl) <;> rfl

/-! ### QPUSH and EVPOST (R329, R330) -/

theorem queueCheck_ackAll (q : Nat) (x : Bool) (t : Nat) : (s.ackAll t).queueCheck q x = s.queueCheck q x := by
  have hq : (s.ackAll t).queue = s.queue := ackAll_field State.queue (fun _ _ => rfl) _
  have hc : (s.ackAll t).cur = s.cur := State.ackAll_cur _
  simp only [State.queueCheck, hq, hc]

theorem execQpush_checked (hr : s.Ready [a, b] none) {q : Nat} {x : Queue} {o : Nat} (hq : (s.src a).toNat % 1024 = q)
    (hx : s.queue q = x) (ho : (s.src b).toNat = o) (hcheck : s.queueCheck q true = none) (ha : o % 64 = 0)
    (hl : o + 64 ≤ 0x60000) (hout : s.cur.remOut = []) (hc : s.LsClean s.curCore) :
    execQpush a b s = .next (
      if x.st = .halted then (s.ackAll s.iss.thr).retire [a, b]
      else if 2 ^ (x.csize + 4) ≤ x.placed.length ∨ (s.vf x.vf).slots ≤ s.vfPlaced x.vf then s
      else ((s.ackAll s.iss.thr).placeCmd q ((x.next + x.placed.length) % 2 ^ 32) (s.lsRead s.curCore o 64)).retire [a, b]) := by
  have hq' : bits (s.src a).toNat 9 0 = q := by simpa [bits] using hq
  have hcore : (s.ackAll s.iss.thr).curCore = s.curCore := by simp only [State.curCore, State.ackAll_iss]
  have hqueue : (s.ackAll s.iss.thr).queue = s.queue := ackAll_field State.queue (fun _ _ => rfl) _
  have hvf : (s.ackAll s.iss.thr).vf = s.vf := ackAll_field State.vf (fun _ _ => rfl) _
  have hplaced : (s.ackAll s.iss.thr).vfPlaced = s.vfPlaced := ackAll_field State.vfPlaced (fun _ _ => rfl) _
  have hclean := hc.ackAll s.iss.thr
  refine next_withOps hr ?_
  simp only [(vals_pair s a b).1, (vals_pair s a b).2, State.release_clear hout, hq', ho,
    localCheck_inside (limit := Config.localBytes) (ho ▸ ha) (ho ▸ hl), queueCheck_ackAll, hcheck, hcore, hclean.lsTouch,
    hclean.poisoned, Bool.false_eq_true, if_false, hqueue, hx, hvf, hplaced, (sameDevice_ackAll s s.iss.thr).lsRead]

theorem execEvpost_checked (hr : s.Ready [a, b] none) {q : Nat} (hq : (s.src a).toNat % 1024 = q)
    (hcheck : s.queueCheck q false = none) (hout : s.cur.remOut = []) :
    execEvpost a b s = .next ((if (s.queue q).st = .halted then s.ackAll s.iss.thr
      else (s.ackAll s.iss.thr).putRec q { status := 0, ser := 0xFFFFFFFF, cause := 0, addr := s.src b, seq := 0xFFFFFFFF }).retire
        [a, b]) := by
  have hq' : bits (s.src a).toNat 9 0 = q := by simpa [bits] using hq
  have hqueue : (s.ackAll s.iss.thr).queue = s.queue := ackAll_field State.queue (fun _ _ => rfl) _
  refine next_withOps hr ?_
  simp only [(vals_pair s a b).1, (vals_pair s a b).2, State.release_clear hout, hq', queueCheck_ackAll, hcheck, hqueue]

theorem execPush_held (hr : s.Ready [a, b] none) (hout : s.cur.remOut ≠ []) :
    execQpush a b s = .next s ∧ execEvpost a b s = .next s :=
  ⟨next_withOps hr (if_neg hout), next_withOps hr (if_neg hout)⟩

/-! ### Held publications (R277) -/

theorem execHeldPublicationApply_first {clu : Nat} {p : HeldPub} {pre rest : List HeldPub} (hh : (s.clu clu).held = pre ++ p :: rest)
    (hpre : ∀ q ∈ pre, (∃ r ∈ s.heldFor q, r.num < q.num) ∨ ∃ e, s.tag? q.ctx q.id q.tile = some e ∧ e.pending ≠ 0)
    (hfirst : ∀ q ∈ s.heldFor p, p.num ≤ q.num) (hfree : ∀ e, s.tag? p.ctx p.id p.tile = some e → e.pending = 0)
    (hpub : (s.setClu clu { s.clu clu with held := (s.clu clu).held.filter fun q => decide (q ≠ p) }).publish p = .applied u) :
    execHeldPublicationApply clu s = .next u := by
  unfold execHeldPublicationApply
  refine congrArg Host.Outcome.next ?_
  dsimp only
  generalize hf : List.find? _ _ = o
  obtain rfl : o = some p := by
    refine hf.symm.trans ?_
    rw [hh, List.find?_append, List.find?_eq_none.2, Option.none_or]
    · refine List.find?_cons_of_pos ?_
      rw [Bool.and_eq_true]
      refine ⟨List.all_eq_true.2 fun q hq => decide_eq_true (hfirst q hq), ?_⟩
      cases ht : s.tag? p.ctx p.id p.tile with
      | none => rfl
      | some e => exact decide_eq_true (hfree e ht)
    · intro q hq
      rw [Bool.and_eq_true]
      rintro ⟨hall, hfree⟩
      rcases hpre q hq with ⟨r, hr, hlt⟩ | ⟨e, he, hne⟩
      · exact absurd (of_decide_eq_true (List.all_eq_true.1 hall r hr)) (Nat.not_le.2 hlt)
      · rw [he] at hfree
        exact hne (of_decide_eq_true hfree)
  dsimp only
  rw [hpub]

end

/-- Settles O37: the publication, the reads of a record, the pushes, and the waits. -/
theorem tagsAndPushes : Obligations.TagsAndPushes := by
  unfold Obligations.TagsAndPushes
  refine ⟨fun s u d a b thr clu k => ?_, 
    fun s p hf => ⟨fun u ht hroom => publish_new hf ht hroom, fun e ht => publish_known hf ht rfl⟩⟩
  intro tile core v
  refine ⟨fun hr => ⟨fun ser g hg h7 => ?_, fun bs at_ ha hread hplace => ?_, fun hout => execPush_held hr hout, ?_⟩,
    fun hr bs ha hread ht hbad => ?_, fun x id at_ n gen hst hx hw w is hseen => execTagwaitComplete_waiting hst hx hw hseen,
    fun pre p rest hh hpre hfirst hfree hpub => execHeldPublicationApply_first hh hpre hfirst hfree hpub, fun h hh hd => ?_⟩
  · intro sound
    refine ⟨fun o ho hs ht hout => (execTagpub_inside (u := u) hr hg h7 ho hs rfl ht).1 hout, fun o ho hs ht hout htag => ?_,
      fun ho => execTagpub_none hr hg h7 ho, fun o ho hs ht => execTagpub_outside hr hg h7 ho hs ht,
      fun o ho hs => execTagpub_poisoned hr hg h7 ho hs⟩
    intro p
    obtain ⟨happly, hheld⟩ := (execTagpub_inside (u := u) hr hg h7 ho hs rfl ht).2 hout htag (p := p) rfl
    exact ⟨happly, fun hp hlen => (hheld hp).trans (congrArg _ (if_neg (Nat.not_le.2 hlen))),
      fun hp hlen => (hheld hp).trans (congrArg _ (if_pos hlen))⟩
  · intro id gen ht hbad w is hseen
    exact execTagwait_reads hr ha hread hplace rfl rfl ht hbad hseen
  · intro q x
    refine ⟨fun hcheck ha hl hout hfa hpo => ?_, fun hcheck hout => execEvpost_checked hr rfl hcheck hout⟩
    have hx := execQpush_checked hr rfl rfl rfl hcheck ha hl hout (State.LsClean.of_empty hfa hpo)
    refine ⟨fun hst => hx.trans (congrArg _ (if_pos hst)), fun hst hlen hvf => hx.trans (congrArg _ ?_),
      fun hst hor => hx.trans (congrArg _ ((if_neg hst).trans (if_pos hor)))⟩
    rw [if_neg hst]
    exact if_neg (not_or.2 ⟨Nat.not_le.2 hlen, Nat.not_le.2 hvf⟩)
  · refine (execTagqry_reads hr ha hread rfl ht hbad).trans ?_
    cases u.tag? u.cur.ctx (ofBytes bs % 2 ^ 32) tile <;> rfl
  · refine congrArg Host.Outcome.next ?_
    simp only [hh]
    exact if_pos hd

end Sys2Proof.Machine

/-! SUPPORT. Level-of-detail loads (14_lod R244 to R262). -/

namespace Sys2Proof.Machine

open Sys2Proof

section
variable {s t u : State} {a d : VReg} {m : MReg} {b r : SReg}

/-- A descriptor in the local store, checked. -/
theorem onDesc_inside {off : W64} {tensor : Bool} {k : LodDesc → State} (hc : s.LsClean s.curCore) {o w : Nat}
    (ho : off.toNat = o) (hw : s.lsRead s.curCore o 64 = w) (ha : o % 64 = 0) (hl : o + 64 ≤ 0x60000) :
    (∀ e, lodCheck w tensor = some e → s.onDesc off tensor k = s.trap e) ∧
    (lodCheck w tensor = none → s.onDesc off tensor k = k (lodDesc w)) := by
  refine ⟨fun e he => ?_, fun he => ?_⟩ <;>
    simp only [State.onDesc, localCheck_inside (limit := Config.localBytes) (ho ▸ ha) (ho ▸ hl), hc.lsTouch,
      hc.poisoned, ho, hw, he, Bool.false_eq_true, if_false]

theorem lodEnd_goes {k : State → State} (h : t.iss.turn ≠ .walking) : s.lodEnd t k = k t := if_neg h

/-- A load that waits for a walk or an answer has changed no register, no memory and no core. -/
theorem lodEnd_waits {k : State → State} (h : t.iss.turn = .walking) :
    (s.lodEnd t k).thr = s.thr ∧ (s.lodEnd t k).mem = s.mem ∧ (s.lodEnd t k).cores = s.cores := by
  rw [State.lodEnd, if_pos h]
  exact ⟨rfl, rfl, rfl⟩

/-! ### TEXLD (R251, R259) -/

/-- What a TEXLD makes of its active lanes, one after another: the state, its registers, the first error. -/
def State.texLanes (s : State) (x : LodDesc) (f : Nat) (lane : Nat → Nat → BitVec 32) (regs : List V512) (l : List Nat) :
    State × List V512 × Option Err :=
  l.foldl (fun (acc : State × List V512 × Option Err) k =>
    let g := acc.1.sample x f (lane 0 k) (lane 1 k) (lane 2 k)
    (g.1, acc.2.1.zipIdx.map fun e => putAt e.1 (32 * k) 32 (g.2.1.getD e.2 0).toNat, acc.2.2.or g.2.2)) (s, regs, none)

/-- Lanes that are not sampled keep what they held. -/
theorem laneOf_texLanes {x : LodDesc} {f : Nat} {lane : Nat → Nat → BitVec 32} {l : List Nat} (hl : ∀ i ∈ l, i < 16) {k : Nat}
    (hk : k ∉ l) (q : Nat) (acc : State × List V512 × Option Err) :
    laneOf 32 ((l.foldl (fun (acc : State × List V512 × Option Err) k =>
      let g := acc.1.sample x f (lane 0 k) (lane 1 k) (lane 2 k)
      (g.1, acc.2.1.zipIdx.map fun e => putAt e.1 (32 * k) 32 (g.2.1.getD e.2 0).toNat, acc.2.2.or g.2.2)) acc).2.1.getD q 0) k =
      laneOf 32 (acc.2.1.getD q 0) k := by
  induction l generalizing acc with
  | nil => rfl
  | cons i l ih =>
    have hik : k ≠ i := fun h => hk (h ▸ List.mem_cons_self)
    refine (ih (fun j hj => hl j (List.mem_cons_of_mem _ hj)) (fun h => hk (List.mem_cons_of_mem _ h)) _).trans ?_
    simp only [List.getD_eq_getElem?_getD, List.getElem?_map, List.getElem?_zipIdx]
    cases acc.2.1[q]? with
    | none => rfl
    | some v =>
      refine (laneOf_putAt v _ ?_).trans (if_neg hik)
      exact hl i List.mem_cons_self

theorem texld_reads {f : Nat} (hr : s.Ready [b] none) (hc : s.LsClean s.curCore) {o w : Nat} (ho : (s.src b).toNat = o)
    (hw : s.lsRead s.curCore o 64 = w) (ha : o % 64 = 0) (hl : o + 64 ≤ 0x60000) {lane : Nat → Nat → BitVec 32}
    (hlane : lane = fun q k => BitVec.ofNat 32 (laneOf 32 (s.cur.readV (a + BitVec.ofNat 5 q)) k))
    {acc : State × List V512 × Option Err}
    (hacc : s.texLanes (lodDesc w) f lane ((List.range 5).map fun q => s.cur.readV (d + BitVec.ofNat 5 q))
      ((List.range 16).filter fun k => (s.cur.readM m).getLsbD k) = acc) :
    (∀ e, lodCheck w false = some e → texld f d a b m s = s.trap e) ∧
    (lodCheck w false = none → texld f d a b m s = s.lodEnd acc.1 fun s =>
      s.commit [b] ((List.range 5).map fun q => Reg.v (d + BitVec.ofNat 5 q))
        (((List.range 5).map fun q => Reg.v (d + BitVec.ofNat 5 q)).zip acc.2.1) (.ready s.cycle) acc.2.2 true) := by
  have hrun : ∀ {v}, _ = v → texld f d a b m s = v := fun hv => (State.withOps_ready hr).trans hv
  refine ⟨fun e he => hrun ?_, fun he => hrun ?_⟩ <;> rw [State.vals_singleton]
  · exact (onDesc_inside hc ho hw ha hl).1 e he
  · rw [(onDesc_inside hc ho hw ha hl).2 he, ← hacc, hlane]
    rfl

end
end Sys2Proof.Machine
namespace Sys2Proof.Machine

open Sys2Proof

section
variable {s : State} {d : VReg} {r b : SReg}

/-! ### LDLOD (R255, R260) -/

/-- The width of an element of a level: of the entry its descriptor names for it, or a byte. -/
def State.lodWide (s : State) (x : LodDesc) (l : Nat) : Nat :=
  ((x.entries.take x.levels)[l]?).elim 8 fun e => (s.snap s.cur.ctx e).fmt.W

/-- The page of a level that an element's block lies in. -/
def State.lodNeed (s : State) (x : LodDesc) (i l : Nat) : List LodPage :=
  let p := i * s.lodWide x l / 8 / 4096
  [{ num := firstPage (fun l => (32 * x.blocks * s.lodWide x l + 32767) / 32768) l + p, px := p, py := 0 }]

/-- The bytes of a block, zero where no level could be read. -/
def State.lodGot (u : State) (x : LodDesc) (off n : Nat) (f : Found) : State × Nat × Option Err :=
  match f.code, f.pages with
  | 4, _ => (u, 0, none)
  | _, (p, node, pa) :: _ => u.lodBytes (node, pa + off) (x.base + 4096 * p + off) n
  | _, [] => (u, 0, none)

theorem lodGot_none {u : State} {x : LodDesc} {off n : Nat} {f : Found} (h : f.code = 4 ∨ f.pages = []) :
    u.lodGot x off n f = (u, 0, none) := by
  unfold State.lodGot
  split
  · rfl
  · next hp => simp_all
  · rfl

theorem lodGot_page {u : State} {x : LodDesc} {off n p node pa : Nat} {rest : List (Nat × Nat × Nat)} {f : Found}
    (h : f.code ≠ 4) (hp : f.pages = (p, node, pa) :: rest) :
    u.lodGot x off n f = u.lodBytes (node, pa + off) (x.base + 4096 * p + off) n := by
  unfold State.lodGot
  split
  · next h4 => exact absurd h4 h
  · next hq _ =>
    obtain ⟨⟨rfl, rfl, rfl⟩, -⟩ := by simpa using hq.symm.trans hp
    rfl
  · next hq _ => exact absurd (hq.symm.trans hp) (List.cons_ne_nil _ _).symm

/-- The load of a block once its entries are accepted: its level is chosen, its bytes are read, and the bundle commits. -/
def State.lodBlock (s : State) (d : VReg) (r b : SReg) (x : LodDesc) (i : Nat) (wide : Nat → Nat) (need : Nat → List LodPage)
    (fmts : List Snap) : State :=
  let p := s.minLevel x (i * wide 0 / 8 / 65536)
  let q := p.1.choose x need 0 p.2
  let g := q.1.lodGot x (i * wide q.2.level / 8 % 4096) (4 * wide q.2.level) q.2
  s.lodEnd g.1 fun s => s.commit [r, b] [.v d, .v (d + 1)] [(.v d, BitVec.ofNat 512 g.2.1),
    (.v (d + 1), BitVec.ofNat 512 (q.2.level + q.2.code * 2 ^ 8 + x.entries.getD q.2.level 0 * 2 ^ 16))] (.ready s.cycle)
    (s.iss.late.or g.2.2) true false fmts

theorem execLdlod_checks (hr : s.Ready [r, b] none) (hc : s.LsClean s.curCore) {o w : Nat} (ho : (s.src b).toNat = o)
    (hw : s.lsRead s.curCore o 64 = w) (ha : o % 64 = 0) (hl : o + 64 ≤ 0x60000) :
    (∀ e, lodCheck w true = some e → execLdlod d r b s = .next (s.trap e)) ∧
    (lodCheck w true = none → (s.src r).toNat % 32 ≠ 0 → execLdlod d r b s = .next (s.trap { cause := 4, tval := s.src r })) ∧
    (lodCheck w true = none → (s.src r).toNat % 32 = 0 → 32 * (lodDesc w).blocks ≤ (s.src r).toNat →
      execLdlod d r b s = .next (s.trap { cause := 12, tval := 34 + 768 })) := by
  refine ⟨fun e he => next_withOps hr ?_, fun he hi => next_withOps hr ?_, fun he hi hb => next_withOps hr ?_⟩ <;>
    simp only [(vals_pair s r b).1, (vals_pair s r b).2]
  · exact (onDesc_inside hc ho hw ha hl).1 e he
  · rw [(onDesc_inside hc ho hw ha hl).2 he, if_pos hi]
  · rw [(onDesc_inside hc ho hw ha hl).2 he, if_neg (not_not_intro hi), if_pos hb]
    rfl

/-- What an LDLOD reads once its level is chosen: `f` is the choice and `y`, `v`, `err` what the block's bytes give. -/
theorem execLdlod_reads (hr : s.Ready [r, b] none) (hc : s.LsClean s.curCore) {o w : Nat} (ho : (s.src b).toNat = o)
    (hw : s.lsRead s.curCore o 64 = w) (ha : o % 64 = 0) (hl : o + 64 ≤ 0x60000) (he : lodCheck w true = none) {x : LodDesc}
    (hx : lodDesc w = x) {i : Nat} (hi : (s.src r).toNat = i) (hia : i % 32 = 0) (hib : i < 32 * x.blocks)
    (hfmt : ∀ e ∈ x.entries.take x.levels, acceptMatrix e ((s.ctx s.cur.ctx).fmtWord e) = none)
    {t u : State} {low : Nat} {f : Found}
    (hlow : s.minLevel x (i * s.lodWide x 0 / 8 / 65536) = (t, low))
    (hchoose : t.choose x (s.lodNeed x i) 0 low = (u, f))
    {y : State} {v : Nat} {err : Option Err}
    (hread : (f.code = 4 ∨ f.pages = []) ∧ (u, 0, none) = (y, v, err) ∨
      f.code ≠ 4 ∧ ∃ p node pa rest, f.pages = (p, node, pa) :: rest ∧
        u.lodBytes (node, pa + i * s.lodWide x f.level / 8 % 4096) (x.base + 4096 * p + i * s.lodWide x f.level / 8 % 4096)
          (4 * s.lodWide x f.level) = (y, v, err))
    (hturn : y.iss.turn ≠ .walking) :
    execLdlod d r b s = .next (y.commit [r, b] [.v d, .v (d + 1)] [(.v d, BitVec.ofNat 512 v),
      (.v (d + 1), BitVec.ofNat 512 (f.level + f.code * 2 ^ 8 + x.entries.getD f.level 0 * 2 ^ 16))] (.ready y.cycle)
      (y.iss.late.or err) true false ((x.entries.take x.levels).map fun e => s.snap s.cur.ctx e)) := by
  have hacc : (((x.entries.take x.levels).map fun e => s.snap s.cur.ctx e).findSome? fun f =>
      (acceptMatrix f.entry f.word).map fun k => fmtErr k f.entry) = none := by
    rw [List.findSome?_eq_none_iff]
    intro y hy
    obtain ⟨e, hem, rfl⟩ := List.mem_map.1 hy
    rw [State.snap_entry, State.snap_word, hfmt e hem]
    rfl
  refine next_withOps hr ?_
  simp only [(vals_pair s r b).1, (vals_pair s r b).2]
  rw [(onDesc_inside hc ho hw ha hl).2 he, hx, hi, if_neg (not_not_intro hia), if_neg (Nat.not_le.2 hib), hacc]
  dsimp only
  have hwide : ∀ l, (match (List.map (fun e => s.snap s.cur.ctx e) (x.entries.take x.levels))[l]? with
      | some f => f.fmt.W
      | none => 8) = s.lodWide x l := by
    intro l
    rw [List.getElem?_map, State.lodWide]
    cases (x.entries.take x.levels)[l]? <;> rfl
  have hblock : ∀ wide : Nat → Nat, wide = s.lodWide x → s.lodBlock d r b x i wide
      (fun l =>
        let p := i * wide l / 8 / 4096
        [{ num := firstPage (fun l => (32 * x.blocks * wide l + 32767) / 32768) l + p, px := p, py := 0 }])
      ((x.entries.take x.levels).map fun e => s.snap s.cur.ctx e) =
      s.lodBlock d r b x i (s.lodWide x) (s.lodNeed x i) ((x.entries.take x.levels).map fun e => s.snap s.cur.ctx e) := by
    rintro wide rfl
    rfl
  refine (hblock _ (funext hwide)).trans ?_
  rw [State.lodBlock]
  simp only [hlow, hchoose]
  rcases hread with ⟨hf, hy⟩ | ⟨hf, p, node, pa, rest, hp, hy⟩
  · rw [lodGot_none hf, hy]
    exact lodEnd_goes hturn
  · rw [lodGot_page hf hp, hy]
    exact lodEnd_goes hturn

end

/-- Settles O38: the loads by what their levels and lanes give, the fences by what they wait for. -/
theorem levelOfDetailLoads : Obligations.LevelOfDetailLoads := by
  unfold Obligations.LevelOfDetailLoads
  intro s d a m b r core hfa hpo o w active reg regs lane
  have hc : s.LsClean s.curCore := State.LsClean.of_empty hfa hpo
  refine ⟨fun hr ha hl i f hi => ?_, fun hr ha hl => ?_, fun hrec => ?_, fun hrec => ?_, 
    fun hsys => ⟨fun hor => ?_, fun hlod hout => ?_⟩, fun e rest hrec => ?_⟩
  · have hi : exec i s = .next (texld f d a b m s) := by
      simp only [List.mem_cons, Prod.mk.injEq, List.not_mem_nil, or_false] at hi
      rcases hi with ⟨rfl, rfl⟩ | ⟨rfl, rfl⟩ | ⟨rfl, rfl⟩ <;> rfl
    obtain ⟨htrap, hgo⟩ := texld_reads (a := a) (d := d) (m := m) (f := f) hr hc (o := o) rfl (w := w) rfl ha hl
      (lane := lane) rfl rfl
    refine ⟨fun e he => hi.trans (congrArg _ (htrap e he)), fun he => ?_⟩
    intro r
    have hgo := hi.trans (congrArg _ (hgo he))
    refine ⟨fun ht => hgo.trans (congrArg _ (lodEnd_goes ht)), fun ht => ⟨_, hgo, lodEnd_waits ht⟩, fun q hq k hk hm => ?_⟩
    refine (laneOf_texLanes (fun i hi => List.mem_range.1 (List.mem_filter.1 hi).1) ?_ q _).trans ?_
    · exact fun hmem => by simp [hm] at hmem
    · rw [List.getD_eq_getElem?_getD, List.getElem?_map, List.getElem?_range hq]
      rfl
  · intro x
    obtain ⟨hbad, hmis, hout⟩ := execLdlod_checks (d := d) hr hc (o := o) rfl (w := w) rfl ha hl
    refine ⟨hbad, hmis, hout, fun he hia hib hfmt => ?_⟩
    intro i wide
    have hwide : wide = s.lodWide x := by
      funext l
      change (match (x.entries.take x.levels)[l]? with | some e => _ | none => _) = _
      rw [State.lodWide]
      cases (x.entries.take x.levels)[l]? <;> rfl
    clear_value wide
    subst hwide
    intro place need t low u f hlow hchoose off done
    have hgo := fun y v err => execLdlod_reads (d := d) hr hc (o := o) rfl (w := w) rfl ha hl he (x := x) rfl (i := i) rfl hia hib hfmt
      (y := y) (v := v) (err := err) hlow hchoose
    exact ⟨fun hf ht => hgo u 0 none (.inl ⟨hf, rfl⟩) ht,
      fun hf p node pa rest hp y v err hy ht => hgo y v err (.inr ⟨hf, p, node, pa, rest, hp, hy⟩) ht⟩
  · refine congrArg Host.Outcome.next (if_neg ?_)
    rw [List.any_eq_true]
    rintro ⟨e, he, hctx⟩
    exact hrec e he (of_decide_eq_true hctx)
  · refine congrArg Host.Outcome.next (if_pos ?_)
    obtain ⟨e, he, hctx⟩ := hrec
    exact List.any_eq_true.2 ⟨e, he, decide_eq_true hctx⟩
  · refine congrArg Host.Outcome.next ((State.system_sys _ hsys).trans ?_)
    rcases hor with h | h
    · exact if_pos h
    · rw [State.release, if_neg h, ite_self]
  · refine congrArg Host.Outcome.next ((State.system_sys _ hsys).trans ?_)
    rw [hlod, if_neg Bool.false_ne_true, State.release_clear hout, State.ackAll_cur]
  · refine congrArg Host.Outcome.next ?_
    simp only [hrec]

end Sys2Proof.Machine

/-! SUPPORT. Kernels, command queues and their records (15_kernel R265 to R273, 19_queue R317 to R327). -/

namespace Sys2Proof.Machine

open Sys2Proof

section
variable {s u : State} {q : Nat}

/-! ### What writes of queues and contexts leave -/

theorem State.ctx_setQueue (q c : Nat) (x : Queue) : (s.setQueue q x).ctx c = s.ctx c :=
  (onlyMem_setQueue q x).field (fun t => t.ctx c) fun _ _ _ _ _ => rfl
theorem State.ep_setQueue (q e : Nat) (x : Queue) : (s.setQueue q x).ep e = s.ep e :=
  (onlyMem_setQueue q x).field (fun t => t.ep e) fun _ _ _ _ _ => rfl
theorem State.dev_setQueue (q : Nat) (x : Queue) : (s.setQueue q x).dev = s.dev :=
  (onlyMem_setQueue q x).field State.dev fun _ _ _ _ _ => rfl
theorem State.dev_setCtx (c : Nat) (x : Ctx) : (s.setCtx c x).dev = s.dev :=
  (onlyMem_setCtx c x).field State.dev fun _ _ _ _ _ => rfl

theorem State.queue_setQueue_same (q : Nat) (x : Queue) : (s.setQueue q x).queue q = x := by
  rw [State.queue_setQueue, if_pos rfl]

/-- A record put in a ring changes memory alone. -/
theorem State.ringPut_field {α : Type} {base size rcd : Nat} (h : s.ringPut base size rcd = some u) (g : State → α)
    (hg : ∀ (u : State) m p n c, g { u with mem := m, poison := p, moment := n, cores := c } = g u) : g u = g s := by
  unfold State.ringPut at h
  dsimp only at h
  split at h
  · cases h
    exact ((onlyMem_memPut ..).field g hg).trans ((onlyMem_memPut ..).field g hg)
  · cases h

/-! ### The end of a kernel (R273) -/

/-- The status of the record of a kernel that ends by itself (R273). -/
def KState.status : KState → Nat
  | .faulting => 1
  | .stopping => 3
  | _ => 0

theorem execKernelEnd_ends {ser : Nat} {k : Kernel} (hk : s.kernel ser = k) (hst : k.st ≠ .ended) (hkill : k.killed = false)
    (hend : k.ending = false) (hdone : k.groups ≤ k.done) (hidle : s.kernelIdle ser = true) :
    execKernelEnd ser s = .next (((k.outputs.foldl (fun s d => s.doneUpdate d.pa d.gen)
      (s.harvest fun t => decide (t.ctx = k.ctx))).setKernel ser { k with ending := true }).kernelRec ser
        { status := k.st.status
          ser := ser, cause := if k.st = .faulting then BitVec.ofNat 32 (k.cause + k.faults * 256) else 0
          addr := if k.st = .faulting then k.addr else 0, seq := k.seq, kernel := some ser }) := by
  unfold execKernelEnd
  refine congrArg Host.Outcome.next ?_
  dsimp only
  rw [hk, if_neg (by simp [hst, hkill, hend, hidle, hdone])]
  rfl

theorem kernelRec_living {ser : Nat} {r : Rec} (h : (s.kernel ser).ring = none) :
    s.kernelRec ser r = s.putRec (s.kernel ser).queue r := by
  simp only [State.kernelRec, h]

/-! ### Records and notifications (R322 to R324) -/

theorem oldRetry_none (h : (s.queue q).old = []) : s.oldRetry q = s := by
  simp only [State.oldRetry, h]

theorem State.oldWritten_queue (r : Rec) (q : Nat) : (s.oldWritten r).queue q = s.queue q := by
  unfold State.oldWritten
  split <;> rfl

theorem notify_queue : (s.notify q).queue q = { s.queue q with unnotified := 0 } := State.queue_setQueue_same _ _

theorem notifyDue_due (h : (s.queue q).n ≠ 0) (h' : (s.queue q).n ≤ (s.queue q).unnotified) : s.notifyDue q = s.notify q :=
  if_pos ⟨h, h'⟩

theorem notifyDue_early (h : (s.queue q).n = 0 ∨ (s.queue q).unnotified < (s.queue q).n) : s.notifyDue q = s :=
  if_neg (by omega)

/-- A record written counts, until a notification goes out. -/
theorem recWritten_counts {r : Rec} (he : r.event = false) {x y : Queue} (hx : s.queue q = x)
    (hy : (s.recWritten q r).queue q = y) :
    (x.n ≠ 0 → x.n ≤ x.unnotified + 1 → y.unnotified = 0) ∧
    (x.n = 0 ∨ x.unnotified + 1 < x.n →
      y.unnotified = x.unnotified + 1 ∧ y.firstRec = if x.unnotified = 0 then s.cycle else x.firstRec) := by
  obtain ⟨v, hv, hq, hc⟩ : ∃ v : State, s.recWritten q r = (v.setQueue q { x with
      unnotified := x.unnotified + 1, firstRec := if x.unnotified = 0 then s.cycle else x.firstRec }).notifyDue q ∧
      v.queue q = x ∧ v.cycle = s.cycle := by
    cases hk : r.kernel with
    | none => exact ⟨s, by simp only [State.recWritten, hk, he, hx, Bool.false_eq_true, if_false], hx, rfl⟩
    | some k =>
      refine ⟨s.setKernel k { s.kernel k with st := .ended, ending := false, killed := false }, ?_, hx, rfl⟩
      have hq : (s.setKernel k { s.kernel k with st := .ended, ending := false, killed := false }).queue q = x := hx
      simp only [State.recWritten, hk, he, hq, Bool.false_eq_true, if_false]
      rfl
  subst hy
  rw [hv]
  refine ⟨fun hn hle => ?_, fun hn => ?_⟩
  · rw [notifyDue_due (by rwa [State.queue_setQueue_same]) (by rwa [State.queue_setQueue_same]), notify_queue]
  · rw [notifyDue_early (by rwa [State.queue_setQueue_same]), State.queue_setQueue_same]
    exact ⟨rfl, rfl⟩

/-- What is sent on an OPEN endpoint joins its packets. -/
theorem sendOwn_opened {e : Nat} {m : NetMsg} {w : Option Asker} {va : Nat} {acc : Option Nat} (h : (s.ep e).st = .opened) :
    ∃ p, ((s.sendOwn e m w va acc).ep e).pkts = (s.ep e).pkts ++ [p] ∧ p.msg = m := by
  rw [State.sendOwn, if_neg (not_not_intro h)]
  exact ⟨_, congrArg Endpoint.pkts (tget_tput_same _ _ _ _), rfl⟩

/-- A notification is a send of the queue's number and its ring's head. -/
theorem notify_sends (h : (s.ep (s.queue q).ep).st = .opened) : ∃ p, ((s.notify q).ep (s.queue q).ep).pkts =
    (s.ep (s.queue q).ep).pkts ++ [p] ∧ p.msg.op = .send ∧
      p.msg.data = toBytes 16 (q + s.memRead ((s.queue q).ering % 2 ^ 40) 8 * 2 ^ 64) := by
  obtain ⟨p, hp, hm⟩ := sendOwn_opened (m := { op := .send, remote := 0, len := 16, data := toBytes 16 (q +
    s.memRead ((s.queue q).ering % 2 ^ 40) 8 * 2 ^ 64) }) (w := none) (va := 0) (acc := none) h
  refine ⟨p, ?_, by rw [hm], by rw [hm]⟩
  rw [State.notify, State.ep_setQueue]
  exact hp

end
end Sys2Proof.Machine
namespace Sys2Proof.Machine

open Sys2Proof

/-- Settles O39: kernels, kills, waiting records, and notifications. -/
theorem kernelsEnd : Obligations.KernelsEnd := by
  unfold Obligations.KernelsEnd
  intro s ser c q
  refine ⟨?_, fun hfar => congrArg Host.Outcome.next (if_pos (.inr (.inr hfar))), fun hst hdone hfar => ?_,
    fun r rest hold hrec hretry => ⟨fun u hput => ?_, fun hput => ?_⟩, fun o rest u hold hrec hretry hput => ?_,
    fun r he => ?_, ?_⟩
  · intro k hst hkill hend hdone hidle u rec_ w
    have hrec : rec_ = { status := k.st.status, ser := ser
                         cause := if k.st = .faulting then BitVec.ofNat 32 (k.cause + k.faults * 256) else 0
                         addr := if k.st = .faulting then k.addr else 0, seq := k.seq, kernel := some ser } := by
      have hdef : rec_ = (match k.st with | .faulting => _ | .stopping => _ | _ => _) := rfl
      rw [hdef]
      cases k.st <;> rfl
    refine ⟨(execKernelEnd_ends rfl hst hkill hend hdone hidle).trans (by rw [hrec]), fun hring => ?_⟩
    have hw : w.kernel ser = { k with ending := true } := tget_tput_same _ _ _ _
    rw [kernelRec_living (by rw [hw]; exact hring), hw]
  · intro mine u cause addr
    refine congrArg Host.Outcome.next ((if_neg (by simp [hst, hdone, hfar])).trans ?_)
    refine congrArg (fun f => List.foldl f (u.setCtx c { u.ctx c with killDone := true }) mine) (funext₂ fun w e => ?_)
    simp only [cause, addr]
    cases (s.ctx c).note with
    | none => cases (s.ctx c).killer <;> rfl
    | some n =>
      by_cases hn : n.ser = e.1
      · simp only [if_pos hn]
      · simp only [if_neg hn]
  · refine congrArg Host.Outcome.next ?_
    simp only [oldRetry_none hold, hrec, if_neg (Nat.not_lt.2 hretry), hput]
  · refine congrArg Host.Outcome.next ?_
    simp only [oldRetry_none hold, hrec, if_neg (Nat.not_lt.2 hretry), hput]
  · have hold' : s.oldRetry q = (u.setQueue q { u.queue q with old := rest }).oldWritten o.r := by
      simp only [State.oldRetry, hold, if_neg (Nat.not_lt.2 hretry), hput]
    have hq : u.queue q = s.queue q := State.ringPut_field hput (fun t => t.queue q) fun _ _ _ _ _ => rfl
    refine congrArg Host.Outcome.next ?_
    simp only [hold', State.oldWritten_queue, State.queue_setQueue_same, hq, hrec]
  · intro x y
    exact recWritten_counts he rfl rfl
  · intro x hst hn ht hu hdue
    refine ⟨congrArg Host.Outcome.next (if_pos ⟨hst, hn, ht, hu, hdue⟩), ?_, fun h => notify_sends h⟩
    rw [notify_queue]

end Sys2Proof.Machine
namespace Sys2Proof.Machine

open Sys2Proof

section
variable {s u : State} {q c : Nat}

/-! ### Commands (R318, R319) -/

theorem cmd_op (c : Nat) : bits c 7 0 = c % 256 := by simp [bits]
theorem cmd_drain (c : Nat) : bits c 8 8 = c / 256 % 2 := by simp [bits]

section
variable {mine : Nat → Bool} {k : Nat → State} (hn : s.nextCmd q = some c) (hm : mine c = true)
include hn hm

theorem command_drains (hd : c / 256 % 2 = 1) (hk : s.drained q = false) : s.command q mine k = s.cmdBlock q .drain := by
  simp only [State.command, hn, hm, Bool.not_true, Bool.false_eq_true, if_false, cmd_drain, hd, hk, Bool.not_false, and_self, if_true]

theorem command_checked (hd : c / 256 % 2 = 0 ∨ s.drained q = true) :
    s.command q mine k = if cmdFormOk c = false then s.cmdFail q 1 0 else k c := by
  have hfree : ¬(c / 256 % 2 = 1 ∧ (!s.drained q) = true) := by
    rcases hd with h | h <;> simp [h]
  simp only [State.command, hn, hm, Bool.not_true, Bool.false_eq_true, if_false, cmd_drain, if_neg hfree]
  cases cmdFormOk c <;> rfl

theorem command_fails (hd : c / 256 % 2 = 0 ∨ s.drained q = true) (hf : cmdFormOk c = false) :
    s.command q mine k = s.cmdFail q 1 0 := (command_checked hn hm hd).trans (if_pos hf)

theorem command_runs (hd : c / 256 % 2 = 0 ∨ s.drained q = true) (hf : cmdFormOk c = true) : s.command q mine k = k c :=
  (command_checked hn hm hd).trans (if_neg (by simp [hf]))

end

theorem opIs_of {n : Nat} (h : c % 256 = n) : opIs n c = true := decide_eq_true ((cmd_op c).trans h)

theorem mgmtIs_of {n : Nat} (h : c % 256 = 5) (hn : c / 2 ^ 64 % 256 = n) : mgmtIs n c = true := by
  have hsub : bits c 71 64 = c / 2 ^ 64 % 256 := by simp [bits]
  rw [mgmtIs, cmd_op, hsub, decide_eq_true h, decide_eq_true hn]
  rfl

/-- The commands of the opcodes up to 4, each run by its own event. -/
theorem exec_command {i : Instr} {n : Nat}
    (hi : (i, n) ∈ [(Instr.nop q, 0), (.launch q, 1), (.wait q, 2), (.write q, 3), (.event q, 4)])
    (hc : c % 256 = n) : ∃ mine k, exec i s = .next (s.command q mine k) ∧ mine c = true := by
  simp only [List.mem_cons, Prod.mk.injEq, List.not_mem_nil, or_false] at hi
  rcases hi with ⟨rfl, rfl⟩ | ⟨rfl, rfl⟩ | ⟨rfl, rfl⟩ | ⟨rfl, rfl⟩ | ⟨rfl, rfl⟩
  · exact ⟨_, _, rfl, by simp [cmd_op, hc]⟩
  all_goals exact ⟨_, _, rfl, opIs_of hc⟩

/-! ### Accesses of a command (R320) -/

theorem cmdRead_own {va n pa node ty : Nat} {hard : State → State} {go : State → List (BitVec 8) → State}
    (hu : s.Unasked (.queue q)) (hx : s.xlateDev (s.queue q).ctx .load va = (u, .ok node pa ty)) (hown : node = u.dev.node) :
    s.cmdRead q va n hard go = go u (u.memGet pa n) := by
  simp only [State.cmdRead, hu.sentBefore, hx, if_pos hown]

theorem cmdWrite_own {va pa node ty : Nat} {bs : List (BitVec 8)} {hard go : State → State}
    (hu : s.Unasked (.queue q)) (hx : s.xlateDev (s.queue q).ctx .store va = (u, .ok node pa ty)) (hown : node = u.dev.node) :
    s.cmdWrite q va bs hard go = go (u.memWrite none pa bs) := by
  simp only [State.cmdWrite, hu.sentBefore, hx, if_pos hown]

/-! ### LAUNCH (R265, R269) -/

section
variable {va pa node ty obj : Nat} (hn : s.nextCmd q = some c) (hd : c / 256 % 2 = 0 ∨ s.drained q = true)
  (hf : cmdFormOk c = true) (hop : c % 256 = 1) (hva : bits c 127 64 = va)
  (hsys : c / 512 % 2 = 1 → (s.ctx (s.queue q).ctx).sysok = true) (ha : va % 256 = 0) (hu : s.Unasked (.queue q))
  (hx : s.xlateDev (s.queue q).ctx .load va = (u, .ok node pa ty))
  (hown : node = u.dev.node) (hobj : u.memRead pa 256 = obj)
include hn hd hf hop hva hsys ha hu hx hown hobj

theorem execLaunch_object (ho : objectOk obj = false) : execLaunch q s = .next (u.cmdFail q 12 (BitVec.ofNat 64 va)) := by
  refine congrArg Host.Outcome.next ((command_runs hn (opIs_of hop) hd hf).trans ?_)
  have hsys' : ¬(bits c 9 9 = 1 ∧ (!(s.ctx (s.queue q).ctx).sysok) = true) := by
    have hbit : bits c 9 9 = c / 512 % 2 := by simp [bits]
    rw [hbit]
    rintro ⟨h, h'⟩
    simp [hsys h] at h'
  have hobj' : ofBytes (u.memGet pa 256) = obj := hobj
  simp only [hva, if_neg hsys', if_neg (not_not_intro ha), cmdRead_own hu hx hown, hobj', ho, Bool.not_false, if_true]

theorem execLaunch_records (ho : objectOk obj = true) {ds : List (Nat × Nat × Nat × Nat)}
    (hds : declsOf obj 64 (bits obj 115 112) ++ declsOf obj 192 (bits obj 118 116) = ds) {w : State} {pas : List (Nat × Nat)}
    (hw : u.recordsAt q (s.queue q).ctx (bits obj 115 112) ds [] = (w, .ok pas)) :
    execLaunch q s = .next (
      if (ds.zip pas).any (fun e => decide (bits e.2.2 151 128 ≤ (bits obj 95 64 - 1) * e.1.2.1 + e.1.2.2.1 + e.1.2.2.2 - 1)) then
        w.cmdFail q 12 (BitVec.ofNat 64 va)
      else if ((pas.map fun p => p.2 % 2 ^ 32).drop (bits obj 115 112)).any
          ((pas.map fun p => p.2 % 2 ^ 32).take (bits obj 115 112)).contains ∨
          !decide (((pas.map fun p => p.2 % 2 ^ 32).drop (bits obj 115 112)).Nodup) then w.cmdFail q 12 (BitVec.ofNat 64 va)
      else w.launch q c obj pas) := by
  refine congrArg Host.Outcome.next ((command_runs hn (opIs_of hop) hd hf).trans ?_)
  have hsys' : ¬(bits c 9 9 = 1 ∧ (!(s.ctx (s.queue q).ctx).sysok) = true) := by
    have hbit : bits c 9 9 = c / 512 % 2 := by simp [bits]
    rw [hbit]
    rintro ⟨h, h'⟩
    simp [hsys h] at h'
  have hobj' : ofBytes (u.memGet pa 256) = obj := hobj
  have hlen : (declsOf obj 64 (bits obj 115 112)).length = bits obj 115 112 := by simp [declsOf]
  have hid : ∀ n : Nat, bits n 31 0 = n % 2 ^ 32 := fun n => by simp [bits]
  simp only [hva, if_neg hsys', if_neg (not_not_intro ha), cmdRead_own hu hx hown, hobj', ho, Bool.not_true, Bool.false_eq_true,
    if_false, hlen, hds, hw, hid]

end

/-! ### Commands that arrive (R320) -/

theorem placeCmd_placed {seq cmd : Nat} : ((s.placeCmd q seq cmd).queue q).placed = (s.queue q).placed ++ [seq] :=
  congrArg Queue.placed (State.queue_setQueue_same _ _)

theorem State.out_setQueue (q : Nat) (x : Queue) : (s.setQueue q x).out = s.out :=
  (onlyMem_setQueue q x).field State.out fun _ _ _ _ _ => rfl

theorem placeCmd_out {seq cmd : Nat} : (s.placeCmd q seq cmd).out = s.out := by
  rw [State.placeCmd, State.out_setQueue]
  rfl

theorem commandIn_places {cmd : BitVec 512} {x : Queue} (hx : s.queue q = x) (hst : x.st ≠ .free) (hst' : x.st ≠ .halted)
    (hfed : x.devFed = false) {seq : Nat} (hseq : bits cmd.toNat 63 32 = seq)
    (hring : (seq + 2 ^ 32 - x.next) % 2 ^ 32 < 2 ^ (x.csize + 4)) (hahead : (seq + 2 ^ 32 - x.next) % 2 ^ 32 < 2 ^ 31)
    (hnew : seq ∉ x.placed) (hvf : s.vfPlaced x.vf < (s.vf x.vf).slots) :
    s.commandIn q cmd = (s.placeCmd q seq cmd.toNat, true) := by
  have h1 : ¬(x.st = .free ∨ x.st = .halted ∨ x.devFed = true) := by simp [hst, hst', hfed]
  have h2 : ¬(2 ^ 31 ≤ (seq + 2 ^ 32 - x.next) % 2 ^ 32 ∨ x.placed.contains seq = true) := by
    rw [List.contains_iff_mem]
    exact not_or.2 ⟨Nat.not_le.2 hahead, hnew⟩
  simp only [State.commandIn, hx, hseq]
  rw [if_neg h1, if_neg h2, if_pos ⟨hring, hvf⟩]

end

/-- Settles O40: the commands, the blocked and stalled queues, and the commands that arrive. -/
theorem queueCommands : Obligations.QueueCommands := by
  unfold Obligations.QueueCommands
  intro s u q c pa node ty cmd
  refine ⟨fun hn => ⟨fun hf hd => ⟨fun i n hi hc => ?_, fun hc => ?_⟩, fun hd hk i n hi hc => ?_, fun hf hd => ?_⟩, ?_⟩
  · obtain ⟨mine, k, hrun, hm⟩ := exec_command (s := s) hi hc
    exact hrun.trans (congrArg _ (command_fails hn hm hd hf))
  · exact congrArg Host.Outcome.next (command_fails hn (by simp [cmd_op, hc]) hd hf)
  · obtain ⟨mine, k, hrun, hm⟩ := exec_command (s := s) hi hc
    exact hrun.trans (congrArg _ (command_drains hn hm hd hk))
  · intro va
    refine ⟨fun hc => ?_, fun hc ha => ?_, fun hc ha hu hx hown => ?_, fun hc ha => ?_, fun hc ha hu hx hown => ?_, fun hc => ?_,
      fun hc hsys ha hu hx hown => ?_⟩
    · refine congrArg Host.Outcome.next ((command_runs hn (by simp [cmd_op, hc]) hd hf).trans (if_pos ((cmd_op c).trans hc)))
    · exact congrArg Host.Outcome.next ((command_runs hn (opIs_of hc) hd hf).trans (if_pos ha))
    · refine congrArg Host.Outcome.next ((command_runs hn (opIs_of hc) hd hf).trans ((if_neg (not_not_intro ha)).trans ?_))
      rw [cmdRead_own hu hx hown]
      rfl
    · exact congrArg Host.Outcome.next ((command_runs hn (opIs_of hc) hd hf).trans (if_pos ha))
    · refine congrArg Host.Outcome.next ((command_runs hn (opIs_of hc) hd hf).trans ((if_neg (not_not_intro ha)).trans ?_))
      rw [cmdWrite_own hu hx hown]
      rfl
    · exact congrArg Host.Outcome.next (command_runs hn (opIs_of hc) hd hf)
    · intro obj fail
      refine ⟨fun ho => execLaunch_object hn hd hf hc rfl hsys ha hu hx hown rfl ho, fun ho pas => ?_⟩
      intro ds w hw fail past ids ins outs
      have hrun : execLaunch q s = .next (if past = true then w.cmdFail q 12 (BitVec.ofNat 64 va)
          else if outs.any ins.contains = true ∨ (!decide outs.Nodup) = true then w.cmdFail q 12 (BitVec.ofNat 64 va)
          else w.launch q c obj pas) :=
        execLaunch_records hn hd hf hc rfl hsys ha hu hx hown rfl ho (ds := ds) rfl hw
      have hany : outs.any ins.contains = true ↔ ∃ i ∈ outs, i ∈ ins := by
        simp only [List.any_eq_true, List.contains_iff_mem]
      refine ⟨fun hp => hrun.trans (congrArg _ (if_pos hp)), fun hi => ?_, fun hp hdis hnd => ?_⟩
      · by_cases hp : past = true
        · exact hrun.trans (congrArg _ (if_pos hp))
        · exact hrun.trans (congrArg _ ((if_neg hp).trans (if_pos (.inl (hany.2 hi)))))
      · refine hrun.trans (congrArg _ ((if_neg (by rw [hp]; decide)).trans (if_neg ?_)))
        rintro (h | h)
        · obtain ⟨i, hi, hi'⟩ := hany.1 h
          exact hdis i hi hi'
        · rw [decide_eq_true hnd] at h
          exact Bool.false_ne_true h
  · intro x
    refine ⟨fun hst hdue => congrArg Host.Outcome.next (if_pos ⟨hst, hdue⟩), fun hst hb hdr => ?_, fun hst hb hmet => ?_,
      fun n hst hb hor => ?_, fun n hst hb hsus => ?_, ?_⟩
    · refine congrArg Host.Outcome.next ((if_neg (not_not_intro hst)).trans ?_)
      simp only [← show x = s.queue q from rfl, hb]
      exact if_pos hdr
    · refine congrArg Host.Outcome.next ((if_neg (not_not_intro hst)).trans ?_)
      simp only [← show x = s.queue q from rfl, hb]
      exact if_pos hmet
    · refine congrArg Host.Outcome.next ((if_neg (not_not_intro hst)).trans ?_)
      simp only [← show x = s.queue q from rfl, hb]
      exact if_pos hor
    · refine congrArg Host.Outcome.next ((if_neg (not_not_intro hst)).trans ?_)
      simp only [← show x = s.queue q from rfl, hb]
      exact if_neg (by simp [hsus])
    · intro seq ahead
      refine ⟨fun hst hst' hfed hring hahead hnew hvf => ?_, fun hor => ?_⟩
      · have hin := commandIn_places (cmd := cmd) rfl hst hst' hfed (seq := seq) rfl hring hahead hnew hvf
        refine ⟨{ s.placeCmd q seq cmd.toNat with out := (s.placeCmd q seq cmd.toNat).out ++ [OutMsg.command q seq true] }, ?_, ?_,
          placeCmd_placed⟩
        · refine congrArg Host.Outcome.next ?_
          rw [hin]
        · exact congrArg (· ++ [OutMsg.command q seq true]) placeCmd_out
      · refine congrArg Host.Outcome.next ?_
        have hin : s.commandIn q cmd = (s, false) := if_pos hor
        rw [hin]

end Sys2Proof.Machine

/-! SUPPORT. The management commands, suspends and the reset of a VF (17_context R299, R300, 19_queue R325 to R328). -/

namespace Sys2Proof.Machine

open Sys2Proof

section
variable {s u : State} {q c n : Nat}

/-! ### Management commands (R325) -/

/-- A queue's next command is management subcode `n`, and may run. -/
def State.Asked (s : State) (q c n : Nat) : Prop :=
  s.nextCmd q = some c ∧ cmdFormOk c = true ∧ (c / 256 % 2 = 0 ∨ s.drained q = true) ∧ c % 256 = 5 ∧ c / 2 ^ 64 % 256 = n

theorem mgmt_asked (h : s.Asked q c n) (act : Nat → Option State) :
    s.mgmt q n act = if (s.queue q).vf ≠ 0 then s.cmdFail q 2 0
      else (act c).getD (s.cmdFail q 12 (BitVec.ofNat 64 (argA c))) := by
  obtain ⟨hn, hf, hd, hop, hsub⟩ := h
  rw [State.mgmt, command_runs hn (mgmtIs_of hop hsub) hd hf]
  split
  · rfl
  · cases act c <;> rfl

theorem mgmt_priv (h : s.Asked q c n) (hvf : (s.queue q).vf ≠ 0) (act : Nat → Option State) :
    s.mgmt q n act = s.cmdFail q 2 0 := (mgmt_asked h act).trans (if_pos hvf)

theorem mgmt_acts (h : s.Asked q c n) (hvf : (s.queue q).vf = 0) {act : Nat → Option State} (ha : act c = some u) :
    s.mgmt q n act = u := by
  rw [mgmt_asked h, if_neg (not_not_intro hvf), ha, Option.getD_some]

theorem mgmt_refuses (h : s.Asked q c n) (hvf : (s.queue q).vf = 0) {act : Nat → Option State} (ha : act c = none) :
    s.mgmt q n act = s.cmdFail q 12 (BitVec.ofNat 64 (argA c)) := by
  rw [mgmt_asked h, if_neg (not_not_intro hvf), ha, Option.getD_none]

theorem argA_lt (c : Nat) : argA c < 2 ^ 64 := Nat.mod_lt _ (by decide)
theorem argB_lt (c : Nat) : argB c < 2 ^ 64 := Nat.mod_lt _ (by decide)

/-! ### Contexts of a queue's work -/

theorem State.ctx_stopQueue (k j : Nat) : (s.stopQueue k).ctx j = s.ctx j := by
  unfold State.stopQueue
  dsimp only
  split
  · exact State.ctx_setQueue ..
  · exact State.ctx_setQueue ..
  · exact State.ctx_setQueue ..
  · rfl

theorem State.ctx_restartQueue (k j : Nat) : (s.restartQueue k).ctx j = s.ctx j := State.ctx_setQueue ..

/-- The queue whose command blocks. -/
theorem cmdBlock_queue (b : Block) : (s.cmdBlock q b).queue q = { s.queue q with st := .blocked, block := some b } :=
  State.queue_setQueue_same _ _

theorem ctx_cmdBlock (b : Block) (j : Nat) : (s.cmdBlock q b).ctx j = s.ctx j := State.ctx_setQueue ..

theorem freeCtx_free (c : Nat) : (s.freeCtx c).ctx c = {} := by
  rw [State.freeCtx]
  exact (State.ctx_setCtx ..).trans (if_pos rfl)

theorem destroyQueue_free (q : Nat) : ((s.destroyQueue q).queue q).st = .free := by
  rw [State.destroyQueue]
  exact congrArg Queue.st (State.queue_setQueue_same _ _)

/-- A suspended context made LIVE: its formats are read back, and its stopped queues go on (17_context R300). -/
def State.resumed (s : State) (a : Nat) : State :=
  let t := (s.fmtImageRead a).setCtx a { (s.fmtImageRead a).ctx a with st := .live }
  (t.queues.filter fun e => decide (e.2.ctx = a) && decide (e.2.st = .stopped)).foldl (fun s e => s.restartQueue e.1) t

theorem resumed_live (a : Nat) : ((s.resumed a).ctx a).st = .live := by
  rw [State.resumed]
  refine (foldl_same (g := fun t : State => (t.ctx a).st)
    (fun t (e : Nat × Queue) => congrArg Ctx.st (State.ctx_restartQueue e.1 a)) _ _).trans ?_
  exact congrArg Ctx.st ((State.ctx_setCtx ..).trans (if_pos rfl))

/-- Settles O41: each command by what its action answers. -/
theorem management : Obligations.Management := by
  unfold Obligations.Management
  intro s q c n a b asked now
  have hact : ∀ {u act}, now → act c = some u → s.mgmt q n act = u := fun h ha => mgmt_acts h.1 h.2 ha
  have hrefuse : ∀ {act}, now → act c = none → s.mgmt q n act = s.cmdFail q 12 (BitVec.ofNat 64 a) :=
    fun h ha => mgmt_refuses h.1 h.2 ha
  refine ⟨fun h hvf i k hi hk => ?_, fun h hn x ha hst hown himg => ?_, fun h hn hor => ?_, fun h hn ha hst hsus => ?_,
    fun h hn ha hst hsus => ?_, fun h hn ha hst => ?_, fun h hn ha hst => ?_, fun h hn ha hst => ?_, fun h hn ha hst => ?_,
    fun h hn ha hst hk => ?_, fun h hn ha hst hk => ?_, fun h hn => ?_, fun h hn ha hst h1 h2 h3 => ?_, fun h hn ha hst => ?_,
    fun h hn ha hst => ?_, fun h hn ha h1 h2 h3 h4 h5 h6 => ?_, fun h hn => ?_, fun h hn => ?_⟩
  · subst hk
    fin_cases hi <;> exact congrArg Host.Outcome.next (mgmt_priv h hvf _)
  · subst hn
    refine congrArg Host.Outcome.next (hact h ((if_neg ?_).trans ?_))
    · simp [a, b, hst, hown, Nat.not_le.2 ha]
    · rw [himg]
      rfl
  · subst hn
    refine congrArg Host.Outcome.next (hrefuse h (if_pos ?_))
    exact hor.imp_right .inl
  · subst hn
    refine ⟨_, congrArg Host.Outcome.next (hact h ((if_neg (not_or.2 ⟨Nat.not_le.2 ha, not_not_intro hst⟩)).trans
      (if_neg (by rw [hsus]; decide)))), ?_, ?_, ?_⟩
    · rw [ctx_cmdBlock, State.ctx_setCtx, if_pos rfl]
    · rw [cmdBlock_queue]
    · rw [cmdBlock_queue]
  · subst hn
    refine congrArg Host.Outcome.next (hact h ((if_neg (not_or.2 ⟨Nat.not_le.2 ha, not_not_intro hst⟩)).trans (if_pos ?_)))
    exact Option.isSome_iff_ne_none.2 hsus
  · subst hn
    refine congrArg Host.Outcome.next (hact h ((if_neg (Nat.not_le.2 ha)).trans ?_))
    rw [hst]
  · subst hn
    refine ⟨s.resumed a, congrArg Host.Outcome.next (hact h ((if_neg (Nat.not_le.2 ha)).trans ?_)), resumed_live a⟩
    rw [hst]
    rfl
  · subst hn
    intro u
    refine congrArg Host.Outcome.next (hact h ((if_neg (Nat.not_le.2 ha)).trans ?_))
    rcases hst with hst | hst <;> rw [hst]
  · subst hn
    refine congrArg Host.Outcome.next (hact h ((if_neg (Nat.not_le.2 ha)).trans ?_))
    rw [hst]
  · subst hn
    refine ⟨congrArg Host.Outcome.next (hact h ((if_neg (Nat.not_le.2 ha)).trans ?_)), freeCtx_free a⟩
    rw [hst]
    exact if_pos hk
  · subst hn
    refine congrArg Host.Outcome.next (hrefuse h ((if_neg (Nat.not_le.2 ha)).trans ?_))
    rw [hst]
    exact if_neg (by rw [hk]; decide)
  · subst hn
    intro id x v h1 h2 h3 h4 hctx hq hmine hvf hb hc hown hown' made
    refine congrArg Host.Outcome.next (hact h (if_neg ?_))
    have hroom := Nat.not_le.2 hmine
    simp only [not_or, Bool.not_eq_true', not_not]
    refine ⟨h1, h2, Nat.not_lt.2 h3, Nat.not_lt.2 h4, hctx, hq, hroom, hvf, hb, hc, ?_, ?_⟩
    · rw [show s.ownAddr (argB c) _ = true from hown]
      decide
    · rw [show s.ownAddr (argC c) _ = true from hown']
      decide
  · subst hn
    refine congrArg Host.Outcome.next (hact h ((if_neg ?_).trans ?_))
    · simp [a, b, hst, h1, h2, h3, Nat.not_le.2 ha]
    · have hep : bits b 11 0 = b % 4096 := by simp [bits]
      rw [← hep]
  · subst hn
    refine ⟨congrArg Host.Outcome.next (hact h ((if_neg (Nat.not_le.2 ha)).trans ?_)), destroyQueue_free a⟩
    rcases hst with hst | hst <;> rw [hst]
  · subst hn
    refine congrArg Host.Outcome.next (hrefuse h ((if_neg (Nat.not_le.2 ha)).trans ?_))
    rw [hst]
  · subst hn
    intro v
    refine congrArg Host.Outcome.next (hact h ((if_neg ?_).trans ?_))
    · simp only [not_or]
      exact ⟨Nat.not_le.2 ha, not_not_intro h1, not_not_intro h2, Nat.one_le_iff_ne_zero.1 h3, Nat.not_lt.2 h4, not_not_intro h5,
        Nat.not_lt.2 h6⟩
    · have hslots : bits b 23 0 = b % 2 ^ 24 := by simp [bits]
      rw [hslots]
  · subst hn
    intro x y cmds hst hctx hcmds hown hpeer e
    have hep : bits a 11 0 = a % 4096 := by simp [bits]
    have hok : ¬((s.ep (bits a 11 0)).st ≠ .free ∨ (s.ctx x).st ≠ .live ∨
        (cmds = true ∧ (y.st = .free ∨ y.devFed = true ∨ y.ctx ≠ x)) ∨ (!s.ownAddr b 64) = true) := by
      rw [hep]
      simp only [not_or, not_and, not_not, hst, hctx, hown, Bool.not_true, Bool.false_eq_true, not_false_eq_true, true_and, and_true]
      intro hc
      obtain ⟨hq, hf, hx⟩ := hcmds hc
      exact ⟨hq, by simp [hf], hx⟩
    have hpeer' : ¬s.memRead (b % 2 ^ 40) 64 / 2 ^ 192 ≠ 0 := not_not_intro (Nat.div_eq_of_lt hpeer)
    refine ⟨fun hbusy => ⟨(Config.freeValue s.free).toNat % 2 ^ 64, congrArg Host.Outcome.next (hact h ((if_neg hok).trans
      ((if_neg hpeer').trans ((if_neg ?_).trans ?_))))⟩, fun hbusy => congrArg Host.Outcome.next (hact h ((if_neg hok).trans
      ((if_neg hpeer').trans (if_pos ?_))))⟩
    · rw [hep, hbusy]
      decide
    · rw [hep]
    · rw [hep, hbusy]
  · subst hn
    intro e u
    have hep : bits a 11 0 = a % 4096 := by simp [bits]
    refine ⟨fun hst => congrArg Host.Outcome.next (hact h ?_), fun hst hbusy => congrArg Host.Outcome.next (hact h ?_),
      fun hst hbusy => congrArg Host.Outcome.next (hact h ?_)⟩ <;>
      simp only [← show a = argA c from rfl, hep, ← show e = s.ep (a % 4096) from rfl, hst]
    · rfl
    · have hfree : ∀ t : State, t.cores = s.cores → ¬t.epBusy (a % 4096) = true := fun t ht => by
        rw [State.epBusy, ht, ← State.epBusy, hbusy]
        decide
      rw [if_neg (hfree (s.forget _) rfl)]
      exact congrArg some (if_neg (hfree _ rfl))
    · have hheld : ∀ t : State, t.cores = s.cores → t.epBusy (a % 4096) = true := fun t ht => by
        rw [State.epBusy, ht, ← State.epBusy, hbusy]
      rw [if_pos (hheld (s.forget _) rfl)]
      exact congrArg some (if_pos (hheld _ rfl))

end
end Sys2Proof.Machine
/-! SUPPORT. Suspends and the phases of a VF reset (17_context R300, R308, 19_queue R327). -/

namespace Sys2Proof.Machine

open Sys2Proof

section
variable {s u v : State} {q c k : Nat}

/-- What one step of a fold brings about, and the others keep, holds at the end. -/
theorem foldl_reaches {α : Type} {f : State → α → State} {I P : State → Prop} {l : List α} {a : α} (ha : a ∈ l)
    (hI : ∀ s b, I s → I (f s b)) (hP : ∀ s, I s → P (f s a)) (hkeep : ∀ s b, P s → P (f s b)) (h : I s) :
    P (l.foldl f s) := by
  have hrest : ∀ (l : List α) s, P s → P (l.foldl f s) := fun l => by
    induction l with
    | nil => exact fun _ h => h
    | cons b l ih => exact fun s h => ih _ (hkeep s b h)
  induction l generalizing s with
  | nil => exact absurd ha List.not_mem_nil
  | cons b l ih =>
    rcases List.mem_cons.1 ha with rfl | ha
    · exact hrest l _ (hP s h)
    · exact ih ha (hI s b h)

/-! ### What memory and cores alone change -/

/-- Memory and the cores alone have changed, with the poison and the count of writes. -/
def OnlyCores (s t : State) : Prop := { t with mem := s.mem, poison := s.poison, moment := s.moment, cores := s.cores } = s

theorem OnlyCores.field {α : Type} (h : OnlyCores s u) (g : State → α)
    (hg : ∀ (u : State) m p n c, g { u with mem := m, poison := p, moment := n, cores := c } = g u) : g u = g s :=
  (hg u _ _ _ _).symm.trans (congrArg g h)

theorem OnlyMem.onlyCores (h : OnlyMem s u) : OnlyCores s u := h.rest

theorem OnlyCores.trans (h : OnlyCores s u) (h' : OnlyCores u v) : OnlyCores s v := by
  have hu : ({ v with mem := u.mem, poison := u.poison, moment := u.moment, cores := u.cores } : State) = u := h'
  have hv := congrArg (fun x : State => ({ x with mem := s.mem, poison := s.poison, moment := s.moment, cores := s.cores } : State)) hu
  exact hv.trans h

theorem OnlyCores.foldl {α : Type} {f : State → α → State} (h : ∀ s a, OnlyCores s (f s a)) (l : List α) (s : State) :
    OnlyCores s (l.foldl f s) := by
  induction l generalizing s with
  | nil => exact rfl
  | cons a l ih => exact (h s a).trans (ih _)

theorem onlyCores_feedback (ctx : Nat) (r : BitVec 128) : OnlyCores s (s.feedback ctx r) := by
  unfold State.feedback
  dsimp only
  split
  · exact rfl
  · split
    · exact (onlyMem_memPut ..).onlyCores.trans (onlyMem_memPut ..).onlyCores
    · exact (onlyMem_memPut ..).onlyCores.trans (onlyMem_memPut ..).onlyCores

theorem onlyCores_feedbackAll (ctx : Nat) : OnlyCores s (s.feedbackAll ctx) := by
  unfold State.feedbackAll
  refine OnlyCores.foldl (fun t e => ?_) _ _
  exact OnlyCores.trans (u := t.setCore _ _) rfl (OnlyCores.foldl (fun _ _ => onlyCores_feedback ..) _ _)

/-! ### What freeing a context leaves -/

/-- A field that freeing a context leaves: one that no cluster, core, context or byte of memory makes up. -/
theorem freeCtx_field {α : Type} (j : Nat) (g : State → α)
    (hg : ∀ (u : State) m p n c l x, g { u with mem := m, poison := p, moment := n, cores := c, clus := l, ctxs := x } = g u) :
    g (s.freeCtx j) = g s := by
  rw [State.freeCtx]
  refine ((onlyMem_setCtx ..).onlyCores.field g fun u m p n c => hg u m p n c u.clus u.ctxs).trans ?_
  refine Eq.trans ?_ (OnlyCores.field (onlyCores_feedbackAll j) g fun u m p n c => hg u m p n c u.clus u.ctxs)
  generalize s.feedbackAll j = t
  exact hg t _ _ _ _ _ _

theorem ctx_freeCtx (j k : Nat) : (s.freeCtx j).ctx k = if k = j then {} else s.ctx k := by
  rw [State.freeCtx]
  refine (State.ctx_setCtx ..).trans ?_
  exact congrArg (fun x => if k = j then ({} : Ctx) else x)
    ((onlyCores_feedbackAll j).field (fun u : State => u.ctx k) fun _ _ _ _ _ => rfl)

theorem ctx_destroyQueue (j k : Nat) : (s.destroyQueue j).ctx k = s.ctx k := State.ctx_setQueue ..

theorem queue_destroyQueue (j k : Nat) : ((s.destroyQueue j).queue k).st = if k = j then .free else (s.queue k).st := by
  rw [State.destroyQueue]
  refine (congrArg Queue.st (State.queue_setQueue ..)).trans ?_
  split <;> rfl

/-- The destruction of a queue leaves what no kernel, queue, endpoint, answer or byte of memory makes up. -/
theorem destroyQueue_field {α : Type} (j : Nat) (g : State → α)
    (hg : ∀ (u : State) m p n c a x q e, g { u with
      mem := m, poison := p, moment := n, cores := c, kernels := x, queues := q, eps := e,
      dev := { u.dev with answers := a } } = g u) :
    g (s.destroyQueue j) = g s := by
  rw [State.destroyQueue]
  refine ((onlyMem_setQueue ..).onlyCores.field g fun u m p n c => hg u m p n c u.dev.answers u.kernels u.queues u.eps).trans ?_
  exact hg s _ _ _ _ _ _ _ _

/-! ### The phases -/

theorem mem_vfCtxs (hvf : (s.ctx k).vf = c) (hst : (s.ctx k).st ≠ .free) : k ∈ s.vfCtxs c := by
  have hmem : (k, s.ctx k) ∈ s.ctxs := tget_mem fun h => hst (congrArg Ctx.st h)
  exact List.mem_map.2 ⟨_, List.mem_filter.2 ⟨hmem, by simp [hvf, hst]⟩, rfl⟩

theorem ctx_kill_other (j : Nat) (note : Option KillNote) (killer : Option Nat) (h : k ≠ j) :
    (s.kill j note killer).ctx k = s.ctx k := by
  by_cases hl : (s.ctx j).st = .live ∨ (s.ctx j).st = .suspended
  · simp only [State.kill, if_pos hl]
    refine (State.ctx_setCtx ..).trans ((if_neg h).trans ?_)
    refine Eq.trans (b := State.ctx (List.foldl _ _ _) k) rfl ?_
    refine (foldl_same (g := fun t : State => t.ctx k) (f := fun t (e : Nat × Layer) => t.retireLayer e.1)
      (fun _ _ => rfl) _ _).trans ?_
    exact foldl_same (g := fun t : State => t.ctx k) (fun t (e : Nat × Queue) => State.ctx_setQueue ..) _ _
  · rw [State.kill, if_neg hl]

/-- A context that is dead stays so, whatever is killed. -/
theorem kill_dead (j : Nat) (h : (s.ctx k).st = .dead) : ((s.kill j none none).ctx k).st = .dead := by
  by_cases hj : k = j
  · subst hj
    rw [State.kill, if_neg (by rw [h]; decide), h]
  · rw [ctx_kill_other j none none hj, h]

/-- The word of an entry, and what stands of it in the image, zeroed (05_formats R97). -/
def State.scrubFmt (s : State) (c i : Nat) : State :=
  if (s.ctx c).fmtWord i = 0 then s
  else (s.memPut ((s.ctx c).image % 2 ^ 40 + 8 * i) 8 0).memWrite none ((s.ctx c).slotAddr i 0) (List.replicate 2048 0)

theorem scrubFmts_eq (c : Nat) : s.scrubFmts c =
    let t := ((List.range 24).map (· + 8)).foldl (fun t i => t.scrubFmt c i) s
    t.setCtx c { t.ctx c with fmts := [] } := rfl

theorem onlyCores_scrubFmt (c i : Nat) : OnlyCores s (s.scrubFmt c i) := by
  unfold State.scrubFmt
  split
  · exact rfl
  · exact (onlyMem_memPut ..).onlyCores.trans (onlyMem_memWrite ..).onlyCores

theorem sameParts_scrubFmt (c i : Nat) : SameParts s (s.scrubFmt c i) := by
  unfold State.scrubFmt
  split
  · exact .of_cores rfl
  · exact (SameParts.of_onlyMem (onlyMem_memPut ..)).trans (.of_onlyMem (onlyMem_memWrite ..))

theorem SameParts.foldl {α : Type} {f : State → α → State} (h : ∀ s a, SameParts s (f s a)) (l : List α) (s : State) :
    SameParts s (l.foldl f s) := by
  induction l generalizing s with
  | nil => exact .of_cores rfl
  | cons a l ih => exact (h s a).trans (ih _)

theorem sameParts_setCtx (c : Nat) (x : Ctx) : SameParts s (s.setCtx c x) :=
  SameParts.trans (u := { s with ctxs := tput s.ctxs c x }) (.of_cores rfl) (.of_onlyMem (onlyMem_setCtx c x))

theorem sameParts_scrubFmts (c : Nat) : SameParts s (s.scrubFmts c) := by
  rw [scrubFmts_eq]
  have h := SameParts.foldl (fun t i => sameParts_scrubFmt (s := t) c i) ((List.range 24).map (· + 8)) s
  dsimp only
  generalize ((List.range 24).map (· + 8)).foldl (fun t i => t.scrubFmt c i) s = t at h ⊢
  exact h.trans (sameParts_setCtx c _)

theorem fmts_scrubFmts (c k : Nat) : ((s.scrubFmts c).ctx k).fmts = if k = c then [] else (s.ctx k).fmts := by
  have hkeep := (OnlyCores.foldl (fun t i => onlyCores_scrubFmt (s := t) c i) ((List.range 24).map (· + 8)) s).field
    (fun u : State => u.ctx k) fun _ _ _ _ _ => rfl
  rw [scrubFmts_eq]
  refine (congrArg Ctx.fmts (State.ctx_setCtx ..)).trans ?_
  split
  · rfl
  · exact congrArg Ctx.fmts hkeep

/-- A map that leaves the entries of a key. -/
theorem tget_map_at {α : Type} {d : α} {F : Nat × α → Nat × α} {j : Nat} (hkey : ∀ e, (F e).1 = e.1)
    (hF : ∀ x, F (j, x) = (j, x)) (m : Tab α) : tget d (m.map F) j = tget d m j := by
  induction m with
  | nil => rfl
  | cons e r ih =>
    simp only [List.map_cons, tget, hkey]
    split
    · rename_i he
      exact congrArg Prod.snd (he ▸ hF e.2 : F (e.1, e.2) = (e.1, e.2))
    · exact ih

/-- The cores of phase 3 before the format tables are scrubbed. -/
theorem core_vfScrub (w k : Nat) :
    ((s.scrubs w k = true → ((s.vfScrub w).core k).ls = [] ∧ ((s.vfScrub w).core k).acc = []) ∧
    (s.scrubs w k = false → ((s.vfScrub w).core k).ls = (s.core k).ls ∧ ((s.vfScrub w).core k).acc = (s.core k).acc)) := by
  rw [State.vfScrub]
  dsimp only
  have hparts := SameParts.foldl (fun t c => sameParts_scrubFmts (s := t) c)
  refine ⟨fun h => ?_, fun h => ?_⟩
  · rw [(hparts _ _).ls, (hparts _ _).acc]
    constructor
    · refine tget_map_of (P := fun c : Core => c.ls = []) (fun e => ?_) (fun x => ?_) rfl s.cores
      · split <;> rfl
      · rw [if_pos h]
    · refine tget_map_of (P := fun c : Core => c.acc = []) (fun e => ?_) (fun x => ?_) rfl s.cores
      · split <;> rfl
      · rw [if_pos h]
  · rw [(hparts _ _).ls, (hparts _ _).acc]
    have hsame := tget_map_at (d := ({} : Core)) (j := k) (F := fun (e : Nat × Core) => if s.scrubs w e.1 then (e.1, ({
        (e.2.wrote 5 (fun _ => true) 1).wrote 8 (fun _ => true) 0 with
          ls := [], lsPoison := [], acc := [], accPoison := [], lastVf := none
          errs := (((e.2.errs.wrote 5 (fun _ => true) 1).wrote 8 (fun _ => true) 0).wrote 0 (fun _ => true) 0) } : Core))
        else (e.1, e.2))
      (fun e => by dsimp only; split <;> rfl) (fun x => if_neg (by rw [h]; decide)) s.cores
    exact ⟨congrArg Core.ls hsame, congrArg Core.acc hsame⟩

/-- Phase 4, up to the queue the reset was asked by. -/
def State.vfFreed (s : State) (v : Nat) : State :=
  let s : State := { s with tags := s.tags.filter fun e => decide (e.vf ≠ v) }
  let s := (s.vfCtxs v).foldl State.freeCtx s
  (s.queues.filter fun e => decide (e.2.vf = v) && decide (e.2.st ≠ .free)).foldl (fun s e => s.destroyQueue e.1) s

theorem vfFreed_field {α : Type} (w : Nat) (g : State → α) (h1 : ∀ (t : State) j, g (t.freeCtx j) = g t)
    (h2 : ∀ (t : State) j, g (t.destroyQueue j) = g t) :
    g (s.vfFreed w) = g { s with tags := s.tags.filter fun e => decide (e.vf ≠ w) } := by
  rw [State.vfFreed]
  refine (foldl_same (g := g) (fun t (e : Nat × Queue) => h2 t e.1) _ _).trans ?_
  exact foldl_same (g := g) h1 _ _

theorem vfFree_free (w : Nat) (hq : s.dev.vfQueue = none) :
    s.vfFree w = { s.vfFreed w with dev := { (s.vfFreed w).dev with vfPhase := 0, vfQueue := none } } := by
  have hnone : (s.vfFreed w).dev.vfQueue = none := (vfFreed_field w (fun t => t.dev.vfQueue)
    (fun t j => freeCtx_field j (fun t => t.dev.vfQueue) fun _ _ _ _ _ _ _ => rfl)
    (fun t j => destroyQueue_field j (fun t => t.dev.vfQueue) fun _ _ _ _ _ _ _ _ _ => rfl)).trans hq
  rw [State.vfFree]
  exact congrArg (fun o : Option Nat => (match o with | some q => State.workDone _ q (.vf w) | none => _ : State)) hnone

theorem ctx_vfFreed (w : Nat) (hvf : (s.ctx k).vf = w) (hst : (s.ctx k).st ≠ .free) : ((s.vfFreed w).ctx k).st = .free := by
  rw [State.vfFreed]
  refine (foldl_same (g := fun t : State => (t.ctx k).st) (f := fun t (e : Nat × Queue) => t.destroyQueue e.1)
    (fun t e => congrArg Ctx.st (ctx_destroyQueue e.1 k)) _ _).trans ?_
  refine foldl_reaches (I := fun _ => True) (P := fun t : State => (t.ctx k).st = .free) (f := State.freeCtx) (mem_vfCtxs hvf hst)
    (fun _ _ _ => trivial) (fun t _ => ?_) (fun t j h => ?_) trivial
  · rw [ctx_freeCtx, if_pos rfl]
  · rw [ctx_freeCtx]
    split
    · rfl
    · exact h

theorem queue_vfFreed (w : Nat) (hvf : (s.queue k).vf = w) (hst : (s.queue k).st ≠ .free) :
    ((s.vfFreed w).queue k).st = .free := by
  rw [State.vfFreed]
  have hmem : (k, s.queue k) ∈ s.queues := tget_mem fun h => hst (congrArg Queue.st h)
  refine foldl_reaches (a := (k, s.queue k)) (I := fun _ => True) (P := fun t : State => (t.queue k).st = .free)
    (f := fun t (e : Nat × Queue) => t.destroyQueue e.1) (List.mem_filter.2 ⟨?_, by simp [hvf, hst]⟩)
    (fun _ _ _ => trivial) (fun t _ => ?_) (fun t e h => ?_) trivial
  · rw [foldl_same (g := State.queues) (f := State.freeCtx)
      (fun t j => freeCtx_field j (fun t => t.queues) fun _ _ _ _ _ _ _ => rfl)]
    exact hmem
  · rw [queue_destroyQueue, if_pos rfl]
  · rw [queue_destroyQueue]
    split
    · rfl
    · exact h

/-- Settles O42: the suspend, the command, and a case for each phase of the reset. -/
theorem suspendsAndResets : Obligations.SuspendsAndResets := by
  unfold Obligations.SuspendsAndResets
  refine fun s q c => ⟨fun hsus => ⟨fun hall => ?_, fun hall => ?_⟩, ⟨fun hst hb => ?_, fun h => ?_⟩,
    fun hn hf hd hop hsub hvf hpos hlt hb => ⟨fun hph => ?_, fun hph => ?_⟩, fun hph hgrace => ?_, fun hph hcount hkills => ?_,
    fun hph => ?_, fun hph hq => ?_⟩
  · intro u v
    simp only [exec, execSuspendComplete, hsus, hall, Bool.not_true, Bool.false_eq_true, if_false]
    rfl
  · simp only [exec, execSuspendComplete, hsus, hall, Bool.not_false, if_true]
  · exact if_pos ⟨hst, hb⟩
  · exact if_neg (not_and_or.2 h)
  · have hbits : bits (argB c) 63 16 = 0 := by simp [bits, Nat.div_eq_of_lt (show argB c < 65536 from hb)]
    refine congrArg Host.Outcome.next (mgmt_acts ⟨hn, hf, hd, hop, hsub⟩ hvf ((if_neg ?_).trans (if_neg (not_not_intro hph))))
    simp only [hbits, not_or]
    exact ⟨hpos.ne', Nat.not_le.2 hlt, not_not_intro rfl⟩
  · have hbits : bits (argB c) 63 16 = 0 := by simp [bits, Nat.div_eq_of_lt (show argB c < 65536 from hb)]
    refine congrArg Host.Outcome.next (mgmt_acts ⟨hn, hf, hd, hop, hsub⟩ hvf ((if_neg ?_).trans (if_pos hph)))
    simp only [hbits, not_or]
    exact ⟨hpos.ne', Nat.not_le.2 hlt, not_not_intro rfl⟩
  · refine ⟨_, congrArg Host.Outcome.next (if_pos ⟨hph, hgrace⟩), rfl, fun hlive hvf => ?_⟩
    have hmem : (c, s.ctx c) ∈ s.ctxs := tget_mem fun h => absurd (hlive.symm.trans (congrArg Ctx.st h)) (by decide)
    refine foldl_reaches (a := (c, s.ctx c)) (I := fun t : State => (t.ctx c).st = .live ∨ (t.ctx c).st = .dead)
      (P := fun t : State => (t.ctx c).st = .dead) (f := fun t (e : Nat × Ctx) => t.kill e.1 none none)
      (List.mem_filter.2 ⟨hmem, by simp [hvf, hlive]⟩) (fun t e h => ?_) (fun t h => ?_)
      (fun _ e h => kill_dead e.1 h) (.inl hlive)
    · by_cases he : c = e.1
      · rcases h with h | h
        · exact .inr (he ▸ (State.kill_spec c none none (.inl h)).1)
        · exact .inr (kill_dead e.1 h)
      · rw [ctx_kill_other e.1 none none he]
        exact h
    · rcases h with h | h
      · exact (State.kill_spec c none none (.inl h)).1
      · exact kill_dead c h
  · simp only [exec, execVfResetDrainDone, hph]
    refine congrArg Host.Outcome.next (if_pos ⟨hcount, List.all_eq_true.2 fun k hk => ?_⟩)
    obtain ⟨e, he, rfl⟩ := List.mem_map.1 hk
    obtain ⟨hmem, he⟩ := List.mem_filter.1 he
    simp only [Bool.and_eq_true, decide_eq_true_eq] at he
    exact hkills e hmem he.1 he.2
  · refine ⟨{ s.vfScrub s.dev.vfNo with dev := { (s.vfScrub s.dev.vfNo).dev with vfPhase := 4 } }, ?_, rfl,
      fun k => (core_vfScrub s.dev.vfNo k).1, fun k => (core_vfScrub s.dev.vfNo k).2, fun k hvf hst i hi => ?_⟩
    · simp only [exec, execVfResetDrainDone, hph]
    · have hnone : ((s.vfScrub s.dev.vfNo).ctx k).fmts = [] := by
        rw [State.vfScrub]
        refine foldl_reaches (I := fun _ => True) (P := fun t : State => (t.ctx k).fmts = [])
          (f := State.scrubFmts) (mem_vfCtxs hvf hst) (fun _ _ _ => trivial) (fun t _ => ?_) (fun t j h => ?_) trivial
        · rw [fmts_scrubFmts, if_pos rfl]
        · rw [fmts_scrubFmts]
          split
          · rfl
          · exact h
      rw [Ctx.fmtWord, if_neg (Nat.not_lt.2 hi)]
      exact congrArg (fun m : Tab FmtEnt => (tget {} m i).word) hnone
  · refine ⟨{ s.vfFreed s.dev.vfNo with dev := { (s.vfFreed s.dev.vfNo).dev with vfPhase := 0, vfQueue := none } }, ?_, ?_⟩
    · simp only [exec, execVfResetDrainDone, hph]
      rw [vfFree_free _ hq]
    · refine ⟨rfl, fun e he => ?_, fun _ => ctx_vfFreed _, fun _ => queue_vfFreed _⟩
      have htags := vfFreed_field (s := s) s.dev.vfNo (fun t => t.tags)
        (fun t j => freeCtx_field j (fun t => t.tags) fun _ _ _ _ _ _ _ => rfl)
        (fun t j => destroyQueue_field j (fun t => t.tags) fun _ _ _ _ _ _ _ _ _ => rfl)
      have he' : e ∈ (s.vfFreed s.dev.vfNo).tags := he
      rw [htags] at he'
      simpa using (List.mem_filter.1 he').2

end
end Sys2Proof.Machine

/-! SUPPORT. A group's life: admission, placement, its end, and its save (16_group R283 to R296, 17_context R308). -/

namespace Sys2Proof.Machine

open Sys2Proof

section
variable {s u v : State} {ser g clu f k0 area : Nat} {grp : Group}

/-! ### The first task of a placed group (R286) -/

/-- The lowest slot of a group's first core is one of its threads. -/
theorem Group.first_thread {sl : List Nat} {rest : List (List Nat)} (h : grp.slots = sl :: rest) (hk : k0 ∈ sl) :
    (grp.clu * 8 + grp.first + 0) * 8 + k0 ∈ grp.threads := by
  rw [Group.threads, h]
  exact List.mem_flatten.2 ⟨_, List.mem_map.2 ⟨(sl, 0), List.mem_cons_self, rfl⟩, List.mem_map.2 ⟨k0, hk, rfl⟩⟩

/-- A fold of writes of one thread record to a list of slots. -/
theorem thread_foldl_setThread (th : Thread) (l : List Nat) {n : Nat} (hn : n ∈ l) :
    (l.foldl (fun s t => s.setThread t th) s).thread n = th := by
  refine foldl_reaches (I := fun _ => True) (P := fun t : State => t.thread n = th) hn (fun _ _ _ => trivial)
    (fun t _ => State.thread_setThread_same _ _ _) (fun t j h => ?_) trivial
  rw [State.thread_setThread]
  split
  · rfl
  · exact h

/-- What a placement puts the group's slots in order with, before its first task starts (R283, R286). -/
def State.placing (s : State) (ser g clu f : Nat) (grp x : Group) : State :=
  let k := s.kernel ser
  let s := s.unregister k.ctx grp.inputs
  let s := s.setGroup ser g x
  let s := (List.range (k.w * k.p)).foldl (fun s i =>
    let core := clu * 8 + f + i
    let c := s.core core
    let c : Core := if 0 < k.b then { (if c.lsCtx = some k.ctx then c else c.zeroRegion k.b) with lsCtx := some k.ctx } else c
    let c : Core := if c.partCtx = some k.ctx then c else c.setPart [] []
    s.setCore core { c with partCtx := some k.ctx, lastVf := some k.vf }) s
  let s := x.threads.foldl (fun s t => s.setThread t { grp := some (ser, g) }) s
  let low := fun (c : Nat) => (clu * 8 + f + c) * 8 + ((x.slots.getD c []).headD 0)
  let links := ((List.range k.w).map fun l => (List.range (k.p - 1)).map fun st =>
    ({ ctx := k.ctx, src := low (st * k.w + l), dst := low ((st + 1) * k.w + l) } : Link)).flatten
  { s with links := s.links ++ links }

/-- A group as it is placed on a run of cores. -/
def State.placedGroup (s : State) (ser clu f : Nat) (grp : Group) : Group :=
  { grp with
    st := .placed, clu := clu, first := f, placedAt := s.cycle, failing := none
    slots := (List.range ((s.kernel ser).w * (s.kernel ser).p)).map fun c =>
      (s.freeSlots (clu * 8 + f + c) (s.kernel ser).prio).take (s.kernel ser).n }

theorem place_eq (hg : s.group? ser g = some grp) :
    s.place ser g clu f =
      let x := s.placedGroup ser clu f grp
      let t := (clu * 8 + f + 0) * 8 + ((x.slots.getD 0 []).headD 0)
      let k := s.kernel ser
      let v := (s.placing ser g clu f grp x).startThread t k.code k.args k.ctx k.vf
      if k.sys then v.setThread t { v.thread t with tstate := 4, startSys := true } else v := by
  rw [State.place]
  simp only [hg]
  rfl

/-- The slots of the first core begin with its lowest free one. -/
theorem placedGroup_slots {rest : List Nat} (hn : 1 ≤ (s.kernel ser).n) (hm : 1 ≤ (s.kernel ser).w * (s.kernel ser).p)
    (hfree : s.freeSlots (clu * 8 + f) (s.kernel ser).prio = k0 :: rest) :
    ∃ sl r, (s.placedGroup ser clu f grp).slots = (k0 :: sl) :: r := by
  obtain ⟨m, hm⟩ := Nat.exists_eq_add_of_le' hm
  obtain ⟨n, hn⟩ := Nat.exists_eq_add_of_le' hn
  refine ⟨rest.take n, (List.map Nat.succ (List.range m)).map fun c =>
    (s.freeSlots (clu * 8 + f + c) (s.kernel ser).prio).take (n + 1), ?_⟩
  rw [State.placedGroup, hm, List.range_succ_eq_map, List.map_cons, Nat.add_zero, hfree, hn, List.take_succ_cons]

theorem startThread_placed {rest : List Nat} (hg : s.group? ser g = some grp) (hargs : (s.kernel ser).args.length = 4)
    (hn : 1 ≤ (s.kernel ser).n) (hm : 1 ≤ (s.kernel ser).w * (s.kernel ser).p)
    (hfree : s.freeSlots (clu * 8 + f) (s.kernel ser).prio = k0 :: rest) :
    let th := (s.place ser g clu f).thread ((clu * 8 + f) * 8 + k0)
    th.st = .runnable ∧ th.pc = (s.kernel ser).code ∧ th.ctx = (s.kernel ser).ctx ∧ th.vf = (s.kernel ser).vf ∧
      th.grp = some (ser, g) ∧ th.tstate = (if (s.kernel ser).sys then 4 else 0) ∧
      ∀ j : Nat, j < 4 → th.readS (BitVec.ofNat 5 (j + 1)) = (s.kernel ser).args.getD j 0 := by
  intro th
  obtain ⟨sl, r, hslots⟩ := placedGroup_slots (grp := grp) hn hm hfree
  obtain ⟨a, b, c, d, hargs⟩ : ∃ a b c d, (s.kernel ser).args = [a, b, c, d] := by
    match h : (s.kernel ser).args, hargs with
    | [a, b, c, d], _ => exact ⟨a, b, c, d, rfl⟩
  have hlow : (clu * 8 + f + 0) * 8 + (((s.placedGroup ser clu f grp).slots.getD 0 []).headD 0) = (clu * 8 + f) * 8 + k0 := by
    rw [hslots]
    rfl
  have hmem : (clu * 8 + f) * 8 + k0 ∈ (s.placedGroup ser clu f grp).threads :=
    Group.first_thread (grp := s.placedGroup ser clu f grp) hslots List.mem_cons_self
  have hgrp : ((s.placing ser g clu f grp (s.placedGroup ser clu f grp)).thread ((clu * 8 + f) * 8 + k0)).grp = some (ser, g) := by
    rw [State.placing]
    exact congrArg Thread.grp (thread_foldl_setThread _ _ hmem)
  have hfresh : th =
      let w := freshThread (s.kernel ser).code (s.kernel ser).ctx (s.kernel ser).vf (some (ser, g))
        (s.placing ser g clu f grp (s.placedGroup ser clu f grp)).births a b c d
      if (s.kernel ser).sys then { w with tstate := 4, startSys := true } else w := by
    have hth : th = (s.place ser g clu f).thread ((clu * 8 + f) * 8 + k0) := rfl
    rw [hth, place_eq hg]
    dsimp only
    rw [hlow, hargs]
    split
    · rw [State.thread_setThread_same, State.startThread_thread, hgrp]
    · rw [State.startThread_thread, hgrp]
  obtain ⟨h1, h2, h3, h4⟩ := freshThread_readS_args (s.kernel ser).code a b c d (s.kernel ser).ctx (s.kernel ser).vf
    (s.placing ser g clu f grp (s.placedGroup ser clu f grp)).births (some (ser, g))
  clear_value th
  subst hfresh
  dsimp only
  have hread : ∀ w : Thread, w.readS 1 = a → w.readS 2 = b → w.readS 3 = c → w.readS 4 = d → ∀ j : Nat, j < 4 →
      w.readS (BitVec.ofNat 5 (j + 1)) = (s.kernel ser).args.getD j 0 := fun w h1 h2 h3 h4 j hj => by
    rw [hargs]
    match j, hj with
    | 0, _ => exact h1
    | 1, _ => exact h2
    | 2, _ => exact h3
    | 3, _ => exact h4
  cases (s.kernel ser).sys
  · exact ⟨rfl, rfl, rfl, rfl, rfl, rfl, hread _ h1 h2 h3 h4⟩
  · exact ⟨rfl, rfl, rfl, rfl, rfl, rfl, hread _ h1 h2 h3 h4⟩

/-! ### The save (R295, R308) -/

theorem queueRead_clean {core : Nat} (hf : (s.core core).errs.faults = []) (hb : (s.core core).bad = []) (e : MEnt) :
    s.queueRead core e = s := by
  simp only [State.queueRead, arrayTouch_clean hf, ite_self, hb, List.find?_nil]

theorem matrixTouch_clean {core : Nat} (hf : (s.core core).errs.faults = []) (hb : (s.core core).bad = []) (ctx : Nat) :
    s.matrixTouch core ctx = s := by
  rw [State.matrixTouch, arrayTouch_clean hf]
  generalize (s.core core).mq = l
  induction l with
  | nil => rfl
  | cons e l ih => rw [List.foldl_cons, queueRead_clean hf hb, ih]

/-- A fold of steps that each leave the state. -/
theorem foldl_stays {α : Type} {F : State → α → State} {l : List α} (h : ∀ a ∈ l, F s a = s) : l.foldl F s = s := by
  induction l with
  | nil => rfl
  | cons a l ih =>
    rw [List.foldl_cons, h a List.mem_cons_self]
    exact ih fun b hb => h b (List.mem_cons_of_mem _ hb)

/-- A save of cores nothing is injected in finds their arrays as they are. -/
theorem saveTouch_clean {ctx b : Nat} {sole : List Nat}
    (hc : ∀ c ∈ grp.cores, (s.core c).errs.faults = [] ∧ (s.core c).bad = [])
    (ht : ∀ n ∈ grp.threads, (s.core (coreOf n)).bad = []) :
    s.saveTouch ctx b sole grp = s := by
  rw [State.saveTouch]
  dsimp only
  have hcores : grp.cores.foldl (fun (s : State) core =>
      let s := s.arrayTouch core 0 (fun k => decide (k < b)) ctx
      let s := s.arrayTouch core 5 (fun k => grp.threads.contains (core * 8 + k / 128)) ctx
      if sole.contains core then s.matrixTouch core ctx else s) s = s := foldl_stays fun c hm => by
    obtain ⟨hf, hb⟩ := hc c hm
    simp only [arrayTouch_clean hf, matrixTouch_clean hf hb, ite_self]
  rw [hcores]
  refine foldl_stays fun n hn => ?_
  rw [ht n hn]
  rfl

end
end Sys2Proof.Machine
/-! SUPPORT. The save of a group, and the steps of its life (16_group R289 to R296, 17_context R308). -/

namespace Sys2Proof.Machine

open Sys2Proof

section
variable {s u v : State} {ser g clu f k0 area : Nat} {grp : Group}

theorem OnlyMem.refl : OnlyMem s s := ⟨rfl, fun _ => rfl⟩

theorem OnlyMem.trans (h : OnlyMem s u) (h' : OnlyMem u v) : OnlyMem s v where
  rest := h.onlyCores.trans h'.onlyCores
  core k := by
    have hu := congrArg (fun c : Core => ({ c with path := (s.core k).path } : Core)) (h'.core k)
    exact Eq.trans (b := ({ u.core k with path := (s.core k).path } : Core)) hu (h.core k)

theorem OnlyMem.foldl {α : Type} {F : State → α → State} (h : ∀ s a, OnlyMem s (F s a)) (l : List α) (s : State) :
    OnlyMem s (l.foldl F s) := by
  induction l generalizing s with
  | nil => exact .refl
  | cons a l ih => exact (h s a).trans (ih _)

theorem OnlyMem.poisoned (h : OnlyMem s u) (p : List Nat) : OnlyMem s { u with poison := p } := ⟨h.rest, h.core⟩

theorem onlyMem_matrixImage (a : Nat) (q : List MEnt) (sp : List (BitVec 1024)) (acc : Tab (BitVec 32)) (bad : List Nat) :
    OnlyMem s (s.matrixImage a q sp acc bad) := (onlyMem_memWrite ..).poisoned _

/-- The save area alone is written (R308). -/
theorem onlyMem_writeSave : OnlyMem s (s.writeSave ser g grp) := by
  rw [State.writeSave]
  refine .trans ?_ (.foldl (fun s i => onlyMem_memPut ..) _ _)
  refine .trans ?_ (.foldl (fun s e => ?_) _ _)
  · refine .trans ?_ (.foldl (fun s i => (onlyMem_memWrite ..).poisoned _) _ _)
    refine .trans ?_ (.foldl (fun s e => onlyMem_matrixImage ..) _ _)
    exact .trans (onlyMem_memPut ..) (.foldl (fun s e => onlyMem_memPut ..) _ _)
  · dsimp only
    split
    · exact onlyMem_memPut ..
    · exact onlyMem_memPut ..

/-- What a save keeps of a group (R308). -/
def State.savedOf (s : State) (ser g : Nat) (grp : Group) (area : Nat) : Saved :=
  let k := s.kernel ser
  let sole := s.soleCores ser g grp
  { area := area, threads := grp.threads.map (fun t => (t, (s.thread t).toSave)),
    waiting := grp.threads.filter fun t => decide ((s.thread t).st = .waiting),
    regions := grp.cores.map (fun c => (c, (s.core c).ls.filter fun e => decide (e.1 < k.b))),
    poison := grp.cores.map (fun c => (c, (s.core c).lsPoison.filter fun d => decide (d < k.b))),
    mpoison := sole.map (fun c => (c, (s.core c).accPoison)),
    spawns := (grp.cores.map fun c => ((s.core c).spawnQ.filter fun e => decide (e.owner.ctx = k.ctx)).map fun e => (c, e)).flatten,
    mcores := sole, mstate := sole.map (fun c => (c, (s.core c).mq, (s.core c).acc)),
    mspill := sole.map fun c => (c, (s.core c).spill) }

/-- The state once a group's save stands in memory and in the group's record, its slots not yet released. -/
def State.saving1 (s : State) (ser g : Nat) (grp : Group) (area : Nat) : State :=
  let k := s.kernel ser
  let cx := s.ctx k.ctx
  let u := s.setCtx k.ctx { cx with areas := area :: cx.areas.filter fun a => decide (a ≠ area) }
  let u : State := { u with
    links := u.links.map fun (l : Link) =>
      if (grp.threads.contains l.src || grp.threads.contains l.dst) && !l.saved then
        ({ l with saved := true, grp := groupKey ser g } : Link) else l }
  let x : Group := { grp with st := .saved, saving := false, save := s.savedOf ser g grp area }
  (u.setGroup ser g x).writeSave ser g x

/-- A core lets go of what was saved of it. -/
def State.letGo (s : State) (sole : List Nat) (ctx c : Nat) : State :=
  let x := s.core c
  let x := { x with spawnQ := x.spawnQ.filter fun e => decide (e.owner.ctx ≠ ctx) }
  s.setCore c (if sole.contains c then { x with mq := [], spill := [], mqFrozen := x.mqStop } else x)

/-- The save of cores nothing is injected in, none of them fenced. -/
def State.savedState (s : State) (ser g : Nat) (grp : Group) (area : Nat) : State :=
  let k := s.kernel ser
  let u := grp.threads.foldl (fun s t => s.setThread t {}) (s.saving1 ser g grp area)
  let u := grp.cores.foldl (fun u c => u.letGo (s.soleCores ser g grp) k.ctx c) u
  (u.left grp.cores k.vf).preempted ser g { grp with st := .saved, saving := false, save := s.savedOf ser g grp area }

/-- A field of every core that a write of one core leaves. -/
theorem coreField_setCore {α : Type} (F : Core → α) {j : Nat} {x : Core} (h : F x = F (s.core j)) (c : Nat) :
    F ((s.setCore j x).core c) = F (s.core c) := by
  by_cases hc : c = j
  · subst hc
    rw [State.core_setCore_same, h]
  · rw [State.core_setCore_other _ _ hc]

theorem fenced_letGo (sole : List Nat) (ctx j c : Nat) : ((s.letGo sole ctx j).core c).fenced = (s.core c).fenced := by
  rw [State.letGo]
  refine coreField_setCore Core.fenced ?_ c
  dsimp only
  split <;> rfl

theorem fenced_left (l : List Nat) (vf c : Nat) : ((s.left l vf).core c).fenced = (s.core c).fenced := by
  rw [State.left]
  refine foldl_same (g := fun t : State => (t.core c).fenced) (fun t j => ?_) _ _
  refine coreField_setCore Core.fenced ?_ c
  rfl

theorem preempted_field {α : Type} (F : State → α) (hF : ∀ (t : State) d, F { t with dies := d } = F t) :
    F (s.preempted ser g grp) = F s := by
  rw [State.preempted]
  dsimp only
  split
  · exact hF s _
  · rfl

theorem fenced_savedState (c : Nat) : ((s.savedState ser g grp area).core c).fenced = (s.core c).fenced := by
  rw [State.savedState]
  refine (preempted_field (fun t : State => (t.core c).fenced) fun _ _ => rfl).trans ((fenced_left ..).trans ?_)
  refine (foldl_same (g := fun t : State => (t.core c).fenced) (fun t j => fenced_letGo ..) _ _).trans ?_
  refine (foldl_same (g := fun t : State => (t.core c).fenced) (f := fun t (j : Nat) => t.setThread j {})
    (fun _ _ => rfl) _ _).trans ?_
  rw [State.saving1]
  refine (onlyMem_writeSave.coreField c Core.fenced fun _ _ => rfl).trans ?_
  exact (onlyMem_setCtx ..).coreField c Core.fenced fun _ _ => rfl

/-- A field that releasing the slots and the cores of a saved group leaves. -/
theorem savedState_field {α : Type} (F : State → α) (hF : ∀ (t : State) d c, F { t with dies := d, cores := c } = F t) :
    F (s.savedState ser g grp area) = F (grp.threads.foldl (fun s t => s.setThread t {}) (s.saving1 ser g grp area)) := by
  rw [State.savedState]
  refine (preempted_field F fun t d => hF t d t.cores).trans ?_
  rw [State.left]
  refine (foldl_same (g := F) (fun t j => hF t t.dies _) _ _).trans ?_
  exact foldl_same (g := F) (fun t j => hF t t.dies _) _ _

theorem group_savedState : (s.savedState ser g grp area).group? ser g =
    some { grp with st := .saved, saving := false, save := s.savedOf ser g grp area } := by
  refine (savedState_field (fun t : State => t.group? ser g) fun _ _ _ => rfl).trans ?_
  refine (foldl_same (g := fun t : State => t.group? ser g) (f := fun t (j : Nat) => t.setThread j {})
    (fun _ _ => rfl) _ _).trans ?_
  rw [State.saving1]
  refine (onlyMem_writeSave.field (fun t : State => t.group? ser g) fun _ _ _ _ _ => rfl).trans ?_
  exact tfind_tput_same ..

theorem thread_savedState {n : Nat} (hn : n ∈ grp.threads) : (s.savedState ser g grp area).thread n = {} := by
  refine (savedState_field (fun t : State => t.thread n) fun _ _ _ => rfl).trans ?_
  exact thread_foldl_setThread _ _ hn

theorem saveGroup_clean (hc : ∀ c ∈ grp.cores, (s.core c).fenced = false ∧ (s.core c).errs.faults = [] ∧ (s.core c).bad = [])
    (ht : ∀ n ∈ grp.threads, (s.core (coreOf n)).bad = []) : s.saveGroup ser g grp area = s.savedState ser g grp area := by
  have hnone : (grp.cores.find? fun c => ((s.savedState ser g grp area).core c).fenced) = none := by
    rw [List.find?_eq_none]
    intro c hm
    rw [fenced_savedState, (hc c hm).1]
    decide
  rw [State.saveGroup]
  simp only [saveTouch_clean (fun c hm => (hc c hm).2) ht]
  generalize hfind : List.find? _ _ = o
  obtain rfl : o = none := hfind.symm.trans hnone
  rfl

/-! ### The steps -/

/-- Settles O43: admission, placement, the first task, the end, the choice of a group to save, and the save. -/
theorem groupLife : Obligations.GroupLife := by
  unfold Obligations.GroupLife
  refine fun s u die ser g f clu grp => ⟨?_, fun hdie hat hfar r rest hcand htry => ?_,
    fun hg ha hn hm k0 rest hfree => startThread_placed hg ha hn hm hfree, fun hg hst hfree hq => ?_, fun hg hst hbusy => ?_,
    fun key w ready failed hpre hplaced hw hready hdie hfail hlate hprio area harea => ?_, fun hg hst hfree hq => ?_,
    fun area hg hsave hready harea hc ht => ?_⟩
  · intro k n i held hdie hact hkill hi hheld tiles hnone r
    have hany : (tiles.any fun x => s.heldReady k.ctx x.1.id x.2) = false := by
      simpa using hnone
    have hgo : ¬(4 ≤ die ∨ k.st ≠ .active ∨ k.killed = true ∨ k.groups ≤ i ∨ 64 ≤ held ∨
        (tiles.any fun x => s.heldReady k.ctx x.1.id x.2) = true) := by
      simp only [not_or, hany, hkill, Bool.false_eq_true, not_false_eq_true, and_true, true_and]
      exact ⟨Nat.not_le.2 hdie, not_not_intro hact, Nat.not_le.2 hi, Nat.not_le.2 hheld⟩
    exact congrArg Host.Outcome.next ((if_neg hgo).trans rfl)
  · have hnear : (s.groups.any fun e => decide (e.2.st = .waiting) && e.2.inputs.any fun i => farHome i.pa) = false := by
      rw [List.any_eq_false]
      intro e he
      simp only [Bool.and_eq_true, decide_eq_true_eq, List.any_eq_true, not_and, not_exists]
      intro hst i hi
      rw [hfar e he hst i hi]
      decide
    simp only [exec, execGroupPlace]
    refine congrArg Host.Outcome.next ((if_neg ?_).trans ?_)
    · cases hp : (s.die die).placedAt with
      | none => simpa using hdie
      | some t => simpa [hdie] using hat t hp
    · rw [hnear]
      simp only [Bool.false_eq_true, if_false, hcand, State.placeFirst, htry]
  · have hq' : (grp.cores.any fun core => (s.core core).spawnQ.any fun e => decide (e.owner.ctx = (s.kernel ser).ctx)) = false := by
      rw [List.any_eq_false]
      intro c hm
      obtain ⟨i, hi, rfl⟩ := List.mem_map.1 hm
      simpa using hq i (List.mem_range.1 hi)
    simp only [exec, execGroupEnd, hg, hst, hq', List.all_eq_true.2 hfree, Bool.not_false, Bool.and_self, if_true]
  · obtain ⟨t, hm, ht⟩ := hbusy
    have hall : grp.threads.all s.isFree = false := by
      rw [List.all_eq_false]
      exact ⟨t, hm, by simp [State.isFree, ht]⟩
    simp only [exec, execGroupEnd, hg, hst, hall, Bool.false_and, Bool.false_eq_true, if_false]
  · have hone : (s.groups.filter fun e => decide (e.2.st = .placed) && decide (e.2.clu / 48 = die) && !e.2.saving &&
        (s.saveArea (e.1 / 33554432) (e.1 % 33554432) e.2).isSome) = [(key, grp)] := by
      rw [List.filter_congr fun _ _ => Bool.and_comm _ _, ← List.filter_filter, hplaced]
      simp [harea]
    have hwant : (w, ready) ∈ s.groups.filter fun e => decide (e.2.st = .ready) &&
        decide (dieOfGroup (e.1 / 33554432) (e.1 % 33554432) = die) &&
        (match e.2.failing with | some t => decide (t + 90000 ≤ s.cycle) | none => false) := by
      refine List.mem_filter.2 ⟨hw, ?_⟩
      simp [hready, hdie, hfail, hlate]
    have hlow : ([(key, grp)].filter fun e => [(key, grp)].all (fun f =>
        decide ((s.kernel (e.1 / 33554432)).prio ≤ (s.kernel (f.1 / 33554432)).prio)) &&
        (s.groups.filter fun e => decide (e.2.st = .ready) && decide (dieOfGroup (e.1 / 33554432) (e.1 % 33554432) = die) &&
          (match e.2.failing with | some t => decide (t + 90000 ≤ s.cycle) | none => false)).any fun w =>
            decide ((s.kernel (e.1 / 33554432)).prio + 2 ≤ (s.kernel (w.1 / 33554432)).prio)) = [(key, grp)] := by
      rw [List.filter_cons_of_pos, List.filter_nil]
      simp only [List.all_cons, List.all_nil, le_refl, decide_true, Bool.true_and, Bool.and_true, List.any_eq_true, decide_eq_true_eq]
      exact ⟨_, hwant, hprio⟩
    intro c v
    simp only [exec, execPreemptionTrigger, State.preempt, hone, hpre]
    generalize hl : List.filter _ [(key, grp)] = low
    obtain rfl : low = [(key, grp)] := hl.symm.trans hlow
    simp only [List.foldl_cons, List.foldl_nil, harea]
    rfl
  · have hall : (grp.save.threads.all fun e => decide (e.2.st = .free)) = true := by simpa using hfree
    have hsp : (grp.save.spawns.isEmpty || grp.save.aborted) = true := by
      rcases hq with h | h <;> simp [h]
    simp only [exec, execGroupEnd, hg, hst, hall, hsp, Bool.and_self, if_true]
  · refine ⟨s.savedState ser g grp area, _, ?_, group_savedState, rfl, rfl, rfl, fun n hn => thread_savedState hn⟩
    simp only [exec, execGroupSaveComplete, hg, hsave, hready, harea, Bool.not_true, Bool.false_eq_true, if_false, if_true,
      saveGroup_clean hc ht]

end
end Sys2Proof.Machine

/-! SUPPORT. Layers and the compositor (21_layer R333 to R346, R352 to R358). -/

namespace Sys2Proof.Machine

open Sys2Proof

section
variable {s u v : State} {d a b : SReg}

/-! ### The layer table (R333 to R337) -/

theorem layerErr_eq {id : Nat} (h : id < 65536) (reason field : Nat) :
    layerErr id reason field = { cause := 16, tval := BitVec.ofNat 64 (id + reason * 65536 + field * 2 ^ 24) } := by
  rw [layerErr, Nat.mod_eq_of_lt h]

theorem layerMine_iff {c id : Nat} : s.layerMine c id = true ↔ (s.layer id).st ≠ .retired ∧ (s.layer id).owner = c := by
  rw [State.layerMine, Bool.and_eq_true, decide_eq_true_eq, decide_eq_true_eq]

theorem layerWritable_iff {i : Nat} : layerWritable i = true ↔ i ≤ 26 ∧ i ∉ [0, 3, 4, 24, 25] := by
  simp [layerWritable]

/-- Four lines loaded without a fault. -/
theorem onLines_four {va : Nat} {s1 s2 s3 : State} {b1 b2 b3 b4 : List (BitVec 8)}
    {k : State → List (BitVec 8) → Option Err → State}
    (h1 : s.readAt s.iss.thr va 64 = (s1, .ok b1 none)) (h2 : s1.readAt s1.iss.thr (va + 64) 64 = (s2, .ok b2 none))
    (h3 : s2.readAt s2.iss.thr (va + 64 + 64) 64 = (s3, .ok b3 none))
    (h4 : s3.readAt s3.iss.thr (va + 64 + 64 + 64) 64 = (u, .ok b4 none)) :
    s.onLines va 4 k = k u (b1 ++ (b2 ++ (b3 ++ (b4 ++ [])))) none := by
  simp only [State.onLines, h1, h2, h3, h4, State.onGot, Option.or_none]

/-- A layer's request is taken off a queue (R355). -/
def State.popReq (s : State) (q : Nat) (e : Request) (rest : List Request) : State :=
  let t : State := { s with queues := tput s.queues q { s.queue q with reqs := rest } }
  if (s.layer e.id).st = .requested then t.setLayer e.id { s.layer e.id with st := .rendering } else t

theorem popReq_queue (q : Nat) (e : Request) (rest : List Request) : ((s.popReq q e rest).queue q).reqs = rest := by
  have h : ∀ t : State, t.queues = tput s.queues q { s.queue q with reqs := rest } → (t.queue q).reqs = rest := fun t ht => by
    rw [State.queue, ht, tget_tput_same]
  rw [State.popReq]
  dsimp only
  split
  · exact h _ rfl
  · exact h _ rfl

theorem popReq_layer (q : Nat) (e : Request) (rest : List Request) :
    ((s.popReq q e rest).layer e.id).st = if (s.layer e.id).st = .requested then .rendering else (s.layer e.id).st := by
  rw [State.popReq]
  dsimp only
  split
  · exact congrArg Layer.st (tget_tput_same ..)
  · rfl

theorem popReq_cycle (q : Nat) (e : Request) (rest : List Request) : (s.popReq q e rest).cycle = s.cycle := by
  rw [State.popReq]
  dsimp only
  split <;> rfl

/-- Settles O44: each instruction by its checks. -/
theorem layerTable : Obligations.LayerTable := by
  unfold Obligations.LayerTable
  intro s u d a b bs id i mine err
  have hid : bits (s.src a).toNat 15 0 = id := by simp [bits, id]
  have hi : bits (s.src b).toNat 7 0 = i := by simp [bits, i]
  have hlt : id < 65536 := Nat.mod_lt _ (by decide)
  have hmine : s.layerMine s.cur.ctx id = true ↔ mine := layerMine_iff
  have herr : ∀ reason field,
      (Host.Outcome.next (s.trap (layerErr id reason field)) : Out) = err reason field :=
    fun reason field => by rw [layerErr_eq hlt]
  have hyes : ∀ {t t' : State}, mine → (if (!s.layerMine s.cur.ctx id) = true then t else t') = t' := fun h =>
    if_neg (by rw [hmine.2 h]; decide)
  have hno : ∀ {t t' : State}, ¬mine → (if (!s.layerMine s.cur.ctx id) = true then t else t') = t := fun h =>
    if_pos (by rw [Bool.not_eq_true', ← Bool.not_eq_true, hmine]; exact h)
  refine ⟨fun hr => ⟨fun k hk => ?_, fun hk => ?_⟩, fun hr => ?_, fun hr => ?_, fun hr => ⟨fun hm => ?_, fun hm => ?_⟩,
    fun hr => ?_⟩
  · refine next_withOps_late hr ?_
    rw [hk]
    rfl
  · refine next_withOps_late hr ?_
    rw [hk]
  · have hd : s.vals [d, a, b] d = s.src d := State.vals_of_mem (by simp)
    have ha : s.vals [d, a, b] a = s.src a := State.vals_of_mem (by simp)
    have hb : s.vals [d, a, b] b = s.src b := State.vals_of_mem (by simp)
    refine ⟨fun hm => ?_, fun hm h31 hbad => ?_, fun hm hle hw => ⟨fun hbad => ?_, fun hok => ?_⟩, fun hm h31 hal => ?_,
      fun hm h31 hal s1 s2 s3 b1 b2 b3 b4 h1 h2 h3 h4 hbs => ?_⟩
    · rw [← herr]
      refine next_withOps hr ?_
      simp only [hd, ha, hb, hid, hi, hno hm]
    · rw [← herr]
      refine next_withOps hr ?_
      have hnw : (!layerWritable i) = true := by
        rw [Bool.not_eq_true', ← Bool.not_eq_true, layerWritable_iff]
        rintro ⟨hle, hnot⟩
        exact hbad.elim (fun h => by omega) hnot
      simp only [hd, ha, hb, hid, hi, hyes hm, if_neg h31, if_pos hnw]
    · rw [← herr]
      refine next_withOps hr ?_
      have hwr : ¬(!layerWritable i) = true := by rw [layerWritable_iff.2 ⟨hle, hw⟩]; decide
      simp only [hd, ha, hb, hid, hi, hyes hm, if_neg (show i ≠ 31 by omega), if_neg hwr, if_pos hbad]
    · refine next_withOps hr ?_
      have hwr : ¬(!layerWritable i) = true := by rw [layerWritable_iff.2 ⟨hle, hw⟩]; decide
      simp only [hd, ha, hb, hid, hi, hyes hm, if_neg (show i ≠ 31 by omega), if_neg hwr, hok, Bool.false_eq_true, if_false]
    · refine next_withOps hr ?_
      simp only [hd, ha, hb, hid, hi, hyes hm, if_pos h31, if_pos hal]
    · intro value fields hgood
      have hfields : (List.range 27).filter layerWritable = fields := by
        refine List.filter_congr fun k hk => ?_
        rw [layerWritable, decide_eq_true (show k ≤ 26 from Nat.le_of_lt_succ (List.mem_range.1 hk)), Bool.true_and]
      have hfind : (fields.find? fun k => layerBad k (value k)) = none := by
        rw [List.find?_eq_none]
        intro k hk
        rw [hgood k hk]
        decide
      refine next_withOps hr ?_
      simp only [hd, ha, hb, hid, hi, hyes hm, if_pos h31, if_neg (not_not_intro hal), onLines_four h1 h2 h3 h4]
      rw [← hbs, hfields]
      generalize hf : List.find? _ fields = o
      obtain rfl : o = none := hf.symm.trans hfind
      rfl
  · have ha : s.vals [a, b] a = s.src a := State.vals_of_mem (by simp)
    have hb : s.vals [a, b] b = s.src b := State.vals_of_mem (by simp)
    refine ⟨fun hm => ?_, fun hm h26 => ?_, fun hm h26 => ?_⟩
    · rw [← herr]
      refine next_withOps_late hr ?_
      simp only [ha, hb, hid, hi, hno hm]
    · rw [← herr]
      refine next_withOps_late hr ?_
      simp only [ha, hb, hid, hi, hyes hm, if_pos h26]
    · refine next_withOps_late hr ?_
      simp only [ha, hb, hid, hi, hyes hm, if_neg (Nat.not_lt.2 h26)]
  · refine next_withOps hr ?_
    simp only [State.vals_singleton, hid, hyes hm]
  · rw [← herr]
    refine next_withOps hr ?_
    simp only [State.vals_singleton, hid, hno hm]
  · intro q
    have hq : bits (s.src a).toNat 9 0 = q := by simp [bits, q]
    refine ⟨fun hc hreqs => ?_, fun e rest hc hreqs => ?_, fun e hc => ?_⟩
    · refine next_withOps_late hr ?_
      simp only [State.vals_singleton, hq, hc]
      have h : ((s.flushL1 s.curCore).queue q).reqs = [] := hreqs
      rw [h]
      rfl
    · refine ⟨(s.flushL1 s.curCore).popReq q e rest, next_withOps_late hr ?_, popReq_queue .., popReq_layer ..⟩
      simp only [State.vals_singleton, hq, hc]
      have h : ((s.flushL1 s.curCore).queue q).reqs = e :: rest := hreqs
      rw [h, State.popReq]
      rfl
    · refine next_withOps_late hr ?_
      simp only [State.vals_singleton, hq, hc]

end
end Sys2Proof.Machine
namespace Sys2Proof.Machine

open Sys2Proof

section
variable {s u v : State} {d a b : SReg} {die : Nat} {q : CompReq} {op : CompOp}

/-! ### Commands of a compositor (R338, R354) -/

/-- The state after a command of the issuer has entered the queue of its die as number `n`. -/
def State.compEntered (s : State) (n : Nat) (op : CompOp) : State :=
  let u := s.setCur { s.cur with issued := tput s.cur.issued 4 n, ops := s.cur.ops ++ [{ cls := 4, num := n }] }
  let e : CompReq := { owner := s.owner s.iss.thr s.iss.b.pc, num := n, op := op }
  u.setDie (dieOf s.iss.thr) { s.die (dieOf s.iss.thr) with comp := (s.die (dieOf s.iss.thr)).comp ++ [e] }

theorem compPut_eq : s.compPut op = s.compEntered (s.cur.timeIssued 4 + 1) op := by
  have hiss : (s.number 4).1.iss = s.iss := rfl
  simp only [State.compPut, State.compEntered, hiss, State.owner_number]
  rfl

/-- A compositor step that recognises the command at the head. -/
theorem compositor_runs {mine : CompOp → Bool} {rest : List CompReq} (h : (s.die die).comp = q :: rest) (hs : q.stall = none)
    (ho : s.storesOut q.owner = false) (hm : mine q.op = true) : s.compositor die mine = s.compRun die q := by
  simp only [State.compositor, h, hs, ho, hm, Option.isNone_none, Bool.not_false, Bool.and_self, if_true]

theorem compositor_held {mine : CompOp → Bool} (h : (s.die die).comp.head? = some q) (ho : s.storesOut q.owner = true) :
    s.compositor die mine = s := by
  obtain ⟨rest, h⟩ := List.head?_eq_some_iff.1 h
  simp only [State.compositor, h, ho, Bool.not_true, Bool.and_false, Bool.false_eq_true, if_false]

/-! ### Blending (R343) -/

/-- A colour behind one that is opaque adds nothing. -/
theorem blend_opaque {x y z : Nat} (hx : x < 256) (hy : y < 256) (hz : z < 256) (cs : List Nat) :
    cs.foldl (fun (c : List Nat) w =>
      let a0 := c.getD 3 0
      c.zipIdx.map fun e => min (e.1 + ((255 - a0) * (w / 2 ^ (8 * e.2) % 256) + 127) / 255) 255) [x, y, z, 255] = [x, y, z, 255] := by
  induction cs with
  | nil => rfl
  | cons w cs ih =>
    rw [List.foldl_cons]
    refine Eq.trans (congrArg (fun l => List.foldl _ l cs) ?_) ih
    simp only [List.getD, List.zipIdx_cons, List.zipIdx_nil, List.map_cons, List.map_nil, Nat.zero_add]
    norm_num
    omega

theorem ofBytes_colour {c : Nat} (h : c < 2 ^ 32) :
    ofBytes ([c % 256, c / 2 ^ 8 % 256, c / 2 ^ 16 % 256, c / 2 ^ 24].map (BitVec.ofNat 8)) = c := by
  simp only [List.map_cons, List.map_nil, ofBytes, BitVec.toNat_ofNat]
  omega

/-- A sample in front that is opaque hides what lies behind. -/
theorem blend_front {c : Nat} (hc : c < 2 ^ 32) (hop : c / 2 ^ 24 = 255) (cs : List Nat) : blend (c :: cs) = c := by
  have hone : ∀ b : Nat, b < 256 → min (0 + ((255 - 0) * b + 127) / 255) 255 = b := fun b hb => by omega
  rw [blend, List.foldl_cons]
  have hfirst : ([0, 0, 0, 0].zipIdx.map fun (e : Nat × Nat) =>
      min (e.1 + ((255 - [0, 0, 0, 0].getD 3 0) * (c / 2 ^ (8 * e.2) % 256) + 127) / 255) 255) =
        [c % 256, c / 2 ^ 8 % 256, c / 2 ^ 16 % 256, 255] := by
    simp only [List.getD, List.zipIdx_cons, List.zipIdx_nil, List.map_cons, List.map_nil]
    norm_num
    omega
  refine Eq.trans (congrArg (fun l : List Nat => ofBytes ((cs.foldl _ l).map (BitVec.ofNat 8))) hfirst) ?_
  refine Eq.trans (congrArg (fun l : List Nat => ofBytes (l.map (BitVec.ofNat 8)))
    (blend_opaque (Nat.mod_lt _ (by decide)) (Nat.mod_lt _ (by decide)) (Nat.mod_lt _ (by decide)) cs)) ?_
  rw [← hop]
  exact ofBytes_colour hc

end
end Sys2Proof.Machine
namespace Sys2Proof.Machine

open Sys2Proof

section
variable {s u v : State} {d a b : SReg} {die : Nat} {q : CompReq} {op : CompOp}

/-! ### The child of a split (R357) -/

theorem layerBits_le (i : Nat) : layerBits i ≤ 64 := by
  unfold layerBits
  by_cases h : i < 27
  · interval_cases i <;> decide
  · rw [List.getD_eq_default _ _ (Nat.not_lt.1 h)]
    decide

theorem Layer.get_set (l : Layer) {i j v : Nat} (hj : j ≠ 0) :
    (l.set i v).get j = if j = i then v % 2 ^ layerBits i else l.get j := by
  rw [Layer.get, Layer.set, if_neg hj, tget_tset]
  split
  · rw [BitVec.toNat_ofNat, Nat.mod_eq_of_lt]
    exact lt_of_lt_of_le (Nat.mod_lt _ (by positivity)) (Nat.pow_le_pow_right (by decide) (layerBits_le i))
  · rw [Layer.get, if_neg hj]

/-- The child's layer: some fields of the parent's, and its own (R357). -/
def splitChild (ctx id n : Nat) (p : Layer) : Layer :=
  let copied := [3, 4, 5, 6, 7, 8, 9, 10, 11, 12, 13, 14, 19, 20, 26].map fun i => (i, p.get i)
  let own := [(1, bits n 47 32), (2, bits n 63 48), (15, p.get 15 + bits n 15 0), (16, p.get 16 + bits n 31 16),
    (17, bits n 127 64), (18, bits n 191 128), (24, id)]
  { (copied ++ own).foldl (fun (l : Layer) e => l.set e.1 e.2) (Layer.fresh ctx) with
    st := if p.get 3 = 0 then .fresh else .aging }

/-- A field of a fold of writes. -/
theorem Layer.get_foldl_set {j : Nat} (hj : j ≠ 0) (es : List (Nat × Nat)) (l : Layer) :
    (es.foldl (fun (l : Layer) e => l.set e.1 e.2) l).get j =
      es.foldl (fun x e => if j = e.1 then e.2 % 2 ^ layerBits e.1 else x) (l.get j) := by
  induction es generalizing l with
  | nil => rfl
  | cons e es ih => rw [List.foldl_cons, List.foldl_cons, ih, Layer.get_set _ hj]

theorem splitChild_get {ctx id n j : Nat} (hj : j ≠ 0) (p : Layer) : (splitChild ctx id n p).get j =
    (([3, 4, 5, 6, 7, 8, 9, 10, 11, 12, 13, 14, 19, 20, 26].map fun i => (i, p.get i)) ++ [(1, bits n 47 32), (2, bits n 63 48),
      (15, p.get 15 + bits n 15 0), (16, p.get 16 + bits n 31 16), (17, bits n 127 64), (18, bits n 191 128), (24, id)]).foldl
        (fun x (e : Nat × Nat) => if j = e.1 then e.2 % 2 ^ layerBits e.1 else x) ((Layer.fresh ctx).get j) := by
  rw [← Layer.get_foldl_set hj]
  simp only [splitChild, Layer.get, if_neg hj]

theorem splitChild_owner (ctx id n : Nat) (p : Layer) : (splitChild ctx id n p).owner = ctx := rfl

theorem splitChild_fields {ctx id n : Nat} (hid : id < 65536) (p : Layer) : (splitChild ctx id n p).get 1 = bits n 47 32 % 4096 ∧
    (splitChild ctx id n p).get 2 = bits n 63 48 % 4096 ∧ (splitChild ctx id n p).get 24 = id ∧
    (splitChild ctx id n p).get 3 = p.get 3 % 65536 := by
  refine ⟨?_, ?_, ?_, ?_⟩ <;> rw [splitChild_get (by decide)]
  · simp [layerBits]
  · simp [layerBits]
  · simp [layerBits, Nat.mod_eq_of_lt hid]
  · simp [layerBits]

/-- Settles O45: the commands by their checks, the compositor's steps by the head of its queue. -/
theorem compositor : Obligations.Compositor := by
  unfold Obligations.Compositor
  intro s d a b die hfaults hpois full n put o w id p x y wd ht
  have hput : ∀ (u : State) (op : CompOp), u.cur = s.cur → u.compPut op = put u op := fun u op h =>
    compPut_eq.trans (by rw [h]; rfl)
  have hclean : s.LsClean s.curCore := .of_empty hfaults hpois
  have hid : bits (s.src a).toNat 15 0 = id := by simp [bits, id]
  have hlt : id < 65536 := Nat.mod_lt _ (by decide)
  have hroom : ∀ {α : Type} {t t' : α}, ¬full → (if s.compFull = true then t else t') = t' := fun h =>
    if_neg (by rw [State.compFull, decide_eq_true_eq]; exact h)
  have h5 : layerErr id 5 = { cause := 16, tval := BitVec.ofNat 64 (id + 5 * 65536) } := by rw [layerErr_eq hlt]; rfl
  refine ⟨fun hfull i hi => ?_, fun hfull hr hal hin => ?_, fun hfull hr hal hin hm h17 h18 hst => ?_, fun hfull hr => ?_,
    fun q hq hout i hi => ?_, fun q rest hq hstall hout => ?_, fun c cs hc hop => blend_front hc hop cs⟩
  · have hf : s.compFull = true := decide_eq_true hfull
    fin_cases hi <;> exact congrArg Host.Outcome.next (if_pos hf)
  · intro r
    have ha : s.vals [a, b] a = s.src a := State.vals_of_mem (by simp)
    have hb : s.vals [a, b] b = s.src b := State.vals_of_mem (by simp)
    have hloc : localCheck (s.src a) 64 64 Config.localBytes = none := localCheck_inside hal hin
    have hbo : bits (s.src b).toNat 10 0 = o % 2048 := by simp [bits, o]
    refine ⟨fun hok => ?_, fun hok => ?_⟩
    · refine (congrArg Host.Outcome.next (hroom hfull)).trans (next_withOps hr ?_)
      have hok' : composeOk (s.lsRead s.curCore (s.src a).toNat 64) (o % 2048) = true := hok
      simp only [ha, hb, hloc, hclean.lsTouch, hclean.poisoned, Bool.false_eq_true, if_false, hbo, hok', Bool.not_true,
        hput s _ rfl]
      rfl
    · refine (congrArg Host.Outcome.next (hroom hfull)).trans (next_withOps hr ?_)
      have hok' : composeOk (s.lsRead s.curCore (s.src a).toNat 64) (o % 2048) = false := hok
      simp only [ha, hb, hloc, hclean.lsTouch, hclean.poisoned, Bool.false_eq_true, if_false, hbo, hok',
        Bool.not_false, if_true]
      rfl
  · have ha : s.vals [a, b] a = s.src a := State.vals_of_mem (by simp)
    have hb : s.vals [a, b] b = s.src b := State.vals_of_mem (by simp)
    have hloc : localCheck (s.src b) 32 32 Config.localBytes = none := localCheck_inside hal hin
    have hgo : ∀ {t : State}, (let c := s.freeFrom s.layers 0
        (if wd = 0 ∨ ht = 0 ∨ p.get 1 < x + wd ∨ p.get 2 < y + ht then s.trap (layerErr id 5)
          else match c with
            | none => s.commit [a, b] [.s d] [(.s d, BitVec.allOnes 512)] (.ready s.cycle)
            | some c => ((s.setLayer c (splitChild s.cur.ctx id w p)).compPut (.split id c x y wd ht)).commit [a, b] [.s d]
                [(.s d, BitVec.ofNat 512 c)] (.ready s.cycle)) = t) → exec (.laysplit d a b) s = .next t := fun {t} h => by
      refine (congrArg Host.Outcome.next (hroom hfull)).trans (next_withOps_late hr ?_)
      simp only [ha, hb, hid, hloc, hclean.lsTouch, hclean.poisoned, Bool.false_eq_true, if_false, hm,
        Bool.not_true]
      refine (if_neg (not_not_intro h17)).trans ((if_neg (not_not_intro h18)).trans ((if_neg hst).trans ?_))
      rw [← h]
      cases s.freeFrom s.layers 0 <;> rfl
    refine ⟨fun hbad => ?_, fun hw hh hxw hyh c hc => ⟨splitChild s.cur.ctx id w p, ?_, rfl, ?_⟩⟩
    · refine hgo ?_
      dsimp only
      rw [if_pos hbad, h5]
    · refine hgo ?_
      dsimp only
      rw [hc, if_neg (by simp only [not_or, Nat.not_lt]; exact ⟨hw.ne', hh.ne', hxw, hyh⟩)]
      dsimp only
      rw [hput (s.setLayer c (splitChild s.cur.ctx id w p)) _ rfl]
    · obtain ⟨h1, h2, h24, h3⟩ := splitChild_fields (ctx := s.cur.ctx) (n := w) hlt p
      exact ⟨h1, h2, h24, h3, rfl⟩
  · intro u hm hmu hst hstu
    have ha : s.vals [a, b] a = s.src a := State.vals_of_mem (by simp)
    have hb : s.vals [a, b] b = s.src b := State.vals_of_mem (by simp)
    have hu : bits (s.src b).toNat 15 0 = u := by simp [bits, u, o]
    refine ⟨fun hne => ?_, fun heq => ?_⟩
    · refine (congrArg Host.Outcome.next (hroom hfull)).trans (next_withOps hr ?_)
      simp only [ha, hb, hid, hu, hm, hmu, Bool.not_true, Bool.false_eq_true, if_false]
      refine (if_neg hst).trans ((if_neg hstu).trans ((if_neg hne).trans ?_))
      rw [hput s _ rfl]
    · refine (congrArg Host.Outcome.next (hroom hfull)).trans (next_withOps hr ?_)
      simp only [ha, hb, hid, hu, hm, hmu, Bool.not_true, Bool.false_eq_true, if_false]
      refine (if_neg hst).trans ((if_neg hstu).trans ((if_pos heq).trans ?_))
      rw [h5]
  · have hretry : exec (.engineFaultRetry .compositor die) s = .next s := by
      obtain ⟨rest, hq⟩ := List.head?_eq_some_iff.1 hq
      simp only [exec, execEngineFaultRetry, hq, hout, Bool.not_true, Bool.and_false, Bool.false_eq_true, if_false]
    fin_cases hi
    · exact congrArg Host.Outcome.next (compositor_held hq hout)
    · exact congrArg Host.Outcome.next (compositor_held hq hout)
    · exact congrArg Host.Outcome.next (compositor_held hq hout)
    · exact hretry
  · have hruns : ∀ {mine : CompOp → Bool}, mine q.op = true → s.compositor die mine = s.compRun die q := fun hm =>
      compositor_runs hq hstall hout hm
    refine ⟨fun off k r hop => ?_, fun p c x y w h hop => ?_, fun t u hop => ?_, fun p c x y w h m hop hsnap hlen hh => ?_⟩
    · have hrun : exec (.composite die) s = .next (s.composeRun die q off k r.toNat) :=
        congrArg Host.Outcome.next ((hruns (by rw [hop])).trans (by rw [State.compRun, hop]))
      refine ⟨fun hst => hrun.trans ?_, fun hst hat => hrun.trans ?_, fun hst hat => hrun.trans ?_⟩
      · rw [State.composeRun, if_pos (by rw [hst]; decide)]
      · rw [State.composeRun, if_neg (by rw [hst]; decide), if_pos hat]
      · rw [State.composeRun, if_neg (by rw [hst]; decide), if_neg (Nat.not_lt.2 hat)]
    · exact congrArg Host.Outcome.next ((hruns (by rw [hop])).trans (by rw [State.compRun, hop]))
    · have hrun : exec (.laymergeFold die) s = .next (s.mergeRun die q t u) :=
        congrArg Host.Outcome.next ((hruns (by rw [hop])).trans (by rw [State.compRun, hop]))
      refine ⟨hrun, fun hsnap ht hu => hrun.trans ?_, fun x y hsnap hat => hrun.trans ?_⟩
      · simp only [State.mergeRun, hsnap, ht, hu, Bool.not_true, Bool.false_eq_true, if_false]
      · simp only [State.mergeRun, hsnap, if_pos hat]
    · have hrun : exec (.laysplitCopy die) s = .next (s.splitRun die q p c x y w h) :=
        congrArg Host.Outcome.next ((hruns (by rw [hop])).trans (by rw [State.compRun, hop]))
      refine hrun.trans ?_
      obtain ⟨e, f, hm⟩ := List.length_eq_two.1 hlen
      simp only [State.splitRun, State.withPair, hsnap, hm, if_pos hh]

end
end Sys2Proof.Machine

/-! SUPPORT. Raster delivery: triangle records, tickets and pixel locks (21_layer R347 to R350, R359 to R361). -/

namespace Sys2Proof.Machine

open Sys2Proof

section
variable {s u v : State} {d a b : SReg}

/-! ### What reading a set's entry leaves (16_group R298) -/

/-- A field of a core that caches do not make up. -/
theorem SameDevice.coreField {α : Type} (h : SameDevice s u) (F : Core → α)
    (hF : ∀ (c : Core) l p b e, F { c with l1 := l, path := p, bad := b, errs := e } = F c) (k : Nat) :
    F (u.core k) = F (s.core k) :=
  (hF _ _ _ _ _).symm.trans (congrArg F (h.sameCore k).rest)

theorem sameDevice_replied (t pa : Nat) : SameDevice s (s.replied t pa) :=
  (sameDevice_setCore (sameCore_accept ..)).trans (sameDevice_setThread ..)

/-- The state once the four lines of a set's entry have been read. -/
def State.setRead (s : State) (pa : Nat) : State := (List.range 4).foldl (fun u i => u.replied s.iss.thr (pa + 64 * i)) s

theorem sameDevice_setRead (pa : Nat) : SameDevice s (s.setRead pa) := sameDevice_foldl (fun _ _ => sameDevice_replied ..) _ _

/-- A field of the thread that a read of memory does not move on. -/
theorem setRead_cur {α : Type} (F : Thread → α) (hF : ∀ (th : Thread) x, F { th with seen := x } = F th) (pa : Nat) :
    F (s.setRead pa).cur = F s.cur := by
  rw [State.cur, (sameDevice_setRead pa).iss]
  refine foldl_same (g := fun u : State => F (u.thread s.iss.thr)) (fun u i => ?_) _ _
  rw [State.replied, State.performedAt, State.thread_setThread_same]
  exact hF _ _

theorem State.LsClean.replied {c : Nat} (h : s.LsClean c) (t pa : Nat) : (s.replied t pa).LsClean c where
  faults := by
    change ((s.setCore (coreOf t) ((s.core (coreOf t)).acceptAll (sliceOf pa))).core c).FaultsInL1
    by_cases hc : c = coreOf t
    · subst hc
      rw [State.core_setCore_same]
      exact faultsInL1_accept h.faults _ _
    · rw [State.core_setCore_other _ _ hc]
      exact h.faults
  poison := ((sameDevice_replied t pa).lsPoison c).trans h.poison

theorem State.LsClean.setRead {c : Nat} (h : s.LsClean c) (pa : Nat) : (s.setRead pa).LsClean c := by
  rw [State.setRead]
  generalize List.range 4 = l
  generalize s.iss.thr = t
  induction l generalizing s with
  | nil => exact h
  | cons i l ih => exact ih (h.replied _ _)

theorem layer_setRead (pa id : Nat) : (s.setRead pa).layer id = s.layer id := by
  have h := congrArg State.layers (sameDevice_setRead (s := s) pa).rest
  exact congrArg (tget {} · id) h

theorem layerMine_setRead (pa c id : Nat) : (s.setRead pa).layerMine c id = s.layerMine c id := by
  rw [State.layerMine, State.layerMine, layer_setRead]

/-! ### Emitting (R347, R348, R359) -/

/-- A record once its set has been read: to the members whose bins its box meets. -/
theorem withSet_refused {set : Nat} {k : State → List Nat → State}
    (hp : s.memPoisoned ((s.ctx s.cur.ctx).multicast % 2 ^ 40 + 256 * set) 256 = false)
    (hm : s.multicastSet s.cur.ctx set = none) :
    s.withSet set k = (s.setRead ((s.ctx s.cur.ctx).multicast % 2 ^ 40 + 256 * set)).trap (remoteErr set 4) := by
  simp only [State.withSet, hp, hm, Bool.false_eq_true, if_false]
  rfl

/-- The record of a set: its number, its layer, its box, and the bytes emitted with the number in them. -/
def emitted (set seq id n x0 x1 y0 y1 : Nat) : Tri :=
  { set := set, seq := seq, layer := id, x0 := x0, x1 := x1, y0 := y0, y1 := y1, data := putAt (BitVec.ofNat 512 n) 448 32 seq }

/-- What a TRIEMIT of a record does in a state whose set has been read. -/
def State.emitTri (u : State) (srcs : List SReg) (core o ctx set id : Nat) (cores : List Nat) : State :=
  let n := u.lsRead core o 64
  let l := u.layer id
  let at_ := fun (k : Nat) => pixelOf (n / 2 ^ (32 * k))
  let v := u.takeSeq ctx set
  match boxAxis (l.get 1) (at_ 0) (at_ 3) (at_ 6), boxAxis (l.get 2) (at_ 1) (at_ 4) (at_ 7) with
  | some (x0, x1), some (y0, y1) =>
    (((cores.zipIdx.filter fun e => ownsBin (l.get 1) cores.length e.2 x0 x1 y0 y1).map (·.1)).foldl
      (fun s c => s.send c (.triangle (emitted set v.2 id n x0 x1 y0 y1)) true) v.1).retire srcs
  | _, _ => v.1.retire srcs

/-- The record of a set's next number, where the box meets the layer. -/
theorem emitTri_box {srcs : List SReg} {core o ctx set id x0 x1 y0 y1 : Nat} {cores : List Nat}
    (h1 : boxAxis ((u.layer id).get 1) (pixelOf (u.lsRead core o 64 / 2 ^ (32 * 0))) (pixelOf (u.lsRead core o 64 / 2 ^ (32 * 3)))
      (pixelOf (u.lsRead core o 64 / 2 ^ (32 * 6))) = some (x0, x1))
    (h2 : boxAxis ((u.layer id).get 2) (pixelOf (u.lsRead core o 64 / 2 ^ (32 * 1))) (pixelOf (u.lsRead core o 64 / 2 ^ (32 * 4)))
      (pixelOf (u.lsRead core o 64 / 2 ^ (32 * 7))) = some (y0, y1)) :
    u.emitTri srcs core o ctx set id cores =
      let t := emitted set (u.takeSeq ctx set).2 id (u.lsRead core o 64) x0 x1 y0 y1
      ((cores.zipIdx.filter fun e => ownsBin ((u.layer id).get 1) cores.length e.2 x0 x1 y0 y1).foldl
        (fun s e => s.send e.1 (.triangle t) true) (u.takeSeq ctx set).1).retire srcs := by
  simp only [State.emitTri, h1, h2, List.foldl_map]

theorem emitTri_none {srcs : List SReg} {core o ctx set id : Nat} {cores : List Nat}
    (h1 : boxAxis ((u.layer id).get 1) (pixelOf (u.lsRead core o 64 / 2 ^ (32 * 0))) (pixelOf (u.lsRead core o 64 / 2 ^ (32 * 3)))
      (pixelOf (u.lsRead core o 64 / 2 ^ (32 * 6))) = none) :
    u.emitTri srcs core o ctx set id cores = (u.takeSeq ctx set).1.retire srcs := by
  simp only [State.emitTri, h1]

theorem triemit_record {set id : Nat} {cores : List Nat} (hr : s.Ready [a, b] none) (hclean : s.LsClean s.curCore)
    (hset : bits (s.src b).toNat 5 0 = set) (hid : bits (s.src b).toNat 31 16 = id)
    (hp : s.memPoisoned ((s.ctx s.cur.ctx).multicast % 2 ^ 40 + 256 * set) 256 = false)
    (hm : s.multicastSet s.cur.ctx set = some cores) (hl : s.layerMine s.cur.ctx id = true) (hmark : (s.src a).getLsbD 63 = false)
    (hal : (s.src a).toNat % 64 = 0) (hin : (s.src a).toNat + 64 ≤ 0x60000) :
    exec (.triemit a b) s = .next ((s.setRead ((s.ctx s.cur.ctx).multicast % 2 ^ 40 + 256 * set)).emitTri [a, b] s.curCore
      (s.src a).toNat s.cur.ctx set id cores) := by
  obtain ⟨p1, p2⟩ := vals_pair s a b
  have hloc : localCheck (s.src a) 64 64 Config.localBytes = none := localCheck_inside hal hin
  refine next_withOps hr ?_
  simp only [p1, p2, hmark, hset, hid, Bool.false_eq_true, if_false, hloc]
  rw [State.withSet_clean (cores := cores) hp hm]
  generalize hpa : (s.ctx s.cur.ctx).multicast % 2 ^ 40 + 256 * set = pa
  have hc := hclean.setRead pa
  have hctx : (s.setRead pa).cur.ctx = s.cur.ctx := setRead_cur Thread.ctx (fun _ _ => rfl) pa
  have hlm : (s.setRead pa).layerMine s.cur.ctx id = true := (layerMine_setRead ..).trans hl
  rw [show (List.range 4).foldl (fun u i => u.replied s.iss.thr (pa + 64 * i)) s = s.setRead pa from rfl]
  simp only [hlm, Bool.not_true, Bool.false_eq_true, if_false, hc.lsTouch, hc.poisoned, hctx]
  rfl

end
end Sys2Proof.Machine
namespace Sys2Proof.Machine

open Sys2Proof

section
variable {s u v : State} {d a b : SReg} {src tgt thr : Nat}

/-! ### Delivery, and the quads of a ticket (R348 to R350) -/

theorem takesTri_triangle {m : Msg} {t : Tri} (hb : m.body = .triangle t) (ht : m.tgt = tgt) :
    s.takesTri m = (!s.hasTask tgt m.owner.ctx || (decide ((s.core tgt).tris.countP (fun r => decide (r.ctx = m.owner.ctx)) < 64) &&
      !(s.net.takeWhile fun x => decide (x ≠ m)).any (·.triangleOf m.owner.ctx t.set tgt))) := by
  simp only [State.takesTri, hb, ht]

theorem grantable_iff {c : Core} {k : Ticket} {quad : Nat} : c.grantable k quad = true ↔
    (∀ l ∈ c.locks, l.quad ≠ quad) ∧ c.locks.length < 64 ∧ ∀ u ∈ c.tickets,
      newer (BitVec.ofNat 32 k.tri.seq) (BitVec.ofNat 32 u.tri.seq) = true → u.tri.covers quad = true → quad ∈ u.given := by
  simp only [Core.grantable, Bool.and_eq_true, Bool.not_eq_true', List.any_eq_false, decide_eq_true_eq, List.all_eq_true,
    Bool.or_eq_true, List.contains_iff_mem, and_assoc]
  refine and_congr Iff.rfl (and_congr Iff.rfl (forall₂_congr fun u _ => ?_))
  cases newer (BitVec.ofNat 32 k.tri.seq) (BitVec.ofNat 32 u.tri.seq) <;> cases u.tri.covers quad <;> simp

theorem takeTri_cycle (t off : Nat) (x : TriRec) : (s.takeTri t off x).1.cycle = s.cycle := by
  unfold State.takeTri
  dsimp only
  split <;> rfl

theorem takeTri_value (t off : Nat) (x : TriRec) :
    (s.takeTri t off x).2 = if x.tri.mark then BitVec.allOnes 64 else BitVec.ofNat 64 x.tri.seq := by
  unfold State.takeTri
  dsimp only
  split <;> rfl

theorem ticket_ackAll (t c q : Nat) : (s.ackAll s.iss.thr).ticket? t c q = s.ticket? t c q := by
  rw [State.ticket?, State.ticket?, State.ackAll_thread]
  rw [(sameDevice_ackAll s s.iss.thr).coreField Core.tickets fun _ _ _ _ _ => rfl]

/-- Settles O46: the emission, the delivery, the pops, and the tickets with their quads. -/
theorem rasterDelivery : Obligations.RasterDelivery := by
  unfold Obligations.RasterDelivery
  intro s d a b src tgt thr hfaults hpois core c v set id pa read
  have hclean : s.LsClean s.curCore := .of_empty hfaults hpois
  have hset : bits (s.src b).toNat 5 0 = set := by simp [bits, set]
  have hid : bits (s.src b).toNat 31 16 = id := by simp [bits, id]
  have hq : bits (s.src a).toNat 31 0 = (s.src a).toNat % 2 ^ 32 := by simp [bits]
  have hv : v.curCore = core := by rw [State.curCore, State.ackAll_iss]; rfl
  have hvt : (v.core core).tickets = c.tickets :=
    (sameDevice_ackAll s s.iss.thr).coreField Core.tickets (fun _ _ _ _ _ => rfl) core
  have hvl : (v.core core).locks = c.locks :=
    (sameDevice_ackAll s s.iss.thr).coreField Core.locks (fun _ _ _ _ _ => rfl) core
  have hviss : v.iss = s.iss := State.ackAll_iss _
  have hvcur : v.cur = s.cur := State.ackAll_cur _
  refine ⟨fun hr => ⟨fun hmark hp => ?_, fun cores hp hm hl => ⟨fun hmark => ?_, fun hmark hal hin => ?_⟩,
      fun hmark hp hm => ?_⟩,
    fun m t hb ht => takesTri_triangle hb ht, fun hnone => ?_, fun m rest t ht hb hfree => ⟨fun hh => ?_, fun hh => ?_⟩,
    fun hr => ?_, fun w k off r x hst hw hww hx => ?_,
    fun hr hout => ⟨?_, ?_⟩, fun hr hout => ⟨fun ht => ?_, fun k ht => ?_, fun ht => ?_, fun k ht => ?_⟩,
    fun hr k hk => ?_, fun w k set seq quad hst hw hww hk => ?_⟩
  · obtain ⟨p1, p2⟩ := vals_pair s a b
    refine next_withOps hr ?_
    simp only [p1, p2, hmark, if_true, hset]
    rw [State.withSet_poisoned hp]
  · obtain ⟨p1, p2⟩ := vals_pair s a b
    refine next_withOps hr ?_
    simp only [p1, p2, hmark, if_true, hset, hid]
    rw [State.withSet_clean (cores := cores) hp hm]
    have hctx : (s.setRead pa).cur.ctx = s.cur.ctx := setRead_cur Thread.ctx (fun _ _ => rfl) pa
    have hlm : (s.setRead pa).layerMine (s.setRead pa).cur.ctx id = true := by rw [hctx, layerMine_setRead, hl]
    refine (if_neg ?_).trans rfl
    exact ne_true_of_eq_false (congrArg (!·) hlm)
  · intro r px l u
    have hrec := triemit_record hr hclean hset hid hp hm hl hmark hal hin
    have hread : (s.setRead pa).lsRead core (s.src a).toNat 64 = r := (sameDevice_setRead pa).lsRead _ _ _
    have hlay : (s.setRead pa).layer id = l := layer_setRead ..
    have hbox : ∀ i n, boxAxis (((s.setRead pa).layer id).get n)
        (pixelOf ((s.setRead pa).lsRead core (s.src a).toNat 64 / 2 ^ (32 * i)))
        (pixelOf ((s.setRead pa).lsRead core (s.src a).toNat 64 / 2 ^ (32 * (i + 3))))
        (pixelOf ((s.setRead pa).lsRead core (s.src a).toNat 64 / 2 ^ (32 * (i + 6)))) =
        boxAxis (l.get n) (px i) (px (i + 3)) (px (i + 6)) := fun i n => by rw [hread, hlay]
    refine ⟨fun x0 x1 y0 y1 h1 h2 => ?_, fun h1 => hrec.trans ?_⟩
    · intro t
      refine hrec.trans (congrArg Host.Outcome.next ((emitTri_box ((hbox 0 1).trans h1) ((hbox 1 2).trans h2)).trans ?_))
      rw [hread, hlay]
      rfl
    · exact congrArg Host.Outcome.next ((emitTri_none ((hbox 0 1).trans h1)).trans rfl)
  · obtain ⟨p1, p2⟩ := vals_pair s a b
    have he : remoteErr set 4 = { cause := 15, tval := BitVec.ofNat 64 (set + 4 * 4096) } := by
      have : set < 2048 := lt_trans (Nat.mod_lt _ (by decide)) (by decide)
      rw [remoteErr, Nat.mod_eq_of_lt this]
    refine next_withOps hr ?_
    simp only [p1, p2, hmark, if_true, hset]
    rw [withSet_refused hp hm, he]
    rfl
  · exact congrArg Host.Outcome.next (by simp only [State.onMsg, hnone])
  · refine congrArg Host.Outcome.next ((State.onMsg_taken ht hfree).trans ?_)
    simp only [hb]
    refine if_pos ?_
    exact congrArg (!·) hh
  · refine congrArg Host.Outcome.next ((State.onMsg_taken ht hfree).trans ?_)
    simp only [hb]
    refine (if_neg ?_).trans rfl
    exact ne_true_of_eq_false (congrArg (!·) hh)
  · intro off k hal hin
    have hoff : bits (s.src a).toNat 19 0 = off := by simp [bits, off]
    have hk : bits (s.src a).toNat 25 20 = k := by simp [bits, k]
    have hlt : (BitVec.ofNat 64 off).toNat = off := by
      rw [BitVec.toNat_ofNat, Nat.mod_eq_of_lt (lt_trans (Nat.mod_lt _ (by decide)) (by decide))]
    have hloc : localCheck (BitVec.ofNat 64 off) 64 64 Config.localBytes = none :=
      localCheck_inside (by rw [hlt]; exact hal) (by rw [hlt]; exact hin)
    have hpop : ∀ waits, tripop waits d a s = match s.oldestTri core s.cur.ctx k with
        | some x => (s.takeTri s.iss.thr off x).1.commit [a] [.s d] [(.s d, (s.takeTri s.iss.thr off x).2.setWidth 512)]
            (.ready (s.takeTri s.iss.thr off x).1.cycle)
        | none => if waits then s.block (.triangle k off d) [a]
            else s.commit [a] [.s d] [(.s d, (BitVec.allOnes 64 - 1).setWidth 512)] (.ready s.cycle) := fun waits => by
      rw [tripop, State.withOps_ready hr, State.vals_singleton, hoff, hk]
      simp only [hloc]
      rfl
    refine ⟨fun x i hi hx => ?_, fun hx => ⟨?_, ?_⟩⟩
    · intro u
      refine ⟨?_, takeTri_value ..⟩
      have hboth : ∀ waits, tripop waits d a s = u.1.commit [a] [.s d] [(.s d, u.2.setWidth 512)] (.ready s.cycle) :=
          fun waits => by
        rw [hpop, hx]
        exact congrArg (fun n => u.1.commit [a] [.s d] [(.s d, u.2.setWidth 512)] (.ready n)) (takeTri_cycle ..)
      simp only [List.mem_cons, List.not_mem_nil, or_false] at hi
      rcases hi with rfl | rfl <;> exact congrArg Host.Outcome.next (hboth _)
    · exact congrArg Host.Outcome.next ((hpop true).trans (by rw [hx]; rfl))
    · exact congrArg Host.Outcome.next ((hpop false).trans (by rw [hx]; rfl))
  · refine congrArg Host.Outcome.next ?_
    simp only [hst, hw, hww, hx]
  · exact next_withOps hr (if_neg hout)
  · exact next_withOps hr (if_neg hout)
  · refine next_withOps hr ?_
    rw [State.release_clear hout, State.vals_singleton, hq]
    simp only [ticket_ackAll, State.ackAll_iss, State.ackAll_cur, ht]
    rfl
  · refine next_withOps hr ?_
    rw [State.release_clear hout, State.vals_singleton, hq]
    simp only [ticket_ackAll, State.ackAll_iss, State.ackAll_cur, ht]
    rw [show (s.ackAll s.iss.thr).curCore = core from hv, show ((s.ackAll s.iss.thr).core core).tickets = c.tickets from hvt,
      show ((s.ackAll s.iss.thr).core core).locks = c.locks from hvl]
  · refine next_withOps hr ?_
    rw [State.release_clear hout, State.vals_singleton, hq]
    have hfind : (c.tickets.find? fun k => decide (k.popper = some (s.iss.thr, s.cur.inc)) && c.locks.any fun l =>
        decide (l.ctx = k.ctx) && decide (l.quad = (s.src a).toNat % 2 ^ 32) &&
          decide (l.set = k.tri.set) && decide (l.seq = k.tri.seq)) = none := by
      rw [List.find?_eq_none]
      intro k hk
      rw [decide_eq_false (ht k hk), Bool.false_and]
      decide
    simp only [State.ackAll_iss, State.ackAll_cur]
    rw [show (s.ackAll s.iss.thr).curCore = core from hv, show ((s.ackAll s.iss.thr).core core).tickets = c.tickets from hvt,
      show ((s.ackAll s.iss.thr).core core).locks = c.locks from hvl, hfind]
  · refine next_withOps hr ?_
    rw [State.release_clear hout, State.vals_singleton, hq]
    simp only [State.ackAll_iss, State.ackAll_cur]
    rw [show (s.ackAll s.iss.thr).curCore = core from hv, show ((s.ackAll s.iss.thr).core core).tickets = c.tickets from hvt,
      show ((s.ackAll s.iss.thr).core core).locks = c.locks from hvl, ht]
  · intro quad l hx hy
    obtain ⟨p1, p2⟩ := vals_pair s a b
    have hquad : bits (s.src b).toNat 31 0 = quad := by simp [bits, quad]
    have hin : ¬((s.layer k.tri.layer).get 1 ≤ 2 * (quad % 65536) ∨ (s.layer k.tri.layer).get 2 ≤ 2 * (quad / 65536)) :=
      not_or.2 ⟨Nat.not_le.2 hx, Nat.not_le.2 hy⟩
    refine ⟨grantable_iff, fun hg => ?_, fun hg => ?_⟩
    · refine next_withOps hr ?_
      simp only [p1, p2, hq, hquad, hk, if_neg hin]
      exact if_pos hg
    · refine next_withOps hr ?_
      simp only [p1, p2, hq, hquad, hk, if_neg hin]
      exact if_neg (by rw [show (s.core s.curCore).grantable k quad = false from hg]; decide)
  · refine congrArg Host.Outcome.next ?_
    simp only [hst, hw, hww, hk]

end
end Sys2Proof.Machine

/-! SUPPORT. Transfers and packets of Halyard (23_link R364 to R379). -/

namespace Sys2Proof.Machine

open Sys2Proof

section
variable {s u v : State} {a : SReg} {core port ep k : Nat} {q : NetReq} {p : OutPkt}

/-! ### Endpoints through the end of an operation (R367) -/

theorem State.ep_setEp (e j : Nat) (x : Endpoint) : (s.setEp e x).ep j = if j = e then x else s.ep j := tget_tput ..
theorem State.ep_setEp_same (e : Nat) (x : Endpoint) : (s.setEp e x).ep e = x := tget_tput_same ..

theorem eps_changeSaved (key t : Nat) (f : Thread → Thread) : (s.changeSaved key t f).eps = s.eps := by
  unfold State.changeSaved
  split
  · rfl
  · split
    · rfl
    · rfl

theorem eps_modOwner (o : Owner) (f : Thread → Thread) : (s.modOwner o f).1.eps = s.eps := by
  unfold State.modOwner
  dsimp only
  split
  · rfl
  · split
    · exact eps_changeSaved ..
    · rfl

theorem eps_discardUnplaced (ser : Nat) : (s.discardUnplaced ser).eps = s.eps := by
  unfold State.discardUnplaced
  dsimp only
  refine foldl_same (g := State.eps) (fun t e => ?_) _ _
  unfold State.unregister
  refine foldl_same (g := State.eps) (fun t i => ?_) _ _
  rfl

theorem eps_markFault (ser cause : Nat) (addr : W64) : (s.markFault ser cause addr).eps = s.eps := by
  unfold State.markFault
  dsimp only
  split
  · rfl
  · rfl
  · exact eps_discardUnplaced ..

theorem eps_finishOp (o : Owner) (c n flags : Nat) (err : Option Err) : (s.finishOp o c n flags err).eps = s.eps := by
  have h := eps_modOwner (s := s) o fun th => th.finish c n flags err
  unfold State.finishOp
  generalize s.modOwner o _ = r at h ⊢
  obtain ⟨t, b⟩ := r
  cases b
  · cases err with
    | none => exact h
    | some e =>
      refine Eq.trans ?_ h
      change (t.markOwner o e).eps = t.eps
      unfold State.markOwner
      split
      · exact eps_markFault ..
      · rfl
  · exact h

/-- A transfer that ends takes its packets from its endpoint. -/
theorem ep_endXfer (c : Nat) (q : NetReq) (err : Option Err) (j : Nat) : (s.endXfer c q err).ep j =
    if j = q.ep then { s.ep q.ep with pkts := (s.ep q.ep).pkts.filter fun p => decide (p.order ≠ q.order) } else s.ep j := by
  have h := eps_finishOp (s := (s.setCore c { s.core c with
    nq := (s.core c).nq.filter fun t => decide (t.order ≠ q.order) }).setEp q.ep
    { s.ep q.ep with pkts := (s.ep q.ep).pkts.filter fun p => decide (p.order ≠ q.order) }) q.owner 3 q.num 0 err
  refine (congrArg (tget {} · j) h).trans ?_
  exact State.ep_setEp ..

/-- Every transfer of a failed endpoint ends, and the endpoint stays as it has failed. -/
theorem failed_foldl_endXfer (err : Option Err) (l : List (Nat × NetReq))
    (h : (s.ep ep).st = .failed ∧ (s.ep ep).err = 5 ∧ (s.ep ep).pkts = []) :
    ((l.foldl (fun s e => s.endXfer e.1 e.2 err) s).ep ep).st = .failed ∧
      ((l.foldl (fun s e => s.endXfer e.1 e.2 err) s).ep ep).err = 5 ∧
      ((l.foldl (fun s e => s.endXfer e.1 e.2 err) s).ep ep).pkts = [] := by
  induction l generalizing s with
  | nil => exact h
  | cons e l ih =>
    refine ih ?_
    rw [ep_endXfer]
    split
    · rename_i he
      subst he
      obtain ⟨h1, h2, h3⟩ := h
      exact ⟨h1, h2, by rw [h3]; rfl⟩
    · exact h

/-! ### Ports (R365) -/

theorem ports_dropPort (n : Nat) (x : Port) : (s.dropPort n x).ports = tset .down s.ports n x := by
  unfold State.dropPort
  dsimp only
  refine (foldl_same (g := State.ports) (fun t e => ?_) _ _).trans rfl
  have h := foldl_same (σ := State × List OutPkt × Nat) (g := fun acc => acc.1.ports)
    (f := fun acc p => if p.port = some n ∧ p.reply = none then
      ((acc.1.resend e.1 p).1, acc.2.1 ++ [{ (acc.1.resend e.1 p).2 with tries := (acc.1.resend e.1 p).2.tries + 1 }], acc.2.2 + 1)
      else (acc.1, acc.2.1 ++ [p], acc.2.2)) (fun acc p => by split <;> rfl) (t.ep e.1).pkts (t, [], 0)
  exact h

theorem port_dropPort (n : Nat) (x : Port) : (s.dropPort n x).port n = x := by
  rw [State.port, ports_dropPort, tget_tset_same]

/-! ### Transfers (R368 to R371) -/

/-- A transfer instruction whose queue has room and whose operand is ready, by what its descriptor's check says. -/
theorem transfer_checked {op : HOp} (hr : s.Ready [a] none) (hroom : (s.core s.curCore).netQueued.length < 16)
    (hclean : s.LsClean s.curCore) (hal : (s.src a).toNat % 64 = 0) (hin : (s.src a).toNat + 64 ≤ 0x60000) :
    transfer op a s =
      let w := s.lsRead s.curCore (s.src a).toNat 64
      match s.netCheck s.cur.ctx op w with
      | some e => s.trap e
      | none =>
        let own := s.owner s.iss.thr s.iss.b.pc
        let u := (s.number 3).1
        let n := (s.number 3).2
        let v := if (u.ep (netEp w)).st = .failed then
            (u.setEp (netEp w) { u.ep (netEp w) with err := 5 }).finishOp own 3 n 0 (some (netErr (netEp w) 5))
          else
            let q : NetReq := { owner := own, num := n, op := op, ep := netEp w, desc := BitVec.ofNat 512 w, order := u.dev.nextXfer }
            let u : State := { u with dev := { u.dev with nextXfer := u.dev.nextXfer + 1 } }
            u.setCore s.curCore { u.core s.curCore with nq := (u.core s.curCore).nq ++ [q] }
        v.retire [a] := by
  have hloc : localCheck (s.src a) 64 64 Config.localBytes = none := localCheck_inside hal hin
  have hfull : ¬s.netFull = true := by rw [State.netFull, decide_eq_true_eq]; exact Nat.not_le.2 hroom
  rw [transfer, if_neg hfull, State.withOps_ready hr]
  simp only [State.vals_singleton, hloc, hclean.lsTouch, hclean.poisoned, Bool.false_eq_true, if_false] <;> rfl

theorem transfer_traps {op : HOp} {e : Err} (hr : s.Ready [a] none) (hroom : (s.core s.curCore).netQueued.length < 16)
    (hloc : localCheck (s.src a) 64 64 Config.localBytes = some e) : transfer op a s = s.trap e := by
  have hfull : ¬s.netFull = true := by rw [State.netFull, decide_eq_true_eq]; exact Nat.not_le.2 hroom
  rw [transfer, if_neg hfull, State.withOps_ready hr]
  simp only [State.vals_singleton, hloc]

/-- The next packet of a transfer that writes. -/
theorem sendPacket_put {bs : List (BitVec 8)} (hop : q.op = .put)
    (hr : s.locRead q.owner (netLocal q.desc.toNat) q.sent q.packetLen = (u, .ok bs)) :
    ∃ p, ((s.sendPacket core q).ep q.ep).pkts = (u.ep q.ep).pkts ++ [p] ∧
      p.msg.remote = (bits q.desc.toNat 199 128 + q.sent) % 2 ^ 72 ∧ p.msg.len = q.packetLen ∧ p.msg.data = bs := by
  rw [State.sendPacket]
  dsimp only
  rw [if_pos (.inl hop), hr]
  exact ⟨_, congrArg Endpoint.pkts (State.ep_setEp_same ..), rfl, rfl, rfl⟩

end
end Sys2Proof.Machine
namespace Sys2Proof.Machine

open Sys2Proof

section
variable {s u v : State} {a : SReg} {core port ep k : Nat} {q : NetReq} {p : OutPkt}

/-! ### Packets that are answered or sent again (R367, R371, R372) -/

/-- The state, and the endpoint, in which an answer is dealt with: the window is set anew. -/
def Endpoint.rewindowed (x : Endpoint) (free : Nat) : Endpoint := { x with window := (Config.freeValue free).toNat % 2 ^ 64 }

theorem packetAck_deaf {r : Reply} (hp : (s.ep ep).pkts[k]? = some p)
    (h : p.reply ≠ none ∨ p.port = none ∨ ((s.ep ep).rod ∧ k ≠ 0 ∧ r ≠ .retry)) :
    exec (.packetAck ep k r) s = .next s := by
  refine congrArg Host.Outcome.next ?_
  simp only [hp]
  exact if_pos h

/-- What comes of an answer to a packet that a port has taken. -/
def State.heard (s : State) (ep k : Nat) (p : OutPkt) (r : Reply) : State :=
  let t : State := { s with free := s.free + 1 }
  let x := (s.ep ep).rewindowed s.free
  match r, s.xferOf p with
  | .retry, _ | .absent, some _ => t.setEp ep { x with pkts := x.pkts.set k { p with backoff := true } }
  | r, none => t.accessAck ep { x with pkts := x.pkts.eraseIdx k } p r
  | .refused reason, some (core, q) =>
    if q.stall ≠ none then s
    else (t.setEp ep { x with err := reason.toNat }).endXfer core q (some (netErr ep reason.toNat))
  | .done data, some (core, q) =>
    if q.stall ≠ none then s
    else if q.op = .put ∨ q.op = .send then (t.setEp ep { x with pkts := x.pkts.eraseIdx k }).netAcked core q p.msg.len
    else if data.length ≠ p.msg.len then s
    else (t.setEp ep { x with pkts := x.pkts.set k { p with reply := some data } }).netPlace core q k p data

theorem packetAck_heard {r : Reply} (hp : (s.ep ep).pkts[k]? = some p)
    (h : ¬(p.reply ≠ none ∨ p.port = none ∨ ((s.ep ep).rod ∧ k ≠ 0 ∧ r ≠ .retry))) :
    exec (.packetAck ep k r) s = .next (s.heard ep k p r) := by
  refine congrArg Host.Outcome.next ?_
  simp only [hp]
  exact (if_neg h).trans rfl

/-- A packet as it is sent again. -/
def State.resentPkt (s : State) (ep : Nat) (p : OutPkt) : OutPkt :=
  let p' := (s.resend ep p).2
  if p'.backoff then { p' with backoff := false } else { p' with tries := p'.tries + 1 }

/-- The state once a packet has been sent again. -/
def State.resent (s : State) (ep k : Nat) (p : OutPkt) : State :=
  let t := (s.resend ep p).1
  t.setEp ep { t.ep ep with pkts := (t.ep ep).pkts.set k (s.resentPkt ep p), retrans := (t.ep ep).retrans + 1 }

theorem resentPkt_msg : (s.resentPkt ep p).msg = p.msg := by
  rw [State.resentPkt]
  split <;> rfl

theorem resentPkt_tries : (s.resentPkt ep p).tries = if p.backoff then p.tries else p.tries + 1 := by
  rw [State.resentPkt, show (s.resend ep p).2.backoff = p.backoff from rfl]
  split <;> rfl

theorem ep_resent : (s.resent ep k p).ep ep =
    { s.ep ep with pkts := (s.ep ep).pkts.set k (s.resentPkt ep p), retrans := (s.ep ep).retrans + 1 } :=
  State.ep_setEp_same ..

/-- The endpoint has failed, and every transfer and access of it with it (R367, R376). -/
def State.epFails (s : State) (ep : Nat) : State :=
  let t := (s.failAsks (s.ep ep).pkts).setEp ep
    { s.ep ep with st := if (s.ep ep).st = .opened then .failed else (s.ep ep).st, err := 5, pkts := [] }
  let all := (t.cores.map fun e => (e.2.nq.filter fun t => decide (t.ep = ep)).map fun t => (e.1, t)).flatten
  all.foldl (fun s e => s.endXfer e.1 e.2 (some (netErr ep 5))) t

theorem ep_epFails (hst : (s.ep ep).st = .opened) :
    ((s.epFails ep).ep ep).st = .failed ∧ ((s.epFails ep).ep ep).err = 5 ∧ ((s.epFails ep).ep ep).pkts = [] := by
  rw [State.epFails]
  refine failed_foldl_endXfer _ _ ?_
  rw [State.ep_setEp_same]
  exact ⟨if_pos hst, rfl, rfl⟩

theorem netErr_eq (e r : Nat) : netErr e r = { cause := 15, tval := BitVec.ofNat 64 (r * 4096 + e * 65536) } := rfl

/-- Settles O47: the instructions by their checks, the packets by their answers, the ports by their states. -/
theorem halyardTransfers : Obligations.HalyardTransfers := by
  unfold Obligations.HalyardTransfers
  intro s u a core port ep k bs hfaults hpois me o w n own numbered
  have hclean : s.LsClean s.curCore := .of_empty hfaults hpois
  have hnum : s.number 3 = (numbered, n) := rfl
  refine ⟨fun i op hi => ?_, fun q hq hop => ?_, fun hnone => ?_, fun p r hp hport => packetAck_deaf hp (.inr (.inl hport)),
    fun p c q hp hx hport hrep hst => ?_, fun p hp hrep => ⟨fun htry => ?_, fun htry hb hst => ?_⟩, fun hport => ?_⟩
  · have hexec : exec i s = .next (transfer op a s) := by
      simp only [List.mem_cons, Prod.mk.injEq, List.not_mem_nil, or_false] at hi
      rcases hi with ⟨rfl, rfl⟩ | ⟨rfl, rfl⟩ | ⟨rfl, rfl⟩ | ⟨rfl, rfl⟩ <;> rfl
    rw [hexec]
    refine ⟨fun hfull => congrArg Host.Outcome.next (if_pos (decide_eq_true hfull)), fun hr hroom => ⟨fun hal => ?_,
      fun hal hout => ?_, fun hal hin => ?_⟩⟩
    · exact congrArg Host.Outcome.next (transfer_traps hr hroom (localCheck_misaligned hal))
    · exact congrArg Host.Outcome.next (transfer_traps hr hroom (localCheck_outside hal hout))
    · have hgo := transfer_checked (op := op) hr hroom hclean hal hin
      refine ⟨fun e he => congrArg Host.Outcome.next (hgo.trans ?_), fun he hst => congrArg Host.Outcome.next (hgo.trans ?_),
        fun he hst => congrArg Host.Outcome.next (hgo.trans ?_)⟩
      · have he' : s.netCheck s.cur.ctx op (s.lsRead s.curCore (s.src a).toNat 64) = some e := he
        simp only [he']
      · have he' : s.netCheck s.cur.ctx op (s.lsRead s.curCore (s.src a).toNat 64) = none := he
        simp only [he', hnum]
        refine congrArg (fun t : State => t.retire [a]) ((if_neg ?_).trans rfl)
        exact hst
      · have he' : s.netCheck s.cur.ctx op (s.lsRead s.curCore (s.src a).toNat 64) = none := he
        simp only [he', hnum]
        refine congrArg (fun t : State => t.retire [a]) ((if_pos ?_).trans rfl)
        exact hst
  · intro d remote len hread
    have hlen : q.packetLen = len := by
      rw [NetReq.packetLen]
      exact if_pos (.inl hop)
    obtain ⟨p, hp, hrem, hl, hdata⟩ := sendPacket_put (s := s) (core := core) hop (by rw [hlen]; exact hread)
    refine ⟨_, p, ?_, hp, hrem, hl.trans hlen, hdata, ?_⟩
    · refine congrArg Host.Outcome.next ?_
      simp only [hq]
    · simp only [len]
      omega
  · refine congrArg Host.Outcome.next ?_
    simp only [hnone]
  · refine ⟨(Config.freeValue s.free).toNat % 2 ^ 64, ?_⟩
    intro y t
    have hy : (s.ep ep).rewindowed s.free = y := rfl
    have hopen : ∀ {r : Reply}, (y.rod = false ∨ k = 0 ∨ r = .retry) →
        ¬(p.reply ≠ none ∨ p.port = none ∨ ((s.ep ep).rod ∧ k ≠ 0 ∧ r ≠ .retry)) := by
      rintro r h (hr | hr | ⟨hr, hk, hne⟩)
      · exact hr hrep
      · exact hport hr
      · rcases h with h | h | h
        · exact absurd (h.symm.trans hr) (by decide)
        · exact hk h
        · exact hne h
    refine ⟨?_, fun hrod => ⟨fun r => ?_, fun data hop => ?_, fun data hop hlen => ?_⟩, fun hrod hk r hr => ?_⟩
    · exact (packetAck_heard hp (hopen (.inr (.inr rfl)))).trans rfl
    · refine (packetAck_heard hp (hopen (hrod.imp_right .inl))).trans (congrArg Host.Outcome.next ?_)
      simp only [State.heard, hx, hst, ne_eq, not_true_eq_false, if_false, netErr_eq, hy]
      rfl
    · refine (packetAck_heard hp (hopen (hrod.imp_right .inl))).trans (congrArg Host.Outcome.next ?_)
      simp only [State.heard, hx, hst, ne_eq, not_true_eq_false, if_false, if_pos hop, hy]
      rfl
    · have hne : ¬(q.op = .put ∨ q.op = .send) := by rcases hop with h | h <;> rw [h] <;> decide
      refine (packetAck_heard hp (hopen (hrod.imp_right .inl))).trans (congrArg Host.Outcome.next ?_)
      simp only [State.heard, hx, hst, ne_eq, not_true_eq_false, if_false, if_neg hne, hlen, hy]
      rfl
    · exact packetAck_deaf hp (.inr (.inr ⟨hrod, hk, hr⟩))
  · have hno : ¬(p.reply ≠ none ∨ (64 ≤ p.tries ∧ (!p.backoff) = true)) := by
      rintro (h | ⟨h1, h2⟩)
      · exact h hrep
      · rcases htry with h | h
        · omega
        · rw [h] at h2
          exact absurd h2 (by decide)
    refine ⟨s.resent ep k p, s.resentPkt ep p, congrArg Host.Outcome.next ?_, congrArg Endpoint.pkts ep_resent, resentPkt_msg,
      resentPkt_tries, congrArg Endpoint.retrans ep_resent⟩
    simp only [hp]
    exact (if_neg hno).trans rfl
  · have hno : ¬(p.tries < 64 ∨ p.backoff = true ∨ p.reply ≠ none) := by
      simp only [hb, hrep, ne_eq, not_true_eq_false, Bool.false_eq_true, or_false]
      exact Nat.not_lt.2 htry
    refine ⟨s.epFails ep, congrArg Host.Outcome.next ?_, ep_epFails hst⟩
    simp only [hp]
    exact (if_neg hno).trans rfl
  · refine ⟨fun hd => ?_, fun hu => ⟨s.dropPort port .down, ?_, port_dropPort ..⟩, fun hu => ⟨s.dropPort port .disabled, ?_,
      port_dropPort ..⟩, fun hd => ?_,
      fun hd => ⟨{ s with ports := tset .down s.ports port .down }, ?_, by rw [State.port, tget_tset_same]⟩⟩
    · exact congrArg Host.Outcome.next (if_pos ⟨hport, hd⟩)
    · exact congrArg Host.Outcome.next (if_pos ⟨hport, hu⟩)
    · refine congrArg Host.Outcome.next ((if_neg (Nat.not_le.2 hport)).trans ?_)
      simp only [hu]
    · refine congrArg Host.Outcome.next ((if_neg (Nat.not_le.2 hport)).trans ?_)
      simp only [hd]
    · exact congrArg Host.Outcome.next (if_pos ⟨hport, hd⟩)

end
end Sys2Proof.Machine
namespace Sys2Proof.Machine

open Sys2Proof

section
variable {s u v : State} {ep k pa : Nat} {p : Packet} {bs : List (BitVec 8)}

/-! ### Packets that arrive (R367, R372, R376) -/

/-- A packet that is authentic, at an endpoint that is OPEN. -/
def State.Takes (s : State) (ep : Nat) (p : Packet) : Prop :=
  (s.ep ep).st = .opened ∧ ((s.ep ep).security = 0 ∨ p.authentic = true)

/-- One that comes in the order of its endpoint. -/
def State.InOrder (s : State) (ep : Nat) (p : Packet) : Prop :=
  (s.ep ep).rod = false ∨ p.duplicate = true ∨ p.seq = (s.ep ep).arrived

theorem packetIn_closed {f : Endpoint → State} (h : (s.ep ep).st ≠ .opened) : s.packetIn ep p f = s.say (.nack ep) := if_pos h

theorem packetIn_forged {f : Endpoint → State} (h : (s.ep ep).st = .opened) (hs : (s.ep ep).security ≠ 0)
    (ha : p.authentic = false) :
    s.packetIn ep p f = s.setEp ep { s.ep ep with unauth := (s.ep ep).unauth + 1 } :=
  (if_neg (not_not_intro h)).trans (if_pos ⟨hs, by rw [ha]; decide⟩)

theorem packetIn_taken {f : Endpoint → State} (h : s.Takes ep p) (ho : s.InOrder ep p) : s.packetIn ep p f = f (s.ep ep) := by
  obtain ⟨hst, hsec⟩ := h
  refine (if_neg (not_not_intro hst)).trans ((if_neg ?_).trans (if_neg ?_))
  · rintro ⟨h1, h2⟩
    rcases hsec with h | h
    · exact h1 h
    · rw [h] at h2
      exact absurd h2 (by decide)
  · rintro ⟨h1, h2, h3⟩
    rcases ho with h | h | h
    · rw [h] at h1
      exact absurd h1 (by decide)
    · rw [h] at h2
      exact absurd h2 (by decide)
    · exact h3 h

theorem packetIn_disordered {f : Endpoint → State} (h : s.Takes ep p) (ho : ¬s.InOrder ep p) : s.packetIn ep p f = s := by
  obtain ⟨hst, hsec⟩ := h
  simp only [State.InOrder, not_or, Bool.not_eq_false, Bool.not_eq_true] at ho
  obtain ⟨h1, h2, h3⟩ := ho
  refine (if_neg (not_not_intro hst)).trans ((if_neg ?_).trans (if_pos ⟨h1, by rw [h2]; decide, h3⟩))
  rintro ⟨h1, h2⟩
  rcases hsec with h | h
  · exact h1 h
  · rw [h] at h2
    exact absurd h2 (by decide)

theorem memPacket_taken {n : Nat} {f : Endpoint → State} (h : s.Takes ep p) (ho : s.InOrder ep p) (hc : (s.ep ep).cmds = false)
    (hn : 0 < n) (hin : p.va.toNat % 4096 + n ≤ 4096) : s.memPacket ep p n f = f (s.ep ep) := by
  refine (packetIn_taken h ho).trans (if_neg ?_)
  rw [hc]
  rintro (h | h | h)
  · exact absurd h (by decide)
  · omega
  · omega

theorem ofDomain_named (hrod : (s.ep ep).rod = true) (hvf : (s.ctx (s.ep ep).ctx).vf = 0) (hn : ∃ node, (node, ep) ∈ s.dev.nodes) :
    s.ofDomain ep (s.ep ep) = true := by
  obtain ⟨node, hn⟩ := hn
  rw [State.ofDomain, hrod, hvf, Bool.true_and]
  exact List.any_eq_true.2 ⟨_, hn, by simp⟩

theorem ofDomain_unnamed {x : Endpoint} (h : ∀ e ∈ s.dev.nodes, e.2 ≠ ep) : s.ofDomain ep x = false := by
  have hno : (s.dev.nodes.any fun e => decide (e.2 = ep)) = false :=
    List.any_eq_false.2 fun e he => by simpa using h e he
  rw [State.ofDomain, hno, Bool.and_false]

theorem domainPacket_eq (n : Nat) (f : Nat → State) : s.domainPacket ep p n f =
    if p.va.toNat / 2 ^ 40 = s.dev.node ∧ p.va.toNat % 2 ^ 40 + n ≤ Config.memBytes ∧
        p.va.toNat % 2 ^ 40 / 4096 ∈ s.dev.exports then
      f (p.va.toNat % 2 ^ 40) else s.final ep p (.absent ep) := by
  simp only [State.domainPacket, State.ownAddr, Bool.and_eq_true, decide_eq_true_eq, and_assoc]

/-! ### Accesses of other devices (R376) -/

theorem noteAsk_field {α : Type} (F : State → α)
    (hF : ∀ (t : State) a b, F { t with dev := { t.dev with found := a, asking := b } } = F t) (w : Asker) (m : NetMsg) (b : Bool) :
    F (s.noteAsk w m b) = F s := by
  unfold State.noteAsk
  split
  · rfl
  · rfl
  · rfl
  · cases b
    · exact hF s _ _
    · exact hF s _ _

theorem sendOwn_asked {e : Nat} {m : NetMsg} {w : Option Asker} {va : Nat} {acc : Option Nat} (h : (s.ep e).st = .opened) :
    ∃ p, ((s.sendOwn e m w va acc).ep e).pkts = (s.ep e).pkts ++ [p] ∧ p.msg = m ∧ p.asker = w := by
  rw [State.sendOwn, if_neg (not_not_intro h)]
  exact ⟨_, congrArg Endpoint.pkts (tget_tput_same _ _ _ _), rfl, rfl⟩

theorem mem_sendOwn (e : Nat) (m : NetMsg) (w : Option Asker) (va : Nat) (acc : Option Nat) :
    (s.sendOwn e m w va acc).mem = s.mem := by
  unfold State.sendOwn
  split <;> rfl

theorem farEp_opened {node e : Nat} (h : s.farEp node = some e) : (s.ep e).st = .opened := by
  simpa using (Option.filter_eq_some_iff.1 h).2

end
end Sys2Proof.Machine
namespace Sys2Proof.Machine

open Sys2Proof

section
variable {s u v : State} {ep k pa : Nat} {p : Packet} {bs : List (BitVec 8)}

/-- What an access of another device finds, and what of it goes out. -/
theorem remoteAccess_spec (w : Asker) (op : HOp) (node va k e : Nat) (data : List (BitVec 8)) :
    let m : NetMsg := { op := op, remote := node * 2 ^ 40 + pa, len := k, data := data }
    let got := s.remoteAccess w op node pa va k data
    (∀ r, s.answered w m = some r → got.2 = gotOf va k r ∧ got.1.eps = s.eps) ∧
    (s.answered w m = none →
      (s.farEp node = none → got = (s, .ok (List.replicate k 0) (some { cause := 15, tval := BitVec.ofNat 64 va }))) ∧
      (s.farEp node = some e →
        let sent := ∃ q ∈ (s.ep e).pkts, q.asker = some w ∧ q.msg = m
        got.2 = .wait ∧ got.1.mem = s.mem ∧ (sent ∨ s.mayAccess e k = false → got.1.eps = s.eps) ∧
        (¬sent → s.mayAccess e k = true →
          ∃ q, (got.1.ep e).pkts = (s.ep e).pkts ++ [q] ∧ q.msg = m ∧ q.asker = some w))) := by
  intro m got
  have hgot : got = s.remoteAccess w op node pa va k data := rfl
  clear_value got
  rw [State.remoteAccess] at hgot
  refine ⟨fun r hr => ?_, fun hno => ⟨fun hfar => ?_, fun hfar => ?_⟩⟩
  · have hr' : s.answered w { op := op, remote := node * 2 ^ 40 + pa, len := k, data := data } = some r := hr
    simp only [hr'] at hgot
    subst hgot
    exact ⟨rfl, noteAsk_field State.eps (fun _ _ _ => rfl) _ _ _⟩
  · have hno' : s.answered w { op := op, remote := node * 2 ^ 40 + pa, len := k, data := data } = none := hno
    simp only [hno', hfar] at hgot
    exact hgot
  · intro sent
    have hno' : s.answered w { op := op, remote := node * 2 ^ 40 + pa, len := k, data := data } = none := hno
    simp only [hno', hfar] at hgot
    have heps : (s.noteAsk w m false).eps = s.eps := noteAsk_field State.eps (fun _ _ _ => rfl) _ _ _
    have hep : (s.noteAsk w m false).ep e = s.ep e := by rw [State.ep, heps]; rfl
    have hmay : (s.noteAsk w m false).mayAccess e k = s.mayAccess e k :=
      noteAsk_field (fun t => t.mayAccess e k) (fun _ _ _ => rfl) _ _ _
    have hsent : (((s.noteAsk w m false).ep e).pkts.any fun p => decide (p.asker = some w) && decide (p.msg = m)) = true ↔ sent := by
      rw [hep, List.any_eq_true]
      simp only [Bool.and_eq_true, decide_eq_true_eq, sent]
    by_cases hgo : sent ∨ s.mayAccess e k = false
    · have hif : (((s.noteAsk w m false).ep e).pkts.any fun p => decide (p.asker = some w) && decide (p.msg = m)) = true ∨
          (!(s.noteAsk w m false).mayAccess e k) = true := by
        rw [hsent, hmay]
        exact hgo.imp_right fun h => by rw [h]; rfl
      rw [show got = (s.noteAsk w m false, .wait) from hgot.trans (if_pos (by rw [Bool.or_eq_true]; exact hif))]
      refine ⟨rfl, noteAsk_field State.mem (fun _ _ _ => rfl) _ _ _, fun _ => heps, fun hns hm => ?_⟩
      rcases hgo with h | h
      · exact absurd h hns
      · rw [h] at hm
        exact absurd hm (by decide)
    · obtain ⟨hns, hm⟩ := not_or.1 hgo
      have hif : ¬((((s.noteAsk w m false).ep e).pkts.any fun p => decide (p.asker = some w) && decide (p.msg = m)) ||
          !(s.noteAsk w m false).mayAccess e k) = true := by
        rw [Bool.or_eq_true, hsent, hmay, Bool.not_eq_true']
        exact hgo
      rw [show got = _ from hgot.trans (if_neg hif)]
      refine ⟨rfl, (mem_sendOwn ..).trans (noteAsk_field State.mem (fun _ _ _ => rfl) _ _ _), fun h => absurd h hgo, fun _ _ => ?_⟩
      obtain ⟨q, hq, hqm, hqa⟩ := sendOwn_asked (m := m) (w := some w) (va := va)
        (acc := some ((s.noteAsk w m false).askerCtx w))
        (show ((s.noteAsk w m false).ep e).st = .opened by rw [hep]; exact farEp_opened hfar)
      exact ⟨q, by rw [← hep]; exact hq, hqm, hqa⟩

/-- The answer to a packet that belongs to no transfer, and is asked for. -/
theorem accessAck_asked {x : Endpoint} {q : OutPkt} {w : Asker} {r : Reply} (ha : q.asker = some w) (hw : s.asks w = true)
    (hlen : ∀ data, r = .done data → data.length = q.msg.len) :
    ((s.accessAck ep x q r).ep ep).pkts = x.pkts ∧
      (s.accessAck ep x q r).dev.answers = s.dev.answers ++ [{ who := w, va := q.va, msg := q.msg, reply := r }] := by
  cases r with
  | done data =>
    simp only [State.accessAck, hlen data rfl, ha, ne_eq, not_true_eq_false, decide_false, Bool.and_false, Bool.false_and,
      Bool.false_eq_true, if_false]
    have hw' : (s.setEp ep x).asks w = true := hw
    simp only [hw', if_true]
    exact ⟨congrArg Endpoint.pkts (tget_tput_same ({} : Endpoint) s.eps ep _), rfl⟩
  | absent =>
    have hw' : (s.setEp ep x).asks w = true := hw
    simp only [State.accessAck, ha, hw', Bool.false_eq_true, if_false, if_true]
    exact ⟨congrArg Endpoint.pkts (tget_tput_same ({} : Endpoint) s.eps ep _), rfl⟩
  | refused e =>
    have hw' : (s.setEp ep { x with err := e.toNat }).asks w = true := hw
    simp only [State.accessAck, ha, hw', Bool.false_eq_true, if_false, if_true]
    exact ⟨(congrArg Endpoint.pkts (tget_tput_same ({} : Endpoint) s.eps ep { x with err := e.toNat })).trans rfl, rfl⟩
  | retry =>
    have hw' : (s.setEp ep x).asks w = true := hw
    simp only [State.accessAck, ha, hw', Bool.false_eq_true, if_false, if_true]
    exact ⟨congrArg Endpoint.pkts (tget_tput_same ({} : Endpoint) s.eps ep _), rfl⟩

/-- Settles O48: what each packet finds, and the two instructions by the endpoint they name. -/
theorem halyardArrivals : Obligations.HalyardArrivals := by
  unfold Obligations.HalyardArrivals
  intro s u v ep pa ty p bs d a b x n fin ok inOrder all
  have hok : ok → s.Takes ep p := id
  have hall : ∀ t, (∀ f, s.packetIn ep p f = t) → all t := fun t h i hi => by
    simp only [List.mem_cons, List.not_mem_nil, or_false] at hi
    rcases hi with rfl | rfl | rfl | rfl <;> exact congrArg Host.Outcome.next (h _)
  have hfin : ∀ t m, t.final ep p m = fin t m := fun t m => rfl
  refine ⟨fun h => hall _ fun _ => packetIn_closed h, fun h hs ha => hall _ fun _ => packetIn_forged h hs ha,
    fun h ho => hall _ fun _ => packetIn_disordered h ho, fun h ho hc hrod hvf hn hd => ?_, fun h ho hc hn => ⟨?_, ?_, ?_⟩,
    fun hcr => ?_, fun w op node va k e data => remoteAccess_spec w op node va k e data,
    fun q w r k hq hx hport hrep ha hw hrod hr hlen => ?_,
    fun h ho hc hlen hd => ?_, fun hr => ?_, fun hr => ?_⟩
  · have hdom : s.ofDomain ep (s.ep ep) = true := ofDomain_named hrod hvf hn
    refine ⟨fun hne hin => congrArg Host.Outcome.next ?_, fun hlen hin hpo => congrArg Host.Outcome.next ?_⟩
    · refine (memPacket_taken (hok h) ho hc (List.length_pos_iff.2 hne) hin).trans ?_
      simp only [hd, hdom, Bool.false_eq_true, if_false, if_true, domainPacket_eq, hfin]
    · refine (memPacket_taken (hok h) ho hc hlen hin).trans ?_
      have hpo' : s.memPoisoned (p.va.toNat % 2 ^ 40) p.len = false := hpo
      simp only [hdom, if_true, domainPacket_eq, hfin, hpo', Bool.false_eq_true, if_false]
      split
      · rfl
      · rfl
  · have hdom : ∀ y, s.ofDomain ep y = false := fun y => ofDomain_unnamed hn
    refine fun hne hin => ⟨fun hd => congrArg Host.Outcome.next ?_, fun hd hw => congrArg Host.Outcome.next ?_⟩
    · refine (memPacket_taken (hok h) ho hc (List.length_pos_iff.2 hne) hin).trans ?_
      simp only [hd, if_true]
      rfl
    · refine (memPacket_taken (hok h) ho hc (List.length_pos_iff.2 hne) hin).trans ?_
      simp only [hd, hdom, Bool.false_eq_true, if_false]
      rw [show s.devWrite (.packet ep) (s.ep ep).ctx p.va.toNat p.data = (u, .ok bs) from hw]
      rfl
  · have hdom : ∀ y, s.ofDomain ep y = false := fun y => ofDomain_unnamed hn
    refine fun hlen hin hrd => congrArg Host.Outcome.next ?_
    refine (memPacket_taken (hok h) ho hc hlen hin).trans ?_
    simp only [hdom, Bool.false_eq_true, if_false]
    rw [show s.devRead (.packet ep) (s.ep ep).ctx (pieces p.va.toNat p.len) = (u, .ok bs) from hrd]
    rfl
  · have hdom : ∀ y, s.ofDomain ep y = false := fun y => ofDomain_unnamed hn
    intro hal hamo hd hx hpo old new
    refine congrArg Host.Outcome.next ?_
    refine (memPacket_taken (hok h) ho hc (by decide) (by omega)).trans ?_
    have hgo : ¬(p.va.toNat % 8 ≠ 0 ∨ 2 < p.amo.toNat) := by omega
    have hx' : s.xlateDev (s.ep ep).ctx .atomic p.va.toNat = (v, .ok v.dev.node pa ty) := hx
    simp only [if_neg hgo, hd, hdom, Bool.false_eq_true, if_false, hx', ne_eq, not_true_eq_false, hpo]
    rfl
  · simp only [State.packetDone, hcr, hfin]
  · have hno : ¬(q.reply ≠ none ∨ q.port = none ∨ ((s.ep ep).rod ∧ k ≠ 0 ∧ r ≠ .retry)) := by
      rintro (h | h | ⟨h1, h2, -⟩)
      · exact h hrep
      · exact hport h
      · rcases hrod with h | h
        · exact absurd (h.symm.trans h1) (by decide)
        · exact h2 h
    refine ⟨_, packetAck_heard hq hno, ?_⟩
    have hheard : s.heard ep k q r = ({ s with free := s.free + 1 } : State).accessAck ep
        { (s.ep ep).rewindowed s.free with pkts := ((s.ep ep).rewindowed s.free).pkts.eraseIdx k } q r := by
      cases r with
      | retry => exact absurd rfl hr
      | absent => simp only [State.heard, hx]
      | refused => simp only [State.heard, hx]
      | done => simp only [State.heard, hx]
    rw [hheard]
    exact accessAck_asked ha hw hlen
  · intro r
    refine congrArg Host.Outcome.next ((packetIn_taken (hok h) ho).trans ((if_neg ?_).trans ?_))
    · rw [show (s.ep ep).cmds = true from hc, hlen]
      decide
    · simp only [hd, Bool.false_eq_true, if_false]
      rw [show s.commandIn (s.ep ep).queue (BitVec.ofNat 512 (ofBytes p.data)) = r from rfl]
      obtain ⟨t, o⟩ := r
      cases o <;> rfl
  · obtain ⟨p1, p2⟩ := vals_pair s a b
    intro e y k err
    have he : bits (s.src a).toNat 11 0 = e := by simp [bits, e]
    have hk : bits (s.src b).toNat 2 0 = k := by simp [bits, k]
    refine ⟨fun hy => ?_, fun hst hctx hk5 => ?_, fun hst hctx hk5 => ?_⟩
    · refine next_withOps_late hr ?_
      simp only [p1, p2, he, hk]
      exact (if_pos hy).trans rfl
    · refine next_withOps_late hr ?_
      simp only [p1, p2, he, hk]
      exact (if_neg (not_or.2 ⟨hst, not_not_intro hctx⟩)).trans ((if_pos hk5).trans rfl)
    · let f := (Config.freeValue s.free).toNat % 2 ^ 64
      refine ⟨(if k = 0 then y.window else if k = 2 then f % 65536 else if k = 3 then y.inFlight else if k = 4 then y.retrans
        else if k = 5 then 1 + f % 64 else f) % 2 ^ 64, next_withOps_late hr ?_,
        fun h => ?_, fun h => ?_, fun h => ?_, fun h => ?_, fun h => ?_⟩
      · simp only [p1, p2, he, hk]
        exact (if_neg (not_or.2 ⟨hst, not_not_intro hctx⟩)).trans ((if_neg (Nat.not_lt.2 hk5)).trans rfl)
      · rw [if_pos h]
      · rw [h]
        rfl
      · rw [h]
        rfl
      · rw [h]
        norm_num
        omega
      · rw [h]
        norm_num
        omega
  · intro e y out
    have he : bits (s.src a).toNat 11 0 = e := by simp [bits, e]
    refine next_withOps_late hr ?_
    have hout : min 256 (s.xfersOf e fun _ => true) = out := by
      simp only [State.xfersOf, Bool.and_true]
      rfl
    have hcode : y.st ≠ .free → y.st.code = if y.st = .failed then 2 else 1 := by
      cases y.st <;> simp [EpState.code]
    simp only [State.vals_singleton, he, hout]
    by_cases hy : y.st = .free ∨ y.ctx ≠ s.cur.ctx
    · rw [if_pos hy, if_pos hy]
    · rw [if_neg hy, if_neg hy, hcode (not_or.1 hy).1]
      rfl

end
end Sys2Proof.Machine

/-! SUPPORT. Reset, boot, power, soft errors and fences (24_device R380 to R393), the steps of MQCTL, ELSEL and VFCTL. -/

namespace Sys2Proof.Machine

open Sys2Proof

section
variable {s u : State}

/-! ### Numbers put in memory -/

/-- Dwords put one behind another from address 8 · `i` on are read where they have been put. -/
theorem memRead_foldl_dwords (l : List Nat) : ∀ (s : State) (i j : Nat), j < l.length →
    (((l.zipIdx i).foldl (fun s e => s.memPut (8 * e.2) 8 e.1) s)).memRead (8 * (i + j)) 8 = l.getD j 0 % 256 ^ 8 := by
  induction l with
  | nil => exact fun s i j hj => absurd hj (Nat.not_lt_zero j)
  | cons x l ih =>
    intro s i j hj
    rw [List.zipIdx_cons, List.foldl_cons]
    cases j with
    | succ j =>
      rw [show i + (j + 1) = i + 1 + j by omega]
      exact ih _ _ _ (Nat.lt_of_succ_lt_succ hj)
    | zero =>
      have hlater : ∀ (l : List Nat) (s : State) k, i < k →
          ((l.zipIdx k).foldl (fun s e => s.memPut (8 * e.2) 8 e.1) s).memRead (8 * i) 8 = s.memRead (8 * i) 8 := by
        intro l
        induction l with
        | nil => exact fun s k _ => rfl
        | cons y l ih =>
          intro s k hk
          rw [List.zipIdx_cons, List.foldl_cons, ih _ _ (Nat.lt_succ_of_lt hk)]
          exact State.memRead_memPut_other _ _ _ (.inl (by dsimp only; omega))
      exact (hlater l _ _ (Nat.lt_succ_self i)).trans (State.memPut_same ..)

/-! ### Boot -/

/-- The boot record (R382). -/
def bootRecord (c : BootCfg) : List Nat :=
  let full := fun (a : Nat) => c.node.toNat * 2 ^ 40 + a
  [1, c.node.toNat, full c.ctxTable, full c.queueTable, full c.cring, full c.ering, c.freeBase]

/-- The tables of context 0, in a memory that held 0, and the tables of the device (R382). -/
def State.bootTables (s : State) (c : BootCfg) : State :=
  let node := c.node.toNat
  let s := c.defects.foldl (fun (s : State) e => s.setClu e.1 ((s.clu e.1).withDefect e.2)) s
  let s : State := { s with
    mem := [], poison := []
    dev := { s.dev with node := node, ctxBase := some c.ctxTable, qBase := some c.queueTable,
                        nodes := c.nodes.foldl (fun m e => tput m e.1 e.2) [], exports := c.exports }
    ports := s.ports.filter fun e => decide (e.2 ≠ Port.disabled) }
  let tablePte := fun (a : Nat) => 1 + node * 2 ^ 10 + a / 4096 * 2 ^ 22
  let leaf := fun (k : Nat) => 1 + 2 + 4 + 8 + 16 + 32 + node * 2 ^ 10 + k * 2 ^ 46
  let s := (s.memPut c.table4 8 (tablePte c.table3)).memPut c.table3 8 (tablePte c.table2)
  (List.range 6).foldl (fun (s : State) k => s.memPut (c.table2 + 8 * k) 8 (leaf k)) s

/-- Context, queue and endpoint 0 are made. -/
def State.bootMade (s : State) (x : Ctx) (y : Queue) (z : Endpoint) : State := ((s.setCtx 0 x).setQueue 0 y).setEp 0 z

theorem dev_bootTables (c : BootCfg) : (s.bootTables c).dev.node = c.node.toNat ∧
    (s.bootTables c).dev.ctxBase = some c.ctxTable ∧ (s.bootTables c).dev.qBase = some c.queueTable := by
  have hfold : ∀ (F : Nat → Nat) (t : State), ((List.range 6).foldl (fun (s : State) k =>
      s.memPut (c.table2 + 8 * k) 8 (F k)) t).dev = t.dev :=
    fun F t => foldl_same (g := State.dev) (f := fun s k => s.memPut (c.table2 + 8 * k) 8 (F k)) (fun _ _ => rfl) _ _
  rw [State.bootTables]
  dsimp only
  rw [hfold]
  exact ⟨rfl, rfl, rfl⟩

theorem dev_bootMade (x : Ctx) (y : Queue) (z : Endpoint) : (s.bootMade x y z).dev = s.dev :=
  (State.dev_setQueue ..).trans (State.dev_setCtx ..)

theorem ctx_bootMade (x : Ctx) (y : Queue) (z : Endpoint) : (s.bootMade x y z).ctx 0 = x :=
  (State.ctx_setQueue ..).trans ((State.ctx_setCtx ..).trans (if_pos rfl))

theorem queue_bootMade (x : Ctx) (y : Queue) (z : Endpoint) : (s.bootMade x y z).queue 0 = y := State.queue_setQueue_same ..

theorem ep_bootMade (x : Ctx) (y : Queue) (z : Endpoint) : (s.bootMade x y z).ep 0 = z := State.ep_setEp_same ..

/-- BOOT makes context, queue and endpoint 0, and writes the boot record last. -/
theorem boot_fits {c : BootCfg} (hb : s.dev.ctxBase = none) (hf : bootFits c = true) : ∃ x y z,
    exec (.boot c) s = .next ((bootRecord c).zipIdx.foldl (fun (s : State) e => s.memPut (8 * e.2) 8 e.1)
      ((s.bootTables c).bootMade x y z)) ∧ x.st = .live ∧ x.sysok = true ∧ y.st = .running ∧ z.st = .opened := by
  have hstep : exec (.boot c) s = execBoot c s := rfl
  rw [hstep, execBoot, if_neg (by rw [hb]; exact Bool.false_ne_true), if_neg (by rw [hf]; decide)]
  exact ⟨_, _, _, rfl, rfl, rfl, rfl, rfl⟩

/-- A field that the boot record leaves: it changes memory alone. -/
theorem bootRecord_field {α : Type} (F : State → α)
    (hF : ∀ (t : State) m p n c, F { t with mem := m, poison := p, moment := n, cores := c } = F t) (l : List (Nat × Nat)) :
    F (l.foldl (fun (s : State) e => s.memPut (8 * e.2) 8 e.1) s) = F s :=
  foldl_same (g := F) (fun _ _ => (onlyMem_memPut ..).field F hF) _ _

theorem boot_clause (c : BootCfg) (hb : s.dev.ctxBase = none) (hf : bootFits c = true) : ∃ t,
    exec (.boot c) s = .next t ∧ t.dev.node = c.node.toNat ∧ t.dev.ctxBase = some c.ctxTable ∧
    t.dev.qBase = some c.queueTable ∧ (t.ctx 0).st = .live ∧ (t.ctx 0).sysok = true ∧ (t.queue 0).st = .running ∧
    (t.ep 0).st = .opened ∧ t.memRead 0 8 = 1 ∧ t.memRead 8 8 = c.node.toNat ∧ t.memRead 48 8 = c.freeBase % 2 ^ 64 := by
  obtain ⟨x, y, z, hrun, hx, hok, hy, hz⟩ := boot_fits hb hf
  obtain ⟨hnode, hctx, hq⟩ := dev_bootTables (s := s) c
  have hdev := (bootRecord_field State.dev (fun _ _ _ _ _ => rfl) (bootRecord c).zipIdx).trans
    (dev_bootMade (s := s.bootTables c) x y z)
  have hc := (bootRecord_field (·.ctx 0) (fun _ _ _ _ _ => rfl) (bootRecord c).zipIdx).trans
    (ctx_bootMade (s := s.bootTables c) x y z)
  have hqueue := (bootRecord_field (·.queue 0) (fun _ _ _ _ _ => rfl) (bootRecord c).zipIdx).trans
    (queue_bootMade (s := s.bootTables c) x y z)
  have hep := (bootRecord_field (·.ep 0) (fun _ _ _ _ _ => rfl) (bootRecord c).zipIdx).trans
    (ep_bootMade (s := s.bootTables c) x y z)
  have hread : ∀ j < 7, _ := memRead_foldl_dwords (bootRecord c) ((s.bootTables c).bootMade x y z) 0
  have hn : c.node.toNat % 256 ^ 8 = c.node.toNat := Nat.mod_eq_of_lt (c.node.isLt.trans (by decide))
  refine ⟨_, hrun, (congrArg Dev.node hdev).trans hnode, (congrArg Dev.ctxBase hdev).trans hctx,
    (congrArg Dev.qBase hdev).trans hq, (congrArg Ctx.st hc).trans hx, (congrArg Ctx.sysok hc).trans hok,
    (congrArg Queue.st hqueue).trans hy, (congrArg Endpoint.st hep).trans hz, hread 0 (by decide),
    (hread 1 (by decide)).trans hn, hread 6 (by decide)⟩

/-! ### What a fence saves first leaves of the clusters -/

theorem clus_changeSaved (key t : Nat) (f : Thread → Thread) : (s.changeSaved key t f).clus = s.clus := by
  unfold State.changeSaved
  split
  · rfl
  · split
    · rfl
    · rfl

theorem clus_modOwner (o : Owner) (f : Thread → Thread) : (s.modOwner o f).1.clus = s.clus := by
  unfold State.modOwner
  dsimp only
  split
  · rfl
  · split
    · exact clus_changeSaved ..
    · rfl

theorem clus_arrayTouch (core array : Nat) (p : Nat → Bool) (ctx : Nat) : (s.arrayTouch core array p ctx).clus = s.clus := by
  rw [State.arrayTouch]
  refine foldl_same (g := State.clus) (fun _ _ => ?_) _ _
  rfl

theorem clus_queueRead (core : Nat) (e : MEnt) : (s.queueRead core e).clus = s.clus := by
  have hspill : ∀ u : State, (if (u.core core).spill = [] then u else u.arrayTouch core 6 (fun _ => true) e.owner.ctx).clus =
      u.clus := fun u => by
    split
    · rfl
    · exact clus_arrayTouch ..
  rw [State.queueRead]
  dsimp only
  split
  · exact (hspill _).trans (clus_arrayTouch ..)
  · exact (clus_modOwner ..).trans ((hspill _).trans (clus_arrayTouch ..))

theorem clus_matrixTouch (core ctx : Nat) : (s.matrixTouch core ctx).clus = s.clus := by
  rw [State.matrixTouch]
  exact (foldl_same (g := State.clus) (fun _ _ => clus_queueRead ..) _ _).trans (clus_arrayTouch ..)

theorem clus_saveTouch (ctx b : Nat) (sole : List Nat) (grp : Group) : (s.saveTouch ctx b sole grp).clus = s.clus := by
  rw [State.saveTouch]
  refine (foldl_same (g := State.clus) (fun t n => ?_) _ _).trans (foldl_same (g := State.clus) (fun t c => ?_) _ _)
  · dsimp only
    split
    · rfl
    · rfl
  · dsimp only
    split
    · exact (clus_matrixTouch ..).trans ((clus_arrayTouch ..).trans (clus_arrayTouch ..))
    · exact (clus_arrayTouch ..).trans (clus_arrayTouch ..)

theorem clus_discardUnplaced (ser : Nat) : (s.discardUnplaced ser).clus = s.clus := by
  unfold State.discardUnplaced
  dsimp only
  refine foldl_same (g := State.clus) (fun t e => ?_) _ _
  unfold State.unregister
  refine foldl_same (g := State.clus) (fun t i => ?_) _ _
  rfl

theorem clus_markFault (ser cause : Nat) (addr : W64) : (s.markFault ser cause addr).clus = s.clus := by
  unfold State.markFault
  dsimp only
  split
  · rfl
  · rfl
  · exact clus_discardUnplaced ..

theorem clus_setCtx (c : Nat) (x : Ctx) : (s.setCtx c x).clus = s.clus :=
  (onlyMem_setCtx c x).field State.clus fun _ _ _ _ _ => rfl

theorem clus_loseSaved (core ser g : Nat) (grp : Group) : (s.loseSaved core ser g grp).clus = s.clus := by
  rw [State.loseSaved]
  exact (clus_markFault ..).trans (clus_setCtx ..)

theorem clus_left (l : List Nat) (vf : Nat) : (s.left l vf).clus = s.clus := by
  rw [State.left]
  refine foldl_same (g := State.clus) (fun _ _ => ?_) _ _
  rfl

/-- The release of the slots and the cores of a saved group leaves the clusters. -/
theorem clus_released (F : State → Nat → Core) (mine l cores : List Nat) (vf ser g : Nat) (grp : Group) :
    (((l.foldl (fun t c => t.setCore c (F t c)) (mine.foldl (fun t n => t.setThread n {}) s)).left cores vf).preempted
      ser g grp).clus = s.clus := by
  refine ((preempted_field State.clus fun _ _ => rfl).trans (clus_left ..)).trans ?_
  refine (foldl_same (g := State.clus) (f := fun t c => t.setCore c (F t c)) (fun _ _ => rfl) _ _).trans ?_
  exact foldl_same (g := State.clus) (f := fun (t : State) (n : Nat) => t.setThread n {}) (fun _ _ => rfl) _ _

theorem clus_saveGroup (ser g : Nat) (grp : Group) (area : Nat) : (s.saveGroup ser g grp area).clus = s.clus := by
  have hw : ∀ (u : State) (x : Group), (u.writeSave ser g x).clus = u.clus := fun u x =>
    onlyMem_writeSave.field State.clus fun _ _ _ _ _ => rfl
  rw [State.saveGroup]
  dsimp only
  split
  · exact (clus_loseSaved ..).trans ((clus_released ..).trans ((hw ..).trans ((clus_setCtx ..).trans (clus_saveTouch ..))))
  · exact (clus_released ..).trans ((hw ..).trans ((clus_setCtx ..).trans (clus_saveTouch ..)))

theorem clus_preempt (die : Nat) : (s.preempt die).clus = s.clus := by
  rw [State.preempt]
  dsimp only
  split
  · exact clus_setCtx ..
  · rfl

theorem clus_deliver (t k : Nat) (p : Pend) : (s.deliver t k p).clus = s.clus := by
  rw [State.deliver]
  dsimp only
  split
  · split
    · rfl
    · split
      · rfl
      · exact ackAll_field State.clus (fun _ _ => rfl) t
  · rfl

theorem clus_completeNow (ser g : Nat) (grp : Group) : (s.completeNow ser g grp).clus = s.clus := by
  rw [State.completeNow]
  refine (foldl_same (g := State.clus) (fun t n => ?_) _ _).trans (foldl_same (g := State.clus) (fun t c => ?_) _ _)
  · refine foldl_same (g := State.clus) (fun t _ => ?_) _ _
    split
    · split
      · exact clus_deliver ..
      · rfl
    · rfl
  · exact foldl_same (g := State.clus) (fun _ _ => clus_modOwner ..) _ _

theorem clus_savedFirst (core : Nat) : (s.savedFirst core).clus = s.clus := by
  rw [State.savedFirst]
  refine (foldl_same (g := State.clus) (fun t e => ?_) _ _).trans (clus_preempt ..)
  dsimp only
  split
  · rfl
  · split
    · exact (clus_saveGroup ..).trans (clus_completeNow ..)
    · rfl

/-! ### Fences -/

/-- A field that the discard of a kernel's groups leaves: it changes tags, groups and kernels. -/
theorem discardUnplaced_field {α : Type} (F : State → α)
    (hF : ∀ (t : State) a g k, F { t with tags := a, groups := g, kernels := k } = F t) (ser : Nat) :
    F (s.discardUnplaced ser) = F s := by
  have hmod : ∀ (u : State) (c : Nat) (l : List Input), F (u.unregister c l) = F u := fun u c l => by
    unfold State.unregister
    exact foldl_same (g := F) (fun t i => hF t _ t.groups t.kernels) _ _
  unfold State.discardUnplaced
  dsimp only
  generalize hu : List.foldl _ s _ = u
  refine (hF u u.tags _ _).trans ?_
  rw [← hu]
  exact foldl_same (g := F) (fun t e => hmod t _ _) _ _

theorem cores_markFault (ser cause : Nat) (addr : W64) : (s.markFault ser cause addr).cores = s.cores := by
  unfold State.markFault
  dsimp only
  split
  · rfl
  · rfl
  · exact discardUnplaced_field State.cores (fun _ _ _ _ => rfl) ser

theorem cores_fenceEnd (t core : Nat) : (s.fenceEnd t core).cores = s.cores := by
  rw [State.fenceEnd]
  split
  · split
    · rfl
    · exact cores_markFault ..
  · rfl

theorem fenced_loseSaved (core ser g c : Nat) (grp : Group) :
    ((s.loseSaved core ser g grp).core c).fenced = (s.core c).fenced := by
  rw [State.loseSaved]
  refine (congrArg (fun m => (tget {} m c).fenced) (cores_markFault ..)).trans ?_
  exact (onlyMem_setCtx ..).coreField c Core.fenced fun _ _ => rfl

/-- A core whose cluster has no spare is fenced for good. -/
theorem fenced_fence {core : Nat} (h : (s.clu (core / 8)).spare = none) : ((s.fence core).core core).fenced = true := by
  rw [State.fence]
  split
  · assumption
  · have hspare : ((s.savedFirst core).clu (core / 8)).spare = none := by
      rw [State.clu, clus_savedFirst]
      exact h
    dsimp only
    rw [hspare]
    have hlinks : ∀ (l : List Nat) (u : State), (l.foldl State.endLinks u).cores = u.cores :=
      foldl_same (g := State.cores) fun _ _ => rfl
    have hended : ∀ (l : List Nat) (u : State), (l.foldl (fun u t => u.fenceEnd t core) u).cores = u.cores :=
      foldl_same (g := State.cores) fun _ _ => cores_fenceEnd ..
    refine (foldl_same (g := fun t : State => (t.core core).fenced) (fun _ _ => fenced_loseSaved ..) _ _).trans ?_
    simp only [State.core, hlinks, hended]
    exact congrArg Core.fenced (State.core_setCore_same ..)

theorem splitHeld_field {α : Type} (F : State → α) (hF : ∀ (u : State) t, F { u with thr := t } = F u) :
    F s.splitHeld = F s := by
  rw [State.splitHeld]
  refine foldl_same (g := F) (fun u e => ?_) _ _
  split
  · split
    · exact foldl_same (g := F) (fun u m => hF u _) _ _
    · rfl
  · rfl

/-- A core that SHROUD has named in a cycle is fenced as it ends. -/
theorem fenced_tick {core : Nat} (hf : s.dev.fences = [core]) (h : (s.clu (core / 8)).spare = none) :
    (s.tick.core core).fenced = true := by
  have hfences : s.splitHeld.dev.fences = [core] := (splitHeld_field (fun u => u.dev.fences) fun _ _ => rfl).trans hf
  have hclu : (s.splitHeld.clu (core / 8)).spare = none := by
    rw [splitHeld_field (fun u => u.clu (core / 8)) fun _ _ => rfl, h]
  have hnamed : (s.splitHeld.fenceNamed.core core).fenced = true := by
    rw [State.fenceNamed, hfences]
    exact fenced_fence hclu
  rw [State.tick]
  refine (foldl_same (g := fun t : State => (t.core core).fenced) (fun t c => ?_) _ _).trans hnamed
  refine coreField_setCore Core.fenced ?_ core
  rfl

/-! ### Statements -/

/-- A core is named to be fenced as the cycle ends. -/
def State.nameFence (s : State) (core : Nat) : State := { s with dev := { s.dev with fences := s.dev.fences ++ [core] } }

/-- What SHROUD does in system mode for VF 0. -/
theorem shroud_runs {a : SReg} {x : Nat} (hsys : s.cur.tstate.getLsbD 2 = true) (hvf : s.cur.vf = 0) (hr : s.Ready [a] none)
    (hx : (s.src a).toNat % 2048 = x) : exec (.shroud a) s =
      .next (if 1536 ≤ x then s.trap (remoteErr x 1) else s.release fun u => (u.retire [a]).nameFence x) := by
  have hbits : bits (s.src a).toNat 10 0 = (s.src a).toNat % 2048 := by simp [bits]
  have hstep : exec (.shroud a) s = execShroud a s := rfl
  rw [hstep, execShroud, State.system_sys _ hsys, if_neg (not_not.2 hvf), State.withOps_ready hr]
  dsimp only
  rw [State.vals_singleton, hbits, hx]
  rfl

theorem remoteErr_core {x : Nat} (h : x < 2048) : remoteErr x 1 = { cause := 15, tval := BitVec.ofNat 64 (x + 4096) } := by
  rw [remoteErr, Nat.mod_eq_of_lt h]

/-- A stopped queue stops where it was at work; the others stay as they are. -/
theorem queue_stopQueue (q j : Nat) : (s.stopQueue q).queue j = s.queue j ∨
    j = q ∧ ((s.queue q).st = .running ∨ (s.queue q).st = .blocked ∨ (s.queue q).st = .stalled) ∧
      ((s.stopQueue q).queue j).st = .stopped := by
  by_cases hj : j = q
  · subst hj
    rw [State.stopQueue]
    split
    · next h => exact .inr ⟨rfl, .inl h, congrArg Queue.st (State.queue_setQueue_same ..)⟩
    · next h => exact .inr ⟨rfl, .inr (.inl h), congrArg Queue.st (State.queue_setQueue_same ..)⟩
    · next h => exact .inr ⟨rfl, .inr (.inr h), congrArg Queue.st (State.queue_setQueue_same ..)⟩
    · exact .inl rfl
  · refine .inl ?_
    have hother : ∀ x, (s.setQueue q x).queue j = s.queue j := fun x => by rw [State.queue_setQueue, if_neg hj]
    rw [State.stopQueue]
    split
    · exact hother _
    · exact hother _
    · exact hother _
    · rfl

theorem st_stopQueue_running {q : Nat} (h : (s.queue q).st = .running) : ((s.stopQueue q).queue q).st = .stopped := by
  rw [State.stopQueue]
  rw [h]
  exact congrArg Queue.st (State.queue_setQueue_same ..)

theorem cycle_stopQueue (q : Nat) : (s.stopQueue q).cycle = s.cycle := by
  have h : ∀ x, (s.setQueue q x).cycle = s.cycle := fun x => (onlyMem_setQueue q x).field State.cycle fun _ _ _ _ _ => rfl
  rw [State.stopQueue]
  split
  · exact h _
  · exact h _
  · exact h _
  · rfl

/-- The reset of a VF stops its running queues. -/
theorem st_vfStart {v q : Nat} (grace : Nat) (w : Option Nat) (hvf : (s.queue q).vf = v) (hst : (s.queue q).st = .running) :
    ((s.vfStart v grace w).queue q).st = .stopped := by
  have hmem : (q, s.queue q) ∈ s.queues.filter fun e => decide (e.2.vf = v) := by
    refine List.mem_filter.2 ⟨tget_mem (d := ({} : Queue)) fun h => ?_, decide_eq_true hvf⟩
    have hfree : (s.queue q).st = .free := congrArg Queue.st h
    rw [hst] at hfree
    exact absurd hfree (by decide)
  have hstop :
      (((s.queues.filter fun e => decide (e.2.vf = v)).foldl (fun s e => s.stopQueue e.1) s).queue q).st = .stopped := by
    refine foldl_reaches (f := fun (s : State) (e : Nat × Queue) => s.stopQueue e.1)
      (I := fun t => (t.queue q).st = .running ∨ (t.queue q).st = .stopped) (P := fun t => (t.queue q).st = .stopped) hmem
      (fun t e ht => ?_) (fun t ht => ?_) (fun t e ht => ?_) (.inl hst)
    · rcases queue_stopQueue (s := t) e.1 q with h | ⟨-, -, h⟩
      · rwa [h]
      · exact .inr h
    · rcases ht with h | h
      · exact st_stopQueue_running h
      · rcases queue_stopQueue (s := t) q q with h' | ⟨-, -, h'⟩
        · rwa [h']
        · exact h'
    · rcases queue_stopQueue (s := t) e.1 q with h | ⟨-, -, h⟩
      · rwa [h]
      · exact h
  rw [State.vfStart]
  refine (congrArg (fun m => (tget {} m q).st) (foldl_same (g := State.queues) (fun t e => ?_) _ _)).trans hstop
  exact discardUnplaced_field State.queues (fun _ _ _ _ => rfl) _

theorem dev_vfStart (v grace : Nat) (w : Option Nat) : (s.vfStart v grace w).dev.vfPhase = 1 ∧
    (s.vfStart v grace w).dev.vfNo = v ∧ (s.vfStart v grace w).dev.vfGrace = s.cycle + grace * 1800 := by
  refine ⟨rfl, rfl, ?_⟩
  refine congrArg (· + grace * 1800) ?_
  refine (foldl_same (g := State.cycle) (fun t e => ?_) _ _).trans (foldl_same (g := State.cycle) (fun t e => ?_) _ _)
  · exact discardUnplaced_field State.cycle (fun _ _ _ _ => rfl) _
  · exact cycle_stopQueue ..

/-- A write of VFCTL that asks for a reset of a VF other than 0 starts it where none is in progress. -/
theorem vfctlWrite_starts {v : W64} {n g : Nat} (hno : bits v.toNat 19 16 = n) (hg : bits v.toNat 47 32 = g)
    (hv : v.getLsbD 0 = true) (hp : s.dev.vfPhase = 0) (hn : n ≠ 0) :
    ∃ u : State, s.vfctlWrite v = u.vfStart n g none ∧ u.cycle = s.cycle ∧ u.queues = s.queues := by
  rw [State.vfctlWrite, hno, hg, if_neg hn, if_pos hv, if_neg (not_not.2 hp)]
  exact ⟨_, rfl, rfl, rfl⟩

theorem vfctlReset_starts {v : W64} {n g : Nat} (hno : bits v.toNat 19 16 = n) (hg : bits v.toNat 47 32 = g)
    (hv : v.getLsbD 0 = true) (hp : s.dev.vfPhase = 0) (hn : n ≠ 0) : ∃ t, exec (.vfctlReset v) s = .next t ∧
      t.dev.vfPhase = 1 ∧ t.dev.vfNo = n ∧ t.dev.vfGrace = s.cycle + g * 1800 ∧
      ∀ q, (s.queue q).vf = n → (s.queue q).st = .running → (t.queue q).st = .stopped := by
  obtain ⟨u, hwrite, hcycle, hqueues⟩ := vfctlWrite_starts hno hg hv hp hn
  have hqueue : ∀ q, u.queue q = s.queue q := fun q => by rw [State.queue, hqueues, State.queue]
  obtain ⟨hphase, hvfNo, htime⟩ := dev_vfStart (s := u) n g none
  rw [hcycle] at htime
  exact ⟨_, congrArg Host.Outcome.next hwrite, hphase, hvfNo, htime,
    fun q hq hst => st_vfStart g none (by rw [hqueue, hq]) (by rw [hqueue, hst])⟩

end

/-- Settles O49: boot and its record; a fence reaches its core, whatever it saves first; the steps of the control registers. -/
theorem deviceEvents : Obligations.DeviceEvents := by
  unfold Obligations.DeviceEvents
  refine ⟨fun s c n die idle core pa a => ⟨rfl, fun x hx => ?_, fun hb hf => ?_, fun hb hf => boot_clause c hb hf, rfl,
    fun hd hi => ?_, fun hp => ?_, fun clean => rfl, fun hc hw => ?_, fun hc hw => ?_,
    fun hsys => ⟨fun hvf => ?_, fun hvf hr => ?_⟩,
    fun hf h => fenced_tick hf h⟩, fun s core v => ⟨rfl, rfl, rfl, ?_, fun hv hp hn => ?_⟩⟩
  · exact if_pos (by rw [hx]; rfl)
  · exact (if_neg (by rw [hb]; exact Bool.false_ne_true)).trans (if_pos (by rw [hf]; rfl))
  · exact congrArg Host.Outcome.next (if_pos ⟨hi, hd⟩)
  · refine congrArg Host.Outcome.next (if_neg ?_)
    rw [List.contains_iff_mem]
    exact fun h => h.elim Bool.false_ne_true fun h => h.elim Bool.false_ne_true hp
  · exact congrArg Host.Outcome.next (if_pos ⟨hc, hw⟩)
  · exact congrArg Host.Outcome.next (if_neg fun h => absurd h.2 (Nat.not_le.2 hw))
  · exact congrArg Host.Outcome.next ((State.system_sys _ hsys).trans (if_pos hvf))
  · intro x
    have hrun := shroud_runs (x := x) hsys hvf hr rfl
    refine ⟨fun hx => ?_, fun hx hrem => ?_, fun hx hrem => ?_⟩
    · rw [hrun, if_pos hx, remoteErr_core (Nat.mod_lt _ (by decide))]
    · rw [hrun, if_neg (Nat.not_le.2 hx)]
      exact congrArg Host.Outcome.next (if_neg hrem)
    · rw [hrun, if_neg (Nat.not_le.2 hx), State.release_clear hrem]
      rfl
  · have hbits : bits (s.core core).errs.elsel.toNat 15 8 = (s.core core).errs.elsel.toNat / 2 ^ 8 % 2 ^ 8 := rfl
    rw [← hbits]
    rfl
  · exact vfctlReset_starts rfl rfl hv hp hn

end Sys2Proof.Machine

/-! SUPPORT. The memory of a state in canonical form, and what keeps it so: the operations that instructions share, and
messages on the mesh (01_machine R20, 03_thread R57). -/

namespace Sys2Proof.Machine

open Sys2Proof

section
/-- The memory of a state is in its canonical form. -/
def State.Canon (s : State) : Prop := Memory.wf s.mem = true
/-- An outcome goes on to no state but one with memory in canonical form. -/
def OutCanon (o : Out) : Prop := ∀ t, o = .next t → t.Canon
/-- Memory that stands as it was is in canonical form still. -/
theorem State.Canon.same {s u : State} (h : s.Canon) (hm : u.mem = s.mem) : u.Canon := by
  rw [State.Canon, hm]
  exact h
theorem State.Canon.ite {c : Prop} [Decidable c] {u v : State} (hu : u.Canon) (hv : v.Canon) :
    (if c then u else v).Canon := by
  split
  · exact hu
  · exact hv
theorem foldl_canon {α : Type} {f : State → α → State} (hf : ∀ s a, s.Canon → (f s a).Canon) (l : List α) {s : State}
    (h : s.Canon) : (l.foldl f s).Canon := foldl_wf hf l s h
/-- A run over a list that carries a value along keeps the memory's form where each round does. -/
theorem foldl_fst_canon {α β : Type} {f : State × β → α → State × β} (hf : ∀ x a, x.1.Canon → (f x a).1.Canon)
    (l : List α) : ∀ x, x.1.Canon → (l.foldl f x).1.Canon := by
  induction l with
  | nil => exact fun _ h => h
  | cons a r ih => exact fun x h => ih _ (hf x a h)
theorem State.withOps_canon {s : State} (srcs : List SReg) (dst : Option SReg) (k : (SReg → W64) → State) (late : Bool)
    (hk : ∀ v, (k v).Canon) (h : s.Canon) : (s.withOps srcs dst k late).Canon := State.withOps_wf _ _ _ _ hk h
theorem State.release_canon {s : State} (k : State → State) (hk : ∀ u, u.Canon → (k u).Canon) (h : s.Canon) :
    (s.release k).Canon := State.release_wf _ hk h
theorem outCanon_next {s : State} (h : s.Canon) : OutCanon (.next s) := by
  rintro t ⟨⟩
  exact h
variable {s : State}
theorem State.lsModify_canon (core o : Nat) (bs : List (BitVec 8)) (h : s.Canon) : (s.lsModify core o bs).Canon := by
  grind [State.Canon, State.lsModify, State.setCore_mem, State.lsWrite_mem]
theorem State.fromNow_canon (t : Nat) (h : s.Canon) : (s.fromNow t).Canon := by
  grind [State.Canon, State.fromNow, State.setThread_mem]
theorem State.modTag_canon (ctx id tile : Nat) (f : TagEnt → Option TagEnt) (h : s.Canon) : (s.modTag ctx id tile f).Canon := by
  grind [State.Canon, State.modTag]
theorem State.unregister_canon (ctx : Nat) (l : List Input) (h : s.Canon) : (s.unregister ctx l).Canon := by
  grind [State.Canon, State.unregister, State.modTag_canon, foldl_wf]
theorem State.countEnd_canon (ser n : Nat) (h : s.Canon) : (s.countEnd ser n).Canon := by
  grind [State.Canon, State.countEnd, State.setKernel_mem, State.done_mem]
theorem State.discardUnplaced_canon (ser : Nat) (h : s.Canon) : (s.discardUnplaced ser).Canon := by
  grind [State.Canon, State.discardUnplaced, State.setKernel_mem, State.unregister_canon, foldl_wf]
theorem State.markFault_canon (ser cause : Nat) (addr : W64) (h : s.Canon) : (s.markFault ser cause addr).Canon := by
  grind [State.Canon, State.markFault, State.setKernel_mem, State.discardUnplaced_canon]
theorem State.endSavedLinks_canon (key t : Nat) (h : s.Canon) : (s.endSavedLinks key t).Canon := by
  grind [State.Canon, State.endSavedLinks]
theorem State.unrequest_canon (id : Nat) (h : s.Canon) : (s.unrequest id).Canon := by
  grind [State.Canon, State.unrequest]
theorem State.setEp_canon (e : Nat) (x : Endpoint) (h : s.Canon) : (s.setEp e x).Canon := by
  grind [State.Canon, State.setEp]
theorem State.retires_canon (core : Nat) (h : s.Canon) : (s.retires core).Canon := by
  grind [State.Canon, State.retires, State.setCore_mem]
theorem State.resume_canon (t : Nat) (x : Waiting) (k : State → State) (hk : ∀ u, u.Canon → (k u).Canon) (h : s.Canon) :
    (s.resume t x k).Canon := by
  grind [State.Canon, State.resume, State.setThread_mem, State.pop_mem]
theorem State.unblock_canon (t : Nat) (x : Waiting) (k : State → State) (hk : ∀ u, u.Canon → (k u).Canon) (h : s.Canon) :
    (s.unblock t x k).Canon := by
  grind [State.Canon, State.unblock, State.retires_canon, State.resume_canon]
theorem State.unpop_canon (t : Nat) (l : Option Link) (h : s.Canon) : (s.unpop t l).Canon := by
  cases l with
  | none => exact h
  | some l =>
    unfold State.unpop
    dsimp only
    split
    · exact h
    · exact h
theorem State.raiseLate_canon (t : Nat) (p : Pend) (h : s.Canon) : (s.raiseLate t p).Canon := by
  grind [State.Canon, State.raiseLate, State.setThread_mem, State.takeTrap_wf, State.unpop_canon]
theorem State.unblockTrap_canon (t : Nat) (x : Waiting) (e : Err) (h : s.Canon) : (s.unblockTrap t x e).Canon := by
  grind [State.Canon, State.unblockTrap, State.trap_wf, State.resume_canon, State.raiseLate_canon]
theorem State.unblockInto_canon (t : Nat) (x : Waiting) (d : SReg) (k : State → State) (hk : ∀ u, u.Canon → (k u).Canon)
    (h : s.Canon) : (s.unblockInto t x d k).Canon := by
  grind [State.Canon, State.unblockInto, State.unblock_canon, State.unblockTrap_canon]
theorem State.pickPort_canon (h : s.Canon) : (s.pickPort).1.Canon := by
  grind [State.Canon, State.pickPort, State.takeFree_mem]
theorem State.say_canon (m : OutMsg) (h : s.Canon) : (s.say m).Canon := by
  grind [State.Canon, State.say]
theorem State.resend_canon (e : Nat) (p : OutPkt) (h : s.Canon) : (s.resend e p).1.Canon := by
  grind [State.Canon, State.resend, State.pickPort_canon, State.say_canon]
theorem State.failAsks_canon (l : List OutPkt) (h : s.Canon) : (s.failAsks l).Canon := by
  grind [State.Canon, State.failAsks]
theorem State.forget_canon (w : Asker) (h : s.Canon) : (s.forget w).Canon := by
  grind [State.Canon, State.forget]
theorem State.send_canon (tgt : Nat) (body : Load) (fenced : Bool) (rel : Nat) (h : s.Canon) :
    (s.send tgt body fenced rel).Canon := by
  grind [State.Canon, State.send, State.setThread_mem]
theorem State.onMsg_canon (src tgt : Nat) (p : Msg → Bool) (k : Msg → State → State) (hk : ∀ a v, v.Canon → (k a v).Canon)
    (h : s.Canon) : (s.onMsg src tgt p k).Canon := by
  grind [State.Canon, State.onMsg]
theorem State.prefetchLine_canon (core ctx va : Nat) (h : s.Canon) : (s.prefetchLine core ctx va).Canon := by
  grind [State.Canon, State.prefetchLine, State.l1Fill_mem]
theorem State.waitTurn_canon (h : s.Canon) : (s.waitTurn).Canon := by
  grind [State.Canon, State.waitTurn]
end
end Sys2Proof.Machine

/-! SUPPORT. Loads, stores, atomics, messages, arrival words and chain links keep the memory in canonical form
(07_memory, 08_barrier). -/

namespace Sys2Proof.Machine

open Sys2Proof

section
variable {s : State}
theorem State.changeSaved_canon (key t : Nat) (f : Thread → Thread) (h : s.Canon) : (s.changeSaved key t f).Canon := by
  grind [State.Canon, State.changeSaved, State.memPut_wf]
theorem State.dropSaved_canon (key t : Nat) (h : s.Canon) : (s.dropSaved key t).Canon := by
  grind [State.Canon, State.dropSaved, State.changeSaved_canon]
theorem State.acquire_canon (scope : Nat) (h : s.Canon) : (s.acquire scope).Canon := by
  grind [State.Canon, State.acquire, State.flushL1_mem]
theorem load_canon (z : Nat) (conv : Nat → W64) (d : SReg) (a : AReg) (x : BitVec 3) (i : Imm) (h : s.Canon) :
    (load z conv d a x i s).Canon := by
  grind [State.Canon, load, State.trap_wf, State.withOps_wf, State.commit_mem, State.readAt_wf, State.onGot_wf,
    State.acquire_canon]
theorem State.stored_canon (srcs : List SReg) (err : Option Err) (h : s.Canon) : (s.stored srcs err).Canon := by
  cases err with
  | none => exact h.same (State.retire_mem srcs)
  | some e => exact h.same (State.commit_mem ..)
theorem State.ordered_canon (x : BitVec 3) (k : State → State) (hk : ∀ u, u.Canon → (k u).Canon) (h : s.Canon) :
    (s.ordered x k).Canon := by
  grind [State.Canon, State.ordered, State.release_wf]
theorem store_canon (z : Nat) (d : SReg) (a : AReg) (x : BitVec 3) (i : Imm) (h : s.Canon) : (store z d a x i s).Canon := by
  grind [State.Canon, store, State.trap_wf, State.withOps_wf, State.writeAt_wf, State.onGot_wf, State.stored_canon,
    State.ordered_canon]
theorem execLda_canon (d a : AReg) (x : BitVec 3) (i : Imm) (h : s.Canon) : OutCanon (execLda d a x i s) := by
  grind [State.Canon, execLda, State.trap_wf, State.commit_mem, State.readAt_wf, State.onGot_wf, State.acquire_canon,
    outCanon_next]
theorem execSta_canon (d a : AReg) (x : BitVec 3) (i : Imm) (h : s.Canon) : OutCanon (execSta d a x i s) := by
  grind [State.Canon, execSta, State.trap_wf, State.writeAt_wf, State.onGot_wf, State.stored_canon, State.ordered_canon,
    outCanon_next]
theorem execPref_canon (a : AReg) (i : Imm) (h : s.Canon) : OutCanon (execPref a i s) := by
  grind [State.Canon, execPref, State.setClu_mem, State.done_mem, State.prefetchLine_canon, outCanon_next]
theorem execLdl_canon (w : BitVec 2) (d a : SReg) (x : BitVec 3) (h : s.Canon) : OutCanon (execLdl w d a x s) := by
  grind [State.Canon, execLdl, State.lsTouch_mem, State.trap_wf, State.withOps_wf, State.commit_mem, State.acquire_canon,
    outCanon_next]
theorem execStl_canon (w : BitVec 2) (d a : SReg) (x : BitVec 3) (h : s.Canon) : OutCanon (execStl w d a x s) := by
  grind [State.Canon, execStl, State.lsWrite_mem, State.trap_wf, State.withOps_wf, State.retire_mem, State.ordered_canon,
    outCanon_next]
theorem State.atomically_canon (scope : Nat) (k : State → State) (hk : ∀ u, u.Canon → (k u).Canon) (h : s.Canon) :
    (s.atomically scope k).Canon := by
  grind [State.Canon, State.atomically, State.ackAll_mem, State.fromNow_canon, State.release_wf, State.acquire_canon]
theorem amo_canon (d : SReg) (a : AReg) (srcs : List SReg) (x : BitVec 3) (f : (SReg → W64) → W64 → Option W64)
    (req : (SReg → W64) → Option AmoReq) (h : s.Canon) : (amo d a srcs x f s req).Canon := by
  grind [State.Canon, amo, State.trap_wf, State.withOps_wf, State.commit_mem, State.rmwAt_wf, State.onGot_wf,
    State.atomically_canon]
theorem amoLocal_canon (d a : SReg) (srcs : List SReg) (x : BitVec 3) (f : (SReg → W64) → W64 → Option W64) (h : s.Canon) :
    (amoLocal d a srcs x f s).Canon := by
  grind [State.Canon, amoLocal, State.lsWrite_mem, State.lsTouch_mem, State.trap_wf, State.withOps_wf, State.commit_mem,
    State.atomically_canon]
theorem execFence_canon (i : Imm) (h : s.Canon) : OutCanon (execFence i s) := by
  grind [State.Canon, execFence, State.setCur_mem, State.ackAll_mem, State.fromNow_canon, State.flushL1_mem, State.trap_wf,
    State.retire_mem, outCanon_next]
theorem execRld_canon (w : BitVec 2) (d a b : SReg) (h : s.Canon) : OutCanon (execRld w d a b s) := by
  grind [State.Canon, execRld, State.trap_wf, State.withOps_wf, State.commit_mem, State.send_canon, outCanon_next]
theorem execRst_canon (w : BitVec 2) (d a b : SReg) (h : s.Canon) : OutCanon (execRst w d a b s) := by
  grind [State.Canon, execRst, State.trap_wf, State.withOps_wf, State.retire_mem, State.send_canon, outCanon_next]
theorem execRadd_canon (d a b : SReg) (h : s.Canon) : OutCanon (execRadd d a b s) := by
  grind [State.Canon, execRadd, State.trap_wf, State.withOps_wf, State.retire_mem, State.send_canon, outCanon_next]
theorem execRaddr_canon (d a b : SReg) (h : s.Canon) : OutCanon (execRaddr d a b s) := by
  grind [State.Canon, execRaddr, State.trap_wf, State.withOps_wf, State.commit_mem, State.send_canon, outCanon_next]
theorem execMsg_canon (d : BitVec 3) (a b : SReg) (h : s.Canon) : OutCanon (execMsg d a b s) := by
  grind [State.Canon, execMsg, State.trap_wf, State.withOps_wf, State.retire_mem, State.send_canon, outCanon_next]
theorem execReply_canon (a : SReg) (h : s.Canon) : OutCanon (execReply a s) := by
  grind [State.Canon, execReply, State.trap_wf, State.withOps_wf, State.retireT_mem, State.send_canon, State.replied_mem,
    outCanon_next]
theorem execHset_canon (d : SReg) (i : Imm) (h : s.Canon) : OutCanon (execHset d i s) := by
  grind [State.Canon, execHset, State.setCtx_wf, State.trap_wf, State.withOps_wf, State.retire_mem, outCanon_next]
theorem State.modOwner_canon (o : Owner) (f : Thread → Thread) (h : s.Canon) : (s.modOwner o f).1.Canon := by
  grind [State.Canon, State.modOwner, State.setThread_mem, State.changeSaved_canon]
theorem State.markOwner_canon (o : Owner) (e : Err) (h : s.Canon) : (s.markOwner o e).Canon := by
  grind [State.Canon, State.markOwner, State.markFault_canon]
theorem State.answerWith_canon (m : Msg) (value : W64) (err : Option Err) (h : s.Canon) : (s.answerWith m value err).Canon := by
  unfold State.answerWith
  dsimp only
  generalize hf : (fun th : Thread => _) = f
  have hm := State.modOwner_canon m.owner f h
  generalize s.modOwner m.owner f = r at hm ⊢
  obtain ⟨u, - | -⟩ := r
  · cases err with
    | none => exact hm
    | some e => exact State.markOwner_canon _ _ hm
  · exact hm
theorem State.answer_canon (m : Msg) (value : W64) (refused : Option Nat) (h : s.Canon) : (s.answer m value refused).Canon := by
  grind [State.Canon, State.answer, State.answerWith_canon]
theorem State.addAt_canon (tgt o : Nat) (v : BitVec 32) (h : s.Canon) : (s.addAt tgt o v).Canon := by
  grind [State.Canon, State.addAt, State.lsModify_canon, State.awCreditAt_mem]
theorem execBuiltinHandlerAccess_canon (src tgt : Nat) (h : s.Canon) : OutCanon (execBuiltinHandlerAccess src tgt s) := by
  grind [State.Canon, execBuiltinHandlerAccess, State.lsWrite_mem, State.lsTouch_mem, State.credit_wf, State.onMsg_canon,
    State.answerWith_canon, State.answer_canon, State.addAt_canon, outCanon_next]
theorem execHandlerStart_canon (src tgt : Nat) (h : s.Canon) : OutCanon (execHandlerStart src tgt s) := by
  grind [State.Canon, execHandlerStart, State.setThread_mem, State.startThread_mem, State.onMsg_canon, State.answer_canon,
    outCanon_next]
theorem execMessageRetry_canon (src tgt : Nat) (h : s.Canon) : OutCanon (execMessageRetry src tgt s) := by
  grind [State.Canon, execMessageRetry, outCanon_next]
theorem execL1Invalidate_canon (core : Nat) (h : s.Canon) : OutCanon (execL1Invalidate core s) := by
  grind [State.Canon, execL1Invalidate, State.setCore_mem, outCanon_next]
theorem execStoreAck_canon (core : Nat) (h : s.Canon) : OutCanon (execStoreAck core s) := by
  grind [State.Canon, execStoreAck, State.setCore_mem, outCanon_next]
theorem execAwset_canon (a b : SReg) (h : s.Canon) : OutCanon (execAwset a b s) := by
  grind [State.Canon, execAwset, State.lsWrite_mem, State.lsTouch_mem, State.trap_wf, State.withOps_wf, State.retire_mem,
    outCanon_next]
theorem State.acquireWord_canon (t o : Nat) (h : s.Canon) : (s.acquireWord t o).Canon := by
  grind [State.Canon, State.acquireWord, State.fromNow_canon, State.flushL1_mem]
theorem execWaitgen_canon (d a b : SReg) (h : s.Canon) : OutCanon (execWaitgen d a b s) := by
  refine outCanon_next (State.withOps_canon _ _ _ _ (fun r => ?_) h)
  split
  · exact State.trap_wf _ _ h
  · dsimp only
    generalize hu : s.lsTouch .. = u
    have hc : u.Canon := hu ▸ h.same (State.lsTouch_mem ..)
    split
    · exact State.trap_wf _ _ hc
    · split
      · exact (State.acquireWord_canon _ _ hc).same (State.retireS_mem ..)
      · exact State.block_wf _ _ hc
theorem execWaitgenComplete_canon (thr : Nat) (h : s.Canon) : OutCanon (execWaitgenComplete thr s) := by
  unfold execWaitgenComplete
  refine outCanon_next ?_
  split
  · split
    · dsimp only
      generalize hu : s.lsTouch .. = u
      have hc : u.Canon := hu ▸ h.same (State.lsTouch_mem ..)
      split
      · exact State.unblockTrap_canon _ _ _ hc
      · split
        · exact State.unblockInto_canon _ _ _ _ (fun v hv => (State.acquireWord_canon _ _ hv).same (State.retireS_mem ..)) hc
        · exact hc
    · exact h
  · exact h
theorem execArrive_canon (d a b : SReg) (h : s.Canon) : OutCanon (execArrive d a b s) := by
  grind [State.Canon, execArrive, State.ackAll_mem, State.trap_wf, State.withOps_wf, State.retire_mem, State.send_canon,
    outCanon_next]
theorem State.withSet_canon (set : Nat) (k : State → List Nat → State) (hk : ∀ u b, u.Canon → (k u b).Canon) (h : s.Canon) :
    (s.withSet set k).Canon := by
  grind [State.Canon, State.withSet, State.trap_wf, State.replied_mem, foldl_wf]
theorem execArrivem_canon (d a b : SReg) (h : s.Canon) : OutCanon (execArrivem d a b s) := by
  grind [State.Canon, execArrivem, State.ackAll_mem, State.trap_wf, State.withOps_wf, State.retire_mem, State.send_canon,
    State.withSet_canon, foldl_wf, outCanon_next]
theorem execArrivalCredit_canon (src tgt : Nat) (h : s.Canon) : OutCanon (execArrivalCredit src tgt s) := by
  grind [State.Canon, execArrivalCredit, State.credit_wf, State.onMsg_canon, State.answer_canon, outCanon_next]
theorem State.unlink_canon (t : Nat) (h : s.Canon) : (s.unlink t).Canon := by
  grind [State.Canon, State.unlink]
theorem execQcfg_canon (a : SReg) (h : s.Canon) : OutCanon (execQcfg a s) := by
  grind [State.Canon, execQcfg, State.trap_wf, State.block_wf, State.withOps_wf, State.retire_mem, State.unlink_canon,
    outCanon_next]
theorem execQcfgDisconnectComplete_canon (thr : Nat) (h : s.Canon) : OutCanon (execQcfgDisconnectComplete thr s) := by
  grind [State.Canon, execQcfgDisconnectComplete, State.done_mem, State.unblock_canon, State.unlink_canon, outCanon_next]
theorem execQstat_canon (d a : SReg) (h : s.Canon) : OutCanon (execQstat d a s) := by
  grind [State.Canon, execQstat, State.withOps_wf, State.retireS_mem, outCanon_next]
end
end Sys2Proof.Machine

/-! SUPPORT. System registers, traps, translation, spawns, pings and gangs keep the memory in canonical form (03_thread,
12_page, 17_context). -/

namespace Sys2Proof.Machine

open Sys2Proof

section
variable {s : State}
theorem State.csrTouch_canon (n : Nat) (h : s.Canon) : (s.csrTouch n).Canon := by
  grind [State.Canon, State.csrTouch, State.flushL1_mem]
theorem State.mqctlStop_canon (core : Nat) (stop : Bool) (h : s.Canon) : (s.mqctlStop core stop).Canon := by
  grind [State.Canon, State.mqctlStop, State.setCore_mem]
theorem State.mqctlClear_canon (core : Nat) (h : s.Canon) : (s.mqctlClear core).Canon := by
  grind [State.Canon, State.mqctlClear, State.setCore_mem]
theorem State.elselClear_canon (core : Nat) (h : s.Canon) : (s.elselClear core).Canon := by
  grind [State.Canon, State.elselClear, State.setCore_mem]
theorem State.stopQueue_canon (q : Nat) (h : s.Canon) : (s.stopQueue q).Canon := by
  grind [State.Canon, State.stopQueue, State.setQueue_wf, State.block_wf]
theorem State.restartQueue_canon (q : Nat) (h : s.Canon) : (s.restartQueue q).Canon := by
  grind [State.Canon, State.restartQueue, State.setQueue_wf, State.block_wf]
theorem State.vfStart_canon (v grace : Nat) (q : Option Nat) (h : s.Canon) : (s.vfStart v grace q).Canon := by
  grind [State.Canon, State.vfStart, State.setKernel_mem, State.discardUnplaced_canon, State.stopQueue_canon, foldl_wf]
theorem State.vfctlWrite_canon (v : W64) (h : s.Canon) : (s.vfctlWrite v).Canon := by
  grind [State.Canon, State.vfctlWrite, State.vfStart_canon]
theorem State.csrWrite_canon (t n : Nat) (v : W64) (h : s.Canon) : (s.csrWrite t n v).Canon := by
  unfold State.csrWrite
  have hctx : ∀ c x, (s.setCtx c x).Canon := fun c x => State.setCtx_wf c x h
  exact .ite h <| .ite h <| .ite h <| .ite h <| .ite h <| .ite h <| .ite (hctx ..) <| .ite (hctx ..) <| .ite (hctx ..) <|
    .ite (hctx ..) <| .ite h <| .ite (.ite h h) <| .ite (.ite h h) <| .ite h <| .ite (State.vfctlWrite_canon v h) h
theorem State.systemCsr_canon (n : Nat) (k : State) (hk : k.Canon) (h : s.Canon) : (s.systemCsr n k).Canon := by
  grind [State.Canon, State.systemCsr, State.trap_wf]
theorem execCsrr_canon (d : SReg) (i : Imm) (h : s.Canon) : OutCanon (execCsrr d i s) := by
  grind [State.Canon, execCsrr, State.withOps_wf, State.retireS_mem, State.csrTouch_canon, State.systemCsr_canon, outCanon_next]
theorem execCsrw_canon (d : SReg) (i : Imm) (h : s.Canon) : OutCanon (execCsrw d i s) := by
  grind [State.Canon, execCsrw, State.withOps_wf, State.retire_mem, State.csrWrite_canon, State.systemCsr_canon, outCanon_next]
theorem execTrap_canon (i : Imm) (h : s.Canon) : OutCanon (execTrap i s) := by
  grind [State.Canon, execTrap, State.takeTrap_wf, outCanon_next]
theorem execRett_canon (h : s.Canon) : OutCanon (execRett s) := by
  grind [State.Canon, execRett, State.setCur_mem, State.trap_wf, State.moveTo_mem, State.system_wf, outCanon_next]
theorem execCtxkill_canon (a : SReg) (h : s.Canon) : OutCanon (execCtxkill a s) := by
  grind [State.Canon, execCtxkill, State.release_wf, State.kill_wf, State.trap_wf, State.withOps_wf, State.retire_mem,
    State.system_wf, outCanon_next]
theorem State.adWriteAll_canon (l : List TlbEnt) (h : s.Canon) : (s.adWriteAll l).Canon := by
  grind [State.Canon, State.adWriteAll, State.adWrite_wf, foldl_wf]
theorem State.shootDown_canon (p : TlbEnt → Bool) (h : s.Canon) : (s.shootDown p).Canon := by
  grind [State.Canon, State.shootDown, State.setTlb_mem, State.adWriteAll_canon, foldl_wf]
theorem State.harvest_canon (p : TlbEnt → Bool) (h : s.Canon) : (s.harvest p).Canon := by
  grind [State.Canon, State.harvest, State.setTlb_mem, State.adWriteAll_canon, foldl_wf]
theorem execTlbinv_canon (a : AReg) (b : SReg) (h : s.Canon) : OutCanon (execTlbinv a b s) := by
  grind [State.Canon, execTlbinv, State.release_wf, State.withOps_wf, State.commit_mem, State.system_wf, State.shootDown_canon,
    outCanon_next]
theorem execHarvest_canon (h : s.Canon) : OutCanon (execHarvest s) := by
  grind [State.Canon, execHarvest, State.flushL1_mem, State.commit_mem, State.system_wf, State.harvest_canon, outCanon_next]
theorem execPageWalk_canon (clu : Nat) (h : s.Canon) : OutCanon (execPageWalk clu s) := by
  grind [State.Canon, execPageWalk, State.setClu_mem, State.tlbFill_wf, State.prefetchLine_canon, foldl_wf, outCanon_next]
theorem State.adEntry_canon (t : TlbId) (k : Nat) (h : s.Canon) : (s.adEntry t k).Canon := by
  grind [State.Canon, State.adEntry, State.adWrite_wf, State.setTlb_mem]
theorem execAdWritebackTimeout_canon (t : TlbId) (k : Nat) (h : s.Canon) : OutCanon (execAdWritebackTimeout t k s) := by
  grind [State.Canon, execAdWritebackTimeout, State.adEntry_canon, outCanon_next]
theorem execFaultRecordRetry_canon (clu : Nat) (h : s.Canon) : OutCanon (execFaultRecordRetry clu s) := by
  grind [State.Canon, execFaultRecordRetry, State.setClu_mem, State.ringHeld_wf, State.faultWrite_wf, outCanon_next]
theorem spawn_canon (waits : Bool) (d a b : SReg) (h : s.Canon) : (spawn waits d a b s).Canon := by
  have hnone : ∀ v, (s.retireS [a, b] d v).Canon := fun v => h.same (State.retireS_mem ..)
  refine State.withOps_canon _ _ _ _ (fun r => ?_) h
  grind [State.Canon, State.trap_wf, State.release_wf, State.block_wf, State.startThread_mem, State.retireS_mem]
theorem execSpawnwComplete_canon (thr : Nat) (h : s.Canon) : OutCanon (execSpawnwComplete thr s) := by
  unfold execSpawnwComplete
  refine outCanon_next ?_
  split
  · split
    · split
      · grind [State.Canon, State.unblockInto_canon, State.ackAll_mem, State.startThread_mem, State.retireS_mem]
      · exact h
    · exact h
  · exact h
theorem execQuit_canon (h : s.Canon) : OutCanon (execQuit s) := by
  grind [State.Canon, execQuit, State.leave_mem, State.endThread_mem, outCanon_next]
theorem execSleep_canon (a : SReg) (h : s.Canon) : OutCanon (execSleep a s) := by
  grind [State.Canon, execSleep, State.setCur_mem, State.flushL1_mem, State.trap_wf, State.withOps_wf, State.retire_mem,
    State.retireT_mem, outCanon_next]
theorem execSleepTimeout_canon (thr : Nat) (h : s.Canon) : OutCanon (execSleepTimeout thr s) := by
  grind [State.Canon, execSleepTimeout, State.setThread_mem, outCanon_next]
theorem ping_canon (k : PingKind) (a : SReg) (h : s.Canon) : (ping k a s).Canon := by
  grind [State.Canon, ping, State.ackAll_mem, State.withOps_wf, State.retire_mem, State.send_canon]
theorem State.modSaved_canon (ctx t : Nat) (f : Thread → Thread) (h : s.Canon) : (s.modSaved ctx t f).Canon := by
  grind [State.Canon, State.modSaved, State.changeSaved_canon]
theorem State.arrive_canon (k : PingKind) (t : Nat) (here : Thread → State → State) (saved : Nat → State → State)
    (hhere : ∀ a v, v.Canon → (here a v).Canon) (hsaved : ∀ a v, v.Canon → (saved a v).Canon) (h : s.Canon) :
    (s.arrive k t here saved).Canon := by
  grind [State.Canon, State.arrive, State.setThread_mem]
theorem execWakeArrive_canon (thr : Nat) (h : s.Canon) : OutCanon (execWakeArrive thr s) := by
  grind [State.Canon, execWakeArrive, State.setThread_mem, State.flushL1_mem, State.modSaved_canon, State.arrive_canon,
    outCanon_next]
theorem execResumeArrive_canon (thr : Nat) (h : s.Canon) : OutCanon (execResumeArrive thr s) := by
  grind [State.Canon, execResumeArrive, State.setThread_mem, State.flushL1_mem, State.modSaved_canon, State.arrive_canon,
    outCanon_next]
theorem execAbortArrive_canon (thr : Nat) (h : s.Canon) : OutCanon (execAbortArrive thr s) := by
  refine outCanon_next (State.arrive_canon _ _ _ _ (fun th u hu => ?_) (fun ctx u hu => ?_) h)
  · exact State.Canon.same hu ((State.endThread_mem ..).trans (State.leave_mem ..))
  · split
    · exact State.dropSaved_canon _ _ (State.endSavedLinks_canon _ _ hu)
    · exact hu
theorem State.formGang_canon (n : Nat) (slots : List Nat) (leader : Thread) (next : W64) (past : Bool) (h : s.Canon) :
    (s.formGang n slots leader next past).Canon := by
  grind [State.Canon, State.formGang, State.setThread_mem, State.ackAll_mem, State.retires_canon, foldl_wf]
theorem gang_canon (n : Nat) (h : s.Canon) : (gang n s).Canon := by
  grind [State.Canon, gang, State.leave_mem, State.trap_wf, State.done_mem, State.block_wf, State.formGang_canon]
theorem execGangForm_canon (thr : Nat) (h : s.Canon) : OutCanon (execGangForm thr s) := by
  grind [State.Canon, execGangForm, State.formGang_canon, outCanon_next]
theorem execSplit_canon (h : s.Canon) : OutCanon (execSplit s) := by
  grind [State.Canon, execSplit, State.leave_mem, State.done_mem, outCanon_next]
theorem execCrd_canon (d : SReg) (i : Imm) (h : s.Canon) : OutCanon (execCrd d i s) := by
  grind [State.Canon, execCrd, State.withOps_wf, State.retireS_mem, outCanon_next]
theorem State.reissueLink_canon (thr : Nat) (w : Wait) (h : s.Canon) : (s.reissueLink thr w).Canon := by
  unfold State.reissueLink
  dsimp only
  split
  · exact .ite (.ite h h) h
  · exact h
theorem execQoutPushComplete_canon (thr : Nat) (h : s.Canon) : OutCanon (execQoutPushComplete thr s) := by
  grind [State.Canon, execQoutPushComplete, State.reissueLink_canon, outCanon_next]
theorem State.deliver_canon (t k : Nat) (p : Pend) (h : s.Canon) : (s.deliver t k p).Canon := by
  grind [State.Canon, State.deliver, State.setThread_mem, State.ackAll_mem, State.push_mem]
theorem execLongLatencyComplete_canon (thr k : Nat) (h : s.Canon) : OutCanon (execLongLatencyComplete thr k s) := by
  grind [State.Canon, execLongLatencyComplete, State.reduce_mem, State.dissolveAt_mem, State.done_mem, State.deliver_canon,
    outCanon_next]
end
end Sys2Proof.Machine

/-! SUPPORT. Formats, scalar floats, timelines, the copy engine and the transform coprocessor keep the memory in
canonical form (05_formats, 11_engines). -/

namespace Sys2Proof.Machine

open Sys2Proof

section
variable {s : State}
theorem State.setFmt_canon (c i : Nat) (e : FmtEnt) (h : s.Canon) : (s.setFmt c i e).Canon := by
  grind [State.Canon, State.setFmt]
theorem State.installBook_canon (c i k : Nat) (w : W64) (vals : List (BitVec 32)) (h : s.Canon) :
    (s.installBook c i k w vals).Canon := by
  grind [State.Canon, State.installBook, State.memWrite_wf, State.setFmt_canon]
theorem State.fmtImageWrite_canon (c : Nat) (h : s.Canon) : (s.fmtImageWrite c).Canon := by
  grind [State.Canon, State.fmtImageWrite, State.memPut_wf, foldl_wf]
theorem State.scrubFmts_canon (c : Nat) (h : s.Canon) : (s.scrubFmts c).Canon := by
  grind [State.Canon, State.scrubFmts, State.memWrite_wf, State.memPut_wf, State.setCtx_wf, foldl_wf]
theorem State.fmtImageRead_canon (c : Nat) (h : s.Canon) : (s.fmtImageRead c).Canon := by
  grind [State.Canon, State.fmtImageRead, State.setFmt_canon, foldl_wf]
theorem State.readPieces_canon (t : Nat) (l : List (Nat × Nat)) : ∀ {s : State}, s.Canon → (s.readPieces t l).1.Canon := by
  induction l with
  | nil => exact fun h => h
  | cons p l ih =>
    intro s h
    grind [State.Canon, State.readPieces, State.readAt_wf]
theorem State.install_canon (srcs : List SReg) (c i : Nat) (w : W64) (vals : List (BitVec 32)) (h : s.Canon) :
    (s.install srcs c i w vals).Canon := by
  unfold State.install
  refine .ite ?_ ((State.setFmt_canon _ _ _ h).same (State.commit_mem ..))
  split
  · exact (State.installBook_canon _ _ _ _ _ h).same (State.commit_mem ..)
  · exact h.same (State.commit_mem ..)
theorem execFmtset_canon (a : AReg) (b : SReg) (h : s.Canon) : OutCanon (execFmtset a b s) := by
  grind [State.Canon, execFmtset, State.trap_wf, State.withOps_wf, State.commit_mem, State.readAt_wf, State.onGot_wf,
    State.readPieces_canon, State.install_canon, outCanon_next]
theorem execFmtsetInstall_canon (thr : Nat) (h : s.Canon) : OutCanon (execFmtsetInstall thr s) := by
  unfold execFmtsetInstall
  refine outCanon_next ?_
  dsimp only
  split
  · exact h
  · split
    · split
      · split
        · grind [State.Canon, State.installBook_canon, State.pop_mem, State.setThread_mem]
        · exact h
      · exact h
    · exact h
theorem execFmtget_canon (d b : SReg) (h : s.Canon) : OutCanon (execFmtget d b s) := by
  grind [State.Canon, execFmtget, State.setCur_mem, State.withOps_wf, State.commit_mem, outCanon_next]
theorem execFset_canon (w : BitVec 2) (a : SReg) (h : s.Canon) : OutCanon (execFset w a s) := by
  grind [State.Canon, execFset, State.withOps_wf, State.retireT_mem, outCanon_next]
theorem execFmtinv_canon (b : SReg) (h : s.Canon) : OutCanon (execFmtinv b s) := by
  grind [State.Canon, execFmtinv, State.trap_wf, State.withOps_wf, State.retire_mem, State.setFmt_canon, outCanon_next]
theorem execCvt_canon (d a : VReg) (b : SReg) (h : s.Canon) : OutCanon (execCvt d a b s) := by
  grind [State.Canon, execCvt, State.trap_wf, State.withOps_wf, State.retireT_mem, foldl_wf, outCanon_next]
theorem execCvtef_canon (d a : VReg) (b : SReg) (h : s.Canon) : OutCanon (execCvtef d a b s) := by
  grind [State.Canon, execCvtef, State.trap_wf, State.withOps_wf, State.retireT_mem, foldl_wf, outCanon_next]
theorem State.onSlot_canon (fs : Nat) (k : Fmt → State) (hk : ∀ a, (k a).Canon) (h : s.Canon) : (s.onSlot fs k).Canon := by
  grind [State.Canon, State.onSlot, State.trap_wf]
theorem State.withFlags_canon (f : Nat) (h : s.Canon) : (s.withFlags f).Canon := by
  grind [State.Canon, State.withFlags, State.setCur_mem]
theorem State.retireF_canon (srcs : List SReg) (d : SReg) (f : Fmt) (x : Flagged Val) (h : s.Canon) :
    (s.retireF srcs d f x).Canon := by
  grind [State.Canon, State.retireF, State.retireS_mem, State.withFlags_canon]
theorem floatOp_canon (d a b : SReg) (fs : BitVec 2) (op : Val → Val → Flagged Val) (h : s.Canon) :
    (floatOp d a b fs op s).Canon := by
  grind [State.Canon, floatOp, State.withOps_wf, State.onSlot_canon, State.retireF_canon]
theorem execFfma_canon (d a b : SReg) (fs : BitVec 2) (h : s.Canon) : OutCanon (execFfma d a b fs s) := by
  grind [State.Canon, execFfma, State.withOps_wf, State.onSlot_canon, State.retireF_canon, outCanon_next]
theorem floatCmp_canon (d a b : SReg) (fs : BitVec 2) (rel : Val → Val → Bool) (nanFlag : Nat) (h : s.Canon) :
    (floatCmp d a b fs rel nanFlag s).Canon := by
  grind [State.Canon, floatCmp, State.withOps_wf, State.retireS_mem, State.onSlot_canon, State.withFlags_canon]
theorem floatToInt_canon (d a : SReg) (fs : BitVec 2) (lo hi : Int) (h : s.Canon) : (floatToInt d a fs lo hi s).Canon := by
  grind [State.Canon, floatToInt, State.withOps_wf, State.retireS_mem, State.onSlot_canon, State.withFlags_canon]
theorem intToFloat_canon (d a : SReg) (fs : BitVec 2) (val : W64 → Int) (h : s.Canon) : (intToFloat d a fs val s).Canon := by
  grind [State.Canon, intToFloat, State.withOps_wf, State.onSlot_canon, State.retireF_canon]
theorem execFabs_canon (d a : SReg) (fs : BitVec 2) (h : s.Canon) : OutCanon (execFabs d a fs s) := by
  grind [State.Canon, execFabs, State.withOps_wf, State.retireS_mem, State.onSlot_canon, outCanon_next]
theorem execFneg_canon (d a : SReg) (fs : BitVec 2) (h : s.Canon) : OutCanon (execFneg d a fs s) := by
  grind [State.Canon, execFneg, State.withOps_wf, State.retireS_mem, State.onSlot_canon, outCanon_next]
theorem State.number_canon (c : Nat) (h : s.Canon) : (s.number c).1.Canon := by
  grind [State.Canon, State.number, State.setCur_mem]
theorem State.finishOp_canon (o : Owner) (c n flags : Nat) (err : Option Err) (h : s.Canon) :
    (s.finishOp o c n flags err).Canon := by
  grind [State.Canon, State.finishOp, State.modOwner_canon, State.markOwner_canon]
theorem execWaittl_canon (d : BitVec 3) (a : SReg) (h : s.Canon) : OutCanon (execWaittl d a s) := by
  grind [State.Canon, execWaittl, State.setCur_mem, State.flushL1_mem, State.trap_wf, State.block_wf, State.withOps_wf,
    State.retire_mem, outCanon_next]
theorem execWaittlComplete_canon (thr : Nat) (h : s.Canon) : OutCanon (execWaittlComplete thr s) := by
  refine outCanon_next ?_
  extract_lets th
  split
  · split
    · refine .ite h ?_
      split
      · exact State.unblockTrap_canon _ _ _ (.ite h h)
      · exact State.unblock_canon _ _ _ (fun u hu => State.Canon.same hu (State.done_mem)) h
    · exact h
  · exact h
theorem execTlrd_canon (d : SReg) (i : Imm) (h : s.Canon) : OutCanon (execTlrd d i s) := by
  grind [State.Canon, execTlrd, State.withOps_wf, State.retireS_mem, outCanon_next]
theorem State.devRead_canon (w : Asker) (ctx : Nat) (l : List (Nat × Nat)) :
    ∀ {s : State}, s.Canon → (s.devRead w ctx l).1.Canon := by
  induction l with
  | nil => exact fun h => h
  | cons p l ih =>
    intro s h
    have hsent : ∀ u g, s.sentBefore w .get (p.1 % 2 ^ 72) p.2 = some (u, g) → u.Canon ∧ (u.devRead w ctx l).1.Canon :=
      fun u g hs => ⟨h.same (State.sentBefore_mem hs), ih (h.same (State.sentBefore_mem hs))⟩
    have hx := State.xlateDev_wf ctx .load (p.1 % 2 ^ 72) h
    have hown := ih hx
    have hfar := fun node pa => ih (State.Canon.same hx (State.remoteAccess_mem w .get node pa (p.1 % 2 ^ 72) p.2 [] {}))
    clear ih
    grind [State.Canon, State.devRead, State.remoteAccess_mem]
theorem State.devPlaces_canon (w : Asker) (ctx : Nat) (data : Option (List (BitVec 8))) (l : List (Nat × Nat)) :
    ∀ {s : State}, s.Canon → (s.devPlaces w ctx data l).1.Canon := by
  induction l generalizing data with
  | nil => exact fun h => h
  | cons p l ih =>
    intro s h
    have hsent : ∀ u g, (data.bind fun bs => s.sentBefore w .put (p.1 % 2 ^ 72) p.2 (bs.take p.2)) = some (u, g) →
        u.Canon ∧ (u.devPlaces w ctx (data.map fun bs => bs.drop p.2) l).1.Canon := fun u g hs => by
      obtain ⟨bs, -, hb⟩ := Option.bind_eq_some_iff.1 hs
      exact ⟨h.same (State.sentBefore_mem hb), ih _ (h.same (State.sentBefore_mem hb))⟩
    have hx := State.xlateDev_wf ctx .store (p.1 % 2 ^ 72) h
    have hown := ih (data.map fun bs => bs.drop p.2) hx
    have hfar := fun node pa bs => ih (data.map fun bs => bs.drop p.2)
      (State.Canon.same hx (State.remoteAccess_mem w .put node pa (p.1 % 2 ^ 72) p.2 bs {}))
    clear ih
    grind [State.Canon, State.devPlaces, State.remoteAccess_mem]
theorem State.devWrite_canon (w : Asker) (ctx va : Nat) (bs : List (BitVec 8)) (h : s.Canon) :
    (s.devWrite w ctx va bs).1.Canon := by
  grind [State.Canon, State.devWrite, State.memWrite_wf, State.devPlaces_canon, foldl_wf]
theorem State.engLocalWrite_canon (o : Owner) (core off : Nat) (bs : List (BitVec 8)) (h : s.Canon) :
    (s.engLocalWrite o core off bs).1.Canon := by
  grind [State.Canon, State.engLocalWrite, State.lsWrite_mem, State.savedWrite_wf]
theorem State.locRead_canon (o : Owner) (l : Loc) (d : Int) (n : Nat) (h : s.Canon) : (s.locRead o l d n).1.Canon := by
  cases l with
  | dev va => exact State.devRead_canon _ _ _ h
  | loc core off => exact h.same (State.lsTouch_mem ..)
theorem State.locWrite_canon (o : Owner) (l : Loc) (d : Int) (bs : List (BitVec 8)) (h : s.Canon) :
    (s.locWrite o l d bs).1.Canon := by
  cases l with
  | dev va => exact State.devWrite_canon _ _ _ _ h
  | loc core off => exact State.engLocalWrite_canon _ _ _ _ h
theorem State.locReadAll_canon (o : Owner) (x : Loc) (l : List (Int × Nat)) : ∀ {s : State}, s.Canon →
    (s.locReadAll o x l).1.Canon := by
  induction l with
  | nil => exact fun h => h
  | cons p l ih =>
    intro s h
    grind [State.Canon, State.locReadAll, State.locRead_canon]
theorem State.engFault_canon (o : Owner) (source cause kind va : Nat) (was : Option Stall) (h : s.Canon) :
    (s.engFault o source cause kind va was).1.Canon := by
  grind [State.Canon, State.engFault, State.faultEmit_wf]
theorem execCopy_canon (a : SReg) (h : s.Canon) : OutCanon (execCopy a s) := by
  grind [State.Canon, execCopy, State.setCore_mem, State.lsTouch_mem, State.trap_wf, State.withOps_wf, State.retire_mem,
    State.number_canon, outCanon_next]
theorem State.setCopy_canon (core : Nat) (q : CopyReq) (h : s.Canon) : (s.setCopy core q).Canon := by
  grind [State.Canon, State.setCopy, State.setCore_mem]
theorem State.copyGot_canon (core : Nat) (q : CopyReq) (g : EGot) (k : State → List (BitVec 8) → State)
    (hk : ∀ u b, u.Canon → (k u b).Canon) (h : s.Canon) : (s.copyGot core q g k).Canon := by
  cases g with
  | ok bs => exact hk _ _ h
  | err e => exact State.setCopy_canon _ _ h
  | soft cause kind va =>
    have hf := State.engFault_canon q.owner 1 cause kind va q.stall h
    grind [State.Canon, State.copyGot, State.setCopy_canon]
  | wait => exact h
theorem State.copyUnit_canon (core : Nat) (q : CopyReq) (h : s.Canon) : (s.copyUnit core q).Canon := by
  unfold State.copyUnit
  extract_lets p o j k n whole move
  have hmove : ∀ (u : State) (q : CopyReq) (bs : List (BitVec 8)), u.Canon → (move u q bs).Canon := fun u q bs hu =>
    State.copyGot_canon _ _ _ _ (fun v _ hv => by grind [State.Canon, State.credit_wf, State.setCopy_canon])
      (State.locWrite_canon _ _ _ _ hu)
  split
  · exact State.copyGot_canon _ _ _ _ (fun u bs hu => hmove _ _ _ hu) (State.locReadAll_canon _ _ _ h)
  · exact hmove _ _ _ h
  · exact State.copyGot_canon _ _ _ _ (fun u bs hu => hmove _ _ _ hu) (State.locReadAll_canon _ _ _ h)
theorem State.copyServe_canon (core : Nat) (stalled : Bool) (h : s.Canon) : (s.copyServe core stalled).Canon := by
  grind [State.Canon, State.copyServe, State.setClu_mem, State.copyUnit_canon]
theorem execCopyComplete_canon (core : Nat) (h : s.Canon) : OutCanon (execCopyComplete core s) := by
  grind [State.Canon, execCopyComplete, State.setCore_mem, State.finishOp_canon, outCanon_next]
theorem execTxreq_canon (d a : SReg) (h : s.Canon) : OutCanon (execTxreq d a s) := by
  grind [State.Canon, execTxreq, State.setClu_mem, State.lsTouch_mem, State.trap_wf, State.withOps_wf, State.commit_mem,
    State.number_canon, outCanon_next]
theorem State.setTx_canon (clu : Nat) (q : TxReq) (h : s.Canon) : (s.setTx clu q).Canon := by
  grind [State.Canon, State.setTx, State.setClu_mem]
theorem State.endTx_canon (clu : Nat) (q : TxReq) (err : Option Err) (h : s.Canon) : (s.endTx clu q err).Canon := by
  grind [State.Canon, State.endTx, State.setClu_mem, State.finishOp_canon]
theorem State.txGot_canon (clu : Nat) (q : TxReq) (g : EGot) (k : State → List (BitVec 8) → State)
    (hk : ∀ u b, u.Canon → (k u b).Canon) (h : s.Canon) : (s.txGot clu q g k).Canon := by
  cases g with
  | ok bs => exact hk _ _ h
  | err e => exact State.endTx_canon _ _ _ h
  | soft cause kind va =>
    have hf := State.engFault_canon q.owner 2 cause kind va q.stall h
    grind [State.Canon, State.txGot, State.setTx_canon, State.endTx_canon]
  | wait => exact h
theorem State.txResult_canon (clu : Nat) (q : TxReq) (v : Nat) (h : s.Canon) : (s.txResult clu q v).Canon := by
  grind [State.Canon, State.txResult, State.credit_wf, State.engLocalWrite_canon, State.endTx_canon]
theorem State.txWrite_canon (clu : Nat) (bs : List (BitVec 8)) (n : Nat) :
    ∀ {s : State} (q : TxReq), s.Canon → (s.txWrite clu q bs n).1.Canon := by
  induction n with
  | zero => exact fun _ h => h
  | succ n ih =>
    intro s q h
    grind [State.Canon, State.txWrite, State.locWrite_canon, State.setTx_canon, State.txGot_canon]
theorem State.txRun_canon (clu : Nat) (q : TxReq) (h : s.Canon) : (s.txRun clu q).Canon := by
  grind [State.Canon, State.txRun, State.locRead_canon, State.txGot_canon, State.txResult_canon, State.txWrite_canon]
theorem transform_canon (op clu : Nat) (h : s.Canon) : (transform op clu s).Canon := by
  grind [State.Canon, transform, State.txRun_canon]
end
end Sys2Proof.Machine

/-! SUPPORT. Scalar and vector instructions that compute keep the memory in canonical form (04_scalar, 06_vector). -/

namespace Sys2Proof.Machine

open Sys2Proof

section
variable {s : State}
theorem aluRR_canon (d a b : SReg) (f : W64 → W64 → W64) (h : s.Canon) : (aluRR d a b f s).Canon := by
  grind [State.Canon, aluRR, State.withOps_wf, State.retireS_mem]
theorem aluR_canon (d a : SReg) (f : W64 → W64) (h : s.Canon) : (aluR d a f s).Canon := by
  grind [State.Canon, aluR, State.withOps_wf, State.retireS_mem]
theorem aluRRR_canon (d a b : SReg) (f : W64 → W64 → W64 → W64) (h : s.Canon) : (aluRRR d a b f s).Canon := by
  grind [State.Canon, aluRRR, State.withOps_wf, State.retireS_mem]
theorem addrRR_canon (d a : AReg) (b : SReg) (f : VAddr → W64 → VAddr) (h : s.Canon) : (addrRR d a b f s).Canon := by
  grind [State.Canon, addrRR, State.withOps_wf, State.retireT_mem]
theorem execLi_canon (d : SReg) (i : Imm) (h : s.Canon) : OutCanon (execLi d i s) := by
  grind [State.Canon, execLi, State.withOps_wf, State.retireS_mem, outCanon_next]
theorem execMova_canon (d : AReg) (a : SReg) (h : s.Canon) : OutCanon (execMova d a s) := by
  grind [State.Canon, execMova, State.withOps_wf, State.retireT_mem, outCanon_next]
theorem execMovs_canon (d : SReg) (a : AReg) (h : s.Canon) : OutCanon (execMovs d a s) := by
  grind [State.Canon, execMovs, State.withOps_wf, State.retireS_mem, outCanon_next]
theorem execMovah_canon (d : AReg) (a : SReg) (h : s.Canon) : OutCanon (execMovah d a s) := by
  grind [State.Canon, execMovah, State.withOps_wf, State.retireT_mem, outCanon_next]
theorem execMovsh_canon (d : SReg) (a : AReg) (h : s.Canon) : OutCanon (execMovsh d a s) := by
  grind [State.Canon, execMovsh, State.withOps_wf, State.retireS_mem, outCanon_next]
theorem State.jumpTo_canon (srcs : List SReg) (t : Int) (h : s.Canon) : (s.jumpTo srcs t).Canon := by
  grind [State.Canon, State.jumpTo, State.trap_wf, State.moveTo_mem, State.popIf_mem]
theorem branchS_canon (a : SReg) (i : Imm) (p : W64 → Bool) (h : s.Canon) : (branchS a i p s).Canon := by
  grind [State.Canon, branchS, State.withOps_wf, State.retire_mem, State.jumpTo_canon]
theorem branchM_canon (a : MReg) (i : Imm) (p : W64 → Bool) (h : s.Canon) : (branchM a i p s).Canon := by
  grind [State.Canon, branchM, State.done_mem, State.jumpTo_canon]
theorem execJal_canon (i : Imm) (h : s.Canon) : OutCanon (execJal i s) := by
  grind [State.Canon, execJal, State.setCur_mem, State.jumpTo_canon, outCanon_next]
theorem execJr_canon (a : SReg) (h : s.Canon) : OutCanon (execJr a s) := by
  grind [State.Canon, execJr, State.trap_wf, State.moveTo_mem, State.withOps_wf, State.popIf_mem, outCanon_next]
theorem execJalr_canon (d a : SReg) (h : s.Canon) : OutCanon (execJalr d a s) := by
  grind [State.Canon, execJalr, State.trap_wf, State.moveTo_mem, State.withOps_wf, State.popIf_mem, State.putS_mem, outCanon_next]
theorem execMulhn_canon (d a b : SReg) (h : s.Canon) : OutCanon (execMulhn d a b s) := by
  grind [State.Canon, execMulhn, aluRR_canon, outCanon_next]
theorem divide_canon (w : Bool) (d a b : SReg) (f : W64 → W64 → W64) (h : s.Canon) : (divide w d a b f s).Canon := by
  grind [State.Canon, divide, State.setCore_mem, State.trap_wf, State.withOps_wf, State.commit_mem]
theorem execFshr_canon (d a b : SReg) (h : s.Canon) : OutCanon (execFshr d a b s) := by
  grind [State.Canon, execFshr, aluRRR_canon, outCanon_next]
theorem execSextb_canon (d a : SReg) (h : s.Canon) : OutCanon (execSextb d a s) := by
  grind [State.Canon, execSextb, aluR_canon, outCanon_next]
theorem execSexth_canon (d a : SReg) (h : s.Canon) : OutCanon (execSexth d a s) := by
  grind [State.Canon, execSexth, aluR_canon, outCanon_next]
theorem execZextw_canon (d a : SReg) (h : s.Canon) : OutCanon (execZextw d a s) := by
  grind [State.Canon, execZextw, aluR_canon, outCanon_next]
theorem vecOp_canon (w : Nat) (d : VReg) (m : MReg) (f : Thread → Nat → Nat) (h : s.Canon) : (vecOp w d m f s).Canon := by
  grind [State.Canon, vecOp, State.retireT_mem]
theorem vecRR_canon (w : BitVec 2) (d a b : VReg) (m : MReg) (f : Nat → Nat → Nat → Nat) (h : s.Canon) :
    (vecRR w d a b m f s).Canon := by
  grind [State.Canon, vecRR, vecOp_canon]
theorem vecBit_canon (d a b : VReg) (m : MReg) (f : Nat → Nat → Nat) (h : s.Canon) : (vecBit d a b m f s).Canon := by
  grind [State.Canon, vecBit, vecOp_canon]
theorem vecCmp_canon (z : Nat) (d : MReg) (a b : VReg) (m : MReg) (f : Nat → Nat → Bool) (h : s.Canon) :
    (vecCmp z d a b m f s).Canon := by
  grind [State.Canon, vecCmp, State.retireT_mem]
theorem vecFloat_canon (fs : Nat) (d : VReg) (m : MReg) (f : Fmt → Thread → Nat → Flagged Nat) (h : s.Canon) :
    (vecFloat fs d m f s).Canon := by
  grind [State.Canon, vecFloat, State.retireT_mem, State.onSlot_canon, foldl_wf]
theorem vecF2_canon (w : BitVec 2) (d a b : VReg) (m : MReg) (op : Val → Val → Flagged Val) (h : s.Canon) :
    (vecF2 w d a b m op s).Canon := by
  grind [State.Canon, vecF2, vecFloat_canon]
theorem execVfadd_canon (w : BitVec 2) (d a b : VReg) (m : MReg) (h : s.Canon) : OutCanon (execVfadd w d a b m s) := by
  grind [State.Canon, execVfadd, vecF2_canon, outCanon_next]
theorem execVfsub_canon (w : BitVec 2) (d a b : VReg) (m : MReg) (h : s.Canon) : OutCanon (execVfsub w d a b m s) := by
  grind [State.Canon, execVfsub, vecF2_canon, outCanon_next]
theorem execVfmul_canon (w : BitVec 2) (d a b : VReg) (m : MReg) (h : s.Canon) : OutCanon (execVfmul w d a b m s) := by
  grind [State.Canon, execVfmul, vecF2_canon, outCanon_next]
theorem vecFCmp_canon (d : MReg) (a b : VReg) (m : MReg) (rel : Val → Val → Bool) (nanFlag : Nat) (h : s.Canon) :
    (vecFCmp d a b m rel nanFlag s).Canon := by
  grind [State.Canon, vecFCmp, State.retireT_mem, State.onSlot_canon]
theorem execVbcast_canon (w : BitVec 2) (d : VReg) (a : SReg) (m : MReg) (h : s.Canon) : OutCanon (execVbcast w d a m s) := by
  grind [State.Canon, execVbcast, State.withOps_wf, State.retireT_mem, outCanon_next]
theorem execVextr_canon (w : BitVec 2) (d : SReg) (a : VReg) (b : SReg) (m : MReg) (h : s.Canon) :
    OutCanon (execVextr w d a b m s) := by
  grind [State.Canon, execVextr, State.withOps_wf, State.retire_mem, State.retireS_mem, outCanon_next]
theorem execVins_canon (w : BitVec 2) (d : VReg) (a b : SReg) (m : MReg) (h : s.Canon) : OutCanon (execVins w d a b m s) := by
  grind [State.Canon, execVins, State.withOps_wf, State.retireT_mem, outCanon_next]
theorem vecReduce_canon (d : SReg) (a : VReg) (m : MReg) (f : List Int → Int) (h : s.Canon) : (vecReduce d a m f s).Canon := by
  grind [State.Canon, vecReduce, State.withOps_wf, State.retireS_mem]
theorem execVredfadd_canon (d : SReg) (a : VReg) (m : MReg) (h : s.Canon) : OutCanon (execVredfadd d a m s) := by
  grind [State.Canon, execVredfadd, State.withOps_wf, State.retireS_mem, State.onSlot_canon, State.withFlags_canon, outCanon_next]
theorem execVscanfadd_canon (d a : VReg) (m : MReg) (h : s.Canon) : OutCanon (execVscanfadd d a m s) := by
  grind [State.Canon, execVscanfadd, State.retireT_mem, State.onSlot_canon, foldl_wf, outCanon_next]
theorem execVperm_canon (w : BitVec 2) (d a b : VReg) (m : MReg) (h : s.Canon) : OutCanon (execVperm w d a b m s) := by
  grind [State.Canon, execVperm, vecOp_canon, outCanon_next]
theorem vecSlide_canon (w : BitVec 2) (d a : VReg) (b : SReg) (m : MReg) (f : Nat → Nat → Option Nat) (h : s.Canon) :
    (vecSlide w d a b m f s).Canon := by
  grind [State.Canon, vecSlide, State.withOps_wf, State.retireT_mem]
theorem maskOp_canon (d a b : MReg) (f : W64 → W64 → W64) (h : s.Canon) : (maskOp d a b f s).Canon := by
  grind [State.Canon, maskOp, State.retireT_mem]
theorem maskRead_canon (d : SReg) (a : MReg) (f : W64 → W64) (h : s.Canon) : (maskRead d a f s).Canon := by
  grind [State.Canon, maskRead, State.withOps_wf, State.retireS_mem]
theorem execMmovm_canon (d : MReg) (a : SReg) (h : s.Canon) : OutCanon (execMmovm d a s) := by
  grind [State.Canon, execMmovm, State.withOps_wf, State.retireT_mem, outCanon_next]
theorem gangOp_canon (op : GangOp) (d a : SReg) (entry : W64) (bad : Option Err) (h : s.Canon) :
    (gangOp op d a entry s bad).Canon := by
  grind [State.Canon, gangOp, State.reduce_mem, State.trap_wf, State.done_mem, State.withOps_wf, State.commit_mem,
    State.withFlags_canon]
theorem execGfadd_canon (d a : SReg) (h : s.Canon) : OutCanon (execGfadd d a s) := by
  grind [State.Canon, execGfadd, gangOp_canon, outCanon_next]
end
end Sys2Proof.Machine


/-! SUPPORT. The matrix unit keeps the memory in canonical form (10_matrix). -/

namespace Sys2Proof.Machine

open Sys2Proof

section
variable {s : State}
theorem State.accTouch_canon (core tile row n ctx : Nat) (h : s.Canon) : (s.accTouch core tile row n ctx).Canon := by
  grind [State.Canon, State.accTouch, State.arrayTouch_mem]
theorem State.enqueue_canon (op : MOp) (h : s.Canon) : (s.enqueue op).1.Canon := by
  grind [State.Canon, State.enqueue, State.setCore_mem, State.number_canon]
theorem State.onQueue_canon (k : State → State) (hk : ∀ u, u.Canon → (k u).Canon) (h : s.Canon) : (s.onQueue k).Canon := by
  grind [State.Canon, State.onQueue]
theorem mma_canon (clear sparse : Bool) (d : BitVec 3) (a b : SReg) (h : s.Canon) : (mma clear sparse d a b s).Canon := by
  grind [State.Canon, mma, State.trap_wf, State.withOps_wf, State.retire_mem, State.enqueue_canon, State.onQueue_canon]
theorem execMzero_canon (d : BitVec 3) (h : s.Canon) : OutCanon (execMzero d s) := by
  grind [State.Canon, execMzero, State.retire_mem, State.enqueue_canon, State.onQueue_canon, outCanon_next]
theorem drain_canon (wake : Bool) (d : BitVec 3) (a : SReg) (h : s.Canon) : (drain wake d a s).Canon := by
  grind [State.Canon, drain, State.release_wf, State.trap_wf, State.withOps_wf, State.retire_mem, State.enqueue_canon,
    State.onQueue_canon]
theorem execAccrd_canon (d : VReg) (a : SReg) (h : s.Canon) : OutCanon (execAccrd d a s) := by
  grind [State.Canon, execAccrd, State.withOps_wf, State.commit_mem, State.enqueue_canon, State.onQueue_canon, outCanon_next]
theorem execAccwr_canon (d : VReg) (a : SReg) (h : s.Canon) : OutCanon (execAccwr d a s) := by
  grind [State.Canon, execAccwr, State.withOps_wf, State.retire_mem, State.enqueue_canon, State.onQueue_canon, outCanon_next]
theorem execNeteval_canon (d a : VReg) (b : SReg) (h : s.Canon) : OutCanon (execNeteval d a b s) := by
  grind [State.Canon, execNeteval, State.lsTouch_mem, State.trap_wf, State.withOps_wf, State.commit_mem, State.enqueue_canon,
    State.onQueue_canon, outCanon_next]
theorem execMqstat_canon (d : SReg) (h : s.Canon) : OutCanon (execMqstat d s) := by
  grind [State.Canon, execMqstat, State.withOps_wf, State.retireS_mem, outCanon_next]
theorem State.replayed_canon (core : Nat) (l : List (Nat × Nat)) (h : s.Canon) : (s.replayed core l).Canon := by
  grind [State.Canon, State.replayed, State.setCore_mem, foldl_wf]
theorem State.replayDone_canon (core : Nat) (h : s.Canon) : (s.replayDone core).Canon := by
  grind [State.Canon, State.replayDone, State.setCore_mem]
theorem State.mmaStep_canon (view : State) (core : Nat) (e : MEnt) (tile : Nat) (clear : Bool) (a b : Operand) (h : s.Canon) :
    (s.mmaStep view core e tile clear a b).Canon := by
  grind [State.Canon, State.mmaStep, State.setCore_mem, foldl_wf]
theorem State.drainWrite_canon (ctx tgt o : Nat) (bs : List (BitVec 8)) (h : s.Canon) : (s.drainWrite ctx tgt o bs).Canon := by
  grind [State.Canon, State.drainWrite, State.lsWrite_mem, State.savedWrite_wf]
theorem State.drainStep_canon (core : Nat) (e : MEnt) (tile : Nat) (d : W64) (f : Snap) (h : s.Canon) :
    (s.drainStep core e tile d f).1.Canon := by
  unfold State.drainStep
  exact foldl_fst_canon (fun x k hx => State.drainWrite_canon _ _ _ _ hx) _ _ h
theorem State.netLayer_canon (view : State) (core : Nat) (r : BitVec 384) (w act : Snap) (x : List V512) (i : Nat) (h : s.Canon) :
    (s.netLayer view core r w act x i).1.Canon := by
  grind [State.Canon, State.netLayer, State.setCore_mem, foldl_wf]
theorem State.queueRead_canon (core : Nat) (e : MEnt) (h : s.Canon) : (s.queueRead core e).Canon := by
  grind [State.Canon, State.queueRead, State.setCore_mem, State.arrayTouch_mem, State.modOwner_canon]
theorem State.entryStep_canon (core : Nat) (e : MEnt) (h : s.Canon) : (s.entryStep core e).Canon := by
  grind [State.Canon, State.entryStep, State.setCore_mem, State.lsTouch_mem, State.accTouch_canon, State.replayed_canon,
    State.replayDone_canon, State.mmaStep_canon, State.drainStep_canon, State.netLayer_canon, State.queueRead_canon, foldl_wf]
theorem execMatrixTileStep_canon (clu : Nat) (h : s.Canon) : OutCanon (execMatrixTileStep clu s) := by
  grind [State.Canon, execMatrixTileStep, State.setCore_mem, State.setClu_mem, State.entryStep_canon, outCanon_next]
theorem execMatrixEntryComplete_canon (core : Nat) (h : s.Canon) : OutCanon (execMatrixEntryComplete core s) := by
  grind [State.Canon, execMatrixEntryComplete, State.setCore_mem, State.modOwner_canon, State.finishOp_canon, outCanon_next]
theorem execDrainWriteAck_canon (core : Nat) (h : s.Canon) : OutCanon (execDrainWriteAck core s) := by
  grind [State.Canon, execDrainWriteAck, State.setCore_mem, State.finishOp_canon, outCanon_next]
theorem execDrainWake_canon (core : Nat) (h : s.Canon) : OutCanon (execDrainWake core s) := by
  grind [State.Canon, execDrainWake, State.setCore_mem, State.startThread_mem, State.finishOp_canon, outCanon_next]
theorem State.matrixImage_canon (addr : Nat) (q : List MEnt) (spill : List (BitVec 1024)) (acc : Tab (BitVec 32)) (bad : List Nat)
    (h : s.Canon) : (s.matrixImage addr q spill acc bad).Canon := by
  grind [State.Canon, State.matrixImage, State.memWrite_wf]
theorem State.farPut_canon (ctx node pa : Nat) (bs : List (BitVec 8)) (h : s.Canon) : (s.farPut ctx node pa bs).1.Canon := by
  grind [State.Canon, State.farPut, State.sendOwn_mem]
theorem State.putParts_canon (ctx : Nat) (l : List AreaPart) :
    ∀ {s : State} (bs : List (BitVec 8)), s.Canon → (s.putParts ctx l bs).1.Canon := by
  induction l with
  | nil => exact fun _ h => h
  | cons p l ih =>
    intro s bs h
    rw [State.putParts]
    dsimp only
    refine ih _ ?_
    split
    · exact State.memWrite_wf _ _ _ h
    · exact State.farPut_canon _ _ _ _ h
theorem State.matrixTouch_canon (core ctx : Nat) (h : s.Canon) : (s.matrixTouch core ctx).Canon := by
  grind [State.Canon, State.matrixTouch, State.arrayTouch_mem, State.queueRead_canon, foldl_wf]
theorem State.saveMatrix_canon (core ctx : Nat) (places : List AreaPart) (h : s.Canon) :
    (s.saveMatrix core ctx places).1.Canon := by
  grind [State.Canon, State.saveMatrix, State.setCore_mem, State.putParts_canon]
theorem State.wroteParts_canon (t : Nat) (l : List AreaPart) (h : s.Canon) : (s.wroteParts t l).Canon := by
  grind [State.Canon, State.wroteParts, State.performedAt_mem, foldl_wf]
theorem State.saveWaiting_canon (core : Nat) (h : s.Canon) : (s.saveWaiting core).Canon := by
  grind [State.Canon, State.saveWaiting, State.setThread_mem, State.matrixTouch_canon, State.saveMatrix_canon,
    State.wroteParts_canon, foldl_wf]
theorem execMatrixFreeze_canon (core : Nat) (h : s.Canon) : OutCanon (execMatrixFreeze core s) := by
  grind [State.Canon, execMatrixFreeze, State.setCore_mem, State.saveWaiting_canon, outCanon_next]
theorem execSpillReply_canon (core : Nat) (data : BitVec 1024) (h : s.Canon) : OutCanon (execSpillReply core data s) := by
  grind [State.Canon, execSpillReply, State.setCore_mem, outCanon_next]
theorem State.areaPlaces_canon (t : Nat) (k : Kind) (l : List (Nat × Nat)) :
    ∀ {s : State}, s.Canon → (s.areaPlaces t k l).1.Canon := by
  induction l with
  | nil => exact fun h => h
  | cons p l ih =>
    intro s h
    have hsent : ∀ n u g, s.sentBefore (s.asker t) .get (p.1 % 2 ^ 72) n = some (u, g) →
        u.Canon ∧ (u.areaPlaces t k l).1.Canon :=
      fun n u g hs => ⟨h.same (State.sentBefore_mem hs), ih (h.same (State.sentBefore_mem hs))⟩
    have hx := State.xlate_wf (coreOf t) (s.thread t).ctx k (p.1 % 2 ^ 72) h
    have hown := ih hx
    have hmem : ∀ w node pa n, (((s.xlate (coreOf t) (s.thread t).ctx k (p.1 % 2 ^ 72)).1.wentFar t).remoteAccess w .get node pa
        (p.1 % 2 ^ 72) n [] {}).1.Canon := fun w node pa n => State.Canon.same hx (State.remoteAccess_mem ..)
    have hfar := fun w node pa n => ih (hmem w node pa n)
    clear ih
    grind [State.Canon, State.areaPlaces]
theorem State.onArea_canon (k : Kind) (a : AReg) (go : State → List AreaPart → State) (hgo : ∀ u b, u.Canon → (go u b).Canon)
    (h : s.Canon) : (s.onArea k a go).Canon := by
  unfold State.onArea
  refine .ite (State.trap_wf _ _ h) ?_
  generalize pageParts .. = l
  have hp := State.areaPlaces_canon s.iss.thr k l h
  generalize s.areaPlaces s.iss.thr k l = r at hp ⊢
  obtain ⟨u, g, va, ps⟩ := r
  refine State.onGot_wf _ _ _ _ (fun bs err => ?_) hp
  cases err with
  | none => exact hgo _ _ hp
  | some e => exact State.trap_wf _ _ hp
theorem execMsave_canon (a : AReg) (h : s.Canon) : OutCanon (execMsave a s) := by
  refine outCanon_next (State.system_wf _ (State.onArea_canon _ _ _ (fun u l hu => ?_) h) h)
  have hc : ((u.setCore u.curCore { u.core u.curCore with mqStop := true }).commit [] [] [] (.msave l)).Canon :=
    hu.same (State.commit_mem ..)
  exact .ite (State.saveWaiting_canon _ hc) hc
theorem State.tookParts_canon (t : Nat) (l : List AreaPart) (h : s.Canon) : (s.tookParts t l).Canon := by
  grind [State.Canon, State.tookParts, State.replied_mem, foldl_wf]
theorem execMrstr_canon (a : AReg) (h : s.Canon) : OutCanon (execMrstr a s) := by
  refine outCanon_next (State.system_wf _ (State.onArea_canon _ _ _ (fun u l hu => ?_) h) h)
  have ht := State.tookParts_canon u.iss.thr l hu
  refine .ite (State.trap_wf _ _ hu) (.ite (State.trap_wf _ _ ht) ?_)
  exact State.Canon.same ht (State.commit_mem ..)
end
end Sys2Proof.Machine

/-! SUPPORT. Records, tags, kernel ends and LOD loads keep the memory in canonical form (14_lod, 15_kernel, 19_queue
R322-R324). -/

namespace Sys2Proof.Machine

open Sys2Proof

section
variable {s : State}
theorem State.sendNote_canon (e q head : Nat) (h : s.Canon) : (s.sendNote e q head).Canon := by
  grind [State.Canon, State.sendNote, State.sendOwn_mem]
theorem State.notify_canon (q : Nat) (h : s.Canon) : (s.notify q).Canon := by
  grind [State.Canon, State.notify, State.setQueue_wf, State.sendNote_canon]
theorem State.notifyDue_canon (q : Nat) (h : s.Canon) : (s.notifyDue q).Canon := by
  grind [State.Canon, State.notifyDue, State.notify_canon]
theorem State.cmdDone_canon (q : Nat) (h : s.Canon) : (s.cmdDone q).Canon := by
  grind [State.Canon, State.cmdDone, State.setQueue_wf]
theorem State.recWritten_canon (q : Nat) (r : Rec) (h : s.Canon) : (s.recWritten q r).Canon := by
  grind [State.Canon, State.recWritten, State.setKernel_mem, State.setQueue_wf, State.notifyDue_canon, State.cmdDone_canon]
theorem State.putRec_canon (q : Nat) (r : Rec) (h : s.Canon) : (s.putRec q r).Canon := by
  unfold State.putRec
  have hheld : ∀ a x, ((s.ringHeld a).setQueue q x).Canon := fun a x => State.setQueue_wf q x (State.ringHeld_wf a h)
  refine .ite h (.ite (hheld ..) ?_)
  split
  · next hu => exact State.recWritten_canon _ _ (State.ringPut_wf hu h)
  · exact hheld ..
theorem State.oldWritten_canon (r : Rec) (h : s.Canon) : (s.oldWritten r).Canon := by
  grind [State.Canon, State.oldWritten, State.setKernel_mem]
theorem State.kernelRec_canon (ser : Nat) (r : Rec) (h : s.Canon) : (s.kernelRec ser r).Canon := by
  grind [State.Canon, State.kernelRec, State.setQueue_wf, State.ringPut_wf, State.ringHeld_wf, State.putRec_canon,
    State.oldWritten_canon]
theorem State.destroyQueue_canon (q : Nat) (h : s.Canon) : (s.destroyQueue q).Canon := by
  grind [State.Canon, State.destroyQueue, State.setQueue_wf, State.forget_canon]
theorem State.oldRetry_canon (q : Nat) (h : s.Canon) : (s.oldRetry q).Canon := by
  rw [State.oldRetry]
  split
  · exact h
  · refine .ite h ?_
    split
    · next hu => exact State.oldWritten_canon _ (State.setQueue_wf _ _ (State.ringPut_wf hu h))
    · exact State.setQueue_wf _ _ h
theorem execCompletionRecordRetry_canon (q : Nat) (h : s.Canon) : OutCanon (execCompletionRecordRetry q s) := by
  refine outCanon_next ?_
  have ho := State.oldRetry_canon q h
  extract_lets u x
  change u.Canon at ho
  split
  · exact ho
  · refine .ite ho ?_
    split
    · next hu => exact State.recWritten_canon _ _ (State.setQueue_wf _ _ (State.ringPut_wf hu ho))
    · exact State.setQueue_wf _ _ ho
theorem execNotifyTimer_canon (q : Nat) (h : s.Canon) : OutCanon (execNotifyTimer q s) := by
  grind [State.Canon, execNotifyTimer, State.notify_canon, outCanon_next]
theorem State.bufPut_canon (pa off n x : Nat) (h : s.Canon) : (s.bufPut pa off n x).Canon := by
  grind [State.Canon, State.bufPut, State.memPut_wf, State.sendOwn_mem]
theorem State.tagRoom_canon (vf : Nat) (tile : Nat × Nat × Nat) {t : State} (ht : s.tagRoom vf tile = some t) (h : s.Canon) :
    t.Canon := by
  grind [State.Canon, State.tagRoom]
theorem State.reeval_canon (h : s.Canon) : (s.reeval).Canon := by
  grind [State.Canon, State.reeval, State.unregister_canon, State.countEnd_canon, State.markFault_canon, foldl_wf]
theorem State.readTag_canon (id tile : Nat) (k : State → State) (hk : ∀ u, u.Canon → (k u).Canon) (h : s.Canon) :
    (s.readTag id tile k).Canon := by
  grind [State.Canon, State.readTag, State.takeFree_mem, State.trap_wf]
theorem State.publish_canon {p : HeldPub} {t : State} (ht : s.publish p = .applied t) (h : s.Canon) : t.Canon := by
  have hfall : ∀ x y, ((s.bufPut p.pa 12 4 x).bufPut p.pa 19 1 y).Canon :=
    fun x y => State.bufPut_canon _ _ _ _ (State.bufPut_canon _ _ _ _ h)
  rw [State.publish] at ht
  split at ht
  · cases ht
    exact State.Canon.same (hfall ..) rfl
  · split at ht
    · split at ht
      · next hr =>
        cases ht
        exact State.reeval_canon (State.Canon.same (State.tagRoom_canon _ _ hr h) rfl)
      · cases ht
        exact State.Canon.same (hfall ..) rfl
    · split at ht
      · cases ht
        exact State.reeval_canon (State.modTag_canon _ _ _ _ h)
      · split at ht
        · split at ht
          · cases ht
            exact State.reeval_canon (State.modTag_canon _ _ _ _ h)
          · cases ht
        · cases ht
          exact State.markFault_canon _ _ _ h
theorem State.publishInTurn_canon {p : HeldPub} {t : State} (ht : s.publishInTurn p = .applied t) (h : s.Canon) : t.Canon := by
  rw [State.publishInTurn] at ht
  generalize (_ && _ && _ : Bool) = c at ht
  cases c with
  | false => exact State.publish_canon ht h
  | true => cases ht
theorem execTagpub_canon (a b : SReg) (h : s.Canon) : OutCanon (execTagpub a b s) := by
  refine outCanon_next (State.withOps_canon _ _ _ _ (fun r => ?_) h)
  have htrap : ∀ e, (s.trap e).Canon := fun e => State.trap_wf e _ h
  extract_lets bad
  split
  · exact htrap _
  · refine .ite (htrap _) ?_
    split
    · exact htrap _
    · refine .ite (htrap _) (.ite (htrap _) ?_)
      extract_lets go
      have hgo : ∀ v : State, v.Canon → (go v).Canon := fun v hv => by
        simp only [go]
        split
        · next hp => exact (State.publishInTurn_canon hp hv).same (State.retire_mem _)
        · exact .ite h (hv.same (State.retire_mem _))
      exact State.release_canon _ (fun u hu => .ite (hgo u hu) (State.readTag_canon _ _ _ hgo hu)) h
theorem execHeldPublicationApply_canon (clu : Nat) (h : s.Canon) : OutCanon (execHeldPublicationApply clu s) := by
  refine outCanon_next ?_
  dsimp only
  split
  · exact h
  · split
    · next hp => exact State.publish_canon hp h
    · exact h
theorem State.doneAt_canon (w : Asker) (at_ : Nat) (h : s.Canon) : (s.doneAt w at_).1.Canon := by
  grind [State.Canon, State.doneAt, State.remoteAccess_mem]
theorem State.tagSeen_canon (w : Asker) (ctx id at_ tile : Nat) (gen : BitVec 32) (h : s.Canon) :
    (s.tagSeen w ctx id at_ tile gen).1.Canon := by
  have hd : (State.tagSeen.done w at_ gen s).1.Canon := by
    grind [State.Canon, State.tagSeen.done, State.doneAt_canon]
  unfold State.tagSeen
  split
  · split
    · exact h
    · split
      · exact h
      · exact hd
  · exact hd
theorem State.withBuffer_canon (va : W64) (tile : Nat) (k : State → Nat → Nat → List (BitVec 8) → Option Err → State)
    (hk : ∀ u b c d e, u.Canon → (k u b c d e).Canon) (h : s.Canon) : (s.withBuffer va tile k).Canon := by
  grind [State.Canon, State.withBuffer, State.trap_wf, State.xlate_wf, State.readAt_wf, State.onGot_wf, State.readTag_canon]
theorem execTagwait_canon (a b : SReg) (h : s.Canon) : OutCanon (execTagwait a b s) := by
  grind [State.Canon, execTagwait, State.flushL1_mem, State.trap_wf, State.block_wf, State.withOps_wf, State.retire_mem,
    State.waitTurn_canon, State.tagSeen_canon, State.withBuffer_canon, outCanon_next]
theorem execTagwaitComplete_canon (thr : Nat) (h : s.Canon) : OutCanon (execTagwaitComplete thr s) := by
  grind [State.Canon, execTagwaitComplete, State.setThread_mem, State.flushL1_mem, State.done_mem, State.unblock_canon,
    State.tagSeen_canon, outCanon_next]
theorem execTagqry_canon (d a b : SReg) (h : s.Canon) : OutCanon (execTagqry d a b s) := by
  grind [State.Canon, execTagqry, State.withOps_wf, State.commit_mem, State.withBuffer_canon, outCanon_next]
theorem State.doneUpdate_canon (pa : Nat) (gen : BitVec 32) (h : s.Canon) : (s.doneUpdate pa gen).Canon := by
  grind [State.Canon, State.doneUpdate, State.bufPut_canon, State.reeval_canon]
theorem execHeldDoneUpdate_canon (k : Nat) (h : s.Canon) : OutCanon (execHeldDoneUpdate k s) := by
  grind [State.Canon, execHeldDoneUpdate, State.bufPut_canon, State.reeval_canon, outCanon_next]
theorem execKernelEnd_canon (ser : Nat) (h : s.Canon) : OutCanon (execKernelEnd ser s) := by
  grind [State.Canon, execKernelEnd, State.setKernel_mem, State.done_mem, State.harvest_canon, State.kernelRec_canon,
    State.doneUpdate_canon, foldl_wf, outCanon_next]
theorem execKillFinish_canon (c : Nat) (h : s.Canon) : OutCanon (execKillFinish c s) := by
  grind [State.Canon, execKillFinish, State.setKernel_mem, State.setCtx_wf, State.harvest_canon, State.kernelRec_canon, foldl_wf,
    outCanon_next]
theorem State.metError_canon (e : Err) (h : s.Canon) : (s.metError e).Canon := by
  grind [State.Canon, State.metError]
theorem State.lodXlate_canon (va : Nat) (h : s.Canon) : (s.lodXlate va).1.Canon := by
  have hx := State.xlate_wf s.curCore s.cur.ctx .load (va % 2 ^ 72) h
  have hfar : ∀ w node pa, ((s.xlate s.curCore s.cur.ctx .load (va % 2 ^ 72)).1.remoteAccess w .get node pa (va % 2 ^ 72) 1 []
      {}).1.Canon := fun w node pa => State.Canon.same hx (State.remoteAccess_mem ..)
  have hsent : ∀ u g, s.sentBefore (s.lodAsker s.iss.thr) .get (va % 2 ^ 72) 1 = some (u, g) → u.Canon :=
    fun u g hs => h.same (State.sentBefore_mem hs)
  grind [State.Canon, State.lodXlate, State.waitWalk_mem, State.waitTurn_canon, State.metError_canon]
theorem State.lodEnd_canon (t : State) (k : State → State) (ht : t.Canon) (hk : ∀ u, u.Canon → (k u).Canon) (h : s.Canon) :
    (s.lodEnd t k).Canon := by
  grind [State.Canon, State.lodEnd, State.setClu_mem]
theorem State.lodBytes_canon (at_ : Nat × Nat) (va n : Nat) (h : s.Canon) : (s.lodBytes at_ va n).1.Canon := by
  grind [State.Canon, State.lodBytes, State.replied_mem, State.remoteAccess_mem, State.orSent_mem, State.waitTurn_canon]
theorem State.lineByte_canon (l : MapLine) (va : Nat) (h : s.Canon) : (s.lineByte l va).1.Canon := by
  grind [State.Canon, State.lineByte, State.metError_canon]
theorem State.mapByte_canon (va : Nat) (h : s.Canon) : (s.mapByte va).1.Canon := by
  grind [State.Canon, State.mapByte, State.setCore_mem, State.metError_canon, State.lodXlate_canon, State.lodBytes_canon,
    State.lineByte_canon]
theorem State.resident_canon (x : LodDesc) (p : Nat) (h : s.Canon) : (s.resident x p).1.Canon := by
  grind [State.Canon, State.resident, State.mapByte_canon]
theorem State.minLevel_canon (x : LodDesc) (region : Nat) (h : s.Canon) : (s.minLevel x region).1.Canon := by
  grind [State.Canon, State.minLevel, State.mapByte_canon]
theorem State.logPage_canon (x : LodDesc) (l : Nat) (p : LodPage) (code : Nat) (h : s.Canon) : (s.logPage x l p code).Canon := by
  grind [State.Canon, State.logPage, State.setCore_mem]
theorem State.feedback_canon (ctx : Nat) (r : BitVec 128) (h : s.Canon) : (s.feedback ctx r).Canon := by
  unfold State.feedback
  exact .ite h (.ite (State.memPut_wf _ _ _ (State.memPut_wf _ _ _ h)) (State.memPut_wf _ _ _ (State.memPut_wf _ _ _ h)))
theorem State.feedbackAll_canon (ctx : Nat) (h : s.Canon) : (s.feedbackAll ctx).Canon := by
  grind [State.Canon, State.feedbackAll, State.setCore_mem, State.feedback_canon, foldl_wf]
theorem execFeedbackRecordWrite_canon (core : Nat) (h : s.Canon) : OutCanon (execFeedbackRecordWrite core s) := by
  grind [State.Canon, execFeedbackRecordWrite, State.setCore_mem, State.feedback_canon, outCanon_next]
theorem State.tryLevel_canon (x : LodDesc) (atTail : Bool) (l : List LodPage) : ∀ {s : State}, s.Canon →
    (s.tryLevel x atTail l).1.Canon := by
  induction l with
  | nil => exact fun h => h
  | cons p l ih =>
    intro s h
    grind [State.Canon, State.tryLevel, State.resident_canon, State.lodXlate_canon]
theorem State.walkLevels_canon (x : LodDesc) (need : Nat → List LodPage) (want lc n : Nat) :
    ∀ {s : State} (lvl : Nat) (moved : Bool), s.Canon → (s.walkLevels x need want lc n lvl moved).1.Canon := by
  induction n with
  | zero => exact fun _ _ h => h
  | succ n ih =>
    intro s lvl moved h
    grind [State.Canon, State.walkLevels, State.tryLevel_canon, State.logPage_canon, foldl_wf]
theorem State.choose_canon (x : LodDesc) (need : Nat → List LodPage) (want low : Nat) (h : s.Canon) :
    (s.choose x need want low).1.Canon := by
  grind [State.Canon, State.choose, State.walkLevels_canon]
theorem State.readTexels_canon (x : LodDesc) (f : Found) (factor : Nat) (l : List (Nat × Nat × Nat)) : ∀ {s : State}, s.Canon →
    (s.readTexels x f factor l).1.Canon := by
  induction l with
  | nil => exact fun h => h
  | cons p l ih =>
    intro s h
    grind [State.Canon, State.readTexels, State.lodBytes_canon]
theorem State.sample_canon (x : LodDesc) (filter : Nat) (u v lod : BitVec 32) (h : s.Canon) :
    (s.sample x filter u v lod).1.Canon := by
  grind [State.Canon, State.sample, State.minLevel_canon, State.choose_canon, State.readTexels_canon]
theorem State.onDesc_canon (off : W64) (tensor : Bool) (k : LodDesc → State) (hk : ∀ a, (k a).Canon) (h : s.Canon) :
    (s.onDesc off tensor k).Canon := by
  grind [State.Canon, State.onDesc, State.lsTouch_mem, State.trap_wf]
theorem State.commit_snaps_canon (srcs : List SReg) (dests : List Reg) (vals : List (Reg × V512)) (due : Due) (err : Option Err)
    (lod mem : Bool) (snaps : List Snap) (h : s.Canon) : (s.commit srcs dests vals due err lod mem snaps).Canon :=
  h.same (by simp [State.commit])
theorem texld_canon (filter : Nat) (d a : VReg) (b : SReg) (m : MReg) (h : s.Canon) : (texld filter d a b m s).Canon := by
  refine State.withOps_canon _ _ _ _ (fun r => State.onDesc_canon _ _ _ (fun x => ?_) h) h
  dsimp only
  generalize hacc : List.foldl _ _ _ = acc
  have ha : acc.1.Canon := by
    rw [← hacc]
    refine foldl_fst_canon (fun acc i hu => ?_) _ _ h
    exact State.sample_canon _ _ _ _ _ hu
  exact State.lodEnd_canon _ _ ha (fun u hu => State.commit_snaps_canon _ _ _ _ _ _ _ _ hu) h
theorem execLdlod_canon (d : VReg) (a b : SReg) (h : s.Canon) : OutCanon (execLdlod d a b s) := by
  refine outCanon_next (State.withOps_canon _ _ _ _ (fun r => State.onDesc_canon _ _ _ (fun x => ?_) h) h)
  refine .ite (State.trap_wf _ _ h) (.ite (State.trap_wf _ _ h) ?_)
  dsimp only
  split
  · exact State.trap_wf _ _ h
  · refine State.lodEnd_canon _ _ ?_ (fun u hu => State.commit_snaps_canon _ _ _ _ _ _ _ _ hu) h
    grind [State.Canon, State.minLevel_canon, State.choose_canon, State.lodBytes_canon]
theorem execTexfence_canon (h : s.Canon) : OutCanon (execTexfence s) := by
  grind [State.Canon, execTexfence, State.release_wf, State.retire_mem, State.system_wf, outCanon_next]
theorem execFbflush_canon (h : s.Canon) : OutCanon (execFbflush s) := by
  grind [State.Canon, execFbflush, State.setCore_mem, State.flushL1_mem, State.retire_mem, outCanon_next]
end
end Sys2Proof.Machine

/-! SUPPORT. Queues, their commands and the resets of VFs keep the memory in canonical form (15_kernel, 17_context,
19_queue). -/

namespace Sys2Proof.Machine

open Sys2Proof

section
variable {s : State}
theorem State.placeCmd_canon (q seq : Nat) (cmd : Nat) (h : s.Canon) : (s.placeCmd q seq cmd).Canon := by
  grind [State.Canon, State.placeCmd, State.memPut_wf, State.setQueue_wf]
theorem State.commandIn_canon (q : Nat) (cmd : BitVec 512) (h : s.Canon) : (s.commandIn q cmd).1.Canon := by
  unfold State.commandIn
  extract_lets x seq ahead
  split
  · exact h
  · split
    · exact h
    · split
      · exact State.placeCmd_canon _ _ _ h
      · exact h
theorem execCommandArrive_canon (q : Nat) (cmd : BitVec 512) (h : s.Canon) : OutCanon (execCommandArrive q cmd s) := by
  grind [State.Canon, execCommandArrive, State.commandIn_canon, outCanon_next]
theorem execQpush_canon (a b : SReg) (h : s.Canon) : OutCanon (execQpush a b s) := by
  grind [State.Canon, execQpush, State.lsTouch_mem, State.release_wf, State.trap_wf, State.withOps_wf, State.retire_mem,
    State.placeCmd_canon, outCanon_next]
theorem execEvpost_canon (a b : SReg) (h : s.Canon) : OutCanon (execEvpost a b s) := by
  grind [State.Canon, execEvpost, State.release_wf, State.trap_wf, State.withOps_wf, State.retire_mem, State.putRec_canon,
    outCanon_next]
theorem State.cmdFail_canon (q cause : Nat) (addr : W64) (h : s.Canon) : (s.cmdFail q cause addr).Canon := by
  grind [State.Canon, State.cmdFail, State.cmdDone_canon, State.putRec_canon]
theorem State.cmdOk_canon (q : Nat) (value : W64) (h : s.Canon) : (s.cmdOk q value).Canon := by
  grind [State.Canon, State.cmdOk, State.cmdDone_canon, State.putRec_canon]
theorem State.cmdBlock_canon (q : Nat) (b : Block) (h : s.Canon) : (s.cmdBlock q b).Canon := by
  grind [State.Canon, State.cmdBlock, State.setQueue_wf]
theorem State.cmdStall_canon (q va : Nat) (h : s.Canon) : (s.cmdStall q va).Canon := by
  grind [State.Canon, State.cmdStall, State.setQueue_wf]
theorem State.command_canon (q : Nat) (mine : Nat → Bool) (k : Nat → State) (hk : ∀ a, (k a).Canon) (h : s.Canon) :
    (s.command q mine k).Canon := by
  grind [State.Canon, State.command, State.cmdFail_canon, State.cmdBlock_canon]
theorem execNop_canon (q : Nat) (h : s.Canon) : OutCanon (execNop q s) := by
  grind [State.Canon, execNop, State.cmdDone_canon, State.cmdFail_canon, State.command_canon, outCanon_next]
theorem State.cmdGot_canon (q va : Nat) (g : EGot) (hard : State → State) (go : State → List (BitVec 8) → State)
    (hhard : ∀ u, u.Canon → (hard u).Canon) (hgo : ∀ u b, u.Canon → (go u b).Canon) (h : s.Canon) :
    (s.cmdGot q va g hard go).Canon := by
  cases g with
  | ok bs => exact hgo _ _ h
  | err e => exact hhard _ h
  | soft cause kind va => exact State.cmdStall_canon _ _ h
  | wait => exact h
theorem State.cmdRead_canon (q va n : Nat) (hard : State → State) (go : State → List (BitVec 8) → State)
    (hhard : ∀ u, u.Canon → (hard u).Canon) (hgo : ∀ u b, u.Canon → (go u b).Canon) (h : s.Canon) :
    (s.cmdRead q va n hard go).Canon := by
  have hgot : ∀ (u : State) (g : EGot), u.Canon → (u.cmdGot q va g hard go).Canon :=
    fun u g hu => State.cmdGot_canon _ _ _ _ _ hhard hgo hu
  have hx := State.xlateDev_wf (s.queue q).ctx .load va h
  unfold State.cmdRead
  split
  · next hs => exact hgot _ _ (h.same (State.sentBefore_mem hs))
  · split
    · next hq =>
      rw [hq] at hx
      exact .ite (hgo _ _ hx) (hgot _ _ (State.Canon.same hx (State.remoteAccess_mem ..)))
    · next hq =>
      rw [hq] at hx
      exact hgot _ _ hx
theorem State.cmdWrite_canon (q va : Nat) (bs : List (BitVec 8)) (hard go : State → State)
    (hhard : ∀ u, u.Canon → (hard u).Canon) (hgo : ∀ u, u.Canon → (go u).Canon) (h : s.Canon) :
    (s.cmdWrite q va bs hard go).Canon := by
  have hgot : ∀ (u : State) (g : EGot), u.Canon → (u.cmdGot q va g hard fun v _ => go v).Canon :=
    fun u g hu => State.cmdGot_canon _ _ _ _ _ hhard (fun v _ hv => hgo v hv) hu
  have hx := State.xlateDev_wf (s.queue q).ctx .store va h
  unfold State.cmdWrite
  split
  · next hs => exact hgot _ _ (h.same (State.sentBefore_mem hs))
  · split
    · next hq =>
      rw [hq] at hx
      exact .ite (hgo _ (State.memWrite_wf _ _ _ hx)) (hgot _ _ (State.Canon.same hx (State.remoteAccess_mem ..)))
    · next hq =>
      rw [hq] at hx
      exact hgot _ _ hx
theorem execWait_canon (q : Nat) (h : s.Canon) : OutCanon (execWait q s) := by
  grind [State.Canon, execWait, State.cmdDone_canon, State.cmdFail_canon, State.cmdBlock_canon, State.command_canon,
    State.cmdRead_canon, outCanon_next]
theorem execWrite_canon (q : Nat) (h : s.Canon) : OutCanon (execWrite q s) := by
  grind [State.Canon, execWrite, State.cmdDone_canon, State.cmdFail_canon, State.command_canon, State.cmdWrite_canon,
    outCanon_next]
theorem execEvent_canon (q : Nat) (h : s.Canon) : OutCanon (execEvent q s) := by
  grind [State.Canon, execEvent, State.putRec_canon, State.cmdBlock_canon, State.command_canon, outCanon_next]
theorem State.recordAt_canon (q ctx va : Nat) (output : Bool) (h : s.Canon) : (s.recordAt q ctx va output).1.Canon := by
  grind [State.Canon, State.recordAt, State.xlateDev_wf, State.remoteAccess_mem]
theorem State.recordsAt_canon (q ctx : Nat) (l : List (Nat × Nat × Nat × Nat)) :
    ∀ {s : State} (n : Nat) (acc : List (Nat × Nat)), s.Canon → (s.recordsAt q ctx n l acc).1.Canon := by
  induction l with
  | nil => exact fun _ _ h => h
  | cons p l ih =>
    intro s n acc h
    have hr := State.recordAt_canon q ctx p.1 (decide (n = 0)) h
    unfold State.recordsAt
    split
    · next hq =>
      rw [hq] at hr
      exact ih _ _ hr
    · next hq =>
      rw [hq] at hr
      exact hr
theorem State.bufLaunch_canon (ctx va pa : Nat) (h : s.Canon) : (s.bufLaunch ctx va pa).Canon := by
  grind [State.Canon, State.bufLaunch, State.memPut_wf, State.sendOwn_mem, State.xlateDev_wf, State.bufPut_canon]
theorem State.launch_canon (q : Nat) (c o : Nat) (pas : List (Nat × Nat)) (h : s.Canon) : (s.launch q c o pas).Canon := by
  grind [State.Canon, State.launch, State.setKernel_mem, State.cmdDone_canon, State.bufLaunch_canon, foldl_wf]
theorem execLaunch_canon (q : Nat) (h : s.Canon) : OutCanon (execLaunch q s) := by
  grind [State.Canon, execLaunch, State.cmdFail_canon, State.cmdStall_canon, State.command_canon, State.cmdRead_canon,
    State.recordsAt_canon, State.launch_canon, outCanon_next]
theorem execQueueStallRetry_canon (q : Nat) (h : s.Canon) : OutCanon (execQueueStallRetry q s) := by
  grind [State.Canon, execQueueStallRetry, State.setQueue_wf, outCanon_next]
theorem execBlockClear_canon (q : Nat) (h : s.Canon) : OutCanon (execBlockClear q s) := by
  grind [State.Canon, execBlockClear, State.setQueue_wf, State.setEp_canon, State.block_wf, State.cmdOk_canon, outCanon_next]
theorem State.workDone_canon (q : Nat) (b : Block) (h : s.Canon) : (s.workDone q b).Canon := by
  grind [State.Canon, State.workDone, State.block_wf, State.cmdOk_canon]
theorem State.mgmt_canon (q n : Nat) (act : Nat → Option State) (hact : ∀ a, ∀ t, act a = some t → t.Canon) (h : s.Canon) :
    (s.mgmt q n act).Canon := by
  grind [State.Canon, State.mgmt, State.cmdFail_canon, State.command_canon]
theorem execContextCreate_canon (q : Nat) (h : s.Canon) : OutCanon (execContextCreate q s) := by
  refine outCanon_next (State.mgmt_canon _ _ _ (fun c t ht => ?_) h)
  extract_lets a at ht
  split at ht
  · cases ht
  · obtain ⟨x, -, rfl⟩ := Option.map_eq_some_iff.1 ht
    exact State.cmdOk_canon _ _ (State.setCtx_wf _ _ h)
theorem execContextSuspend_canon (q : Nat) (h : s.Canon) : OutCanon (execContextSuspend q s) := by
  grind [State.Canon, execContextSuspend, State.setCtx_wf, State.stopQueue_canon, State.cmdBlock_canon, State.mgmt_canon,
    foldl_wf, outCanon_next]
theorem execSuspendComplete_canon (c : Nat) (h : s.Canon) : OutCanon (execSuspendComplete c s) := by
  grind [State.Canon, execSuspendComplete, State.setCtx_wf, State.stopQueue_canon, State.fmtImageWrite_canon,
    State.workDone_canon, outCanon_next]
theorem execContextResume_canon (q : Nat) (h : s.Canon) : OutCanon (execContextResume q s) := by
  grind [State.Canon, execContextResume, State.setCtx_wf, State.restartQueue_canon, State.fmtImageRead_canon, State.cmdOk_canon,
    State.mgmt_canon, foldl_wf, outCanon_next]
theorem execContextKill_canon (q : Nat) (h : s.Canon) : OutCanon (execContextKill q s) := by
  grind [State.Canon, execContextKill, State.kill_wf, State.cmdOk_canon, State.cmdBlock_canon, State.mgmt_canon, outCanon_next]
theorem State.freeCtx_canon (c : Nat) (h : s.Canon) : (s.freeCtx c).Canon := by
  grind [State.Canon, State.freeCtx, State.setCtx_wf, State.feedbackAll_canon]
theorem execContextRelease_canon (q : Nat) (h : s.Canon) : OutCanon (execContextRelease q s) := by
  grind [State.Canon, execContextRelease, State.cmdOk_canon, State.mgmt_canon, State.freeCtx_canon, outCanon_next]
theorem execQueueCreate_canon (q : Nat) (h : s.Canon) : OutCanon (execQueueCreate q s) := by
  grind [State.Canon, execQueueCreate, State.memPut_wf, State.setQueue_wf, State.cmdOk_canon, State.mgmt_canon, outCanon_next]
theorem execQueueSet_canon (q : Nat) (h : s.Canon) : OutCanon (execQueueSet q s) := by
  grind [State.Canon, execQueueSet, State.setQueue_wf, State.notifyDue_canon, State.cmdOk_canon, State.mgmt_canon, outCanon_next]
theorem execQueueDestroy_canon (q : Nat) (h : s.Canon) : OutCanon (execQueueDestroy q s) := by
  grind [State.Canon, execQueueDestroy, State.destroyQueue_canon, State.cmdOk_canon, State.mgmt_canon, outCanon_next]
theorem execVfSet_canon (q : Nat) (h : s.Canon) : OutCanon (execVfSet q s) := by
  grind [State.Canon, execVfSet, State.cmdOk_canon, State.mgmt_canon, outCanon_next]
theorem execVfReset_canon (q : Nat) (h : s.Canon) : OutCanon (execVfReset q s) := by
  grind [State.Canon, execVfReset, State.vfStart_canon, State.cmdOk_canon, State.cmdBlock_canon, State.mgmt_canon, outCanon_next]
theorem execVfResetGraceExpire_canon (h : s.Canon) : OutCanon (execVfResetGraceExpire s) := by
  grind [State.Canon, execVfResetGraceExpire, State.kill_wf, foldl_wf, outCanon_next]
theorem State.vfScrub_canon (v : Nat) (h : s.Canon) : (s.vfScrub v).Canon := by
  grind [State.Canon, State.vfScrub, State.scrubFmts_canon, foldl_wf]
theorem State.vfFree_canon (v : Nat) (h : s.Canon) : (s.vfFree v).Canon := by
  grind [State.Canon, State.vfFree, State.destroyQueue_canon, State.workDone_canon, State.freeCtx_canon, foldl_wf]
theorem execVfResetDrainDone_canon (h : s.Canon) : OutCanon (execVfResetDrainDone s) := by
  grind [State.Canon, execVfResetDrainDone, State.vfScrub_canon, State.vfFree_canon, outCanon_next]
end
end Sys2Proof.Machine

/-! SUPPORT. Groups keep the memory in canonical form (16_group). -/

namespace Sys2Proof.Machine

open Sys2Proof

section
variable {s : State}
theorem State.register_canon (ctx vf : Nat) (d : Decl) (tile : Nat) (h : s.Canon) : (s.register ctx vf d tile).1.Canon := by
  rw [State.register]
  split
  · split
    · next hr => exact State.Canon.same (State.tagRoom_canon _ _ hr h) rfl
    · exact h
  · split
    · exact State.modTag_canon _ _ _ _ h
    · exact h
theorem execGroupAdmit_canon (die ser : Nat) (h : s.Canon) : OutCanon (execGroupAdmit die ser s) := by
  refine outCanon_next ?_
  extract_lets k n g held tiles
  refine .ite h ?_
  generalize hacc : List.foldl _ _ tiles = acc
  have ha : acc.1.Canon := by
    rw [← hacc]
    refine foldl_fst_canon (fun x e hx => ?_) _ _ h
    exact State.register_canon _ _ _ _ hx
  exact State.reeval_canon (State.Canon.same ha rfl)
theorem State.left_canon (cores : List Nat) (vf : Nat) (h : s.Canon) : (s.left cores vf).Canon := by
  grind [State.Canon, State.left, State.setCore_mem, foldl_wf]
theorem State.place_canon (ser g clu f : Nat) (h : s.Canon) : (s.place ser g clu f).Canon := by
  grind [State.Canon, State.place, State.setThread_mem, State.setCore_mem, State.setGroup_mem, State.unregister_canon,
    State.startThread_mem, foldl_wf]
theorem State.restorePoison_canon (ser g : Nat) (grp : Group) (h : s.Canon) : (s.restorePoison ser g grp).Canon := by
  have hspoil : ∀ (u : State) (o : Owner) f, u.Canon → (u.modOwner o f).1.Canon := fun u o f hu => State.modOwner_canon o f hu
  rw [State.restorePoison]
  refine .ite h ?_
  refine foldl_canon (fun u i hu => foldl_canon (fun u e hu => ?_) _ hu) _ ?_
  · exact .ite (hspoil _ _ _ hu) hu
  refine foldl_canon (fun u e hu => ?_) _ ?_
  · dsimp only
    split
    · exact .ite (hspoil _ _ _ hu) hu
    · exact hu
  refine foldl_canon (fun u e hu => ?_) _ ?_
  · exact State.Canon.same hu rfl
  refine foldl_canon (fun u c hu => ?_) _ ?_
  · exact State.Canon.same hu rfl
  refine foldl_canon (fun u e hu => ?_) _ h
  exact .ite (hspoil _ _ _ hu) hu
theorem State.restore_canon (ser g : Nat) (grp : Group) (h : s.Canon) : (s.restore ser g grp).Canon := by
  grind [State.Canon, State.restore, State.setThread_mem, State.setCore_mem, State.setGroup_mem, State.setCtx_wf,
    State.slotWritten_mem, State.restorePoison_canon, foldl_wf]
theorem State.tryPlace_canon (die ser g : Nat) {t : State} (ht : s.tryPlace die ser g = some t) (h : s.Canon) : t.Canon := by
  grind [State.Canon, State.tryPlace, State.place_canon, State.restore_canon]
theorem State.placeFirst_canon (die : Nat) (l : List (Nat × Nat × Nat)) :
    ∀ {s : State}, s.Canon → (s.placeFirst die l).Canon := by
  induction l with
  | nil => exact fun h => h
  | cons p l ih =>
    intro s h
    unfold State.placeFirst
    split
    · next hp => exact State.Canon.same (State.tryPlace_canon _ _ _ hp h) rfl
    · split
      · exact .ite (ih h) (ih h)
      · exact ih h
theorem execGroupPlace_canon (die : Nat) (h : s.Canon) : OutCanon (execGroupPlace die s) := by
  grind [State.Canon, execGroupPlace, State.reeval_canon, State.placeFirst_canon, outCanon_next]
theorem State.freeArea_canon (ser : Nat) (grp : Group) (h : s.Canon) : (s.freeArea ser grp).Canon := by
  grind [State.Canon, State.freeArea, State.setCtx_wf]
theorem State.endGroup_canon (ser g : Nat) (grp : Group) (h : s.Canon) : (s.endGroup ser g grp).Canon := by
  grind [State.Canon, State.endGroup, State.setThread_mem, State.dropGroup_mem, State.countEnd_canon, State.left_canon,
    State.freeArea_canon, foldl_wf]
theorem execGroupEnd_canon (ser g : Nat) (h : s.Canon) : OutCanon (execGroupEnd ser g s) := by
  grind [State.Canon, execGroupEnd, State.endGroup_canon, outCanon_next]
theorem State.writeSave_canon (ser g : Nat) (grp : Group) (h : s.Canon) : (s.writeSave ser g grp).Canon := by
  rw [State.writeSave]
  refine foldl_canon (fun u i hu => State.memPut_wf _ _ _ hu) _ ?_
  refine foldl_canon (fun u e hu => ?_) _ ?_
  · dsimp only
    split
    · exact State.memPut_wf _ _ _ hu
    · exact State.memPut_wf _ _ _ hu
  refine foldl_canon (fun u i hu => ?_) _ ?_
  · exact State.Canon.same (State.memWrite_wf none _ _ hu) rfl
  refine foldl_canon (fun u e hu => State.matrixImage_canon _ _ _ _ _ hu) _ ?_
  exact foldl_canon (fun u e hu => State.memPut_wf _ _ _ hu) _ (State.memPut_wf _ _ _ h)
theorem State.preempt_canon (die : Nat) (h : s.Canon) : (s.preempt die).Canon := by
  grind [State.Canon, State.preempt, State.setDie_mem, State.setCtx_wf, foldl_wf]
theorem State.preempted_canon (ser g : Nat) (grp : Group) (h : s.Canon) : (s.preempted ser g grp).Canon := by
  grind [State.Canon, State.preempted, State.setDie_mem, State.preempt_canon]
theorem State.loseSaved_canon (core ser g : Nat) (grp : Group) (h : s.Canon) : (s.loseSaved core ser g grp).Canon := by
  grind [State.Canon, State.loseSaved, State.countEnd_canon, State.markFault_canon, State.freeArea_canon]
theorem State.saveTouch_canon (ctx b : Nat) (sole : List Nat) (grp : Group) (h : s.Canon) :
    (s.saveTouch ctx b sole grp).Canon := by
  grind [State.Canon, State.saveTouch, State.setThread_mem, State.setCore_mem, State.arrayTouch_mem, State.matrixTouch_canon,
    foldl_wf]
theorem State.saveGroup_canon (ser g : Nat) (grp : Group) (area : Nat) (h : s.Canon) : (s.saveGroup ser g grp area).Canon := by
  grind [State.Canon, State.saveGroup, State.setThread_mem, State.setCore_mem, State.setGroup_mem, State.setCtx_wf,
    State.left_canon, State.writeSave_canon, State.preempted_canon, State.loseSaved_canon, State.saveTouch_canon, foldl_wf]
theorem execGroupSaveComplete_canon (ser g : Nat) (h : s.Canon) : OutCanon (execGroupSaveComplete ser g s) := by
  grind [State.Canon, execGroupSaveComplete, State.setGroup_mem, State.freeArea_canon, State.preempted_canon,
    State.saveGroup_canon, outCanon_next]
theorem execSpawnQueueServe_canon (core : Nat) (h : s.Canon) : OutCanon (execSpawnQueueServe core s) := by
  grind [State.Canon, execSpawnQueueServe, State.setCore_mem, State.startThread_mem, outCanon_next]
end
end Sys2Proof.Machine


/-! SUPPORT. Layers and the compositor keep the memory in canonical form (21_layer R333-R358). -/

namespace Sys2Proof.Machine

open Sys2Proof

section
variable {s : State}
theorem execLaynew_canon (d : SReg) (h : s.Canon) : OutCanon (execLaynew d s) := by
  grind [State.Canon, execLaynew, State.setLayer_mem, State.withOps_wf, State.commit_mem, outCanon_next]
/-- The state a run gave with a value is the run's. -/
theorem State.Canon.ofPair {α : Type} {x : State × α} {u : State} {a : α} (hq : x = (u, a)) (h : x.1.Canon) : u.Canon := by
  subst hq
  exact h
theorem State.onLines_canon (n : Nat) :
    ∀ {s : State} (va : Nat) (k : State → List (BitVec 8) → Option Err → State), (∀ u b e, u.Canon → (k u b e).Canon) →
      s.Canon → (s.onLines va n k).Canon := by
  induction n with
  | zero => exact fun _ _ hk h => hk _ _ _ h
  | succ n ih =>
    intro s va k hk h
    have hr := State.readAt_wf s.iss.thr va 64 h
    unfold State.onLines
    split
    next u g hq =>
    rw [hq] at hr
    exact State.onGot_wf _ _ _ _ (fun bs e => ih _ _ (fun v b e' hv => hk _ _ _ hv) hr) hr
theorem execLayset_canon (d a b : SReg) (h : s.Canon) : OutCanon (execLayset d a b s) := by
  refine outCanon_next (State.withOps_canon _ _ _ _ (fun r => ?_) h)
  have hset : ∀ (u : State) i x, u.Canon → ((u.setLayer i x).retire [d, a, b]).Canon :=
    fun u i x hu => hu.same ((State.retire_mem _).trans (State.setLayer_mem ..))
  refine .ite (State.trap_wf _ _ h) (.ite (.ite (State.trap_wf _ _ h) ?_)
    (.ite (State.trap_wf _ _ h) (.ite (State.trap_wf _ _ h) (hset _ _ _ h))))
  refine State.onLines_canon _ _ _ (fun u bs e hu => ?_) h
  extract_lets n fields value
  split
  · exact State.trap_wf _ _ hu
  · exact State.trap_wf _ _ hu
  · exact hset _ _ _ hu
theorem execLayget_canon (d a b : SReg) (h : s.Canon) : OutCanon (execLayget d a b s) := by
  grind [State.Canon, execLayget, State.trap_wf, State.withOps_wf, State.commit_mem, outCanon_next]
theorem execLayret_canon (a : SReg) (h : s.Canon) : OutCanon (execLayret a s) := by
  grind [State.Canon, execLayret, State.retireLayer_mem, State.trap_wf, State.withOps_wf, State.retire_mem, outCanon_next]
theorem State.compPut_canon (op : CompOp) (h : s.Canon) : (s.compPut op).Canon := by
  grind [State.Canon, State.compPut, State.setDie_mem, State.number_canon]
theorem execCompose_canon (a b : SReg) (h : s.Canon) : OutCanon (execCompose a b s) := by
  grind [State.Canon, execCompose, State.lsTouch_mem, State.trap_wf, State.withOps_wf, State.retire_mem, State.compPut_canon,
    outCanon_next]
theorem execLaysplit_canon (d a b : SReg) (h : s.Canon) : OutCanon (execLaysplit d a b s) := by
  grind [State.Canon, execLaysplit, State.lsTouch_mem, State.setLayer_mem, State.trap_wf, State.withOps_wf, State.commit_mem,
    State.compPut_canon, foldl_wf, outCanon_next]
theorem execLaymerge_canon (a b : SReg) (h : s.Canon) : OutCanon (execLaymerge a b s) := by
  grind [State.Canon, execLaymerge, State.trap_wf, State.withOps_wf, State.retire_mem, State.compPut_canon, outCanon_next]
theorem execReqpop_canon (d a : SReg) (h : s.Canon) : OutCanon (execReqpop d a s) := by
  grind [State.Canon, execReqpop, State.flushL1_mem, State.setLayer_mem, State.trap_wf, State.withOps_wf, State.commit_mem,
    outCanon_next]
theorem State.post_canon (ctx : Nat) (p : Post) (h : s.Canon) : (s.post ctx p).Canon := by
  grind [State.Canon, State.post]
theorem State.setComp_canon (die : Nat) (q : CompReq) (h : s.Canon) : (s.setComp die q).Canon := by
  grind [State.Canon, State.setComp, State.setDie_mem]
theorem State.endComp_canon (die : Nat) (q : CompReq) (err : Option Err) (h : s.Canon) : (s.endComp die q err).Canon := by
  grind [State.Canon, State.endComp, State.setDie_mem, State.finishOp_canon, State.post_canon, foldl_wf]
theorem State.compGot_canon (die : Nat) (q : CompReq) (g : EGot) (k : State → List (BitVec 8) → State)
    (hk : ∀ u b, u.Canon → (k u b).Canon) (h : s.Canon) : (s.compGot die q g k).Canon := by
  cases g with
  | ok bs => exact hk _ _ h
  | err e => exact State.endComp_canon _ _ _ h
  | soft cause kind va =>
    have hf := State.engFault_canon q.owner 4 cause kind va q.stall h
    grind [State.Canon, State.compGot, State.setComp_canon, State.endComp_canon]
  | wait => exact h
theorem State.tagRecords_canon (w : Asker) (ctx : Nat) (l : List Nat) :
    ∀ {s : State}, s.Canon → (s.tagRecords w ctx l).1.Canon := by
  induction l with
  | nil => exact fun h => h
  | cons p l ih =>
    intro s h
    have hd := fun a => State.devRead_canon w ctx a h
    grind [State.Canon, State.tagRecords]
theorem State.ageLayer_canon (ctx : Nat) (swapped : List Nat) (id rcd : Nat) (h : s.Canon) :
    (s.ageLayer ctx swapped id rcd).1.Canon := by
  grind [State.Canon, State.ageLayer, State.setLayer_mem, State.unrequest_canon]
theorem State.ageLayers_canon (ctx : Nat) (rs : List (Nat × Nat)) (h : s.Canon) : (s.ageLayers ctx rs).1.Canon := by
  exact foldl_fst_canon (fun x r hx => State.ageLayer_canon _ _ _ _ hx) _ _ h
theorem State.judge_canon (posts : List Post) (id : Nat) (h : s.Canon) : (s.judge posts id).1.Canon := by
  grind [State.Canon, State.judge, State.setLayer_mem]
theorem State.composeSteps_canon (die : Nat) (q : CompReq) (n list : Nat) (h : s.Canon) :
    (s.composeSteps die q n list).Canon := by
  have hend : ∀ (u : State) e, u.Canon → (u.endComp die q e).Canon := fun u e hu => State.endComp_canon _ _ _ hu
  have hages : ∀ (u : State) rs, u.Canon → (u.ageLayers q.owner.ctx rs).1.Canon := fun u rs hu => State.ageLayers_canon _ _ hu
  unfold State.composeSteps
  split
  next hq =>
  refine State.compGot_canon _ _ _ _ (fun v bs hv => ?_) (State.Canon.ofPair hq (State.devRead_canon _ _ _ h))
  extract_lets ids
  split
  · exact hend _ _ hv
  · split
    next x rs g' hq' =>
    have ht := State.Canon.ofPair hq' (State.tagRecords_canon _ _ _ hv)
    split
    · exact hend _ _ (hages _ _ ht)
    · exact hend _ _ (hages _ _ ht)
    · refine State.compGot_canon _ _ _ _ (fun y _ hy => ?_) ht
      have ha := hages y rs hy
      split
      next z swapped hz =>
      generalize hacc : List.foldl _ _ _ = acc
      have hj : acc.1.Canon := by
        rw [← hacc]
        exact foldl_fst_canon (fun x id hx => State.judge_canon _ _ hx) _ _ (State.Canon.ofPair hz ha)
      obtain ⟨w, posts⟩ := acc
      exact State.setComp_canon _ _ hj
theorem State.rowOf_canon (who : Asker) (ctx fw y id : Nat) (l : Layer) (h : s.Canon) : (s.rowOf who ctx fw y id l).1.Canon := by
  unfold State.rowOf
  extract_lets ww hh age ox oy j i0 i1
  split
  · exact h
  · split
    · next hq =>
      have hd := State.Canon.ofPair hq (State.devRead_canon _ _ _ h)
      extract_lets seen
      split
      · next hq' => exact State.Canon.ofPair hq' (State.devRead_canon _ _ _ hd)
      · next hq' => exact State.Canon.ofPair hq' (State.devRead_canon _ _ _ hd)
    · next hq => exact State.Canon.ofPair hq (State.devRead_canon _ _ _ h)
theorem State.rowSamples_canon (w : Asker) (ctx fw y : Nat) (l : List (Nat × Layer)) :
    ∀ {s : State}, s.Canon → (s.rowSamples w ctx fw y l).1.Canon := by
  induction l with
  | nil => exact fun h => h
  | cons p l ih =>
    intro s h
    have hd := State.rowOf_canon w ctx fw y p.1 p.2 h
    grind [State.Canon, State.rowSamples]
theorem State.composeRow_canon (die : Nat) (q : CompReq) (r : Nat) (h : s.Canon) : (s.composeRow die q r).Canon := by
  unfold State.composeRow
  extract_lets fw y
  split
  next hq =>
  refine State.compGot_canon _ _ _ _ (fun v _ hv => ?_) (State.Canon.ofPair hq (State.rowSamples_canon _ _ _ _ _ h))
  extract_lets px bs
  split
  next hq' =>
  exact State.compGot_canon _ _ _ _ (fun x _ hx => State.setComp_canon _ _ hx)
    (State.Canon.ofPair hq' (State.devWrite_canon _ _ _ _ hv))
theorem State.composeEnd_canon (die : Nat) (q : CompReq) (off r : Nat) (h : s.Canon) : (s.composeEnd die q off r).Canon := by
  grind [State.Canon, State.composeEnd, State.credit_wf, State.engLocalWrite_canon, State.endComp_canon]
theorem State.composeRun_canon (die : Nat) (q : CompReq) (off n r : Nat) (h : s.Canon) : (s.composeRun die q off n r).Canon := by
  grind [State.Canon, State.composeRun, State.composeSteps_canon, State.composeRow_canon, State.composeEnd_canon]
theorem State.writeParts_canon (w : Asker) (ctx : Nat) (l : List (Nat × List (BitVec 8))) :
    ∀ {s : State}, s.Canon → (s.writeParts w ctx l).1.Canon := by
  induction l with
  | nil => exact fun h => h
  | cons p l ih =>
    intro s h
    have hd := State.devWrite_canon w ctx (p.1 % 2 ^ 72) p.2 h
    unfold State.writeParts
    split
    · next hq =>
      rw [hq] at hd
      exact ih hd
    · exact hd
theorem State.withPair_canon (die : Nat) (q : CompReq) (a b : Nat) (k : CompReq → Layer → Layer → State)
    (hk : ∀ q x y, (k q x y).Canon) (h : s.Canon) : (s.withPair die q a b k).Canon := by
  unfold State.withPair
  split
  · exact hk _ _ _
  · exact .ite (State.endComp_canon _ _ _ h) (.ite (State.endComp_canon _ _ _ h) (hk _ _ _))
theorem State.splitRun_canon (die : Nat) (q : CompReq) (parent child x y w hh : Nat) (h : s.Canon) :
    (s.splitRun die q parent child x y w hh).Canon := by
  refine State.withPair_canon _ _ _ _ _ (fun q p c => ?_) h
  extract_lets j
  refine .ite (State.endComp_canon _ _ _ h) ?_
  split
  next hq =>
  refine State.compGot_canon _ _ _ _ (fun u bs hu => ?_) (State.Canon.ofPair hq (State.devRead_canon _ _ _ h))
  split
  next hq' =>
  exact State.compGot_canon _ _ _ _ (fun x _ hx => State.setComp_canon _ _ hx)
    (State.Canon.ofPair hq' (State.writeParts_canon _ _ _ hu))
theorem State.mergeSteps_canon (die : Nat) (q : CompReq) (t u : Nat) (h : s.Canon) : (s.mergeSteps die q t u).Canon := by
  grind [State.Canon, State.mergeSteps, State.setLayer_mem, State.unrequest_canon, State.retireLayer_mem, State.setComp_canon]
theorem State.mergeRun_canon (die : Nat) (q : CompReq) (t u : Nat) (h : s.Canon) : (s.mergeRun die q t u).Canon := by
  unfold State.mergeRun
  split
  · extract_lets j w
    refine .ite (State.endComp_canon _ _ _ h) ?_
    split
    next hq =>
    refine State.compGot_canon _ _ _ _ (fun v bs hv => ?_) (State.Canon.ofPair hq (State.devRead_canon _ _ _ h))
    extract_lets px
    split
    next hq' =>
    refine State.compGot_canon _ _ _ _ (fun v ds hv => ?_) (State.Canon.ofPair hq' (State.devRead_canon _ _ _ hv))
    extract_lets parts
    split
    next hq2 =>
    exact State.compGot_canon _ _ _ _ (fun x _ hx => State.setComp_canon _ _ hx)
      (State.Canon.ofPair hq2 (State.writeParts_canon _ _ _ hv))
  · exact .ite (State.endComp_canon _ _ _ h) (.ite (State.endComp_canon _ _ _ h) (State.mergeSteps_canon _ _ _ _ h))
theorem State.compRun_canon (die : Nat) (q : CompReq) (h : s.Canon) : (s.compRun die q).Canon := by
  unfold State.compRun
  split
  · exact State.composeRun_canon _ _ _ _ _ h
  · exact State.splitRun_canon _ _ _ _ _ _ _ _ h
  · exact State.mergeRun_canon _ _ _ _ h
theorem State.compositor_canon (die : Nat) (mine : CompOp → Bool) (h : s.Canon) : (s.compositor die mine).Canon := by
  grind [State.Canon, State.compositor, State.compRun_canon]
theorem execComposite_canon (die : Nat) (h : s.Canon) : OutCanon (execComposite die s) := by
  grind [State.Canon, execComposite, State.compositor_canon, outCanon_next]
theorem execLaysplitCopy_canon (die : Nat) (h : s.Canon) : OutCanon (execLaysplitCopy die s) := by
  grind [State.Canon, execLaysplitCopy, State.compositor_canon, outCanon_next]
theorem execLaymergeFold_canon (die : Nat) (h : s.Canon) : OutCanon (execLaymergeFold die s) := by
  grind [State.Canon, execLaymergeFold, State.compositor_canon, outCanon_next]
end
end Sys2Proof.Machine

/-! SUPPORT. Ports, endpoints, transfers and special functions keep the memory in canonical form (23_link R364-R379,
06_vector R122). -/

namespace Sys2Proof.Machine

open Sys2Proof

section
variable {s : State}
theorem State.dropPort_canon (n : Nat) (p : Port) (h : s.Canon) : (s.dropPort n p).Canon := by
  unfold State.dropPort
  refine foldl_canon (fun u e hu => ?_) _ (State.Canon.same h rfl)
  refine State.setEp_canon _ _ ?_
  refine foldl_fst_canon (fun x p hx => ?_) _ _ hu
  split
  · exact State.resend_canon _ _ hx
  · exact hx
theorem execTrainingSucceeds_canon (port : Nat) (h : s.Canon) : OutCanon (execTrainingSucceeds port s) := by
  grind [State.Canon, execTrainingSucceeds, outCanon_next]
theorem execSignalLost_canon (port : Nat) (h : s.Canon) : OutCanon (execSignalLost port s) := by
  grind [State.Canon, execSignalLost, State.dropPort_canon, outCanon_next]
theorem execPortDisable_canon (port : Nat) (h : s.Canon) : OutCanon (execPortDisable port s) := by
  grind [State.Canon, execPortDisable, State.dropPort_canon, outCanon_next]
theorem execPortEnable_canon (port : Nat) (h : s.Canon) : OutCanon (execPortEnable port s) := by
  grind [State.Canon, execPortEnable, outCanon_next]
theorem execEndpointOpen_canon (q : Nat) (h : s.Canon) : OutCanon (execEndpointOpen q s) := by
  grind [State.Canon, execEndpointOpen, State.takeFree_mem, State.setEp_canon, State.cmdOk_canon, State.mgmt_canon, outCanon_next]
theorem execEndpointClose_canon (q : Nat) (h : s.Canon) : OutCanon (execEndpointClose q s) := by
  grind [State.Canon, execEndpointClose, State.setEp_canon, State.failAsks_canon, State.forget_canon, State.cmdOk_canon,
    State.cmdBlock_canon, State.mgmt_canon, outCanon_next]
theorem transfer_canon (op : HOp) (a : SReg) (h : s.Canon) : (transfer op a s).Canon := by
  grind [State.Canon, transfer, State.setCore_mem, State.lsTouch_mem, State.setEp_canon, State.trap_wf, State.withOps_wf,
    State.retire_mem, State.number_canon, State.finishOp_canon]
theorem State.setXfer_canon (core : Nat) (q : NetReq) (h : s.Canon) : (s.setXfer core q).Canon := by
  grind [State.Canon, State.setXfer, State.setCore_mem]
theorem State.endXfer_canon (core : Nat) (q : NetReq) (err : Option Err) (h : s.Canon) : (s.endXfer core q err).Canon := by
  grind [State.Canon, State.endXfer, State.setCore_mem, State.setEp_canon, State.finishOp_canon]
theorem State.netGot_canon (core : Nat) (q : NetReq) (g : EGot) (k : State → List (BitVec 8) → State)
    (hk : ∀ u b, u.Canon → (k u b).Canon) (h : s.Canon) : (s.netGot core q g k).Canon := by
  cases g with
  | ok bs => exact hk _ _ h
  | err e => exact State.endXfer_canon _ _ _ h
  | soft cause kind va =>
    have hf := State.engFault_canon q.owner 3 cause kind va q.stall h
    grind [State.Canon, State.netGot, State.setXfer_canon, State.endXfer_canon]
  | wait => exact h
theorem State.netPlaces_canon (q : NetReq) (off n : Nat) (h : s.Canon) : (s.netPlaces q off n).1.Canon := by
  grind [State.Canon, State.netPlaces, State.devPlaces_canon]
theorem State.sendPacket_canon (core : Nat) (q : NetReq) (h : s.Canon) : (s.sendPacket core q).Canon := by
  grind [State.Canon, State.sendPacket, State.setEp_canon, State.resend_canon, State.locRead_canon, State.setXfer_canon,
    State.netGot_canon, State.netPlaces_canon]
theorem execTransferPacketSend_canon (core : Nat) (h : s.Canon) : OutCanon (execTransferPacketSend core s) := by
  grind [State.Canon, execTransferPacketSend, State.sendPacket_canon, outCanon_next]
theorem State.netAcked_canon (core : Nat) (q : NetReq) (n : Nat) (h : s.Canon) : (s.netAcked core q n).Canon := by
  grind [State.Canon, State.netAcked, State.credit_wf, State.setXfer_canon, State.endXfer_canon]
theorem State.netPlace_canon (core : Nat) (q : NetReq) (k : Nat) (p : OutPkt) (bs : List (BitVec 8)) (h : s.Canon) :
    (s.netPlace core q k p bs).Canon := by
  grind [State.Canon, State.netPlace, State.setEp_canon, State.locWrite_canon, State.setXfer_canon, State.netGot_canon,
    State.netAcked_canon]
theorem State.accessAck_canon (ep : Nat) (x : Endpoint) (p : OutPkt) (r : Reply) (h : s.Canon) :
    (s.accessAck ep x p r).Canon := by
  have hset := fun y => State.setEp_canon ep y h
  unfold State.accessAck
  extract_lets short y u
  refine .ite h ?_
  have hu : u.Canon := hset y
  split
  · exact .ite (hu.same rfl) hu
  · exact hu
theorem execPacketAck_canon (ep k : Nat) (r : Reply) (h : s.Canon) : OutCanon (execPacketAck ep k r s) := by
  grind [State.Canon, execPacketAck, State.takeFree_mem, State.setEp_canon, State.endXfer_canon, State.netAcked_canon,
    State.netPlace_canon, State.accessAck_canon, outCanon_next]
theorem State.netRetry_canon (core : Nat) (q : NetReq) (h : s.Canon) : (s.netRetry core q).Canon := by
  grind [State.Canon, State.netRetry, State.sendPacket_canon, State.netPlace_canon]
theorem execRetransmit_canon (ep k : Nat) (h : s.Canon) : OutCanon (execRetransmit ep k s) := by
  grind [State.Canon, execRetransmit, State.setEp_canon, State.resend_canon, outCanon_next]
theorem execRetransmitLimit_canon (ep k : Nat) (h : s.Canon) : OutCanon (execRetransmitLimit ep k s) := by
  grind [State.Canon, execRetransmitLimit, State.setEp_canon, State.failAsks_canon, State.endXfer_canon, foldl_wf, outCanon_next]
theorem State.packetIn_canon (ep : Nat) (p : Packet) (k : Endpoint → State) (hk : ∀ a, (k a).Canon) (h : s.Canon) :
    (s.packetIn ep p k).Canon := by
  grind [State.Canon, State.packetIn, State.setEp_canon, State.say_canon]
theorem State.final_canon (ep : Nat) (p : Packet) (m : OutMsg) (h : s.Canon) : (s.final ep p m).Canon := by
  grind [State.Canon, State.final, State.setEp_canon, State.say_canon]
theorem State.memPacket_canon (ep : Nat) (p : Packet) (n : Nat) (k : Endpoint → State) (hk : ∀ a, (k a).Canon) (h : s.Canon) :
    (s.memPacket ep p n k).Canon := by
  grind [State.Canon, State.memPacket, State.packetIn_canon, State.final_canon]
theorem State.packetGot_canon (ep ctx : Nat) (p : Packet) (g : EGot) (k : State → List (BitVec 8) → State)
    (hk : ∀ u b, u.Canon → (k u b).Canon) (h : s.Canon) : (s.packetGot ep ctx p g k).Canon := by
  have hno := fun m => State.final_canon ep p m h
  cases g with
  | ok bs => exact hk _ _ h
  | err e => exact hno _
  | soft cause kind va =>
    unfold State.packetGot
    dsimp only
    split
    · exact hno _
    · exact State.say_canon _ (State.faultEmit_wf _ _ (h.same (State.takeFree_mem ..)))
  | wait => exact h
theorem State.packetDone_canon (ep ctx : Nat) (p : Packet) (n : Nat) (data : List (BitVec 8)) (h : s.Canon) :
    (s.packetDone ep ctx p n data).Canon := by
  grind [State.Canon, State.packetDone, State.credit_wf, State.final_canon]
theorem State.domainPacket_canon (ep : Nat) (p : Packet) (n : Nat) (k : Nat → State) (hk : ∀ a, (k a).Canon) (h : s.Canon) :
    (s.domainPacket ep p n k).Canon := by
  grind [State.Canon, State.domainPacket, State.final_canon]
theorem execPacketWrite_canon (ep : Nat) (p : Packet) (h : s.Canon) : OutCanon (execPacketWrite ep p s) := by
  grind [State.Canon, execPacketWrite, State.memWrite_wf, State.say_canon, State.devWrite_canon, State.final_canon,
    State.memPacket_canon, State.packetGot_canon, State.packetDone_canon, State.domainPacket_canon, outCanon_next]
theorem execPacketRead_canon (ep : Nat) (p : Packet) (h : s.Canon) : OutCanon (execPacketRead ep p s) := by
  grind [State.Canon, execPacketRead, State.devRead_canon, State.final_canon, State.memPacket_canon, State.packetGot_canon,
    State.domainPacket_canon, outCanon_next]
theorem execPacketAtomic_canon (ep : Nat) (p : Packet) (h : s.Canon) : OutCanon (execPacketAtomic ep p s) := by
  grind [State.Canon, execPacketAtomic, State.takeFree_mem, State.memPut_wf, State.say_canon, State.xlateDev_wf,
    State.remoteAccess_mem, State.final_canon, State.memPacket_canon, State.packetGot_canon, State.packetDone_canon,
    State.domainPacket_canon, outCanon_next]
theorem execPacketSend_canon (ep : Nat) (p : Packet) (h : s.Canon) : OutCanon (execPacketSend ep p s) := by
  grind [State.Canon, execPacketSend, State.say_canon, State.commandIn_canon, State.packetIn_canon, State.final_canon,
    outCanon_next]
theorem execCcrd_canon (d a b : SReg) (h : s.Canon) : OutCanon (execCcrd d a b s) := by
  grind [State.Canon, execCcrd, State.takeFree_mem, State.trap_wf, State.withOps_wf, State.commit_mem, outCanon_next]
theorem execEpstat_canon (d a : SReg) (h : s.Canon) : OutCanon (execEpstat d a s) := by
  grind [State.Canon, execEpstat, State.withOps_wf, State.commit_mem, outCanon_next]
theorem special_canon (f : Val → Flagged Val) (d a : VReg) (m : MReg) (h : s.Canon) : (special f d a m s).Canon := by
  grind [State.Canon, special, State.setCore_mem, State.commit_mem, foldl_wf]
theorem execSfuComplete_canon (core : Nat) (h : s.Canon) : OutCanon (execSfuComplete core s) := by
  grind [State.Canon, execSfuComplete, State.setCore_mem, State.modOwner_canon, outCanon_next]
end
end Sys2Proof.Machine

/-! SUPPORT. Boot, soft errors, fencing, raster delivery and vector accesses keep the memory in canonical form
(24_device R380-R393, 21_layer R347-R361, 06_vector R130-R134). -/

namespace Sys2Proof.Machine

open Sys2Proof

section
variable {s : State}
theorem execDeviceReset_canon : OutCanon (execDeviceReset s) := by
  exact outCanon_next rfl
theorem outCanon_fault (f : Fault) : OutCanon (.fault f) := by
  rintro t ⟨⟩
theorem execBoot_canon (c : BootCfg) (h : s.Canon) : OutCanon (execBoot c s) := by
  have hput : ∀ (u : State) a n v, u.Canon → (u.memPut a n v).Canon := fun u a n v hu => State.memPut_wf _ _ _ hu
  unfold execBoot
  split
  · exact outCanon_next h
  · split
    · exact outCanon_fault _
    · extract_lets node full s1 dev s2 tablePte leaf s3 s4 s5 s6 s7 s8 record
      have h2 : s2.Canon := rfl
      have h5 : s5.Canon := foldl_canon (fun u k hu => hput _ _ _ _ hu) _ (hput _ _ _ _ (hput _ _ _ _ h2))
      have h6 : s6.Canon := State.setCtx_wf _ _ h5
      have h8 : s8.Canon := State.setEp_canon _ _ (State.setQueue_wf _ _ h6)
      exact outCanon_next (foldl_canon (fun u e hu => hput _ _ _ _ hu) _ h8)
theorem execPowerLimitSet_canon (watts : Nat) (h : s.Canon) : OutCanon (execPowerLimitSet watts s) := by
  grind [State.Canon, execPowerLimitSet, outCanon_next]
theorem execReefGrant_canon (die idle : Nat) (h : s.Canon) : OutCanon (execReefGrant die idle s) := by
  grind [State.Canon, execReefGrant, State.setDie_mem, outCanon_next]
theorem State.spoil_canon (core array key : Nat) (h : s.Canon) : (s.spoil core array key).Canon := by
  grind [State.Canon, State.spoil, State.setThread_mem, State.setCore_mem, State.modOwner_canon]
theorem execSoftError_canon (x : Hit) (h : s.Canon) : OutCanon (execSoftError x s) := by
  refine outCanon_next ?_
  cases x with
  | memory pa corrected clean => exact .ite h (h.same rfl)
  | array core array key syndrome ctx corrected clean =>
    refine .ite h (.ite ?_ (State.spoil_canon _ _ _ ?_))
    · exact h.same (State.arrayError_mem ..)
    · exact h.same (State.arrayError_mem ..)
  | second clu k corrected clean => grind [State.Canon, State.setClu_mem]
  | tag k corrected clean => grind [State.Canon]
  | queue q n k corrected clean => grind [State.Canon, State.modOwner_canon, State.takeFree_mem]
  | map core k d corrected clean => grind [State.Canon, State.setCore_mem]
theorem State.fenceEnd_canon (t core : Nat) (h : s.Canon) : (s.fenceEnd t core).Canon := by
  grind [State.Canon, State.fenceEnd, State.markFault_canon, State.endThread_mem]
theorem State.fenceRestart_canon (t : Nat) (h : s.Canon) : (s.fenceRestart t).Canon := by
  grind [State.Canon, State.fenceRestart, State.setThread_mem, State.endLinks_mem, State.startThread_mem]
theorem State.completeNow_canon (ser g : Nat) (grp : Group) (h : s.Canon) : (s.completeNow ser g grp).Canon := by
  unfold State.completeNow
  refine foldl_canon (fun u t hu => foldl_canon (fun v _ hv => ?_) _ hu) _ ?_
  · split
    · split
      · exact State.deliver_canon _ _ _ hv
      · exact hv
    · exact hv
  · refine foldl_canon (fun u core hu => ?_) _ h
    exact foldl_canon (fun v e hv => State.modOwner_canon _ _ hv) _ (State.Canon.same hu (State.setCore_mem ..))
theorem State.savedFirst_canon (core : Nat) (h : s.Canon) : (s.savedFirst core).Canon := by
  grind [State.Canon, State.savedFirst, State.preempt_canon, State.saveGroup_canon, State.completeNow_canon, foldl_wf]
theorem State.fence_canon (core : Nat) (h : s.Canon) : (s.fence core).Canon := by
  grind [State.Canon, State.fence, State.setCore_mem, State.setClu_mem, State.leave_mem, State.endLinks_mem,
    State.adWriteAll_canon, State.loseSaved_canon, State.fenceEnd_canon, State.fenceRestart_canon, State.savedFirst_canon,
    foldl_wf]
theorem execWatchdogExpire_canon (core : Nat) (h : s.Canon) : OutCanon (execWatchdogExpire core s) := by
  grind [State.Canon, execWatchdogExpire, State.setCore_mem, State.fence_canon, outCanon_next]
theorem execShroud_canon (a : SReg) (h : s.Canon) : OutCanon (execShroud a s) := by
  grind [State.Canon, execShroud, State.release_wf, State.trap_wf, State.withOps_wf, State.retire_mem, State.system_wf,
    outCanon_next]
theorem execEngineFaultRetry_canon (e : Engine) (n : Nat) (h : s.Canon) : OutCanon (execEngineFaultRetry e n s) := by
  grind [State.Canon, execEngineFaultRetry, State.copyServe_canon, State.txRun_canon, State.compRun_canon, State.netRetry_canon,
    outCanon_next]
theorem State.takeSeq_canon (ctx set : Nat) (h : s.Canon) : (s.takeSeq ctx set).1.Canon := by
  grind [State.Canon, State.takeSeq]
theorem execTriemit_canon (a b : SReg) (h : s.Canon) : OutCanon (execTriemit a b s) := by
  have hsend : ∀ (u : State) (l : List Nat) b, u.Canon → (l.foldl (fun s c => s.send c b true) u).Canon :=
    fun u l b hu => foldl_canon (fun v c hv => State.send_canon _ _ _ _ hv) _ hu
  refine outCanon_next (State.withOps_canon _ _ _ _ (fun r => ?_) h)
  extract_lets mark o core set id finish
  have hfin : ∀ u, u.Canon → (finish u).Canon := fun u hu => State.Canon.same hu (State.retire_mem _)
  split
  · exact State.trap_wf _ _ h
  · refine State.withSet_canon _ _ (fun u cores hu => ?_) h
    have hl := State.Canon.same hu (State.lsTouch_mem core o 64 u.cur.ctx)
    refine .ite (State.trap_wf _ _ hu) (.ite (hfin _ (hsend _ _ _ hu)) (.ite (State.trap_wf _ _ hl) ?_))
    extract_lets n l at_
    split
    next hq =>
    have ht := State.Canon.ofPair hq (State.takeSeq_canon _ _ hl)
    split
    · exact hfin _ (hsend _ _ _ ht)
    · exact hfin _ ht
theorem execTriangleDeliver_canon (src tgt : Nat) (h : s.Canon) : OutCanon (execTriangleDeliver src tgt s) := by
  grind [State.Canon, execTriangleDeliver, State.setCore_mem, State.onMsg_canon, State.answer_canon, outCanon_next]
theorem State.takeTri_canon (t off : Nat) (x : TriRec) (h : s.Canon) : (s.takeTri t off x).1.Canon := by
  grind [State.Canon, State.takeTri, State.setCore_mem, State.lsWrite_mem]
theorem tripop_canon (waits : Bool) (d a : SReg) (h : s.Canon) : (tripop waits d a s).Canon := by
  grind [State.Canon, tripop, State.trap_wf, State.block_wf, State.withOps_wf, State.commit_mem, State.takeTri_canon]
theorem execTripopComplete_canon (thr : Nat) (h : s.Canon) : OutCanon (execTripopComplete thr s) := by
  refine outCanon_next ?_
  split
  · split
    · split
      · exact h
      · refine State.unblock_canon _ _ _ (fun u hu => ?_) h
        exact State.Canon.same (State.takeTri_canon _ _ _ hu) (State.commit_mem ..)
    · exact h
  · exact h
theorem State.lockQuad_canon (core : Nat) (k : Ticket) (quad : Nat) (h : s.Canon) : (s.lockQuad core k quad).Canon := by
  grind [State.Canon, State.lockQuad, State.setCore_mem]
theorem execTridone_canon (a : SReg) (h : s.Canon) : OutCanon (execTridone a s) := by
  grind [State.Canon, execTridone, State.setCore_mem, State.release_wf, State.trap_wf, State.withOps_wf, State.retire_mem,
    outCanon_next]
theorem execPxlock_canon (a b : SReg) (h : s.Canon) : OutCanon (execPxlock a b s) := by
  grind [State.Canon, execPxlock, State.fromNow_canon, State.trap_wf, State.block_wf, State.withOps_wf, State.retire_mem,
    State.lockQuad_canon, outCanon_next]
theorem execPxlockGrant_canon (thr : Nat) (h : s.Canon) : OutCanon (execPxlockGrant thr s) := by
  refine outCanon_next ?_
  split
  · split
    · extract_lets c
      split
      · exact h
      · refine .ite (State.unblock_canon _ _ _ (fun u hu => ?_) h) h
        exact State.Canon.same (State.fromNow_canon _ (State.lockQuad_canon _ _ _ hu)) State.done_mem
    · exact h
  · exact h
theorem execPxunlk_canon (a : SReg) (h : s.Canon) : OutCanon (execPxunlk a s) := by
  grind [State.Canon, execPxunlk, State.setCore_mem, State.release_wf, State.withOps_wf, State.retire_mem, outCanon_next]
theorem State.checkElems_canon (t : Nat) (k : Kind) (z : Nat) (l : List (Nat × Nat)) :
    ∀ {s : State}, s.Canon → (s.checkElems t k z l).1.Canon := by
  induction l with
  | nil => exact fun h => h
  | cons p l ih =>
    intro s h
    have hx := State.xlate_wf (coreOf t) (s.thread t).ctx k p.2 h
    have hown := ih hx
    have hs := ih h
    clear ih
    grind [State.Canon, State.checkElems]
theorem State.readParts_canon (t : Nat) (l : List FarPart) :
    ∀ {s : State}, s.Canon → (s.readParts t l).1.Canon := by
  induction l with
  | nil => exact fun h => h
  | cons p l ih =>
    intro s h
    have hr : (s.orSent (s.asker t) .get p.va p.n ((s.wentFar t).remoteAccess (s.asker t) .get p.node p.pa p.va p.n)).1.Canon :=
      State.orSent_wf _ _ _ _ _ _ h (State.Canon.same h ((State.remoteAccess_mem ..).trans (State.wentFar_mem ..)))
    have hgo := ih hr
    clear ih
    grind [State.Canon, State.readParts]
theorem State.stopped_canon (s' : State) (k : Kind) (x : Stop) (hs : s'.Canon) (h : s.Canon) : (s.stopped s' k x).Canon := by
  cases x with
  | trap e => exact State.trap_wf _ _ h
  | soft c va => exact State.softFault_wf _ _ _ _ h
  | busy va => exact h
  | wait => exact hs
theorem State.onElems_canon (k : Kind) (z : Nat) (addrs : List (Nat × Nat)) (f : List Elem → List FarPart)
    (go : State → List Elem → List (Nat × List (BitVec 8) × Option Err) → State)
    (hgo : ∀ u es got, u.Canon → (go u es got).Canon) (h : s.Canon) : (s.onElems k z addrs f go).Canon := by
  unfold State.onElems
  split
  next hq =>
  have hc := State.Canon.ofPair hq (State.checkElems_canon _ _ _ _ h)
  split
  · next hq' => exact State.stopped_canon _ _ _ (State.Canon.ofPair hq' (State.readParts_canon _ _ hc)) h
  · next hq' =>
    have hp := State.Canon.ofPair hq' (State.readParts_canon _ _ hc)
    split
    · exact State.stopped_canon _ _ _ hp h
    · exact hgo _ _ _ hp
theorem State.readElems_canon (t z : Nat) (got : List (Nat × List (BitVec 8) × Option Err)) (l : List Elem) :
    ∀ {s : State}, s.Canon → (s.readElems t z got l).1.Canon := by
  induction l with
  | nil => exact fun h => h
  | cons p l ih =>
    intro s h
    have hown := fun pa ty => ih (State.Canon.same h (State.readOwn_mem t pa p.va z ty))
    have hfar := ih h
    clear ih
    grind [State.Canon, State.readElems]
theorem vecLoad_canon (w : Nat) (d : VReg) (m : MReg) (srcs : List SReg) (addr : Nat → Nat) (h : s.Canon) :
    (vecLoad w d m srcs addr s).Canon := by
  unfold vecLoad
  refine State.onElems_canon _ _ _ _ _ (fun u es got hu => ?_) h
  exact State.Canon.same (State.readElems_canon _ _ _ _ hu) (State.commit_mem ..)
theorem State.putFar_canon (t : Nat) (p : FarPart) (h : s.Canon) : (s.putFar t p).Canon := by
  grind [State.Canon, State.putFar, State.sendOwn_mem]
theorem vecStore_canon (w : Nat) (d : VReg) (m : MReg) (srcs : List SReg) (addr : Nat → Nat) (h : s.Canon) :
    (vecStore w d m srcs addr s).Canon := by
  grind [State.Canon, vecStore, State.softFault_wf, State.storeOwn_wf, State.wentFar_mem, State.waitTurn_canon,
    State.stored_canon, State.onElems_canon, State.putFar_canon, foldl_wf]
theorem execVld_canon (d : VReg) (a : AReg) (m : MReg) (i : Imm) (h : s.Canon) : OutCanon (execVld d a m i s) := by
  grind [State.Canon, execVld, State.trap_wf, vecLoad_canon, outCanon_next]
theorem execVst_canon (d : VReg) (a : AReg) (m : MReg) (i : Imm) (h : s.Canon) : OutCanon (execVst d a m i s) := by
  grind [State.Canon, execVst, State.trap_wf, vecStore_canon, outCanon_next]
theorem execVlds_canon (w : BitVec 2) (d : VReg) (a : AReg) (b : SReg) (m : MReg) (h : s.Canon) :
    OutCanon (execVlds w d a b m s) := by
  grind [State.Canon, execVlds, State.withOps_wf, vecLoad_canon, outCanon_next]
theorem execVsts_canon (w : BitVec 2) (d : VReg) (a : AReg) (b : SReg) (m : MReg) (h : s.Canon) :
    OutCanon (execVsts w d a b m s) := by
  grind [State.Canon, execVsts, State.withOps_wf, vecStore_canon, outCanon_next]
theorem vecLoadL_canon (w : Nat) (d : VReg) (m : MReg) (srcs : List SReg) (off : Nat → Int) (h : s.Canon) :
    (vecLoadL w d m srcs off s).Canon := by
  grind [State.Canon, vecLoadL, State.lsTouch_mem, State.trap_wf, State.commit_mem, foldl_wf]
theorem vecStoreL_canon (w : Nat) (d : VReg) (m : MReg) (srcs : List SReg) (off : Nat → Int) (h : s.Canon) :
    (vecStoreL w d m srcs off s).Canon := by
  grind [State.Canon, vecStoreL, State.lsWrite_mem, State.trap_wf, State.retire_mem, foldl_wf]
theorem execVldl_canon (d : VReg) (a : SReg) (m : MReg) (h : s.Canon) : OutCanon (execVldl d a m s) := by
  grind [State.Canon, execVldl, State.trap_wf, State.withOps_wf, vecLoadL_canon, outCanon_next]
theorem execVstl_canon (d : VReg) (a : SReg) (m : MReg) (h : s.Canon) : OutCanon (execVstl d a m s) := by
  grind [State.Canon, execVstl, State.trap_wf, State.withOps_wf, vecStoreL_canon, outCanon_next]
theorem execVgathl_canon (w : BitVec 2) (d : VReg) (a : SReg) (b : VReg) (m : MReg) (h : s.Canon) :
    OutCanon (execVgathl w d a b m s) := by
  grind [State.Canon, execVgathl, State.withOps_wf, vecLoadL_canon, outCanon_next]
theorem execVscatl_canon (w : BitVec 2) (d : VReg) (a : SReg) (b : VReg) (m : MReg) (h : s.Canon) :
    OutCanon (execVscatl w d a b m s) := by
  grind [State.Canon, execVscatl, State.withOps_wf, vecStoreL_canon, outCanon_next]
end
end Sys2Proof.Machine


/-! SUPPORT. Every instruction and every step of the device keeps the memory in canonical form: one case for each arm of
exec. -/

namespace Sys2Proof.Machine

open Sys2Proof

section
variable {s : State}
theorem outCanon_refused (r : Refusal) : OutCanon (.refused r) := by
  rintro t ⟨⟩
theorem exec_canon (i : Instr) (h : s.Canon) : OutCanon (exec i s) := by
  cases i
  case deviceReset => exact execDeviceReset_canon
  case boot => exact execBoot_canon _ h
  case powerLimitSet => exact execPowerLimitSet_canon _ h
  case reefGrant => exact execReefGrant_canon _ _ h
  case watchdogExpire => exact execWatchdogExpire_canon _ h
  case messageRetry => exact execMessageRetry_canon _ _ h
  case sleepTimeout => exact execSleepTimeout_canon _ h
  case wakeArrive => exact execWakeArrive_canon _ h
  case resumeArrive => exact execResumeArrive_canon _ h
  case abortArrive => exact execAbortArrive_canon _ h
  case longLatencyComplete => exact execLongLatencyComplete_canon _ _ h
  case sfuComplete => exact execSfuComplete_canon _ h
  case faultRecordRetry => exact execFaultRecordRetry_canon _ h
  case handlerLimit | illegalEncoding => exact outCanon_next (State.trap_wf _ _ h)
  case waittlComplete => exact execWaittlComplete_canon _ h
  case waitgenComplete => exact execWaitgenComplete_canon _ h
  case tagwaitComplete => exact execTagwaitComplete_canon _ h
  case qinPopComplete => exact outCanon_next (State.reissueLink_canon _ _ h)
  case qoutPushComplete => exact execQoutPushComplete_canon _ h
  case spawnwComplete => exact execSpawnwComplete_canon _ h
  case gangForm => exact execGangForm_canon _ h
  case qcfgDisconnectComplete => exact execQcfgDisconnectComplete_canon _ h
  case tripopComplete => exact execTripopComplete_canon _ h
  case pxlockGrant => exact execPxlockGrant_canon _ h
  case fmtsetInstall => exact execFmtsetInstall_canon _ h
  case handlerStart => exact execHandlerStart_canon _ _ h
  case builtinHandlerAccess => exact execBuiltinHandlerAccess_canon _ _ h
  case arrivalCredit => exact execArrivalCredit_canon _ _ h
  case l1Invalidate => exact execL1Invalidate_canon _ h
  case storeAck => exact execStoreAck_canon _ h
  case matrixTileStep => exact execMatrixTileStep_canon _ h
  case matrixEntryComplete => exact execMatrixEntryComplete_canon _ h
  case drainWriteAck => exact execDrainWriteAck_canon _ h
  case drainWake => exact execDrainWake_canon _ h
  case spawnQueueServe => exact execSpawnQueueServe_canon _ h
  case matrixFreeze => exact execMatrixFreeze_canon _ h
  case spillReply => exact execSpillReply_canon _ _ h
  case mqctlStop => exact outCanon_next (State.mqctlStop_canon _ _ h)
  case mqctlMaskerrClear => exact outCanon_next (State.mqctlClear_canon _ h)
  case copyUnit => exact outCanon_next (State.copyServe_canon _ _ h)
  case copyComplete => exact execCopyComplete_canon _ h
  case engineFaultRetry => exact execEngineFaultRetry_canon _ _ h
  case compress | decompress | fprint | compare | crc32c => exact outCanon_next (transform_canon _ _ h)
  case pageWalk => exact execPageWalk_canon _ h
  case adWriteback => exact outCanon_next (State.adEntry_canon _ _ h)
  case adWritebackTimeout => exact execAdWritebackTimeout_canon _ _ h
  case feedbackRecordWrite => exact execFeedbackRecordWrite_canon _ h
  case kernelEnd => exact execKernelEnd_canon _ h
  case heldDoneUpdate => exact execHeldDoneUpdate_canon _ h
  case heldPublicationApply => exact execHeldPublicationApply_canon _ h
  case groupAdmit => exact execGroupAdmit_canon _ _ h
  case groupPlace => exact execGroupPlace_canon _ h
  case groupEnd => exact execGroupEnd_canon _ _ h
  case preemptionTrigger => exact outCanon_next (State.preempt_canon _ h)
  case groupSaveComplete => exact execGroupSaveComplete_canon _ _ h
  case triangleDeliver => exact execTriangleDeliver_canon _ _ h
  case composite => exact execComposite_canon _ h
  case laysplitCopy => exact execLaysplitCopy_canon _ h
  case laymergeFold => exact execLaymergeFold_canon _ h
  case commandArrive => exact execCommandArrive_canon _ _ h
  case nop => exact execNop_canon _ h
  case launch => exact execLaunch_canon _ h
  case wait => exact execWait_canon _ h
  case write => exact execWrite_canon _ h
  case event => exact execEvent_canon _ h
  case blockClear => exact execBlockClear_canon _ h
  case queueStallRetry => exact execQueueStallRetry_canon _ h
  case completionRecordRetry => exact execCompletionRecordRetry_canon _ h
  case notifyTimer => exact execNotifyTimer_canon _ h
  case contextCreate => exact execContextCreate_canon _ h
  case contextSuspend => exact execContextSuspend_canon _ h
  case suspendComplete => exact execSuspendComplete_canon _ h
  case contextResume => exact execContextResume_canon _ h
  case contextKill => exact execContextKill_canon _ h
  case killFinish => exact execKillFinish_canon _ h
  case contextRelease => exact execContextRelease_canon _ h
  case queueCreate => exact execQueueCreate_canon _ h
  case queueSet => exact execQueueSet_canon _ h
  case queueDestroy => exact execQueueDestroy_canon _ h
  case vfSet => exact execVfSet_canon _ h
  case vfReset => exact execVfReset_canon _ h
  case vfctlReset => exact outCanon_next (State.vfctlWrite_canon _ h)
  case vfResetGraceExpire => exact execVfResetGraceExpire_canon h
  case vfResetDrainDone => exact execVfResetDrainDone_canon h
  case endpointOpen => exact execEndpointOpen_canon _ h
  case endpointClose => exact execEndpointClose_canon _ h
  case trainingSucceeds => exact execTrainingSucceeds_canon _ h
  case signalLost => exact execSignalLost_canon _ h
  case portDisable => exact execPortDisable_canon _ h
  case portEnable => exact execPortEnable_canon _ h
  case retransmit => exact execRetransmit_canon _ _ h
  case retransmitLimit => exact execRetransmitLimit_canon _ _ h
  case packetWrite => exact execPacketWrite_canon _ _ h
  case packetRead => exact execPacketRead_canon _ _ h
  case packetAtomic => exact execPacketAtomic_canon _ _ h
  case packetSend => exact execPacketSend_canon _ _ h
  case packetAck => exact execPacketAck_canon _ _ _ h
  case elselClear => exact outCanon_next (State.elselClear_canon _ h)
  case add | addw | sub | subw | and | or | xor | andn | sll | srl | sra | ror | ceq | cne | clt | cltn | mul | mulw | mulh | min
      | max | minn | maxn | bext | bexts | bmsk =>
    exact outCanon_next (aluRR_canon _ _ _ _ h)
  case addi | andi | ori | xori | slli | srli | srai | clti | mov | clz | ctz | popc | brev | bexti | bextsi | sextw | abs | neg
      =>
    exact outCanon_next (aluR_canon _ _ _ h)
  case li => exact execLi_canon _ _ h
  case movaa | addai | vsel | yield => exact outCanon_next (h.same (State.retireT_mem ..))
  case adda | adda2 | adda4 | adda8 => exact outCanon_next (addrRR_canon _ _ _ _ h)
  case bz | bnz | bltz | bgez | bgtz | blez => exact outCanon_next (branchS_canon _ _ _ h)
  case bmany | bmnone => exact outCanon_next (branchM_canon _ _ _ h)
  case j => exact outCanon_next (State.jumpTo_canon _ _ h)
  case jal => exact execJal_canon _ h
  case jr => exact execJr_canon _ h
  case jalr => exact execJalr_canon _ _ h
  case mulhn => exact execMulhn_canon _ _ _ h
  case div | divn | rem | remn | divw | divnw | remw | remnw => exact outCanon_next (divide_canon _ _ _ _ _ h)
  case bins | fshl | sel => exact outCanon_next (aluRRR_canon _ _ _ _ h)
  case fshr => exact execFshr_canon _ _ _ h
  case sextb => exact execSextb_canon _ _ h
  case sexth => exact execSexth_canon _ _ h
  case zextw => exact execZextw_canon _ _ h
  case fadd | fsub | fmul => exact outCanon_next (floatOp_canon _ _ _ _ _ h)
  case ffma => exact execFfma_canon _ _ _ _ h
  case feq | flt | fle | funord => exact outCanon_next (floatCmp_canon _ _ _ _ _ _ h)
  case ftoi | ftoin => exact outCanon_next (floatToInt_canon _ _ _ _ _ h)
  case itof | itofn => exact outCanon_next (intToFloat_canon _ _ _ _ h)
  case fabs => exact execFabs_canon _ _ _ h
  case fneg => exact execFneg_canon _ _ _ h
  case crd => exact execCrd_canon _ _ h
  case mova => exact execMova_canon _ _ h
  case movs => exact execMovs_canon _ _ h
  case movah => exact execMovah_canon _ _ h
  case movsh => exact execMovsh_canon _ _ h
  case ldb | ldbz | ldh | ldhz | ldw | ldwz | ldd => exact outCanon_next (load_canon _ _ _ _ _ _ h)
  case stb | sth | stw | std => exact outCanon_next (store_canon _ _ _ _ _ h)
  case ldl => exact execLdl_canon _ _ _ _ h
  case stl => exact execStl_canon _ _ _ _ h
  case lda => exact execLda_canon _ _ _ _ h
  case sta => exact execSta_canon _ _ _ _ h
  case amoadd | amoswap | amoand | amoor | amoxor | amomin | amomax | amominn | cas =>
    exact outCanon_next (amo_canon _ _ _ _ _ _ h)
  case ladd | lswap | lmin | lmax | casl => exact outCanon_next (amoLocal_canon _ _ _ _ _ h)
  case fence => exact execFence_canon _ h
  case pref => exact execPref_canon _ _ h
  case rld => exact execRld_canon _ _ _ _ h
  case rst => exact execRst_canon _ _ _ _ h
  case radd => exact execRadd_canon _ _ _ h
  case raddr => exact execRaddr_canon _ _ _ h
  case msg => exact execMsg_canon _ _ _ h
  case reply => exact execReply_canon _ h
  case hset => exact execHset_canon _ _ h
  case vadd | vsub | vmul | vmulh | vsll | vsrl | vsra | vmin | vmax | vminn | vmaxn =>
    exact outCanon_next (vecRR_canon _ _ _ _ _ _ h)
  case vand | vor | vxor | vandn => exact outCanon_next (vecBit_canon _ _ _ _ _ h)
  case vceqE32 | vcneE32 | vcltE32 | vcltnE32 | vceqE16 | vcneE16 | vcltE16 | vcltnE16 | vceqE8 | vcneE8 | vcltE8 | vcltnE8 =>
    exact outCanon_next (vecCmp_canon _ _ _ _ _ _ h)
  case vfadd => exact execVfadd_canon _ _ _ _ _ h
  case vfsub => exact execVfsub_canon _ _ _ _ _ h
  case vfmul => exact execVfmul_canon _ _ _ _ _ h
  case vffma | vfmin | vfmax => exact outCanon_next (vecFloat_canon _ _ _ _ h)
  case vfceq | vfclt | vfcle | vfcun => exact outCanon_next (vecFCmp_canon _ _ _ _ _ _ h)
  case vrcp | vrsq | vexp2 | vlog2 | vsin | vcos | vsqrt | vtanh => exact outCanon_next (special_canon _ _ _ _ h)
  case vbcast => exact execVbcast_canon _ _ _ _ h
  case vextr => exact execVextr_canon _ _ _ _ _ h
  case vins => exact execVins_canon _ _ _ _ _ h
  case viota | vwiden8 | vwiden16 | vnarrow16 | vnarrow8 | vscanadd | vmov => exact outCanon_next (vecOp_canon _ _ _ _ h)
  case vredadd | vredmin | vredmax => exact outCanon_next (vecReduce_canon _ _ _ _ h)
  case vredfadd => exact execVredfadd_canon _ _ _ h
  case vld => exact execVld_canon _ _ _ _ h
  case vst => exact execVst_canon _ _ _ _ h
  case vlds => exact execVlds_canon _ _ _ _ _ h
  case vsts => exact execVsts_canon _ _ _ _ _ h
  case vgath => exact outCanon_next (vecLoad_canon _ _ _ _ _ h)
  case vscat => exact outCanon_next (vecStore_canon _ _ _ _ _ h)
  case vldl => exact execVldl_canon _ _ _ h
  case vstl => exact execVstl_canon _ _ _ h
  case vgathl => exact execVgathl_canon _ _ _ _ _ h
  case vscatl => exact execVscatl_canon _ _ _ _ _ h
  case vperm => exact execVperm_canon _ _ _ _ _ h
  case vsldn | vslup => exact outCanon_next (vecSlide_canon _ _ _ _ _ _ h)
  case vscanfadd => exact execVscanfadd_canon _ _ _ h
  case mand | mor | mxor | mandn => exact outCanon_next (maskOp_canon _ _ _ _ h)
  case mpop | mfirst | mmovs => exact outCanon_next (maskRead_canon _ _ _ h)
  case mmovm => exact execMmovm_canon _ _ h
  case gadd | gmin | gmax => exact outCanon_next (gangOp_canon _ _ _ _ _ h)
  case gfadd => exact execGfadd_canon _ _ h
  case fmtset => exact execFmtset_canon _ _ h
  case fmtget => exact execFmtget_canon _ _ h
  case fset => exact execFset_canon _ _ h
  case cvt => exact execCvt_canon _ _ _ h
  case cvtef => exact execCvtef_canon _ _ _ h
  case fmtinv => exact execFmtinv_canon _ h
  case mma | mmaz | mmas | mmasz => exact outCanon_next (mma_canon _ _ _ _ _ h)
  case mzero => exact execMzero_canon _ h
  case mdrain | mdrainw => exact outCanon_next (drain_canon _ _ _ h)
  case accrd => exact execAccrd_canon _ _ h
  case accwr => exact execAccwr_canon _ _ h
  case neteval => exact execNeteval_canon _ _ _ h
  case msave => exact execMsave_canon _ h
  case mrstr => exact execMrstr_canon _ h
  case mqstat => exact execMqstat_canon _ h
  case copy => exact execCopy_canon _ h
  case txreq => exact execTxreq_canon _ _ h
  case waittl => exact execWaittl_canon _ _ h
  case tlrd => exact execTlrd_canon _ _ h
  case awset => exact execAwset_canon _ _ h
  case waitgen => exact execWaitgen_canon _ _ _ h
  case arrive => exact execArrive_canon _ _ _ h
  case arrivem => exact execArrivem_canon _ _ _ h
  case qcfg => exact execQcfg_canon _ h
  case qstat => exact execQstat_canon _ _ h
  case spawn | spawnw => exact outCanon_next (spawn_canon _ _ _ _ h)
  case quit => exact execQuit_canon h
  case sleep => exact execSleep_canon _ h
  case wake => exact outCanon_next (ping_canon _ _ h)
  case resume | abort => exact outCanon_next (State.system_wf _ (ping_canon _ _ h) h)
  case gang2 | gang4 | gang8 => exact outCanon_next (gang_canon _ h)
  case split => exact execSplit_canon h
  case tagpub => exact execTagpub_canon _ _ h
  case tagwait => exact execTagwait_canon _ _ h
  case tagqry => exact execTagqry_canon _ _ _ h
  case qpush => exact execQpush_canon _ _ h
  case evpost => exact execEvpost_canon _ _ h
  case texldNearest | texldBilinear | texldTrilinear => exact outCanon_next (texld_canon _ _ _ _ _ h)
  case ldlod => exact execLdlod_canon _ _ _ h
  case texfence => exact execTexfence_canon h
  case fbflush => exact execFbflush_canon h
  case triemit => exact execTriemit_canon _ _ h
  case tripop | tripopn => exact outCanon_next (tripop_canon _ _ _ h)
  case tridone => exact execTridone_canon _ h
  case pxlock => exact execPxlock_canon _ _ h
  case pxunlk => exact execPxunlk_canon _ h
  case laynew => exact execLaynew_canon _ h
  case layset => exact execLayset_canon _ _ _ h
  case layget => exact execLayget_canon _ _ _ h
  case laysplit => exact execLaysplit_canon _ _ _ h
  case laymerge => exact execLaymerge_canon _ _ h
  case layret => exact execLayret_canon _ h
  case compose => exact execCompose_canon _ _ h
  case reqpop => exact execReqpop_canon _ _ h
  case hput | hget | hamo | hsend => exact outCanon_next (transfer_canon _ _ h)
  case ccrd => exact execCcrd_canon _ _ _ h
  case epstat => exact execEpstat_canon _ _ h
  case csrr => exact execCsrr_canon _ _ h
  case csrw => exact execCsrw_canon _ _ h
  case trap => exact execTrap_canon _ h
  case rett => exact execRett_canon h
  case tlbinv => exact execTlbinv_canon _ _ h
  case harvest => exact execHarvest_canon h
  case ctxkill => exact execCtxkill_canon _ h
  case shroud => exact execShroud_canon _ h
  case transferPacketSend => exact execTransferPacketSend_canon _ h
  case softError => exact execSoftError_canon _ h
end
end Sys2Proof.Machine

/-! SUPPORT. A move, whichever it is, keeps the memory in canonical form (entry 3). -/

namespace Sys2Proof.Machine

open Sys2Proof

section
variable {s : State}
theorem State.icacheFill_canon (core ctx pa : Nat) (h : s.Canon) : (s.icacheFill core ctx pa).Canon := by
  grind [State.Canon, State.icacheFill, State.arrayTouch_mem, State.setCore_mem]
theorem State.fetchEffect_canon (t n : Nat) (h : s.Canon) : (s.fetchEffect t n).Canon := by
  unfold State.fetchEffect
  refine .ite h (foldl_canon (fun u k hu => .ite hu ?_) _ h)
  have hx := State.xlate_wf (coreOf t) (s.thread t).ctx .fetch ((s.thread t).wordAddr k) hu
  split
  · next hq =>
    have hv := State.Canon.ofPair hq hx
    exact .ite (State.icacheFill_canon _ _ _ hv) (hv.same (State.remoteAccess_mem ..))
  · next hq => exact State.Canon.ofPair hq hx
theorem State.issuedBy_canon (t : Nat) (before : Thread) (ran counted : Bool) (h : s.Canon) :
    (s.issuedBy t before ran counted).Canon := by
  grind [State.Canon, State.issuedBy, State.setThread_mem, State.dropAnswers_mem, State.setCore_mem, State.retires_canon]
theorem State.depend_canon (t : Nat) (i : Instr) (h : s.Canon) : (s.depend t i).Canon :=
  .ite h (h.same (State.setThread_mem ..))
theorem State.readRegs_canon (t : Nat) (i : Instr) (h : s.Canon) : (s.readRegs t i).Canon :=
  .ite h (h.same (State.arrayTouch_mem ..))
theorem State.wroteRegs_canon (t : Nat) (rs : List Reg) (h : s.Canon) : (s.wroteRegs t rs).Canon :=
  .ite (h.same (State.setCore_mem ..)) h
theorem State.lateWrote_canon {after : State} (h : after.Canon) : (s.lateWrote after).Canon :=
  foldl_canon (fun _ _ hu => State.wroteRegs_canon _ _ hu) _ h
/-- A turn that raises an error come late. -/
theorem State.raisedTurn_canon (t : Nat) (th : Thread) (p : Pend) (iss : Issue) (h : s.Canon) :
    ((({ s with iss := iss } : State).raiseLate t p).issuedBy t th false false).Canon :=
  State.issuedBy_canon _ _ _ _ (State.raiseLate_canon _ _ (h.same rfl))
theorem State.trapTurn_canon {s1 s2 : State} {t : Nat} {th : Thread} {o : Out} (ho : s.trapTurn s1 s2 t th = some o)
    (h : s.Canon) (h2 : s2.Canon) : OutCanon o := by
  unfold State.trapTurn at ho
  split at ho
  · cases ho
    exact outCanon_next (State.issuedBy_canon _ _ _ _ h2)
  · split at ho
    · cases ho
      exact outCanon_next (State.raisedTurn_canon _ _ _ _ h)
    · cases ho
/-- A turn executes on the state that fetching and reading registers leave. -/
theorem State.perform_canon {t : Nat} {x : Prep} {o : Out} (ho : s.perform t x = some o) (h : s.Canon) : OutCanon o := by
  have hturn : ∀ (u : State) ran counted, u.Canon → OutCanon (.next (u.issuedBy t (s.thread t) ran counted)) :=
    fun u ran counted hu => outCanon_next (State.issuedBy_canon _ _ _ _ hu)
  cases x with
  | hold => cases ho
  | late p b =>
    cases ho
    exact outCanon_next (State.raisedTurn_canon _ _ _ _ h)
  | stop why b =>
    have hf : State.Canon { s.fetchEffect t (b.words.length + 1) with iss := { thr := t, b := b } } :=
      (State.fetchEffect_canon _ _ h).same rfl
    cases why with
    | trap e =>
      cases ho
      exact hturn _ _ _ (State.trap_wf _ _ hf)
    | soft c va =>
      have hs := State.softFault_wf c Kind.fetch.code va false hf
      simp only [State.perform] at ho
      split at ho
      · exact State.trapTurn_canon ho h hs
      · cases ho
        exact hturn _ _ _ hs
    | busy va =>
      cases ho
      exact hturn _ _ _ (State.Canon.same hf (State.waitWalk_mem ..))
    | wait =>
      simp only [State.perform] at ho
      split at ho
      · cases ho
      · cases ho
        exact hturn _ _ _ (State.waitTurn_canon hf)
  | ecc a b =>
    cases ho
    refine hturn _ _ _ (State.trap_wf _ _ (State.Canon.same ?_ (State.setThread_mem ..)))
    exact (State.fetchEffect_canon _ _ h).same rfl
  | run i b =>
    have h1 : State.Canon { (s.fetchEffect t b.words.length).readRegs t i with
        iss := { thr := t, b := b, dep := s.depFor t i } } :=
      (State.readRegs_canon _ _ (State.fetchEffect_canon _ _ h)).same rfl
    generalize hs1 : ({ (s.fetchEffect t b.words.length).readRegs t i with
      iss := { thr := t, b := b, dep := s.depFor t i } } : State) = s1 at h1
    have hexec : OutCanon (if s1.regsBad t i then .next (s1.trap (eccArray 5)) else exec i s1) := by
      split
      · exact outCanon_next (State.trap_wf _ _ h1)
      · exact exec_canon i h1
    simp only [State.perform, hs1] at ho
    split at ho
    · next s2 hr =>
      have h2 : s2.Canon := hexec _ hr
      split at ho
      · cases ho
        exact hturn _ _ _ h2
      · exact State.trapTurn_canon ho h h2
      · split at ho
        · cases ho
        · cases ho
          exact hturn _ _ _ (State.wroteRegs_canon _ _ (State.depend_canon _ _ h2))
    · cases ho
      exact hexec
theorem State.pick_canon {core : Nat} {o : Out} (ho : s.pick core = some o) (h : s.Canon) : OutCanon o := by
  obtain ⟨k, -, hk⟩ := List.exists_of_findSome?_eq_some ho
  exact State.perform_canon hk h
theorem State.turn_canon {core : Nat} {o : Out} (ho : s.turn core = some o) (h : s.Canon) : OutCanon o := by
  unfold State.turn at ho
  split at ho
  · cases ho
  · exact State.pick_canon ho h
theorem State.anyTurn_canon {o : Out} (ho : s.anyTurn = some o) (h : s.Canon) : OutCanon o := by
  obtain ⟨c, -, hc⟩ := List.exists_of_findSome?_eq_some ho
  split at hc
  · cases hc
  · exact State.turn_canon hc h
theorem State.due_canon {i : Instr} {o : Out} (ho : s.due i = some o) (h : s.Canon) : OutCanon o := by
  have he := exec_canon i h
  unfold State.due at ho
  split at ho
  · next u hu =>
    have hc : u.Canon := he _ hu
    dsimp only at ho
    split at ho
    · cases ho
    · cases ho
      exact outCanon_next (State.lateWrote_canon (hc.same State.settled_mem))
  · cases ho
    exact he
theorem State.splitHeld_canon (h : s.Canon) : s.splitHeld.Canon := by
  refine foldl_canon (fun u e hu => ?_) _ h
  split
  · exact .ite (hu.same (State.dissolveAt_mem ..)) hu
  · exact hu
theorem State.fenceNamed_canon (h : s.Canon) : s.fenceNamed.Canon :=
  foldl_canon (fun _ _ hu => State.fence_canon _ hu) _ (h.same rfl)
theorem State.tick_canon (h : s.Canon) : s.tick.Canon := by
  have hf := State.fenceNamed_canon (State.splitHeld_canon h)
  exact State.Canon.same (foldl_canon (fun u c hu => hu.same (State.setCore_mem ..)) _ hf) rfl
theorem State.nextMove_canon (h : s.Canon) : OutCanon s.nextMove := by
  unfold State.nextMove
  split
  · next hd =>
    obtain ⟨i, -, hi⟩ := List.exists_of_findSome?_eq_some hd
    exact State.due_canon hi h
  · split
    · next ht => exact State.anyTurn_canon ht h
    · cases hl : s.lateMoves.findSome? s.due with
      | none => exact outCanon_next (State.tick_canon h)
      | some o =>
        obtain ⟨i, -, hi⟩ := List.exists_of_findSome?_eq_some hl
        exact State.due_canon hi h
theorem State.move_canon (m : Move) (h : s.Canon) : OutCanon (s.move m) := by
  cases m with
  | dev i =>
    have he := exec_canon i h
    rw [State.move]
    split
    · exact outCanon_next h
    · split
      · next u hu => exact outCanon_next (State.lateWrote_canon (State.Canon.same (he _ hu) State.settled_mem))
      · exact he
  | issue core =>
    rw [State.move]
    split
    · exact outCanon_next h
    · cases ht : s.turn core with
      | none => exact outCanon_next h
      | some o => exact State.turn_canon ht h
  | tick => exact outCanon_next (.ite h (State.tick_canon h))
theorem step_canon (h : s.Canon) : OutCanon (step s) := by
  unfold step
  split
  · exact State.move_canon _ (h.same rfl)
  · exact State.nextMove_canon h
end

/-- Settles O59: memory is changed by putting bytes into it, which keeps its form, and by nothing else; the steps' cases are those
of the model's functions, one lemma each. -/
theorem stepKeepsMemoryCanonical : Obligations.StepKeepsMemoryCanonical := by
  unfold Obligations.StepKeepsMemoryCanonical
  exact fun s t h hstep => step_canon (s := s) h t hstep
end Sys2Proof.Machine
